-- ==== Sys2Proof/Word.lean ====
section
/-! DEFINITION. The word types of the module: registers are 32 bits wide (spec/00_scope.md R10), addresses are 48-bit byte addresses
kept as numbers, Jarug registers are 64 bits and Jarug-L accumulators 72 bits (spec/06_jarug_instruction_set.md R204). -/

namespace Sys2Proof

/-- One byte of memory. -/
abbrev Byte := BitVec 8

/-- A register of a block, and one Jarug instruction word. -/
abbrev Word := BitVec 32

/-- A general register of a Jarug unit. -/
abbrev DWord := BitVec 64

/-- An accumulator of a lane. -/
abbrev Acc := BitVec 72

/-- The signed value of the low `w` bits of `n`. -/
def signedOf (w n : Nat) : Int :=
  if n % 2 ^ w < 2 ^ (w - 1) then ((n % 2 ^ w : Nat) : Int) else ((n % 2 ^ w : Nat) : Int) - (2 ^ w : Nat)

/-- The low `w` bits of an integer, in two's complement. -/
def bitsOf (w : Nat) (i : Int) : Nat := (i % ((2 ^ w : Nat) : Int)).toNat

/-- `x` limited to the range `lo` to `hi`; a `hi` below `lo` gives `hi`. -/
def clampInt (lo hi x : Int) : Int := min (max x lo) hi

/-- Bits `hi` down to `lo` of `n`. -/
def bitField (n hi lo : Nat) : Nat := n / 2 ^ lo % 2 ^ (hi + 1 - lo)

/-- A truth value as a one-bit number. -/
def bit (b : Bool) : Nat := if b then 1 else 0

end Sys2Proof
end

