-- ==== Sys2Proof/Syntax.lean ====
section
/-! DEFINITION. The commands that the module takes: one constructor per row of spec/opcode_table.json. A Jarug instruction
(spec/06_jarug_instruction_set.md) names the unit that executes it and its decoded fields. Every other command carries `t`, the
instant of the event in nanoseconds since power was first applied (assumption log 2), and a command that a master issues names it
as `m`, its 64-bit MID (spec/13_lamip_ownership_ethernet.md R452). -/

namespace Sys2Proof

/-- A master's 64-bit identifier. -/
abbrev Master := Nat

/-- A register field of a Jarug word. -/
abbrev GReg := Fin 32

/-- An input that is converted, with the output of the sensor port that it may be taken in ratio to (R123, R128, R140): `vin` in the input's own unit, `vsp`
in µV. -/
structure Analog where
  vin : Int
  vsp : Nat := 0
  deriving DecidableEq, Repr, Inhabited

/-- A change of a frequency input (R150, R152): the level it changed to, for how many ns it has had it, and in variable-reluctance mode the peak in mV of the
positive half-cycle that ended. -/
structure FinChange where
  rising : Bool
  stable : Nat := 0
  peak : Nat := 0
  deriving DecidableEq, Repr, Inhabited

/-- A-core `core` of half `half` (0: A, 1: B). -/
structure ACoreId where
  half : Fin 2
  core : Fin 4
  deriving DecidableEq, Repr

/-- Lane `lane` of half `half`. -/
structure LaneId where
  half : Fin 2
  lane : Fin 8
  deriving DecidableEq, Repr

/-- A Jarug unit: an A-core or a lane. -/
inductive Proc where
  | a (c : ACoreId)
  | l (l : LaneId)
  deriving DecidableEq, Repr

/-- What GNB's correlators hold of a channel at an epoch (R389): code phase, code period count, carrier phase since the last SLIP,
Doppler in mHz, C/N0, the flags CODELOCK, CARRLOCK, BITSYNC, TOWSET and HALFOK, and whether its SRAM met a parity error. -/
structure GnssMeas where
  ch : Fin 96
  codeph : Word
  cpcnt : Word
  acp : Int
  dopp : Int
  cn0 : BitVec 16
  flags : BitVec 5
  bad : Bool
  deriving DecidableEq, Repr

/-- A CAN frame on a bus (R410): identifier, IDE, FDF, bit rate switch, remote frame, DLC code, data bytes; of a received one, the time in ns from
the falling edge of its start-of-frame bit (R414). -/
structure CanFrame where
  ident : Nat := 0
  ide : Bool := false
  fdf : Bool := false
  brs : Bool := false
  rtr : Bool := false
  dlc : Nat := 0
  data : List Byte := []
  sof : Nat := 0
  deriving DecidableEq, Repr, Inhabited

/-- What a sleeping CAN transceiver detects (R407, R408): a dominant phase, the wake-up pattern, a frame, an erroneous frame. -/
inductive CanWake where
  | dominant
  | wup
  | frame (f : CanFrame)
  | badFrame
  deriving DecidableEq, Repr

/-- How busy the switch is when a frame arrives (R33, R447): the egress queues that are full, as port and queue (port 4 is LMP's, 5 stands for the cuff by
which an external port's frames come in); the ports that have sent a queued frame since the last frame, one entry for each, in order; the ports that
still send an earlier frame. -/
structure EthLoad where
  full : List (Fin 6 × Fin 4) := []
  sent : List (Fin 4) := []
  busy : List (Fin 4) := []
  deriving DecidableEq, Repr

/-- The program and data that the lane bundle of an A-image names for a lane (R600): bytes from TCM offset 0. -/
structure LaneImage where
  lane : Fin 8
  inst : List Byte
  data : List Byte
  deriving DecidableEq, Repr, Inhabited

/-- What verifying the images of a boot finds (R556, R561): the reasons 0x2, 0x3, 0x5, 0x7 and 0x8 for which the staged and the
current image fail, and the lane bundles of the two. -/
structure BootImages where
  staged : List Nat
  current : List Nat
  trialLanes : List LaneImage
  lanes : List LaneImage
  deriving DecidableEq, Repr

/-- The update of an instruction into the boundary-scan port: its device time, and the level of DBG_EN (R590). -/
structure TapEdge where
  time : Nat
  dbgEn : Bool
  deriving DecidableEq, Repr

/-- The balls at a release of the module: whether IGN is high, and the device time since which RESET_N is not driven low from outside (R509). -/
structure ResetPins where
  ign : Bool
  resetHigh : Nat
  deriving DecidableEq, Repr

/-- A Lamip request that passed R454, beside its TYPE: the header fields and the payload words (R453). -/
structure LampReq where
  tid : Word
  place : Word
  addr : BitVec 64
  payload : List Word
  deriving DecidableEq, Repr, Inhabited

/-- Where LMP takes its next frame from (R452): the oldest datagram that the switch has brought it, the oldest message from CAN, or a
transfer on the USB port with these bytes. -/
inductive LampSrc where
  | udp
  | can
  | usb (bytes : List Byte)
  deriving DecidableEq, Repr

/-- The commands. -/
inductive Instr where
  /-- REGISTER_WRITE (R593): A write to a register that has no row of its own is checked for ownership, reserved codes and ranges, and then takes effect or is refused. -/
  | registerWrite (t : Nat) (m : Master) (a : Nat) (v : Word)
  /-- CAPTURE_READ (R35): A read of the low word of a capturing pair captures the whole wide value into the per-master holding register. -/
  | captureRead (t : Nat) (m : Master) (a : Nat)
  /-- QUE_PIDX_WRITE (R39): A write of a queue's producer index rings the doorbell, or is ignored with OVF if it would overfill the ring. -/
  | quePidxWrite (t : Nat) (m : Master) (q : Fin 128) (v : Word)
  /-- QUE_CIDX_WRITE (R39): A write of a queue's consumer index releases entries and adds DISC to STALE, or is ignored with OVF if it passes PIDX. -/
  | queCidxWrite (t : Nat) (m : Master) (q : Fin 128) (v : Word)
  /-- QUE_STAT_CLR (R42): A write of CLR clears a queue's STALE and DROP counts. -/
  | queStatClr (t : Nat) (m : Master) (q : Fin 128) (v : Word)
  /-- FAB_CLR (R46): A write of FAB_CLR:CLR clears the three fabric error counters. -/
  | fabClr (t : Nat) (m : Master) (v : Word)
  /-- PLLT_LOCK (R53): PLLT reports lock and module time starts at zero with base ticks. -/
  | plltLock (t : Nat)
  /-- REFIN_ABSENT_TIMEOUT (R51): With no reference 10 ms after power-on, PLLT free-runs, module time starts and REFLOSS is set. -/
  | refinAbsentTimeout (t : Nat)
  /-- REFSEL_CHANGE (R54): A write of HB_DISC:REFSEL changes the reference phase-continuously within 1 ms. -/
  | refselChange (t : Nat) (m : Master) (v : Word)
  /-- REFERENCE_LOSS (R55): Loss of the reference in use makes PLLT change to REFIN or hold, sets REFLOSS and may move STATE to HOLDOVER. -/
  | referenceLoss (t : Nat) (ocxo : Bool)
  /-- OCXO_RETURN (R55): After OCXO_IN has been valid for 10 s without a break, PLLT returns to it. -/
  | ocxoReturn (t : Nat)
  /-- REFERENCE_RETURN (R55): A lost reference returns and PLLT relocks with no phase step. -/
  | referenceReturn (t : Nat) (ocxo : Bool)
  /-- HB_GSET_WRITE (R57): A write of HB_GSET requests a step of HB_GOFS at the next GNSS second boundary, replacing any pending correction. -/
  | hbGsetWrite (t : Nat) (m : Master) (v : Word)
  /-- HB_GCOR_WRITE (R57): A write of HB_GCOR starts a slew or requests a step, replacing any pending correction, and may move STATE to LOCKED. -/
  | hbGcorWrite (t : Nat) (m : Master) (v : Word)
  /-- HB_FADJ_WRITE (R52): A write of HB_FADJ steers PLLT's rate within 1 µs and may move STATE to LOCKED. -/
  | hbFadjWrite (t : Nat) (m : Master) (v : Word)
  /-- SLEW_STEP (R57): Every 10 ms a running slew applies 1 ns of the remaining correction. -/
  | slewStep (t : Nat)
  /-- GNSS_SECOND_BOUNDARY (R57): At a GNSS second boundary, pending steps and leap changes are applied and realigned lines are rescheduled. -/
  | gnssSecondBoundary (t : Nat)
  /-- DISCIPLINE_TIMEOUT (R59): After TMO seconds without a write of HB_GCOR or HB_FADJ, LOCKED becomes HOLDOVER. -/
  | disciplineTimeout (t : Nat)
  /-- TUNC_GROWTH (R60): In HOLDOVER, HB_TUNC grows by HB_HRATE at every second of module time. -/
  | tuncGrowth (t : Nat)
  /-- HB_LCFG_COMMIT (R67): A write of HB_LCFG commits the staged period, phase and width of a line, or is refused with CFGERR. -/
  | hbLcfgCommit (t : Nat) (m : Master) (n : Fin 32) (v : Word)
  /-- STRIKE (R62): A line in strike mode strikes at its scheduled time, numbering the strike and driving its ball or sampler. -/
  | strike (t : Nat) (n : Fin 32)
  /-- TRG_CAPTURE_EDGE (R71): An edge on a capture-mode TRG ball is stamped and counted, or counted as omitted when too close to the last. -/
  | trgCaptureEdge (t : Nat) (n : Fin 8) (rising : Bool)
  /-- BASE_TICK (R73): The base tick falls every 50,000 ns of module time and advances the tick count. -/
  | baseTick (t : Nat)
  /-- HB_FUSP_WRITE (R75): A write of HB_FUSP changes the fusion instant period from the next base tick, or is ignored with CFGERR. -/
  | hbFuspWrite (t : Nat) (m : Master) (v : Word)
  /-- HB_GNSP_WRITE (R75): A write of HB_GNSP changes the GNSS epoch period from the next base tick, or is ignored with CFGERR. -/
  | hbGnspWrite (t : Nat) (m : Master) (v : Word)
  /-- PPS_PULSE_END (R76): PPS_OUT ends its pulse after WIDTH milliseconds. -/
  | ppsPulseEnd (t : Nat)
  /-- FRAME_START_PACKET (R94): A frame-start packet is stamped, matched to a strike, takes a buffer and opens the context's frame, or the frame is dropped. -/
  | frameStartPacket (t : Nat) (p : Fin 4) (vc : Fin 4) (fn : BitVec 16) (hdr : Fin 3)
  /-- FRAME_END_PACKET (R92): A frame-end packet is stamped and closes the context's open frame. -/
  | frameEndPacket (t : Nat) (p : Fin 4) (vc : Fin 4) (hdr : Fin 3)
  /-- LONG_PACKET (R93): A long packet of image or embedded data enters the input buffer, or is dropped with its frame marked. -/
  | longPacket (t : Nat) (p : Fin 4) (vc : Fin 4) (dt : BitVec 6) (hdr : Fin 3) (crcOk : Bool) (payload : List Byte) (drained : Nat)
  /-- PIPELINE_GRANT (R109): At a grant point a pipeline chooses a ready context by weighted round robin and switches to it. -/
  | pipelineGrant (t : Nat) (q : Fin 2)
  /-- GRANT_END (R108): A pipeline's grant ends at the end of a frame or stripe or when its context runs dry. -/
  | grantEnd (t : Nat) (q : Fin 2)
  /-- FRAME_COMPLETE (R106): A processed frame's image, tap and statistics are written and its notice is queued. -/
  | frameComplete (t : Nat) (c : Fin 8) (bad : List (List (Fin 4 × Nat)))
  /-- VSC_REL_WRITE (R102): A write of VSC_REL releases buffers of a context, or is ignored when it would exceed NBUF. -/
  | vscRelWrite (t : Nat) (m : Master) (c : Fin 8) (v : Word)
  /-- CONTEXT_ENABLE (R116): Writing EN from 0 to 1 enables a context and resets WR, REL and FCNT. -/
  | contextEnable (t : Nat) (m : Master) (c : Fin 8) (v : Word)
  /-- CONTEXT_DISABLE (R113): Disabling a context closes its open frame as DROPPED with a notice. -/
  | contextDisable (t : Nat) (m : Master) (c : Fin 8) (v : Word)
  /-- CONTEXT_MIGRATE (R112): A write of PIPE while enabled sets MIGPEND and moves the context at its next frame boundary. -/
  | contextMigrate (t : Nat) (m : Master) (c : Fin 8) (v : Word)
  /-- CSI_DISABLE (R114): Clearing CSI_CFG:EN closes the open frames of the port's contexts as TRUNCATED. -/
  | csiDisable (t : Nat) (m : Master) (p : Fin 4) (v : Word)
  /-- CSI_CLR (R114): A write of CSI_CLR clears the port's error counters and PEAK. -/
  | csiClr (t : Nat) (m : Master) (p : Fin 4) (v : Word)
  /-- MPL_CLR (R115): A write of MPL_CLR clears the pipeline's parity error count. -/
  | mplClr (t : Nat) (m : Master) (q : Fin 2) (v : Word)
  /-- VSC_CCLR (R116): A write of VSC_CCLR clears a context's drop and untriggered counters. -/
  | vscCclr (t : Nat) (m : Master) (c : Fin 8) (v : Word)
  /-- HRIN_SAMPLE (R125): An HRIN conversion struck by its line completes and the sample is published, detected and recorded. -/
  | hrinSample (t : Nat) (n : Fin 8) (seq : Nat) (input : Analog)
  /-- CAL_ROTATION_START (R129): Every HRA_CAL:PER seconds, or at a write of NOW, a calibration rotation over the enabled channels starts. -/
  | calRotationStart (t : Nat) (now : Option (Master × Word))
  /-- HRIN_CAL_COMPLETE (R132): A channel's calibration ends, the correction is checked and applied or refused with CALFAIL, and output returns to the main converter. -/
  | hrinCalComplete (t : Nat) (n : Fin 8) (gain ofs : Int)
  /-- HRIN_TEMP_CAL (R131): A channel whose die temperature moved more than 10 K is calibrated out of turn. -/
  | hrinTempCal (t : Nat) (n : Fin 8)
  /-- HRA_CLR (R162): A write of HRA_CLR clears every HRA_XCNT. -/
  | hraClr (t : Nat) (m : Master) (v : Word)
  /-- GPA_LIST_STRIKE (R141): A strike of a scan list requests a run, or is omitted when the list's run is still waiting or converting. -/
  | gpaListStrike (t : Nat) (n : Fin 4) (seq : Nat)
  /-- GPA_RUN_START (R142): When the converter becomes free, the waiting run of lowest list number starts converting. -/
  | gpaRunStart (t : Nat)
  /-- GPA_RUN_COMPLETE (R144): A run's conversions complete, values are published and its record is queued. -/
  | gpaRunComplete (t : Nat) (n : Fin 4) (vals : List Analog)
  /-- GPA_BACKGROUND_CAL (R145): Every PER seconds the converter calibrates on an idle slot, setting CALLATE when none came within 10 × PER. -/
  | gpaBackgroundCal (t : Nat)
  /-- GPA_CAL_NOW (R163): A write of GPA_CAL:NOW requests a calibration. -/
  | gpaCalNow (t : Nat) (m : Master) (v : Word)
  /-- GPA_CLR (R163): A write of GPA_CLR clears GPA_LOMIT. -/
  | gpaClr (t : Nat) (m : Master) (v : Word)
  /-- CAP_MEASURE_START (R146): A strike of a capacitance pair's line starts a demodulated measurement, or is omitted during one. -/
  | capMeasureStart (t : Nat) (n : Fin 4) (seq : Nat)
  /-- CAP_MEASURE_DONE (R146): A capacitance measurement completes and publishes C and G, or updates the correction on the reference. -/
  | capMeasureDone (t : Nat) (n : Fin 4) (c g : Int)
  /-- FIN_EDGE (R150): A qualified edge on a frequency input is stamped, counted and used for the frequency, or counted as excess. -/
  | finEdge (t : Nat) (n : Fin 24) (change : FinChange)
  /-- FIN_STALL (R154): No edge within STALL sets the input's STALE bit and discards its edge history. -/
  | finStall (t : Nat) (n : Fin 24)
  /-- FIN_OVR_CLEAR (R155): After 1 ms with no excess edge, the input's overrange bit clears. -/
  | finOvrClear (t : Nat) (n : Fin 24)
  /-- FQI_CLR (R164): A write of FQI_CLR clears every FQI_OCNT. -/
  | fqiClr (t : Nat) (m : Master) (v : Word)
  /-- WORK_UNIT_BOUNDARY (R173): At a work-unit boundary the executor runs the oldest head job or frame job, discarding late jobs. -/
  | workUnitBoundary (t : Nat)
  /-- FRAME_JOB_COMPLETE (R174): A frame job finishes and its feature map is projected into the grid as contributions. -/
  | frameJobComplete (t : Nat)
  /-- SOURCE_ENABLE (R177): Writing FUS_SCTL:EN = 1 reads and checks a source descriptor, taking effect at the next instant or setting ERR. -/
  | sourceEnable (t : Nat) (m : Master) (n : Fin 32) (v : Word)
  /-- SOURCE_DISABLE (R177): Writing FUS_SCTL:EN = 0 removes the source at the next close. -/
  | sourceDisable (t : Nat) (m : Master) (n : Fin 32) (v : Word)
  /-- FUS_SPUT_WRITE (R180): A write of FUS_SPUT submits a program value as a contribution of a KIND 0x7 source. -/
  | fusSputWrite (t : Nat) (m : Master) (n : Fin 32) (v : Word)
  /-- GRID_ENABLE (R201): Enabling a grid takes effect at its next close. -/
  | gridEnable (t : Nat) (m : Master) (g : Fin 4) (v : Word)
  /-- GRID_DISABLE (R201): Disabling a grid discards its open instant without a summary. -/
  | gridDisable (t : Nat) (m : Master) (g : Fin 4) (v : Word)
  /-- INSTANT_CLOSE (R186): At a fusion instant a grid's window closes, its buffer and summary are written and its heads are started. -/
  | instantClose (t : Nat) (g : Fin 4)
  /-- HEAD_PUBLISH (R188): A readout head finishes and publishes its scaled output and record. -/
  | headPublish (t : Nat) (h : Fin 32)
  /-- YT_COMMIT (R202): A write of YT_COMMIT commits position, heading and width for the next close. -/
  | ytCommit (t : Nat) (m : Master) (v : Word)
  /-- FEX_CLR (R199): A write of FEX_CLR clears FEX_JDROP. -/
  | fexClr (t : Nat) (m : Master) (v : Word)
  /-- PRJ_CLR (R200): A write of PRJ_CLR clears PRJ_OUT. -/
  | prjClr (t : Nat) (m : Master) (v : Word)
  /-- FUS_CLR (R201): A write of FUS_CLR clears every source's error and loss counts. -/
  | fusClr (t : Nat) (m : Master) (v : Word)
  /-- YT_CLR (R202): A write of YT_CLR clears YT_MISS and YT_SKIP. -/
  | ytClr (t : Nat) (m : Master) (v : Word)
  /-- ADD (R209): D := A + B, optionally setting the flags. -/
  | add (t : Nat) (u : Proc) (d a b : GReg) (f : Bool)
  /-- SUB (R209): D := A − B, optionally setting the flags. -/
  | sub (t : Nat) (u : Proc) (d a b : GReg) (f : Bool)
  /-- AND (R209): D := A and B. -/
  | and (t : Nat) (u : Proc) (d a b : GReg) (f : Bool)
  /-- OR (R209): D := A or B. -/
  | or (t : Nat) (u : Proc) (d a b : GReg) (f : Bool)
  /-- XOR (R209): D := A xor B. -/
  | xor (t : Nat) (u : Proc) (d a b : GReg) (f : Bool)
  /-- ANDN (R209): D := A and not B. -/
  | andn (t : Nat) (u : Proc) (d a b : GReg) (f : Bool)
  /-- SLL (R209): Logical shift left by B and 63. -/
  | sll (t : Nat) (u : Proc) (d a b : GReg)
  /-- SRL (R209): Logical shift right by B and 63. -/
  | srl (t : Nat) (u : Proc) (d a b : GReg)
  /-- SRA (R209): Arithmetic shift right by B and 63. -/
  | sra (t : Nat) (u : Proc) (d a b : GReg)
  /-- ROR (R209): Rotate right by B and 63. -/
  | ror (t : Nat) (u : Proc) (d a b : GReg)
  /-- SLT (R209): D := 1 if A < B signed. -/
  | slt (t : Nat) (u : Proc) (d a b : GReg)
  /-- SLTU (R209): D := 1 if A < B unsigned. -/
  | sltu (t : Nat) (u : Proc) (d a b : GReg)
  /-- MIN (R209): Signed minimum. -/
  | min (t : Nat) (u : Proc) (d a b : GReg)
  /-- MAX (R209): Signed maximum. -/
  | max (t : Nat) (u : Proc) (d a b : GReg)
  /-- MINU (R209): Unsigned minimum. -/
  | minu (t : Nat) (u : Proc) (d a b : GReg)
  /-- MAXU (R209): Unsigned maximum. -/
  | maxu (t : Nat) (u : Proc) (d a b : GReg)
  /-- ADDW (R209): 32-bit add, sign-extended. -/
  | addw (t : Nat) (u : Proc) (d a b : GReg) (f : Bool)
  /-- SUBW (R209): 32-bit subtract, sign-extended. -/
  | subw (t : Nat) (u : Proc) (d a b : GReg) (f : Bool)
  /-- SEXTB (R209): Sign-extend a byte. -/
  | sextb (t : Nat) (u : Proc) (d a : GReg)
  /-- SEXTH (R209): Sign-extend a halfword. -/
  | sexth (t : Nat) (u : Proc) (d a : GReg)
  /-- SEXTW (R209): Sign-extend a word. -/
  | sextw (t : Nat) (u : Proc) (d a : GReg)
  /-- ZEXTW (R209): Zero-extend a word. -/
  | zextw (t : Nat) (u : Proc) (d a : GReg)
  /-- CLZ (R209): Count leading zeros. -/
  | clz (t : Nat) (u : Proc) (d a : GReg)
  /-- POPC (R209): Count ones. -/
  | popc (t : Nat) (u : Proc) (d a : GReg)
  /-- CMP (R209): Set N, Z, C and V from A − B. -/
  | cmp (t : Nat) (u : Proc) (a b : GReg)
  /-- TST (R209): Set N and Z from A and B, clearing C and V. -/
  | tst (t : Nat) (u : Proc) (a b : GReg)
  /-- MUL (R214): Low 64 bits of A × B. -/
  | mul (t : Nat) (u : Proc) (d a b : GReg)
  /-- MULH (R214): High 64 bits of signed A × B. -/
  | mulh (t : Nat) (u : Proc) (d a b : GReg)
  /-- MULHU (R214): High 64 bits of unsigned A × B. -/
  | mulhu (t : Nat) (u : Proc) (d a b : GReg)
  /-- MULW (R214): 32-bit multiply, sign-extended. -/
  | mulw (t : Nat) (u : Proc) (d a b : GReg)
  /-- DIV (R214): Signed division truncating toward zero, with the divide-by-zero outcomes of R215. -/
  | div (t : Nat) (u : Proc) (d a b : GReg)
  /-- DIVU (R214): Unsigned division, with the divide-by-zero outcomes of R215. -/
  | divu (t : Nat) (u : Proc) (d a b : GReg)
  /-- REM (R214): Signed remainder, with the divide-by-zero outcomes of R215. -/
  | rem (t : Nat) (u : Proc) (d a b : GReg)
  /-- REMU (R214): Unsigned remainder, with the divide-by-zero outcomes of R215. -/
  | remu (t : Nat) (u : Proc) (d a b : GReg)
  /-- MFC (R234): Read a control register into D. -/
  | mfc (t : Nat) (u : Proc) (d : GReg) (n : BitVec 16)
  /-- MTC (R234): Write A to a control register, with its side effects such as SWI and CMPTIME. -/
  | mtc (t : Nat) (u : Proc) (n : BitVec 16) (a : GReg)
  /-- ADDI (R208): D := A + sign-extended immediate. -/
  | addi (t : Nat) (u : Proc) (d a : GReg) (imm : BitVec 16)
  /-- ANDI (R208): D := A and zero-extended immediate. -/
  | andi (t : Nat) (u : Proc) (d a : GReg) (imm : BitVec 16)
  /-- ORI (R208): D := A or zero-extended immediate. -/
  | ori (t : Nat) (u : Proc) (d a : GReg) (imm : BitVec 16)
  /-- XORI (R208): D := A xor zero-extended immediate. -/
  | xori (t : Nat) (u : Proc) (d a : GReg) (imm : BitVec 16)
  /-- SLTI (R208): D := 1 if A < immediate signed. -/
  | slti (t : Nat) (u : Proc) (d a : GReg) (imm : BitVec 16)
  /-- SLTIU (R208): D := 1 if A < immediate unsigned. -/
  | sltiu (t : Nat) (u : Proc) (d a : GReg) (imm : BitVec 16)
  /-- SHI (R213): Shift or rotate by an immediate amount. -/
  | shi (t : Nat) (u : Proc) (d a : GReg) (kind : Fin 4) (amt : Fin 64)
  /-- CMPI (R208): Set the flags from A − immediate. -/
  | cmpi (t : Nat) (u : Proc) (a : GReg) (imm : BitVec 16)
  /-- LDI (R212): Load a sign-extended 21-bit immediate. -/
  | ldi (t : Nat) (u : Proc) (d : GReg) (imm : BitVec 21)
  /-- LDU (R212): Load a sign-extended 21-bit immediate times 65,536. -/
  | ldu (t : Nat) (u : Proc) (d : GReg) (imm : BitVec 21)
  /-- ADR (R208): D := pc + immediate × 4. -/
  | adr (t : Nat) (u : Proc) (d : GReg) (imm : BitVec 21)
  /-- LDB (R208): Load a sign-extended byte. -/
  | ldb (t : Nat) (u : Proc) (d base : GReg) (ofs : BitVec 16)
  /-- LDBU (R208): Load a zero-extended byte. -/
  | ldbu (t : Nat) (u : Proc) (d base : GReg) (ofs : BitVec 16)
  /-- LDH (R208): Load a sign-extended halfword. -/
  | ldh (t : Nat) (u : Proc) (d base : GReg) (ofs : BitVec 16)
  /-- LDHU (R208): Load a zero-extended halfword. -/
  | ldhu (t : Nat) (u : Proc) (d base : GReg) (ofs : BitVec 16)
  /-- LDW (R208): Load a sign-extended word. -/
  | ldw (t : Nat) (u : Proc) (d base : GReg) (ofs : BitVec 16)
  /-- LDWU (R208): Load a zero-extended word. -/
  | ldwu (t : Nat) (u : Proc) (d base : GReg) (ofs : BitVec 16)
  /-- LDD (R208): Load a doubleword. -/
  | ldd (t : Nat) (u : Proc) (d base : GReg) (ofs : BitVec 16)
  /-- STB (R208): Store a byte. -/
  | stb (t : Nat) (u : Proc) (d base : GReg) (ofs : BitVec 16)
  /-- STH (R208): Store a halfword. -/
  | sth (t : Nat) (u : Proc) (d base : GReg) (ofs : BitVec 16)
  /-- STW (R208): Store a word. -/
  | stw (t : Nat) (u : Proc) (d base : GReg) (ofs : BitVec 16)
  /-- STD (R208): Store a doubleword. -/
  | std (t : Nat) (u : Proc) (d base : GReg) (ofs : BitVec 16)
  /-- FLDW (R208): Load a binary32 value into an f register, boxed. -/
  | fldw (t : Nat) (c : ACoreId) (d base : GReg) (ofs : BitVec 16)
  /-- FLDD (R208): Load a doubleword into an f register. -/
  | fldd (t : Nat) (c : ACoreId) (d base : GReg) (ofs : BitVec 16)
  /-- FSTW (R208): Store the low word of an f register. -/
  | fstw (t : Nat) (c : ACoreId) (d base : GReg) (ofs : BitVec 16)
  /-- FSTD (R208): Store an f register. -/
  | fstd (t : Nat) (c : ACoreId) (d base : GReg) (ofs : BitVec 16)
  /-- BC (R219): Conditional branch relative to pc. -/
  | bc (t : Nat) (u : Proc) (cond : Fin 16) (ofs : BitVec 22)
  /-- BLC (R219): Conditional branch and link, pushing the return stack on a lane. -/
  | blc (t : Nat) (u : Proc) (cond : Fin 16) (ofs : BitVec 22)
  /-- JR (R219): Jump to the address in A. -/
  | jr (t : Nat) (c : ACoreId) (a : GReg)
  /-- JLR (R219): Jump to A, linking into D. -/
  | jlr (t : Nat) (c : ACoreId) (d a : GReg)
  /-- RET (R219): Pop the return stack into pc. -/
  | ret (t : Nat) (l : LaneId)
  /-- SAMP (R223): Read the port value latched at the releasing boundary. -/
  | samp (t : Nat) (l : LaneId) (r : GReg) (port : BitVec 16)
  /-- SETP (R252): Stage a value for a port to take effect at the lane's next releasing boundary. -/
  | setp (t : Nat) (l : LaneId) (r : GReg) (port : BitVec 16)
  /-- LSET (R224): Write a loop's setpoint. -/
  | lset (t : Nat) (l : LaneId) (loop : Fin 256) (r : GReg)
  /-- LMEAS (R224): Write a loop's measurement. -/
  | lmeas (t : Nat) (l : LaneId) (loop : Fin 256) (r : GReg)
  /-- LEVAL (R267): Evaluate a loop's law once and return its output. -/
  | leval (t : Nat) (l : LaneId) (loop : Fin 256) (r : GReg)
  /-- LOUT (R224): Return a loop's last output. -/
  | lout (t : Nat) (l : LaneId) (loop : Fin 256) (r : GReg)
  /-- LINT (R224): Return a loop's integrator. -/
  | lint (t : Nat) (l : LaneId) (loop : Fin 256) (r : GReg)
  /-- LMAN (R269): Write a loop's manual value and switch it to manual. -/
  | lman (t : Nat) (l : LaneId) (loop : Fin 256) (r : GReg)
  /-- LAUTO (R269): Transfer a manual loop to automatic with the integrator preset. -/
  | lauto (t : Nat) (l : LaneId) (loop : Fin 256)
  /-- LBANK (R270): Request a loop's bank swap at the owner's next boundary. -/
  | lbank (t : Nat) (l : LaneId) (loop : Fin 256) (r : GReg)
  /-- LSTAT (R268): Return a loop's status word. -/
  | lstat (t : Nat) (l : LaneId) (loop : Fin 256) (r : GReg)
  /-- FADD (R225): Floating-point add. -/
  | fadd (t : Nat) (c : ACoreId) (d a b : GReg) (p : Bool)
  /-- FSUB (R225): Floating-point subtract. -/
  | fsub (t : Nat) (c : ACoreId) (d a b : GReg) (p : Bool)
  /-- FMUL (R225): Floating-point multiply. -/
  | fmul (t : Nat) (c : ACoreId) (d a b : GReg) (p : Bool)
  /-- FDIV (R225): Floating-point divide. -/
  | fdiv (t : Nat) (c : ACoreId) (d a b : GReg) (p : Bool)
  /-- FSQRT (R225): Floating-point square root. -/
  | fsqrt (t : Nat) (c : ACoreId) (d a : GReg) (p : Bool)
  /-- FMA (R225): Fused multiply-add. -/
  | fma (t : Nat) (c : ACoreId) (d a b : GReg) (p : Bool)
  /-- FMIN (R225): minimumNumber. -/
  | fmin (t : Nat) (c : ACoreId) (d a b : GReg) (p : Bool)
  /-- FMAX (R225): maximumNumber. -/
  | fmax (t : Nat) (c : ACoreId) (d a b : GReg) (p : Bool)
  /-- FNEG (R225): Invert the sign. -/
  | fneg (t : Nat) (c : ACoreId) (d a : GReg) (p : Bool)
  /-- FABS (R225): Clear the sign. -/
  | fabs (t : Nat) (c : ACoreId) (d a : GReg) (p : Bool)
  /-- FCMP (R225): Compare and set the flags. -/
  | fcmp (t : Nat) (c : ACoreId) (a b : GReg) (p : Bool)
  /-- FCVTI (R225): Convert to a signed 64-bit integer, saturating. -/
  | fcvti (t : Nat) (c : ACoreId) (d a : GReg) (p : Bool)
  /-- FCVTF (R225): Convert from a signed 64-bit integer. -/
  | fcvtf (t : Nat) (c : ACoreId) (d a : GReg) (p : Bool)
  /-- FCVTP (R225): Convert between precisions. -/
  | fcvtp (t : Nat) (c : ACoreId) (d a : GReg) (p : Bool)
  /-- FMVGF (R225): Move a bit pattern from g to f. -/
  | fmvgf (t : Nat) (c : ACoreId) (d a : GReg) (p : Bool)
  /-- FMVFG (R225): Move a bit pattern from f to g. -/
  | fmvfg (t : Nat) (c : ACoreId) (d a : GReg) (p : Bool)
  /-- QADD (R221): Saturating 32-bit add. -/
  | qadd (t : Nat) (l : LaneId) (d a b : GReg)
  /-- QSUB (R221): Saturating 32-bit subtract. -/
  | qsub (t : Nat) (l : LaneId) (d a b : GReg)
  /-- QMUL (R221): Saturating rounded fixed-point multiply. -/
  | qmul (t : Nat) (l : LaneId) (d a b : GReg) (n : Fin 64)
  /-- QNEG (R221): Saturating negate. -/
  | qneg (t : Nat) (l : LaneId) (d a : GReg)
  /-- QABS (R221): Saturating absolute value. -/
  | qabs (t : Nat) (l : LaneId) (d a : GReg)
  /-- QSHL (R221): Saturating shift left. -/
  | qshl (t : Nat) (l : LaneId) (d a : GReg) (n : Fin 64)
  /-- QSHR (R221): Rounded shift right. -/
  | qshr (t : Nat) (l : LaneId) (d a : GReg) (n : Fin 64)
  /-- QCLIP (R222): Clamp between limits without setting S. -/
  | qclip (t : Nat) (l : LaneId) (d a b : GReg)
  /-- MACZ (R221): Load an accumulator with a product. -/
  | macz (t : Nat) (l : LaneId) (k : Fin 8) (a b : GReg)
  /-- MAC (R221): Add a product to an accumulator, saturating. -/
  | mac (t : Nat) (l : LaneId) (k : Fin 8) (a b : GReg)
  /-- MSU (R221): Subtract a product from an accumulator, saturating. -/
  | msu (t : Nat) (l : LaneId) (k : Fin 8) (a b : GReg)
  /-- ACCRD (R221): Read an accumulator, rounded and saturated. -/
  | accrd (t : Nat) (l : LaneId) (d : GReg) (k : Fin 8) (n : Fin 64)
  /-- ACCSET (R221): Set an accumulator from a register, shifted. -/
  | accset (t : Nat) (l : LaneId) (k : Fin 8) (a : GReg) (n : Fin 64)
  /-- ACCGET (R221): Read raw bits of an accumulator. -/
  | accget (t : Nat) (l : LaneId) (d : GReg) (k : Fin 8) (high : Bool)
  /-- ACCPUT (R221): Write raw bits of an accumulator. -/
  | accput (t : Nat) (l : LaneId) (k : Fin 8) (a : GReg) (high : Bool)
  /-- LR (R227): Load and reserve a 64-byte granule. -/
  | lr (t : Nat) (c : ACoreId) (d a : GReg) (w : Bool)
  /-- SC (R228): Store if the reservation holds, returning success. -/
  | sc (t : Nat) (c : ACoreId) (d a b : GReg) (w : Bool)
  /-- AFADD (R227): Atomic fetch and add. -/
  | afadd (t : Nat) (c : ACoreId) (d a b : GReg) (w : Bool)
  /-- ASWAP (R227): Atomic swap. -/
  | aswap (t : Nat) (c : ACoreId) (d a b : GReg) (w : Bool)
  /-- FENCE (R229): Full memory fence. -/
  | fence (t : Nat) (c : ACoreId)
  /-- FACQ (R229): Acquire fence. -/
  | facq (t : Nat) (c : ACoreId)
  /-- FREL (R229): Release fence. -/
  | frel (t : Nat) (c : ACoreId)
  /-- NOP (R233): No operation. -/
  | nop (t : Nat) (u : Proc)
  /-- ERET (R239): Return from exception, restoring pc, st and IEN. -/
  | eret (t : Nat) (u : Proc)
  /-- BRK (R233): Raise the breakpoint exception with a code. -/
  | brk (t : Nat) (u : Proc) (code : BitVec 15)
  /-- WFI (R233): Wait until an interrupt is pending and unmasked. -/
  | wfi (t : Nat) (c : ACoreId)
  /-- WFI_WAKE (R233): A waiting A-core resumes when an unmasked interrupt becomes pending. -/
  | wfiWake (t : Nat) (c : ACoreId)
  /-- BWT (R233): End the lane's pass and wait for its next boundary. -/
  | bwt (t : Nat) (l : LaneId)
  /-- ISYNC (R233): Discard fetched instructions and fetch again. -/
  | isync (t : Nat) (c : ACoreId)
  /-- IMPRECISE_BUS_ERROR (R236): A bus error on an A-core store arrives after retirement and is taken as an imprecise exception. -/
  | impreciseBusError (t : Nat) (c : ACoreId)
  /-- EXTERNAL_INTERRUPT (R242): An A-core takes an external interrupt between instructions when enabled and a masked source is pending. -/
  | externalInterrupt (t : Nat) (c : ACoreId)
  /-- CMPTIME_MATCH (R234): TIME reaches CMPTIME and sets IPEND bit 4. -/
  | cmptimeMatch (t : Nat) (c : ACoreId)
  /-- LANE_BOUNDARY (R250): At a boundary of its class the control engine applies staged values and swaps, latches inputs, writes the boundary block and releases waiting lanes. -/
  | laneBoundary (t : Nat) (h : Fin 2) (bad : List (BitVec 16 × Bool))
  /-- LANE_START (R261): Writing LAN_CTL:START puts the lane in PENDING for release at its next boundary, or is refused. -/
  | laneStart (t : Nat) (m : Master) (h : Fin 2) (l : Fin 8) (v : Word)
  /-- LANE_STOP (R261): Writing LAN_CTL:STOP stops the lane at once and discards its staged values. -/
  | laneStop (t : Nat) (m : Master) (h : Fin 2) (l : Fin 8) (v : Word)
  /-- LOOP_ENABLE (R265): Setting a loop's EN checks its active bank and cascade and enables it with FIRST, or sets CFGERR. -/
  | loopEnable (t : Nat) (m : Master) (h : Fin 2) (n : Fin 256) (v : Word)
  /-- LPH_SWAP_REQ (R270): A write of LPH_SWAP:REQ requests a bank swap for a loop. -/
  | lphSwapReq (t : Nat) (m : Master) (h : Fin 2) (v : Word)
  /-- MIGRATION_ARM (R277): Writing CE_MIG:ARM starts copying a lane's program to another, or is refused with MIGFAIL. -/
  | migrationArm (t : Nat) (m : Master) (h : Fin 2) (v : Word)
  /-- MIGRATION_COPY_DONE (R277): Both TCMs have been copied to the destination lane and MIGRDY is set. -/
  | migrationCopyDone (t : Nat) (h : Fin 2)
  /-- MIGRATION_ABORT (R278): Writing CE_MIG:ABORT before the switch ends the migration with MIGFAIL. -/
  | migrationAbort (t : Nat) (m : Master) (h : Fin 2) (v : Word)
  /-- CE_CLR (R280): A write of CE_CLR clears the control engine's conflict and overrun counters. -/
  | ceClr (t : Nat) (m : Master) (h : Fin 2) (v : Word)
  /-- DECAY_COMPLETE (R297): A decaying finger's current falls below 10 mA and it enters OFF. -/
  | decayComplete (t : Nat) (n : Fin 32)
  /-- REGULATOR_UPDATE (R300): Every 20 µs the regulator computes the next duty from target, dither and coil model. -/
  | regulatorUpdate (t : Nat) (n : Fin 32) (i ir vs vp : Nat) (vc : Int) (rise : Option (Nat × Nat × Nat))
  /-- PHASE_END (R295): A finger's phase ends on time, current reached, edge or timeout, and the next phase or the profile's end follows. -/
  | phaseEnd (t : Nat) (n : Fin 32) (i : Nat) (rise : Option Nat)
  /-- BOOST_DEFER (R313): A waiting boost request that reaches DEFER is removed and its phase runs from battery. -/
  | boostDefer (t : Nat) (n : Fin 32)
  /-- BOOST_TIMEOUT (R314): A grant held for 2 ms ends its holder's phase with BTMO. -/
  | boostTimeout (t : Nat) (p : Fin 8)
  /-- FINGER_CAL_VISIT (R303): A calibration visit collects eight off-intervals and its correction is checked and applied. -/
  | fingerCalVisit (t : Nat) (gain ofs : Int)
  /-- FINGER_CAL_SKIP (R305): A visit not completed in 10 ms is abandoned and counted in CALSKIP. -/
  | fingerCalSkip (t : Nat)
  /-- RESISTANCE_STEP (R306): Every 10 ms the coil resistance estimate is updated, or lapses after 60 s without samples. -/
  | resistanceStep (t : Nat) (n : Fin 32)
  /-- COIL_MODEL_SAVE (R310): Every 60 s the coil models and corrections are written to MRAM. -/
  | coilModelSave (t : Nat)
  /-- PALM_OVERCURRENT (R316): Palm current above ILIM for 2 µs latches the palm off and puts its fingers in NOSUP. -/
  | palmOvercurrent (t : Nat) (p : Fin 8)
  /-- PALM_REARM (R316): Writing PLM_CTL:REARM clears OC and the palm resumes. -/
  | palmRearm (t : Nat) (m : Master) (p : Fin 8) (v : Word)
  /-- PALM_OVERLOAD (R316): A palm mean current above 9.0 A over a second sets OVLD and records an event. -/
  | palmOverload (t : Nat) (p : Fin 8) (iavg ipk : Nat)
  /-- DUTY_LIMIT (R318): A finger's windowed duty reaches DLIM and it enters HELD, or falls to half and is released. -/
  | dutyLimit (t : Nat) (n : Fin 32)
  /-- PAIR_THERMAL_STEP (R319): Every 1 ms the pair's two-node model steps and trips or releases the thermal hold. -/
  | pairThermalStep (t : Nat) (n : Fin 16) (irms : Nat)
  /-- SWITCH_OVERTEMP (R321): A finger or palm switch at 170 °C holds its finger or stops its palm. -/
  | switchOvertemp (t : Nat) (x : Sum (Fin 32) (Fin 8))
  /-- SWITCH_TEMP_RECOVER (R321): A switch that falls below 150 °C releases its hold. -/
  | switchTempRecover (t : Nat) (x : Sum (Fin 32) (Fin 8))
  /-- FINGER_OVERCURRENT (R322): A finger current above 10 A for 2 µs latches its switch open. -/
  | fingerOvercurrent (t : Nat) (n : Fin 32)
  /-- FINGER_REARM (R322): Writing FNG_CTL:REARM clears the latch and turns the finger on if its code is nonzero. -/
  | fingerRearm (t : Nat) (m : Master) (n : Fin 32) (v : Word)
  /-- OPEN_LOAD_DETECT (R322): A finger that cannot reach its target for 5 ms at full duty sets OPEN and clears its coil model. -/
  | openLoadDetect (t : Nat) (n : Fin 32)
  /-- SHORT_TO_GROUND (R322): A finger node below 2 V for 100 µs with its switch open sets SHGND and may latch the palm off. -/
  | shortToGround (t : Nat) (n : Fin 32) (present : Bool)
  /-- FNG_CLR (R328): A write of FNG_CLR clears CALSKIP and every finger counter. -/
  | fngClr (t : Nat) (m : Master) (v : Word)
  /-- PLM_CLR (R330): A write of PLM_CLR clears every PLM_DEF. -/
  | plmClr (t : Nat) (m : Master) (v : Word)
  /-- INRUSH_END (R336): A channel's inrush window ends and it enters ON with ILAT active. -/
  | inrushEnd (t : Nat) (n : Fin 16)
  /-- LOAD_OVERCURRENT (R338): Current above the active threshold or hard short ceiling opens the switch and enters RETRY or LATCH. -/
  | loadOvercurrent (t : Nat) (n : Fin 16) (i : Nat)
  /-- GROUP_UNDERVOLTAGE (R339): A group's supply below 7.0 V for 10 µs opens its running channels into UVOFF. -/
  | groupUndervoltage (t : Nat) (g : Fin 2) (mv : Nat)
  /-- GROUP_UV_RECOVER (R339): A group's supply above 7.5 V for 10 ms ends its under-voltage. -/
  | groupUvRecover (t : Nat) (g : Fin 2) (mv : Nat)
  /-- RETRY_BUDGET_REFILL (R340): A channel that stays ON for 1 s has RTUSED returned to 0. -/
  | retryBudgetRefill (t : Nat) (n : Fin 16)
  /-- LOAD_THERMAL_TRIP (R341): A switch at 170 °C sets the thermal latch and opens the channel. -/
  | loadThermalTrip (t : Nat) (n : Fin 16)
  /-- THERMAL_LATCH_CLEAR (R341): A switch below 150 °C clears THL. -/
  | thermalLatchClear (t : Nat) (n : Fin 16)
  /-- RESTART_TEST (R342): Every 10 µs a waiting channel is tested and restarts, waits, or latches with RTEXH. -/
  | restartTest (t : Nat)
  /-- LOAD_REARM (R343): Writing LDS_CTL:REARM refills the budget, clears the flags and restarts a latched channel. -/
  | loadRearm (t : Nat) (m : Master) (n : Fin 16) (v : Word)
  /-- LOAD_CURRENT_REPORT (R345): Every millisecond a channel reports its mean current and low-range value, with open-load detection. -/
  | loadCurrentReport (t : Nat) (n : Fin 16) (i low mv : Nat)
  /-- ISEL_CHANGE (R348): A change on the ISEL balls selects another channel or mode for the analog mirror. -/
  | iselChange (t : Nat) (isel : BitVec 3)
  /-- LDS_CLR (R355): A write of LDS_CLR clears every LDS_CNT. -/
  | ldsClr (t : Nat) (m : Master) (v : Word)
  /-- CAPACITANCE_SAMPLE (R357): A charging interval yields a capacitance sample, updating CMEAS and detecting COPEN or CHI. -/
  | capacitanceSample (t : Nat) (r : Fin 2) (c : Nat × Nat)
  /-- CAP_SAMPLE_BLEED (R357): After 60 s without a sample the charger bleeds the reservoir by 2 V to obtain one. -/
  | capSampleBleed (t : Nat) (r : Fin 2)
  /-- ENERGY_UPDATE (R358): Every 1 µs the stored energy is computed and the charger stops or resumes. -/
  | energyUpdate (t : Nat) (r : Fin 2) (mv : Nat)
  /-- DIVERSION_START (R360): The reservoir voltage reaches VD or 65 V and recovering fingers change to fast decay. -/
  | diversionStart (t : Nat) (r : Fin 2) (mv : Nat)
  /-- DIVERSION_END (R360): The reservoir voltage falls below the release level and diversion ends. -/
  | diversionEnd (t : Nat) (r : Fin 2) (mv uj : Nat)
  /-- BRM_CEIL_WRITE (R362): A write of BRM_CEIL sets the ceiling at once and starts a bleed when the energy exceeds the new level, or is refused. -/
  | brmCeilWrite (t : Nat) (m : Master) (r : Fin 2) (v : Word)
  /-- BLEED_END (R362): A bleed ends when the energy reaches the charge level. -/
  | bleedEnd (t : Nat) (r : Fin 2) (mv : Nat)
  /-- DZ_CURRENT_CUT (R366): A dust-zone finger's instantaneous current reaches I_CUT and its switch opens. -/
  | dzCurrentCut (t : Nat) (n : Fin 32)
  /-- PORT_LIMIT (R368): A sensor port's load exceeds ILIM and the port limits its current. -/
  | portLimit (t : Nat) (k : Fin 8) (mv ua : Nat)
  /-- PORT_FOLD (R368): After 1 ms below 80 % of its voltage, a port folds back its limit and records an event. -/
  | portFold (t : Nat) (k : Fin 8) (mv ua : Nat)
  /-- PORT_UNFOLD (R368): After 10 ms above 90 % of its voltage, a folded port returns to REG. -/
  | portUnfold (t : Nat) (k : Fin 8) (mv ua : Nat)
  /-- RAIL_OVERCURRENT (R370): A sensor rail exceeds 1.5 times its rating, limits and records an event. -/
  | railOvercurrent (t : Nat) (k : Fin 4) (present : Bool)
  /-- BRM_CLR (R378): A write of BRM_CLR clears every DIVCNT and DIVE. -/
  | brmClr (t : Nat) (m : Master) (v : Word)
  /-- SNP_CLR (R379): A write of SNP_CLR clears every FOLDCNT. -/
  | snpClr (t : Nat) (m : Master) (v : Word)
  /-- FE_FRAME (R382): Writing GNB_FECMD:GO sends a front-end read or write frame, or is refused with FEERR. -/
  | feFrame (t : Nat) (m : Master) (v : Word)
  /-- FE_FRAME_DONE (R382): A front-end frame ends and read data is available. -/
  | feFrameDone (t : Nat) (data : BitVec 16)
  /-- CHANNEL_ENABLE (R385): Writing GNB_CHCFG:EN = 1 starts a channel in PULL from acquisition or predictions, or is refused. -/
  | channelEnable (t : Nat) (m : Master) (c : Fin 96) (v : Word)
  /-- CHANNEL_LOCK (R385): A channel in PULL or REACQ achieves code and carrier lock and enters TRACK. -/
  | channelLock (t : Nat) (c : Fin 96)
  /-- CHANNEL_LOCK_LOSS (R385): A tracking channel without lock for 50 ms enters REACQ. -/
  | channelLockLoss (t : Nat) (c : Fin 96)
  /-- CHANNEL_LOST (R385): A channel in PULL for 500 ms or REACQ for 1 s without lock enters LOST. -/
  | channelLost (t : Nat) (c : Fin 96)
  /-- ACQ_START (R386): Writing GNB_AQ0:GO starts an acquisition search, or is refused with CFGERR. -/
  | acqStart (t : Nat) (m : Master) (v : Word)
  /-- ACQ_STEP (R386): A search step completes and ends the search as FOUND or NOTFOUND or continues. -/
  | acqStep (t : Nat) (ratio : Nat) (peak : Fin 1024)
  /-- MEASUREMENT_EPOCH (R387): At a GNSS epoch every tracking channel is latched and integrity checks are applied. -/
  | measurementEpoch (t : Nat) (meas : List GnssMeas) (drops : Nat × Nat) (agc : BitVec 16 × BitVec 16)
  /-- EPOCH_BLOCK_WRITE (R388): An epoch's block is written to a free buffer with its notice, or omitted. -/
  | epochBlockWrite (t : Nat)
  /-- SYMBOL_RECORD (R391): A symbol record closes at 32 symbols or early and is queued and stored. -/
  | symbolRecord (t : Nat) (c : Fin 96) (n : Fin 33) (syms : Word) (at0 : Nat) (cpcnt : Word)
  /-- PRD_WRITE (R393): A write of GNB_PRD commits a channel's predicted range and rate. -/
  | prdWrite (t : Nat) (m : Master) (c : Fin 96) (v : Word)
  /-- CLKE_WRITE (R393): A write of GNB_CLKE commits the clock prediction. -/
  | clkeWrite (t : Nat) (m : Master) (v : Word)
  /-- NAV_COMMIT (R390): A write of GNB_NAVC:COMMIT publishes the staged navigation words. -/
  | navCommit (t : Nat) (m : Master) (v : Word)
  /-- TVALID_LOSS (R394): After 1 s with no channel in CODELOCK the time-valid indication clears. -/
  | tvalidLoss (t : Nat)
  /-- GNB_REL_WRITE (R388): A write of GNB_REL releases epoch block buffers. -/
  | gnbRelWrite (t : Nat) (m : Master) (v : Word)
  /-- GCLK_LOSS (R398): GCLK absent for 10 µs sends channels to REACQ and records an event. -/
  | gclkLoss (t : Nat)
  /-- BEANIE_BURST (R396): Once a second in Beanie the kept channels track for 50 ms, or longer for an ephemeris burst. -/
  | beanieBurst (t : Nat)
  /-- BEANIE_BURST_END (R396): A Beanie burst ends and its block is written to the Beanie block buffer. -/
  | beanieBurstEnd (t : Nat) (meas : List GnssMeas) (bands : (Nat × Nat) × BitVec 16 × BitVec 16)
  /-- IMU_TRANSACTION (R397): A strike of the IMU line starts an SPI transaction, or is omitted during one. -/
  | imuTransaction (t : Nat)
  /-- IMU_TRANSACTION_DONE (R397): An IMU transaction completes and its bytes, sequence and time are published and recorded. -/
  | imuTransactionDone (t : Nat) (rx : List Byte) (bad : List (Fin 16))
  /-- GNB_CLR (R402): A write of GNB_CLR clears GNB_DCNT. -/
  | gnbClr (t : Nat) (m : Master) (v : Word)
  /-- IMU_CLR (R403): A write of IMU_CLR clears IMU_OCNT. -/
  | imuClr (t : Nat) (m : Master) (v : Word)
  /-- DOMINANT_TIMEOUT (R405): The controller drives dominant for 1.2 ms and the transmitter is released with TXDTO. -/
  | dominantTimeout (t : Nat) (n : Fin 4)
  /-- CAN_WAKE_DETECT (R407): A channel in sleep detects a wake by dominant phase, pattern, frame or error count. -/
  | canWakeDetect (t : Nat) (n : Fin 4) (w : CanWake)
  /-- FRAME_RECEIVED (R421): A received CAN frame is stamped and consumed by MSG, matched to an object, or counted as unmatched. -/
  | frameReceived (t : Nat) (n : Fin 4) (f : CanFrame) (bad : Bool)
  /-- TX_BUFFER_FILL (R415): MSG fills a free transmit buffer with the pending frame chosen by TXORD, cancelling a lower frame when needed. -/
  | txBufferFill (t : Nat) (n : Fin 4) (won : Option (Fin 3))
  /-- FRAME_SENT (R414): A transmitted frame completes, is stamped and frees its buffer. -/
  | frameSent (t : Nat) (n : Fin 4) (b : Fin 3)
  /-- FRAME_TX_ERROR (R417): A frame loses arbitration or meets an error and is offered again. -/
  | frameTxError (t : Nat) (n : Fin 4) (b : Fin 3) (lec : Option (Fin 7 × Bool))
  /-- BUS_OFF_RECOVERY_START (R413): BODLY × 10 ms after bus-off with BOREC = 1 the controller starts recovery. -/
  | busOffRecoveryStart (t : Nat) (n : Fin 4)
  /-- CAN_RECOV (R413): Writing CAN_CTL:RECOV starts bus-off recovery. -/
  | canRecov (t : Nat) (m : Master) (n : Fin 4) (v : Word)
  /-- BUS_OFF_REJOIN (R413): After 128 occurrences of 11 recessive bits the controller rejoins the bus. -/
  | busOffRejoin (t : Nat) (n : Fin 4)
  /-- OBJECT_STALE (R424): A receive object without a match for TMO × 10 ms sets STALE. -/
  | objectStale (t : Nat) (n : Fin 2048)
  /-- OBJ_TXREQ (R425): Writing OBJ_TXREQ:GO places a transmit request for an object. -/
  | objTxreq (t : Nat) (m : Master) (v : Word)
  /-- OBJECT_REPEAT (R426): RPT × 10 ms after its last frame, a transmit object places a repeat request until RPTMAX. -/
  | objectRepeat (t : Nat) (n : Fin 2048)
  /-- OBJ_STAT_READ (R423): A read of an object's STAT captures its stamp and data for the reading master. -/
  | objStatRead (t : Nat) (m : Master) (k : Fin 512)
  /-- TX_REQUEST_CONSUME (R428): MSG takes a transmit request record from its queue and sends it as single frame or by transport, or refuses it. -/
  | txRequestConsume (t : Nat)
  /-- MESSAGE_DEADLINE (R430): A message's deadline expires and it is withdrawn, reported DEADLINE or TOO_LATE. -/
  | messageDeadline (t : Nat) (n : Fin 4) (won : Option (Fin 3))
  /-- MSG_CANCEL (R431): Writing MSG_CANCEL:GO withdraws the message or session carrying MSG_CTAG. -/
  | msgCancel (t : Nat) (m : Master) (v : Word) (won : Option (Fin 3))
  /-- TRANSPORT_TIMEOUT (R433): A transport timer T1–T4 expires and the session aborts or is discarded. -/
  | transportTimeout (t : Nat) (k : Fin 64)
  /-- BAM_PACKET_SEND (R433): BAMGAP after the previous packet a broadcast session sends its next packet. -/
  | bamPacketSend (t : Nat) (k : Fin 64)
  /-- MSG_PREL (R432): A write of MSG_PREL returns a pool block. -/
  | msgPrel (t : Nat) (m : Master) (v : Word)
  /-- ADDRESS_CLAIM_START (R434): Writing MSG_AC:EN = 1 sends an address claim and holds transmissions for 250 ms. -/
  | addressClaimStart (t : Nat) (m : Master) (n : Fin 4) (v : Word)
  /-- CLAIM_SETTLED (R434): 250 ms without contention makes the claim CLAIMED. -/
  | claimSettled (t : Nat) (n : Fin 4)
  /-- CANNOT_CLAIM_SEND (R434): After its pseudo-random delay a cannot-claim is sent from address 254. -/
  | cannotClaimSend (t : Nat) (n : Fin 4)
  /-- CAN_CLR (R443): A write of CAN_CLR clears CAN_RXNM and CAN_CNT. -/
  | canClr (t : Nat) (m : Master) (n : Fin 4) (v : Word)
  /-- MSG_CLR (R445): A write of MSG_CLR clears every ABORT count. -/
  | msgClr (t : Nat) (m : Master) (v : Word)
  /-- SWITCH_FRAME (R447): An Ethernet frame is stored, forwarded, flooded, answered by ARP, stamped or dropped. -/
  | switchFrame (t : Nat) (p : Fin 4) (frame : List Byte) (full : EthLoad)
  /-- LINK_LOSS (R469): A PHY link is lost, the port goes down and its learned addresses are removed. -/
  | linkLoss (t : Nat) (p : Fin 3)
  /-- ETH_CLR (R473): A write of ETH_CLR clears ETH_DROP. -/
  | ethClr (t : Nat) (m : Master) (v : Word)
  /-- LAMIP_FRAME_RECEIVE (R454): A Lamip frame is checked, looked up in the retry cache and its transaction executed, or discarded. -/
  | lamipFrameReceive (t : Nat) (src : LampSrc)
  /-- READ (R457): A Lamip READ returns words from ADDR onward. -/
  | read (t : Nat) (m : Master) (q : LampReq)
  /-- WRITE (R457): A Lamip WRITE is checked whole and written, its response held for the epoch commit. -/
  | write (t : Nat) (m : Master) (q : LampReq)
  /-- CLAIM (R464): A claim of ownership renews, is held, or waits in the settle window. -/
  | claim (t : Nat) (m : Master) (q : Option LampReq) (v : Word)
  /-- RENEW (R465): The owner renews its lease. -/
  | renew (t : Nat) (m : Master) (q : Option LampReq) (v : Word)
  /-- RELEASE (R464): The owner releases ownership and OWN enters FREE. -/
  | release (t : Nat) (m : Master) (q : Option LampReq) (v : Word)
  /-- HANDOVER (R466): The owner hands ownership to a named successor with a fresh lease. -/
  | handover (t : Nat) (m : Master) (q : Option LampReq) (v : Word)
  /-- RESET (R457): The owner requests a reset of the reach PLACE names, applied 1 ms after the response. -/
  | reset (t : Nat) (m : Master) (q : LampReq)
  /-- SUBSCRIBE (R458): A subscription to a periodic READ push is started, refreshed or ended. -/
  | subscribe (t : Nat) (m : Master) (q : LampReq)
  /-- SUBSCRIPTION_PUSH (R458): At a multiple of its period a subscription pushes its READ. -/
  | subscriptionPush (t : Nat) (m : Master) (tid : Word)
  /-- SUBSCRIPTION_EXPIRE (R458): A subscription ends 30 s after its last SUBSCRIBE. -/
  | subscriptionExpire (t : Nat) (m : Master) (tid : Word)
  /-- EVLOG_READ (R545): An EVLOG read returns up to 32 records from a sequence number. -/
  | evlogRead (t : Nat) (m : Master) (q : LampReq)
  /-- LOG_CLEAR (R548): A clear through EVLOG or EVR_CTL:CLR empties the log and records the clearer, or is refused while frozen. -/
  | logClear (t : Nat) (m : Master) (q : Option LampReq)
  /-- LOG_FREEZE (R547): A freeze through EVLOG or EVR_CTL:FRZ stops recording during start-up, test or recovery, or is refused. -/
  | logFreeze (t : Nat) (m : Master) (q : Option LampReq)
  /-- LOG_UNFREEZE (R547): An unfreeze ends a freeze and the held records enter in order. -/
  | logUnfreeze (t : Nat) (m : Master) (q : Option LampReq)
  /-- LOG_FLUSH_CMD (R541): Writing EVR_CTL:FLUSH starts a flush of the buffer to the log. -/
  | logFlushCmd (t : Nat) (m : Master)
  /-- CACHE_ENTRY_EXPIRE (R460): A retry cache entry is removed 10 s after its response. -/
  | cacheEntryExpire (t : Nat) (m : Master) (tid : Word)
  /-- SETTLE_WINDOW_END (R464): The 50 ms settle window ends and the best claim wins ownership. -/
  | settleWindowEnd (t : Nat)
  /-- LEASE_EXPIRE (R465): An owner's lease expires after 3,000 ms without renewal and OWN enters FREE. -/
  | leaseExpire (t : Nat)
  /-- LMP_CLR (R472): A write of LMP_CLR clears the saturating Lamip counters. -/
  | lmpClr (t : Nat) (m : Master) (v : Word)
  /-- EPOCH_BOUNDARY (R477): At an epoch boundary the active half captures lanes, loops, A-core regions, outputs, queues and held responses into a slot. -/
  | epochBoundary (t : Nat)
  /-- EPOCH_COMMIT (R481): After a heartbeat later than the boundary, the commit record is written, or the epoch gets none. -/
  | epochCommit (t : Nat)
  /-- HEARTBEAT (R486): The active half's HMN sends a heartbeat to ROLE each millisecond. -/
  | heartbeat (t : Nat)
  /-- HEARTBEAT_LOSS (R486): 2.0 ms without a heartbeat raises failover source 0x5. -/
  | heartbeatLoss (t : Nat)
  /-- ACORE_WATCHDOG_EXPIRE (R485): An enabled A-core watchdog expires without a kick and raises failover source 0x1. -/
  | acoreWatchdogExpire (t : Nat) (c : ACoreId)
  /-- HMN_KICK (R505): A write of HMN_KICK restarts an A-core's watchdog. -/
  | hmnKick (t : Nat) (m : Master) (c : ACoreId) (v : Word)
  /-- ROLE_FAIL (R485): Writing ROLE_CTL:FAIL raises failover source 0x6 with FCODE. -/
  | roleFail (t : Nat) (m : Master) (v : Word)
  /-- FAILOVER_DETECT (R488): A failover source from the active half isolates it, engages Mitten and starts a takeover or restart. -/
  | failoverDetect (t : Nat)
  /-- MITTEN_EXPIRE (R496): HOLD ms after engagement, still-held loads and palms go to posture and fingers start their ramp. -/
  | mittenExpire (t : Nat)
  /-- MITTEN_RAMP_STEP (R496): Each millisecond of the ramp a held finger's code steps toward its posture code. -/
  | mittenRampStep (t : Nat)
  /-- SELF_TEST_START (R498): At its period, subject to the power limit, the standby is powered and its self-test starts, or is postponed 10 s. -/
  | selfTestStart (t : Nat) (mw : Nat)
  /-- SELF_TEST_COMPLETE (R498): The standby's self-test ends, its health word is published and it is powered down. -/
  | selfTestComplete (t : Nat) (result : Fin 4) (img : BootImages)
  /-- SELF_TEST_OVERDUE (R49): A self-test not started within 3,600 s of falling due is marked overdue. -/
  | selfTestOverdue (t : Nat)
  /-- STEST (R498): Writing ROLE_CTL:STEST requests a self-test at once. -/
  | stest (t : Nat) (m : Master) (v : Word)
  /-- SWAP (R499): Writing ROLE_CTL:SWAP in NORMAL starts a deliberate role swap, or is refused. -/
  | swap (t : Nat) (m : Master) (v : Word)
  /-- STANDBY_READY (R499): The booting standby becomes READY for the swap boundary. -/
  | standbyReady (t : Nat) (img : BootImages)
  /-- SWAP_ABANDON (R500): A swap without a commit in 1.5 ms, without waiting lanes in 10 boundaries, or not READY by 200 ms is abandoned. -/
  | swapAbandon (t : Nat) (cause : Fin 4)
  /-- SWAP_ABORT (R503): Writing ROLE_CTL:ABORT before the swap boundary abandons the swap. -/
  | swapAbort (t : Nat) (m : Master) (v : Word)
  /-- POWER_ON (R518): VBAT rising through 6.5 V starts power-on: posture, strap, tally read, release and boot. -/
  | powerOn (t : Nat)
  /-- BROWN_OUT (R506): VBAT below 5.5 V for 10 µs outside a flush causes a module reset. -/
  | brownOut (t : Nat)
  /-- RESET_N_ASSERT (R510): A low pulse on RESET_N of 6 µs or longer causes a module reset. -/
  | resetNAssert (t : Nat)
  /-- THERMAL_SHUTDOWN (R521): A junction at 175 °C starts a module reset without flush. -/
  | thermalShutdown (t : Nat)
  /-- THERMAL_RELEASE (R521): Every junction at 160 °C or below ends the thermal reset and power-on runs from step 3. -/
  | thermalRelease (t : Nat)
  /-- SOFTWARE_RESET (R507): Writing RST_CTL:GO resets the reach in RST_PLACE, or is refused. -/
  | softwareReset (t : Nat) (m : Master) (v : Word)
  /-- BLOCK_IDLE (R511): A block under reset drains and signals idle, and its reset is applied. -/
  | blockIdle (t : Nat) (place : Nat)
  /-- BLOCK_RESET_FORCE (R512): A block not idle after TMO is force-reset, poisoning its outstanding transactions. -/
  | blockResetForce (t : Nat) (place : Nat)
  /-- RESET_RELEASE (R513): When its last source releases, a reset is released from the widest reach inward. -/
  | resetRelease (t : Nat) (strap : Byte) (safe : Bool) (pins : ResetPins) (clk : Option (Int × Bool)) (pfw cal : BootImages) (plain : List Byte)
  /-- OVERVOLTAGE (R519): VBAT above 36.5 V for 10 µs opens every switch and stops the chargers. -/
  | overvoltage (t : Nat) (mv : Nat)
  /-- OVERVOLTAGE_RECOVER (R519): VBAT below 35.5 V for 10 ms restores the codes and commands in force. -/
  | overvoltageRecover (t : Nat)
  /-- CLOCK_CHECK_FAIL (R520): CLK_PWR off nominal by more than 1 % in two windows holds every power output off with CLKF. -/
  | clockCheckFail (t : Nat) (ppm : Int) (ao : Bool)
  /-- CLOCK_CHECK_RECOVER (R520): After 100 good windows CLKF clears and the posture is applied. -/
  | clockCheckRecover (t : Nat)
  /-- POWER_FAIL_FLUSH (R522): PWRFAIL_N or low VBAT starts the flush: outputs off, epoch captured, log and coil models saved. -/
  | powerFailFlush (t : Nat) (vbat : Bool)
  /-- FLUSH_ABANDON (R523): VHOLD falling below 2.5 V abandons the flush without PFOK. -/
  | flushAbandon (t : Nat)
  /-- VHOLD_CHARGED (R518): VHOLD reaches its charge and VHOK is set. -/
  | vholdCharged (t : Nat)
  /-- SAFE_N_ASSERT (R527): SAFE_N low for 2 µs applies the posture and holds every power port. -/
  | safeNAssert (t : Nat)
  /-- SAFE_N_RELEASE (R527): SAFE_N high for 10 ms lets ports leave posture at their first SETP. -/
  | safeNRelease (t : Nat)
  /-- BEANIE_ENTER (R530): Writing RST_CTL:BEANIE makes a final commit and powers down all but the Beanie blocks. -/
  | beanieEnter (t : Nat) (m : Master) (v : Word)
  /-- BEANIE_WAKE (R531): IGN, a CAN wake or RST_BWK ends Beanie with a module reset of cause 0x9. -/
  | beanieWake (t : Nat) (ign : Bool)
  /-- EXTEST (R590): TAP instruction EXTEST drives boundary cells and holds the module in reset. -/
  | extest (e : TapEdge) (scan : Option (BitVec 88 × BitVec 88))
  /-- SAMPLE_PRELOAD (R590): TAP instruction SAMPLE/PRELOAD samples and preloads boundary cells. -/
  | samplePreload (e : TapEdge) (levels cells : BitVec 88)
  /-- IDCODE (R590): TAP instruction IDCODE reads the identification code. -/
  | idcode (e : TapEdge)
  /-- HIGHZ (R590): TAP instruction HIGHZ floats the scanned balls and holds the module in reset. -/
  | highz (e : TapEdge)
  /-- CLAMP (R590): TAP instruction CLAMP holds the scanned balls and the module in reset. -/
  | clamp (e : TapEdge)
  /-- BYPASS (R590): TAP instruction BYPASS selects the bypass register. -/
  | bypass (e : TapEdge) (i : Fin 251)
  /-- TAP_RESET_RELEASE (R592): The TAP leaving EXTEST, HIGHZ or CLAMP releases the module reset with cause 0x3. -/
  | tapResetRelease (t : Nat)
  /-- DBG_EN_FALL (R590): DBG_EN falling holds the TAP in Test-Logic-Reset within 1 µs. -/
  | dbgEnFall (t : Nat)
  /-- FAULT_REPORT (R538): A block's report joins an open window of its key, opens a new one, or is emitted at once. -/
  | faultReport (t : Nat) (code : BitVec 16) (p : Word) (p0 p1 p2 p3 : Word)
  /-- WINDOW_END (R539): A concentration window ends and one record is emitted, subject to the rate limit. -/
  | windowEnd (t : Nat)
  /-- FREEZE_TIMEOUT (R547): A freeze ends after EVR_FRZ:TMO ms. -/
  | freezeTimeout (t : Nat)
  /-- FLT_CLR (R551): A write of FLT_CLR clears FLT_SUPP and FLT_QDROP. -/
  | fltClr (t : Nat) (m : Master) (v : Word)
  /-- STAGE (R557): A STAGE or UPD_SCMD:GO copies image bytes into the kind's staged slot, or is refused. -/
  | stage (t : Nat) (m : Master) (q : Option LampReq) (v : Word)
  /-- STAGE_DONE (R557): A staging copy completes and UPD_SRCV advances. -/
  | stageDone (t : Nat) (k : Fin 6)
  /-- COMMIT (R559): A COMMIT closes the staged image, copies an A-image to the program store and selects the trial. -/
  | commit (t : Nat) (m : Master) (q : Option LampReq) (v : Word)
  /-- IMAGE_ABORT (R559): Writing UPD_CTL:ABORT discards an open or complete staged image. -/
  | imageAbort (t : Nat) (m : Master) (v : Word)
  /-- CONFIRM (R562): Writing UPD_CTL:CONFIRM makes a running trial current, or is refused. -/
  | confirm (t : Nat) (m : Master) (v : Word)
  /-- TRIAL_TIMEOUT (R562): A trial unconfirmed after 600 s falls back with FALLBK. -/
  | trialTimeout (t : Nat) (k : Fin 6)
  /-- BLOCK_RESTART (R564): A write of UPD_FRST restarts a field block for new microcode or FEX for a new weight set. -/
  | blockRestart (t : Nat) (m : Master) (v : Word)
  /-- TALLY_ARM (R570): Writing the key to TLY_ARM arms a burn for 1 ms. -/
  | tallyArm (t : Nat) (m : Master) (v : Word)
  /-- TALLY_ARM_EXPIRE (R570): An armed burn not commanded within 1 ms disarms. -/
  | tallyArmExpire (t : Nat)
  /-- TALLY_BURN (R570): Writing TLY_CMD:GO burns a tally row, or is refused. -/
  | tallyBurn (t : Nat) (m : Master) (v : Word) (vbat : Nat)
  /-- TALLY_BURN_DONE (R570): A burn is read back and marked DONE, or the row is marked BAD. -/
  | tallyBurnDone (t : Nat) (got : List Byte)
  /-- ILLEGAL_INSTRUCTION (R207): A unit executes a word with a reserved opcode, FUNC or OP code, a nonzero zero-field, or an instruction of the other profile, and takes the illegal instruction exception. -/
  | illegalInstruction (t : Nat) (u : Proc) (word : Word)
  /-- HIGH_SPEED_ENTRY (R88): A CSI port's clock lane enters high-speed mode, applies the deskew sequence and sets LINK and DESKEW. -/
  | highSpeedEntry (t : Nat) (p : Fin 4) (deskew : Bool)
  /-- HIGH_SPEED_EXIT (R86): A CSI port's clock lane leaves high-speed mode and LINK clears. -/
  | highSpeedExit (t : Nat) (p : Fin 4)
  /-- LINK_UP (R473): A T1 or SGMII PHY establishes its link and ETH_PSTAT:LINK is set. -/
  | linkUp (t : Nat) (p : Fin 3)
  /-- GCLK_RETURN (R398): GCLK becomes present again after a loss, FECLK is set and channels in REACQ can regain lock. -/
  | gclkReturn (t : Nat)
  /-- USB_BUS_CHANGE (R451): A USB host connects, enumerates and configures, or disconnects from, the service port, changing CONN, HS and CFGD. -/
  | usbBusChange (t : Nat) (conn hs cfgd : Bool)
  /-- LAMIP_RESET_APPLY (R457): 1 ms after the response to a Lamip RESET has been sent, the reach named by PLACE is reset with cause 0x6. -/
  | lamipResetApply (t : Nat)
  /-- MAC_ADDRESS_AGEING (R447): A learned MAC address not seen for 300 s is aged out of the switch's learning table. -/
  | macAddressAgeing (t : Nat)
  /-- ERROR_FRAME (R413): A CAN controller detects a bus error while receiving, signals an error frame, counts it in ERRF and updates REC and the error state. -/
  | errorFrame (t : Nat) (n : Fin 4) (lec : Fin 7) (first : Bool)
  /-- AUTONOMOUS_BIASING (R406): A transceiver in sleep biases its bus to ground after 1 s of silence, and back to 2.5 V when it sees activity. -/
  | autonomousBiasing (t : Nat) (n : Fin 4) (active : Bool)
  /-- BOOT_COMPLETE (R518): The active half's boot completes: heartbeats start, the internal owner's lease starts and FAULT_N is released. -/
  | bootComplete (t : Nat) (img : BootImages)
  /-- TAKEOVER_COMPLETE (R489): The new or restarted half finishes its restore, ROLE names it active, switch port 3 and internal ownership move, lanes go to PENDING and FAULT_N is released. -/
  | takeoverComplete (t : Nat) (img : BootImages)
  /-- COMMIT_COPY_DONE (R559): The COMMIT's copy of the staged A-image into the program store ends and the boot selector is written with TRY set. -/
  | commitCopyDone (t : Nat)
  /-- BLOCK_RESTART_DONE (R564): A field block or FEX finishes its restart for new microcode or a new weight set and resumes normal operation. -/
  | blockRestartDone (t : Nat) (place : Word) (img : BootImages) (plain : List Byte)
  /-- DIE_TEMPERATURE_HIGH (R549): A die temperature reaches 160 °C or above and event 0x0001 is reported. -/
  | dieTemperatureHigh (t : Nat) (die : Fin 2) (temp : Int)
  /-- PORT_LIMIT_END (R368): A sensor port in LIMIT whose load falls back below ILIM before foldback returns to REG. -/
  | portLimitEnd (t : Nat) (k : Fin 8) (mv ua : Nat)
  deriving DecidableEq, Repr

end Sys2Proof
end

