-- ==== Sys2Proof/Decode.lean ====
section
/-! DEFINITION. `decodeTableWord`, which answers nothing because no row of spec/opcode_table.json gives bits, and the words of the Jarug
instructions (spec/06_jarug_instruction_set.md R203, R206–R209, R213, R214, R219, R221, R224, R225, R227, R233): the decoder of both
profiles, which refuses what R207 and R208 make illegal, and the encoder. -/

namespace Sys2Proof

/-- The command that a word spells by the table's bits: the table gives none of its rows bits. -/
def decodeTableWord (_nbits _w : Nat) : Option Instr := none

/-! Fields (R206). -/

/-- Bits `hi` down to `lo` of a word. -/
def wordField (w hi lo : Nat) : Nat := w / 2 ^ lo % 2 ^ (hi + 1 - lo)

/-- A register field whose lowest bit is `lo`. -/
def regField (w lo : Nat) : GReg := ⟨w / 2 ^ lo % 32, Nat.mod_lt _ (by decide)⟩

/-- An accumulator number at bit `lo`. -/
def accField (w lo : Nat) : Fin 8 := ⟨w / 2 ^ lo % 8, Nat.mod_lt _ (by decide)⟩

/-- The six bits at bit `lo`. -/
def field6 (w lo : Nat) : Fin 64 := ⟨w / 2 ^ lo % 64, Nat.mod_lt _ (by decide)⟩

/-- A bit as a truth value. -/
def bitAt (w i : Nat) : Bool := w / 2 ^ i % 2 == 1

/-- `x` where `c` holds, else no instruction. -/
def onlyIf (c : Bool) (x : Instr) : Option Instr := if c then some x else none

/-! The groups. Each is given the registers of the word's fields. -/

/-- ALU (R209). -/
def decodeAlu (t : Nat) (u : Proc) (w : Nat) : Option Instr :=
  let d := regField w 21
  let a := regField w 16
  let b := regField w 11
  let f := bitAt w 10
  match wordField w 9 0 with
  | 0x01 => some (.add t u d a b f)
  | 0x02 => some (.sub t u d a b f)
  | 0x03 => some (.and t u d a b f)
  | 0x04 => some (.or t u d a b f)
  | 0x05 => some (.xor t u d a b f)
  | 0x06 => some (.andn t u d a b f)
  | 0x07 => onlyIf (!f) (.sll t u d a b)
  | 0x08 => onlyIf (!f) (.srl t u d a b)
  | 0x09 => onlyIf (!f) (.sra t u d a b)
  | 0x0A => onlyIf (!f) (.ror t u d a b)
  | 0x0B => onlyIf (!f) (.slt t u d a b)
  | 0x0C => onlyIf (!f) (.sltu t u d a b)
  | 0x0D => onlyIf (!f) (.min t u d a b)
  | 0x0E => onlyIf (!f) (.max t u d a b)
  | 0x0F => onlyIf (!f) (.minu t u d a b)
  | 0x10 => onlyIf (!f) (.maxu t u d a b)
  | 0x11 => some (.addw t u d a b f)
  | 0x12 => some (.subw t u d a b f)
  | 0x13 => onlyIf (!f && b == 0) (.sextb t u d a)
  | 0x14 => onlyIf (!f && b == 0) (.sexth t u d a)
  | 0x15 => onlyIf (!f && b == 0) (.sextw t u d a)
  | 0x16 => onlyIf (!f && b == 0) (.zextw t u d a)
  | 0x17 => onlyIf (!f && b == 0) (.clz t u d a)
  | 0x18 => onlyIf (!f && b == 0) (.popc t u d a)
  | 0x19 => onlyIf (d == 0) (.cmp t u a b)
  | 0x1A => onlyIf (d == 0) (.tst t u a b)
  | _ => none

/-- MULDIV (R214). -/
def decodeMulDiv (t : Nat) (u : Proc) (w : Nat) : Option Instr :=
  let d := regField w 21
  let a := regField w 16
  let b := regField w 11
  match wordField w 10 0 with
  | 0x01 => some (.mul t u d a b)
  | 0x02 => some (.mulh t u d a b)
  | 0x03 => some (.mulhu t u d a b)
  | 0x04 => some (.mulw t u d a b)
  | 0x05 => some (.div t u d a b)
  | 0x06 => some (.divu t u d a b)
  | 0x07 => some (.rem t u d a b)
  | 0x08 => some (.remu t u d a b)
  | _ => none

/-- FP (R225). -/
def decodeFp (t : Nat) (c : ACoreId) (w : Nat) : Option Instr :=
  let d := regField w 21
  let a := regField w 16
  let b := regField w 11
  let p := bitAt w 10
  match wordField w 9 0 with
  | 0x01 => some (.fadd t c d a b p)
  | 0x02 => some (.fsub t c d a b p)
  | 0x03 => some (.fmul t c d a b p)
  | 0x04 => some (.fdiv t c d a b p)
  | 0x05 => onlyIf (b == 0) (.fsqrt t c d a p)
  | 0x06 => some (.fma t c d a b p)
  | 0x07 => some (.fmin t c d a b p)
  | 0x08 => some (.fmax t c d a b p)
  | 0x09 => onlyIf (b == 0) (.fneg t c d a p)
  | 0x0A => onlyIf (b == 0) (.fabs t c d a p)
  | 0x0B => onlyIf (d == 0) (.fcmp t c a b p)
  | 0x0C => onlyIf (b == 0) (.fcvti t c d a p)
  | 0x0D => onlyIf (b == 0) (.fcvtf t c d a p)
  | 0x0E => onlyIf (b == 0) (.fcvtp t c d a p)
  | 0x0F => onlyIf (b == 0) (.fmvgf t c d a p)
  | 0x10 => onlyIf (b == 0) (.fmvfg t c d a p)
  | _ => none

/-- Q (R221). -/
def decodeQ (t : Nat) (l : LaneId) (w : Nat) : Option Instr :=
  let d := regField w 21
  let a := regField w 16
  let b := regField w 11
  let n := field6 w 0
  let dk := decide (d.val < 8)
  let ak := decide (a.val < 8)
  match wordField w 10 6 with
  | 0x01 => onlyIf (n == 0) (.qadd t l d a b)
  | 0x02 => onlyIf (n == 0) (.qsub t l d a b)
  | 0x03 => some (.qmul t l d a b n)
  | 0x04 => onlyIf (n == 0 && b == 0) (.qneg t l d a)
  | 0x05 => onlyIf (n == 0 && b == 0) (.qabs t l d a)
  | 0x06 => onlyIf (b == 0) (.qshl t l d a n)
  | 0x07 => onlyIf (b == 0) (.qshr t l d a n)
  | 0x08 => onlyIf (n == 0) (.qclip t l d a b)
  | 0x09 => onlyIf (n == 0 && dk) (.macz t l (accField w 21) a b)
  | 0x0A => onlyIf (n == 0 && dk) (.mac t l (accField w 21) a b)
  | 0x0B => onlyIf (n == 0 && dk) (.msu t l (accField w 21) a b)
  | 0x0C => onlyIf (b == 0 && ak) (.accrd t l d (accField w 16) n)
  | 0x0D => onlyIf (b == 0 && dk) (.accset t l (accField w 21) a n)
  | 0x0E => onlyIf (b == 0 && ak && decide (n.val < 2)) (.accget t l d (accField w 16) (n == 1))
  | 0x0F => onlyIf (b == 0 && dk && decide (n.val < 2)) (.accput t l (accField w 21) a (n == 1))
  | _ => none

/-- ATOM (R227). -/
def decodeAtom (t : Nat) (c : ACoreId) (w : Nat) : Option Instr :=
  let d := regField w 21
  let a := regField w 16
  let b := regField w 11
  let x := bitAt w 10
  let bare := wordField w 25 10 == 0
  match wordField w 9 0 with
  | 0x01 => onlyIf (b == 0) (.lr t c d a x)
  | 0x02 => some (.sc t c d a b x)
  | 0x03 => some (.afadd t c d a b x)
  | 0x04 => some (.aswap t c d a b x)
  | 0x05 => onlyIf bare (.fence t c)
  | 0x06 => onlyIf bare (.facq t c)
  | 0x07 => onlyIf bare (.frel t c)
  | _ => none

/-- The jumps of Jarug-A (R219). -/
def decodeJmp (t : Nat) (c : ACoreId) (w : Nat) : Option Instr :=
  let d := regField w 21
  let a := regField w 16
  let b := regField w 11
  match wordField w 10 0 with
  | 0x01 => onlyIf (d == 0 && b == 0) (.jr t c a)
  | 0x02 => onlyIf (b == 0) (.jlr t c d a)
  | _ => none

/-- LOOP (R206, R224). -/
def decodeLoop (t : Nat) (l : LaneId) (w : Nat) : Option Instr :=
  let n : Fin 256 := ⟨w / 2 ^ 18 % 256, Nat.mod_lt _ (by decide)⟩
  let r := regField w 8
  let tail := wordField w 7 0 == 0
  match wordField w 17 13 with
  | 0x00 => onlyIf tail (.lset t l n r)
  | 0x01 => onlyIf tail (.lmeas t l n r)
  | 0x02 => onlyIf tail (.leval t l n r)
  | 0x03 => onlyIf tail (.lout t l n r)
  | 0x04 => onlyIf tail (.lint t l n r)
  | 0x05 => onlyIf tail (.lman t l n r)
  | 0x06 => onlyIf (tail && r == 0) (.lauto t l n)
  | 0x07 => onlyIf tail (.lbank t l n r)
  | 0x08 => onlyIf tail (.lstat t l n r)
  | _ => none

/-- SYS (R233). -/
def decodeSys (t : Nat) (u : Proc) (w : Nat) : Option Instr :=
  let bare := wordField w 25 11 == 0
  match wordField w 10 0, u with
  | 0x01, _ => onlyIf bare (.nop t u)
  | 0x02, _ => onlyIf bare (.eret t u)
  | 0x03, _ => some (.brk t u (BitVec.ofNat 15 (wordField w 25 11)))
  | 0x04, .a c => onlyIf bare (.wfi t c)
  | 0x05, .l l => onlyIf bare (.bwt t l)
  | 0x06, .a c => onlyIf bare (.isync t c)
  | _, _ => none

/-- The groups of one profile only: those of Jarug-A on an A-core, those of Jarug-L on a lane (R208). -/
def decodeOwn (t : Nat) (u : Proc) (w : Nat) : Option Instr :=
  let d := regField w 21
  let a := regField w 16
  let imm := BitVec.ofNat 16 w
  match u with
  | .a c =>
    match wordField w 31 26 with
    | 0x02 => decodeFp t c w
    | 0x04 => decodeAtom t c w
    | 0x24 => some (.fldw t c d a imm)
    | 0x25 => some (.fldd t c d a imm)
    | 0x26 => some (.fstw t c d a imm)
    | 0x27 => some (.fstd t c d a imm)
    | 0x2A => decodeJmp t c w
    | _ => none
  | .l l =>
    match wordField w 31 26 with
    | 0x03 => decodeQ t l w
    | 0x2B => onlyIf (wordField w 25 0 == 0) (.ret t l)
    | 0x30 => onlyIf (a == 0) (.samp t l d imm)
    | 0x31 => onlyIf (a == 0) (.setp t l d imm)
    | 0x32 => decodeLoop t l w
    | _ => none

/-- The instruction that word `w` is to unit `u`, none where it is illegal there (R207, R208). A reserved control register number is left to
MFC and MTC, which trap on it. -/
def decodeJarug (t : Nat) (u : Proc) (word : Word) : Option Instr :=
  let w := word.toNat
  let d := regField w 21
  let a := regField w 16
  let imm := BitVec.ofNat 16 w
  let imm21 := BitVec.ofNat 21 w
  match wordField w 31 26 with
  | 0x00 => decodeAlu t u w
  | 0x01 => decodeMulDiv t u w
  | 0x05 => onlyIf (a == 0) (.mfc t u d imm)
  | 0x06 => onlyIf (d == 0) (.mtc t u imm a)
  | 0x08 => some (.addi t u d a imm)
  | 0x09 => some (.andi t u d a imm)
  | 0x0A => some (.ori t u d a imm)
  | 0x0B => some (.xori t u d a imm)
  | 0x0C => some (.slti t u d a imm)
  | 0x0D => some (.sltiu t u d a imm)
  | 0x0E => onlyIf (wordField w 15 8 == 0) (.shi t u d a ⟨w / 2 ^ 6 % 4, Nat.mod_lt _ (by decide)⟩ (field6 w 0))
  | 0x0F => onlyIf (d == 0) (.cmpi t u a imm)
  | 0x10 => some (.ldi t u d imm21)
  | 0x11 => some (.ldu t u d imm21)
  | 0x12 => some (.adr t u d imm21)
  | 0x18 => some (.ldb t u d a imm)
  | 0x19 => some (.ldbu t u d a imm)
  | 0x1A => some (.ldh t u d a imm)
  | 0x1B => some (.ldhu t u d a imm)
  | 0x1C => some (.ldw t u d a imm)
  | 0x1D => some (.ldwu t u d a imm)
  | 0x1E => some (.ldd t u d a imm)
  | 0x20 => some (.stb t u d a imm)
  | 0x21 => some (.sth t u d a imm)
  | 0x22 => some (.stw t u d a imm)
  | 0x23 => some (.std t u d a imm)
  | 0x28 => some (.bc t u ⟨w / 2 ^ 22 % 16, Nat.mod_lt _ (by decide)⟩ (BitVec.ofNat 22 w))
  | 0x29 => some (.blc t u ⟨w / 2 ^ 22 % 16, Nat.mod_lt _ (by decide)⟩ (BitVec.ofNat 22 w))
  | 0x3F => decodeSys t u w
  | _ => decodeOwn t u w

/-! The encoder. -/

/-- A G3 word. -/
def g3 (op d a b func : Nat) : Nat := op * 2 ^ 26 + d * 2 ^ 21 + a * 2 ^ 16 + b * 2 ^ 11 + func

/-- A GI, M or IO word. -/
def gi (op d a imm : Nat) : Nat := op * 2 ^ 26 + d * 2 ^ 21 + a * 2 ^ 16 + imm

/-- A GL word. -/
def gl (op d imm : Nat) : Nat := op * 2 ^ 26 + d * 2 ^ 21 + imm

/-- A B word. -/
def bw (op cond ofs : Nat) : Nat := op * 2 ^ 26 + cond * 2 ^ 22 + ofs

/-- A LOOP word. -/
def lpw (loop op r : Nat) : Nat := 0x32 * 2 ^ 26 + loop * 2 ^ 18 + op * 2 ^ 13 + r * 2 ^ 8

/-- The flag bit above a function code. -/
def fbit (f : Bool) : Nat := if f then 1024 else 0

/-- The word of an instruction, its profile, unit and time left out; none for the commands that are no instruction. -/
def encodeWord (i : Instr) : Option Nat :=
  match i with
  | .add _ _ d a b f => some (g3 0x00 d a b (0x01 + fbit f))
  | .sub _ _ d a b f => some (g3 0x00 d a b (0x02 + fbit f))
  | .and _ _ d a b f => some (g3 0x00 d a b (0x03 + fbit f))
  | .or _ _ d a b f => some (g3 0x00 d a b (0x04 + fbit f))
  | .xor _ _ d a b f => some (g3 0x00 d a b (0x05 + fbit f))
  | .andn _ _ d a b f => some (g3 0x00 d a b (0x06 + fbit f))
  | .addw _ _ d a b f => some (g3 0x00 d a b (0x11 + fbit f))
  | .subw _ _ d a b f => some (g3 0x00 d a b (0x12 + fbit f))
  | .sll _ _ d a b => some (g3 0x00 d a b 0x07)
  | .srl _ _ d a b => some (g3 0x00 d a b 0x08)
  | .sra _ _ d a b => some (g3 0x00 d a b 0x09)
  | .ror _ _ d a b => some (g3 0x00 d a b 0x0A)
  | .slt _ _ d a b => some (g3 0x00 d a b 0x0B)
  | .sltu _ _ d a b => some (g3 0x00 d a b 0x0C)
  | .min _ _ d a b => some (g3 0x00 d a b 0x0D)
  | .max _ _ d a b => some (g3 0x00 d a b 0x0E)
  | .minu _ _ d a b => some (g3 0x00 d a b 0x0F)
  | .maxu _ _ d a b => some (g3 0x00 d a b 0x10)
  | .sextb _ _ d a => some (g3 0x00 d a 0 0x13)
  | .sexth _ _ d a => some (g3 0x00 d a 0 0x14)
  | .sextw _ _ d a => some (g3 0x00 d a 0 0x15)
  | .zextw _ _ d a => some (g3 0x00 d a 0 0x16)
  | .clz _ _ d a => some (g3 0x00 d a 0 0x17)
  | .popc _ _ d a => some (g3 0x00 d a 0 0x18)
  | .cmp _ _ a b => some (g3 0x00 0 a b 0x19)
  | .tst _ _ a b => some (g3 0x00 0 a b 0x1A)
  | .mul _ _ d a b => some (g3 0x01 d a b 0x01)
  | .mulh _ _ d a b => some (g3 0x01 d a b 0x02)
  | .mulhu _ _ d a b => some (g3 0x01 d a b 0x03)
  | .mulw _ _ d a b => some (g3 0x01 d a b 0x04)
  | .div _ _ d a b => some (g3 0x01 d a b 0x05)
  | .divu _ _ d a b => some (g3 0x01 d a b 0x06)
  | .rem _ _ d a b => some (g3 0x01 d a b 0x07)
  | .remu _ _ d a b => some (g3 0x01 d a b 0x08)
  | .fadd _ _ d a b p => some (g3 0x02 d a b (0x01 + fbit p))
  | .fsub _ _ d a b p => some (g3 0x02 d a b (0x02 + fbit p))
  | .fmul _ _ d a b p => some (g3 0x02 d a b (0x03 + fbit p))
  | .fdiv _ _ d a b p => some (g3 0x02 d a b (0x04 + fbit p))
  | .fma _ _ d a b p => some (g3 0x02 d a b (0x06 + fbit p))
  | .fmin _ _ d a b p => some (g3 0x02 d a b (0x07 + fbit p))
  | .fmax _ _ d a b p => some (g3 0x02 d a b (0x08 + fbit p))
  | .fsqrt _ _ d a p => some (g3 0x02 d a 0 (0x05 + fbit p))
  | .fneg _ _ d a p => some (g3 0x02 d a 0 (0x09 + fbit p))
  | .fabs _ _ d a p => some (g3 0x02 d a 0 (0x0A + fbit p))
  | .fcvti _ _ d a p => some (g3 0x02 d a 0 (0x0C + fbit p))
  | .fcvtf _ _ d a p => some (g3 0x02 d a 0 (0x0D + fbit p))
  | .fcvtp _ _ d a p => some (g3 0x02 d a 0 (0x0E + fbit p))
  | .fmvgf _ _ d a p => some (g3 0x02 d a 0 (0x0F + fbit p))
  | .fmvfg _ _ d a p => some (g3 0x02 d a 0 (0x10 + fbit p))
  | .fcmp _ _ a b p => some (g3 0x02 0 a b (0x0B + fbit p))
  | .qadd _ _ d a b => some (g3 0x03 d a b (0x01 * 64))
  | .qsub _ _ d a b => some (g3 0x03 d a b (0x02 * 64))
  | .qclip _ _ d a b => some (g3 0x03 d a b (0x08 * 64))
  | .qmul _ _ d a b n => some (g3 0x03 d a b (0x03 * 64 + n))
  | .qneg _ _ d a => some (g3 0x03 d a 0 (0x04 * 64))
  | .qabs _ _ d a => some (g3 0x03 d a 0 (0x05 * 64))
  | .qshl _ _ d a n => some (g3 0x03 d a 0 (0x06 * 64 + n))
  | .qshr _ _ d a n => some (g3 0x03 d a 0 (0x07 * 64 + n))
  | .macz _ _ k a b => some (g3 0x03 k a b (0x09 * 64))
  | .mac _ _ k a b => some (g3 0x03 k a b (0x0A * 64))
  | .msu _ _ k a b => some (g3 0x03 k a b (0x0B * 64))
  | .accrd _ _ d k n => some (g3 0x03 d k 0 (0x0C * 64 + n))
  | .accset _ _ k a n => some (g3 0x03 k a 0 (0x0D * 64 + n))
  | .accget _ _ d k x => some (g3 0x03 d k 0 (0x0E * 64 + if x then 1 else 0))
  | .accput _ _ k a x => some (g3 0x03 k a 0 (0x0F * 64 + if x then 1 else 0))
  | .lr _ _ d a x => some (g3 0x04 d a 0 (0x01 + fbit x))
  | .sc _ _ d a b x => some (g3 0x04 d a b (0x02 + fbit x))
  | .afadd _ _ d a b x => some (g3 0x04 d a b (0x03 + fbit x))
  | .aswap _ _ d a b x => some (g3 0x04 d a b (0x04 + fbit x))
  | .fence _ _ => some (g3 0x04 0 0 0 0x05)
  | .facq _ _ => some (g3 0x04 0 0 0 0x06)
  | .frel _ _ => some (g3 0x04 0 0 0 0x07)
  | .mfc _ _ d n => some (gi 0x05 d 0 n.toNat)
  | .mtc _ _ n a => some (gi 0x06 0 a n.toNat)
  | .addi _ _ d a imm => some (gi 0x08 d a imm.toNat)
  | .andi _ _ d a imm => some (gi 0x09 d a imm.toNat)
  | .ori _ _ d a imm => some (gi 0x0A d a imm.toNat)
  | .xori _ _ d a imm => some (gi 0x0B d a imm.toNat)
  | .slti _ _ d a imm => some (gi 0x0C d a imm.toNat)
  | .sltiu _ _ d a imm => some (gi 0x0D d a imm.toNat)
  | .shi _ _ d a kind amt => some (gi 0x0E d a (kind * 64 + amt))
  | .cmpi _ _ a imm => some (gi 0x0F 0 a imm.toNat)
  | .ldi _ _ d imm => some (gl 0x10 d imm.toNat)
  | .ldu _ _ d imm => some (gl 0x11 d imm.toNat)
  | .adr _ _ d imm => some (gl 0x12 d imm.toNat)
  | .ldb _ _ d base ofs => some (gi 0x18 d base ofs.toNat)
  | .ldbu _ _ d base ofs => some (gi 0x19 d base ofs.toNat)
  | .ldh _ _ d base ofs => some (gi 0x1A d base ofs.toNat)
  | .ldhu _ _ d base ofs => some (gi 0x1B d base ofs.toNat)
  | .ldw _ _ d base ofs => some (gi 0x1C d base ofs.toNat)
  | .ldwu _ _ d base ofs => some (gi 0x1D d base ofs.toNat)
  | .ldd _ _ d base ofs => some (gi 0x1E d base ofs.toNat)
  | .stb _ _ d base ofs => some (gi 0x20 d base ofs.toNat)
  | .sth _ _ d base ofs => some (gi 0x21 d base ofs.toNat)
  | .stw _ _ d base ofs => some (gi 0x22 d base ofs.toNat)
  | .std _ _ d base ofs => some (gi 0x23 d base ofs.toNat)
  | .fldw _ _ d base ofs => some (gi 0x24 d base ofs.toNat)
  | .fldd _ _ d base ofs => some (gi 0x25 d base ofs.toNat)
  | .fstw _ _ d base ofs => some (gi 0x26 d base ofs.toNat)
  | .fstd _ _ d base ofs => some (gi 0x27 d base ofs.toNat)
  | .bc _ _ cond ofs => some (bw 0x28 cond ofs.toNat)
  | .blc _ _ cond ofs => some (bw 0x29 cond ofs.toNat)
  | .jr _ _ a => some (g3 0x2A 0 a 0 0x01)
  | .jlr _ _ d a => some (g3 0x2A d a 0 0x02)
  | .ret _ _ => some (0x2B * 2 ^ 26)
  | .samp _ _ r port => some (gi 0x30 r 0 port.toNat)
  | .setp _ _ r port => some (gi 0x31 r 0 port.toNat)
  | .lset _ _ n r => some (lpw n 0x00 r)
  | .lmeas _ _ n r => some (lpw n 0x01 r)
  | .leval _ _ n r => some (lpw n 0x02 r)
  | .lout _ _ n r => some (lpw n 0x03 r)
  | .lint _ _ n r => some (lpw n 0x04 r)
  | .lman _ _ n r => some (lpw n 0x05 r)
  | .lauto _ _ n => some (lpw n 0x06 0)
  | .lbank _ _ n r => some (lpw n 0x07 r)
  | .lstat _ _ n r => some (lpw n 0x08 r)
  | .nop _ _ => some (g3 0x3F 0 0 0 0x01)
  | .eret _ _ => some (g3 0x3F 0 0 0 0x02)
  | .brk _ _ code => some (0x3F * 2 ^ 26 + code.toNat * 2 ^ 11 + 0x03)
  | .wfi _ _ => some (g3 0x3F 0 0 0 0x04)
  | .bwt _ _ => some (g3 0x3F 0 0 0 0x05)
  | .isync _ _ => some (g3 0x3F 0 0 0 0x06)
  | _ => none

/-- The time and the unit of an instruction; none for the commands that are no instruction. -/
def issueOf (i : Instr) : Option (Nat × Proc) :=
  match i with
  | .add t u _ _ _ _ => some (t, u)
  | .sub t u _ _ _ _ => some (t, u)
  | .and t u _ _ _ _ => some (t, u)
  | .or t u _ _ _ _ => some (t, u)
  | .xor t u _ _ _ _ => some (t, u)
  | .andn t u _ _ _ _ => some (t, u)
  | .sll t u _ _ _ => some (t, u)
  | .srl t u _ _ _ => some (t, u)
  | .sra t u _ _ _ => some (t, u)
  | .ror t u _ _ _ => some (t, u)
  | .slt t u _ _ _ => some (t, u)
  | .sltu t u _ _ _ => some (t, u)
  | .min t u _ _ _ => some (t, u)
  | .max t u _ _ _ => some (t, u)
  | .minu t u _ _ _ => some (t, u)
  | .maxu t u _ _ _ => some (t, u)
  | .addw t u _ _ _ _ => some (t, u)
  | .subw t u _ _ _ _ => some (t, u)
  | .sextb t u _ _ => some (t, u)
  | .sexth t u _ _ => some (t, u)
  | .sextw t u _ _ => some (t, u)
  | .zextw t u _ _ => some (t, u)
  | .clz t u _ _ => some (t, u)
  | .popc t u _ _ => some (t, u)
  | .cmp t u _ _ => some (t, u)
  | .tst t u _ _ => some (t, u)
  | .mul t u _ _ _ => some (t, u)
  | .mulh t u _ _ _ => some (t, u)
  | .mulhu t u _ _ _ => some (t, u)
  | .mulw t u _ _ _ => some (t, u)
  | .div t u _ _ _ => some (t, u)
  | .divu t u _ _ _ => some (t, u)
  | .rem t u _ _ _ => some (t, u)
  | .remu t u _ _ _ => some (t, u)
  | .mfc t u _ _ => some (t, u)
  | .mtc t u _ _ => some (t, u)
  | .addi t u _ _ _ => some (t, u)
  | .andi t u _ _ _ => some (t, u)
  | .ori t u _ _ _ => some (t, u)
  | .xori t u _ _ _ => some (t, u)
  | .slti t u _ _ _ => some (t, u)
  | .sltiu t u _ _ _ => some (t, u)
  | .shi t u _ _ _ _ => some (t, u)
  | .cmpi t u _ _ => some (t, u)
  | .ldi t u _ _ => some (t, u)
  | .ldu t u _ _ => some (t, u)
  | .adr t u _ _ => some (t, u)
  | .ldb t u _ _ _ => some (t, u)
  | .ldbu t u _ _ _ => some (t, u)
  | .ldh t u _ _ _ => some (t, u)
  | .ldhu t u _ _ _ => some (t, u)
  | .ldw t u _ _ _ => some (t, u)
  | .ldwu t u _ _ _ => some (t, u)
  | .ldd t u _ _ _ => some (t, u)
  | .stb t u _ _ _ => some (t, u)
  | .sth t u _ _ _ => some (t, u)
  | .stw t u _ _ _ => some (t, u)
  | .std t u _ _ _ => some (t, u)
  | .fldw t c _ _ _ => some (t, .a c)
  | .fldd t c _ _ _ => some (t, .a c)
  | .fstw t c _ _ _ => some (t, .a c)
  | .fstd t c _ _ _ => some (t, .a c)
  | .bc t u _ _ => some (t, u)
  | .blc t u _ _ => some (t, u)
  | .jr t c _ => some (t, .a c)
  | .jlr t c _ _ => some (t, .a c)
  | .ret t l => some (t, .l l)
  | .samp t l _ _ => some (t, .l l)
  | .setp t l _ _ => some (t, .l l)
  | .lset t l _ _ => some (t, .l l)
  | .lmeas t l _ _ => some (t, .l l)
  | .leval t l _ _ => some (t, .l l)
  | .lout t l _ _ => some (t, .l l)
  | .lint t l _ _ => some (t, .l l)
  | .lman t l _ _ => some (t, .l l)
  | .lauto t l _ => some (t, .l l)
  | .lbank t l _ _ => some (t, .l l)
  | .lstat t l _ _ => some (t, .l l)
  | .fadd t c _ _ _ _ => some (t, .a c)
  | .fsub t c _ _ _ _ => some (t, .a c)
  | .fmul t c _ _ _ _ => some (t, .a c)
  | .fdiv t c _ _ _ _ => some (t, .a c)
  | .fsqrt t c _ _ _ => some (t, .a c)
  | .fma t c _ _ _ _ => some (t, .a c)
  | .fmin t c _ _ _ _ => some (t, .a c)
  | .fmax t c _ _ _ _ => some (t, .a c)
  | .fneg t c _ _ _ => some (t, .a c)
  | .fabs t c _ _ _ => some (t, .a c)
  | .fcmp t c _ _ _ => some (t, .a c)
  | .fcvti t c _ _ _ => some (t, .a c)
  | .fcvtf t c _ _ _ => some (t, .a c)
  | .fcvtp t c _ _ _ => some (t, .a c)
  | .fmvgf t c _ _ _ => some (t, .a c)
  | .fmvfg t c _ _ _ => some (t, .a c)
  | .qadd t l _ _ _ => some (t, .l l)
  | .qsub t l _ _ _ => some (t, .l l)
  | .qmul t l _ _ _ _ => some (t, .l l)
  | .qneg t l _ _ => some (t, .l l)
  | .qabs t l _ _ => some (t, .l l)
  | .qshl t l _ _ _ => some (t, .l l)
  | .qshr t l _ _ _ => some (t, .l l)
  | .qclip t l _ _ _ => some (t, .l l)
  | .macz t l _ _ _ => some (t, .l l)
  | .mac t l _ _ _ => some (t, .l l)
  | .msu t l _ _ _ => some (t, .l l)
  | .accrd t l _ _ _ => some (t, .l l)
  | .accset t l _ _ _ => some (t, .l l)
  | .accget t l _ _ _ => some (t, .l l)
  | .accput t l _ _ _ => some (t, .l l)
  | .lr t c _ _ _ => some (t, .a c)
  | .sc t c _ _ _ _ => some (t, .a c)
  | .afadd t c _ _ _ _ => some (t, .a c)
  | .aswap t c _ _ _ _ => some (t, .a c)
  | .fence t c => some (t, .a c)
  | .facq t c => some (t, .a c)
  | .frel t c => some (t, .a c)
  | .nop t u => some (t, u)
  | .eret t u => some (t, u)
  | .brk t u _ => some (t, u)
  | .wfi t c => some (t, .a c)
  | .bwt t l => some (t, .l l)
  | .isync t c => some (t, .a c)
  | _ => none

end Sys2Proof
end

