-- ==== Sys2Proof/Config.lean ====
section
/-! DEFINITION. What the spec leaves open: constants without a body, so that nothing can be proved of their values.
`Config.freeValue` gives the free values; a step that needs one applies it to the counter of State and advances the counter
(assumption log 7). -/

namespace Sys2Proof

/-- A free value: the n-th value that the spec leaves open (log 7). -/
opaque Config.freeValue : Nat → Nat

/-- A byte of the feature executor's arena that no layer of the running program has written (log 14). -/
opaque Config.arenaByte : Nat → Nat

/-- The error, in millimetres, of `s * cos` (0) or `s * sin` (1) of a heading in the yield deposit; used between -1 and 1 (R190; log 15). -/
opaque Config.trigError : Nat → Int → Nat → Int

/-- The value that the demosaic gives plane `p` at a frame-edge pixel whose window inside the frame holds no sample of it (R98; log 13). -/
opaque Config.edgeSample : Nat → Nat → Nat → Nat

/-- Byte `i` of the padding of an FD single frame whose message is shorter than its DLC says (R429; log 19). -/
opaque Config.canPad : Nat → Byte

/-- The tested value of declared parameter `which` (Uo, Io, Po, Ci, Li) of sensor port `k` of a KH7-M484-D under configuration word `cfg` (R369;
log 68). -/
opaque Config.snpTested : Nat → Nat → Nat → Nat

/-- Byte `i` of the root-key hash that the factory burned (R570; log 6). -/
opaque Config.factoryKey : Nat → Nat

/-- Byte `i` of the fleet key, which no master can read (R555; log 47). -/
opaque Config.fleetKey : Nat → Nat

/-- The plaintext of an image of kind `k` passes the block checksums of its own format, which the spec does not give (R556; log 47). -/
opaque Config.formatOk : Nat → List Byte → Bool

/-- The lane bundle that the plaintext of an A-image holds, in a format that the spec does not give (R552, R600; log 47). -/
opaque Config.laneBundle : List Byte → List LaneImage

/-- How long the flush of the event buffer that starts at sequence number `n` takes, in nanoseconds; a bound is the spec's (R541; log 9). -/
opaque Config.flushTime : Nat → Nat

/-- Whether tininess is detected before rounding; IEEE 754-2019 leaves it to the implementation (R226; log 66). -/
opaque Config.tinyBefore : Bool

/-- Whether FCMP signals NV for a quiet NaN; the spec does not say which comparison of IEEE 754-2019 it is (R225; log 66). -/
opaque Config.compareSignals : Bool

/-- Whether FCVTI raises NX when it rounds; IEEE 754-2019 has conversions of both kinds (R225; log 66). -/
opaque Config.convertExact : Bool

/-- Whether an FMA of zero, infinity and a quiet NaN signals NV; IEEE 754-2019 leaves it to the implementation (R226; log 66). -/
opaque Config.fmaSignals : Bool

end Sys2Proof
end

