-- ==== Sys2Proof/Machine/Sparse.lean ====
section
/-! DEFINITION. Sparse tables in one canonical form: a list of key and value pairs with strictly rising keys, in which no entry
holds what an unlisted key reads as. The register file and the memory are such tables, so equal contents are equal data. -/

namespace Sys2Proof.Machine

variable {α : Type} [DecidableEq α]

/-- What key `k` holds: its entry, or `d k` when it has none. -/
def sparseGet (d : Nat → α) : List (Nat × α) → Nat → α
  | [], k => d k
  | (j, v) :: r, k => if j = k then v else sparseGet d r k

/-- The table with key `k` at `v`, in key order. -/
def sparseInsert (k : Nat) (v : α) : List (Nat × α) → List (Nat × α)
  | [] => [(k, v)]
  | (j, w) :: r => if k < j then (k, v) :: (j, w) :: r else if k = j then (k, v) :: r else (j, w) :: sparseInsert k v r

/-- The table without key `k`. -/
def sparseErase (k : Nat) (l : List (Nat × α)) : List (Nat × α) := l.filter (fun e => e.1 != k)

/-- The table in which key `k` holds `v`: an entry, or no entry when `v` is what an unlisted key reads as. -/
def sparsePut (d : Nat → α) (l : List (Nat × α)) (k : Nat) (v : α) : List (Nat × α) :=
  if v = d k then sparseErase k l else sparseInsert k v l

/-- The canonical form: keys strictly rising from `lo`, no entry at its default. -/
def sparseWfFrom (d : Nat → α) (lo : Nat) : List (Nat × α) → Bool
  | [] => true
  | (k, v) :: r => decide (lo ≤ k) && decide (v ≠ d k) && sparseWfFrom d (k + 1) r

/-- The canonical form of a whole table. -/
def sparseWf (d : Nat → α) (l : List (Nat × α)) : Bool := sparseWfFrom d 0 l

/-- The part of a table between `a` and `a + n`, with keys counted from `a`. -/
def sparseCut (a n : Nat) (l : List (Nat × α)) : List (Nat × α) :=
  (l.filter (fun e => decide (a ≤ e.1) && decide (e.1 < a + n))).map (fun e => (e.1 - a, e.2))

/-- The table in which the keys from `a` to `a + n` hold what `img` holds, keys counted from `a`. -/
def sparseBlit (a n : Nat) (img l : List (Nat × α)) : List (Nat × α) :=
  l.filter (fun e => decide (e.1 < a)) ++ (img.filter (fun e => decide (e.1 < n))).map (fun e => (e.1 + a, e.2)) ++ l.filter (fun e => decide (a + n ≤ e.1))

end Sys2Proof.Machine
end

