-- ==== Sys2Proof/Machine/RegFile.lean ====
section
/-! DEFINITION. How the register tables of the spec are written down: fields, access codes (spec/00_scope.md R12), registers,
arrays of registers, windows (spec/01_harvest_architecture.md R22, R25, R27). -/

namespace Sys2Proof.Machine

/-- A field of a register: the register's address and the field's highest and lowest bit. -/
structure Fld where
  reg : Nat
  hi : Nat
  lo : Nat
  deriving DecidableEq, Repr

/-- The access codes of R12. `woOwn` is a WO bit whose meaning names the owner as its writer (R594). -/
inductive Access where
  | ro | own | any | w1c | w1s | wo | woOwn | tly
  deriving DecidableEq, Repr

/-- One row of a register table: bits, access and the values its table or chapter admits (none listed: all). -/
structure FieldDesc where
  hi : Nat
  lo : Nat
  acc : Access
  ok : List (Nat × Nat)
  deriving DecidableEq, Repr

/-- One register, or an array of them: offset in the window, (count, stride) of each index, reset value, fields. -/
structure RegDesc where
  off : Nat
  dims : List (Nat × Nat)
  reset : Nat
  fields : List FieldDesc
  deriving DecidableEq, Repr

/-- The kinds of register window. `lpd` is one loop descriptor, `obe` one object entry. -/
inductive Blk where
  | que | fab | hb | pps | csi | mpl | vsc | hra | gpa | fqi | fex | prj | fus | yt | lpd | ce | lan | fng | plm | lds | brm
  | snp | gnb | imu | obe | can | obj | msg | own | lmp | usb | eth | role | mit | hmn | rst | pst | evr | flt | upd | tly
  deriving DecidableEq, Repr

/-- The windows of one kind: base address, size, (count, stride) of each index, register tables. -/
structure BlockDesc where
  id : Blk
  base : Nat
  size : Nat
  wdims : List (Nat × Nat)
  regs : List RegDesc
  deriving DecidableEq, Repr

/-- The offset `o` names an element of the array. -/
def inArray : List (Nat × Nat) → Nat → Bool
  | [], o => o == 0
  | (c, st) :: r, o => decide (o / st < c) && inArray r (o % st)

/-- The offset inside the window that the distance `o` from the base falls into. -/
def windowOffset (size : Nat) : List (Nat × Nat) → Nat → Option Nat
  | [], o => if o < size then some o else none
  | (c, st) :: r, o => if o / st < c then windowOffset size r (o % st) else none

/-- The window that holds address `a`, and the offset in it. -/
def blockAt (a : Nat) : List BlockDesc → Option (BlockDesc × Nat)
  | [] => none
  | b :: r =>
    if b.base ≤ a then
      match windowOffset b.size b.wdims (a - b.base) with
      | some o => some (b, o)
      | none => blockAt a r
    else blockAt a r

/-- The register at offset `o` of a window. -/
def regIn (o : Nat) : List RegDesc → Option RegDesc
  | [] => none
  | d :: r => if decide (d.off ≤ o) && inArray d.dims (o - d.off) then some d else regIn o r

end Sys2Proof.Machine
end

