-- ==== Sys2Proof/Machine/Regs.lean ====
section
/-! DEFINITION. The registers, from the register tables of spec/: `R.<NAME>` is the address of the register the manual calls
<NAME>{i}, `F.<NAME>_<FIELD>` its field <NAME>{i}:<FIELD>, and `regBlocks` the tables themselves (offset, access, reset, admitted values). -/

namespace Sys2Proof.Machine

/-- QUE_BASE_LO{q} (01 R42). -/
abbrev R.QUE_BASE_LO (q : Nat) : Nat := 0x400700000 + q * 0x20
abbrev F.QUE_BASE_LO_BASE (q : Nat) : Fld := ⟨R.QUE_BASE_LO q, 31, 8⟩
/-- QUE_BASE_HI{q} (01 R42). -/
abbrev R.QUE_BASE_HI (q : Nat) : Nat := 0x400700004 + q * 0x20
abbrev F.QUE_BASE_HI_BASE (q : Nat) : Fld := ⟨R.QUE_BASE_HI q, 15, 0⟩
/-- QUE_CFG{q} (01 R42). -/
abbrev R.QUE_CFG (q : Nat) : Nat := 0x400700008 + q * 0x20
abbrev F.QUE_CFG_ESIZE (q : Nat) : Fld := ⟨R.QUE_CFG q, 6, 5⟩
abbrev F.QUE_CFG_LOG2N (q : Nat) : Fld := ⟨R.QUE_CFG q, 4, 1⟩
abbrev F.QUE_CFG_EN (q : Nat) : Fld := ⟨R.QUE_CFG q, 0, 0⟩
/-- QUE_PIDX{q} (01 R42). -/
abbrev R.QUE_PIDX (q : Nat) : Nat := 0x40070000C + q * 0x20
abbrev F.QUE_PIDX_PIDX (q : Nat) : Fld := ⟨R.QUE_PIDX q, 15, 0⟩
/-- QUE_CIDX{q} (01 R42). -/
abbrev R.QUE_CIDX (q : Nat) : Nat := 0x400700010 + q * 0x20
abbrev F.QUE_CIDX_DISC (q : Nat) : Fld := ⟨R.QUE_CIDX q, 31, 16⟩
abbrev F.QUE_CIDX_CIDX (q : Nat) : Fld := ⟨R.QUE_CIDX q, 15, 0⟩
/-- QUE_TAG{q} (01 R42). -/
abbrev R.QUE_TAG (q : Nat) : Nat := 0x400700014 + q * 0x20
abbrev F.QUE_TAG_CUR (q : Nat) : Fld := ⟨R.QUE_TAG q, 15, 0⟩
/-- QUE_STAT{q} (01 R42). -/
abbrev R.QUE_STAT (q : Nat) : Nat := 0x400700018 + q * 0x20
abbrev F.QUE_STAT_CLR (q : Nat) : Fld := ⟨R.QUE_STAT q, 31, 31⟩
abbrev F.QUE_STAT_EMPTY (q : Nat) : Fld := ⟨R.QUE_STAT q, 30, 30⟩
abbrev F.QUE_STAT_FULL (q : Nat) : Fld := ⟨R.QUE_STAT q, 29, 29⟩
abbrev F.QUE_STAT_OVF (q : Nat) : Fld := ⟨R.QUE_STAT q, 28, 28⟩
abbrev F.QUE_STAT_DROP (q : Nat) : Fld := ⟨R.QUE_STAT q, 27, 16⟩
abbrev F.QUE_STAT_STALE (q : Nat) : Fld := ⟨R.QUE_STAT q, 15, 0⟩

/-- FAB_PCNT (01 R46). -/
abbrev R.FAB_PCNT : Nat := 0x400710000
abbrev F.FAB_PCNT_COUNT : Fld := ⟨R.FAB_PCNT, 31, 0⟩
/-- FAB_RCNT (01 R46). -/
abbrev R.FAB_RCNT : Nat := 0x400710004
abbrev F.FAB_RCNT_COUNT : Fld := ⟨R.FAB_RCNT, 31, 0⟩
/-- FAB_ECNT (01 R46). -/
abbrev R.FAB_ECNT : Nat := 0x400710008
abbrev F.FAB_ECNT_COUNT : Fld := ⟨R.FAB_ECNT, 31, 0⟩
/-- FAB_LAST (01 R46). -/
abbrev R.FAB_LAST : Nat := 0x40071000C
abbrev F.FAB_LAST_PLACE : Fld := ⟨R.FAB_LAST, 31, 0⟩
/-- FAB_LADDR_LO (01 R46). -/
abbrev R.FAB_LADDR_LO : Nat := 0x400710010
abbrev F.FAB_LADDR_LO_ADDR : Fld := ⟨R.FAB_LADDR_LO, 31, 0⟩
/-- FAB_LADDR_HI (01 R46). -/
abbrev R.FAB_LADDR_HI : Nat := 0x400710014
abbrev F.FAB_LADDR_HI_ADDR : Fld := ⟨R.FAB_LADDR_HI, 15, 0⟩
/-- FAB_INJ (01 R46). -/
abbrev R.FAB_INJ : Nat := 0x400710018
abbrev F.FAB_INJ_LANE : Fld := ⟨R.FAB_INJ, 5, 2⟩
abbrev F.FAB_INJ_WRITE : Fld := ⟨R.FAB_INJ, 1, 1⟩
abbrev F.FAB_INJ_ARM : Fld := ⟨R.FAB_INJ, 0, 0⟩
/-- FAB_CLR (01 R46). -/
abbrev R.FAB_CLR : Nat := 0x40071001C
abbrev F.FAB_CLR_CLR : Fld := ⟨R.FAB_CLR, 0, 0⟩

/-- HB_TIME_LO (02 R79). -/
abbrev R.HB_TIME_LO : Nat := 0x400020000
abbrev F.HB_TIME_LO_TIME : Fld := ⟨R.HB_TIME_LO, 31, 0⟩
/-- HB_TIME_HI (02 R79). -/
abbrev R.HB_TIME_HI : Nat := 0x400020004
abbrev F.HB_TIME_HI_TIME : Fld := ⟨R.HB_TIME_HI, 31, 0⟩
/-- HB_GTIME_LO (02 R79). -/
abbrev R.HB_GTIME_LO : Nat := 0x400020008
abbrev F.HB_GTIME_LO_GTIME : Fld := ⟨R.HB_GTIME_LO, 31, 0⟩
/-- HB_GTIME_HI (02 R79). -/
abbrev R.HB_GTIME_HI : Nat := 0x40002000C
abbrev F.HB_GTIME_HI_GTIME : Fld := ⟨R.HB_GTIME_HI, 31, 0⟩
/-- HB_GOFS_LO (02 R79). -/
abbrev R.HB_GOFS_LO : Nat := 0x400020010
abbrev F.HB_GOFS_LO_OFS : Fld := ⟨R.HB_GOFS_LO, 31, 0⟩
/-- HB_GOFS_HI (02 R79). -/
abbrev R.HB_GOFS_HI : Nat := 0x400020014
abbrev F.HB_GOFS_HI_OFS : Fld := ⟨R.HB_GOFS_HI, 31, 0⟩
/-- HB_GSET_LO (02 R79). -/
abbrev R.HB_GSET_LO : Nat := 0x400020018
abbrev F.HB_GSET_LO_OFS : Fld := ⟨R.HB_GSET_LO, 31, 0⟩
/-- HB_GSET_HI (02 R79). -/
abbrev R.HB_GSET_HI : Nat := 0x40002001C
abbrev F.HB_GSET_HI_OFS : Fld := ⟨R.HB_GSET_HI, 31, 0⟩
/-- HB_GCOR (02 R79). -/
abbrev R.HB_GCOR : Nat := 0x400020020
abbrev F.HB_GCOR_COR : Fld := ⟨R.HB_GCOR, 31, 0⟩
/-- HB_FADJ (02 R79). -/
abbrev R.HB_FADJ : Nat := 0x400020024
abbrev F.HB_FADJ_ADJ : Fld := ⟨R.HB_FADJ, 31, 0⟩
/-- HB_CDLY (02 R79). -/
abbrev R.HB_CDLY : Nat := 0x400020028
abbrev F.HB_CDLY_DLY : Fld := ⟨R.HB_CDLY, 15, 0⟩
/-- HB_LEAP (02 R79). -/
abbrev R.HB_LEAP : Nat := 0x40002002C
abbrev F.HB_LEAP_LEAP : Fld := ⟨R.HB_LEAP, 7, 0⟩
/-- HB_DISC (02 R79). -/
abbrev R.HB_DISC : Nat := 0x400020030
abbrev F.HB_DISC_TMO : Fld := ⟨R.HB_DISC, 7, 4⟩
abbrev F.HB_DISC_REFSEL : Fld := ⟨R.HB_DISC, 0, 0⟩
/-- HB_STAT (02 R79). -/
abbrev R.HB_STAT : Nat := 0x400020034
abbrev F.HB_STAT_CFGERR : Fld := ⟨R.HB_STAT, 11, 11⟩
abbrev F.HB_STAT_HOLD : Fld := ⟨R.HB_STAT, 10, 10⟩
abbrev F.HB_STAT_REFLOSS : Fld := ⟨R.HB_STAT, 9, 9⟩
abbrev F.HB_STAT_STEP : Fld := ⟨R.HB_STAT, 8, 8⟩
abbrev F.HB_STAT_STEPPEND : Fld := ⟨R.HB_STAT, 7, 7⟩
abbrev F.HB_STAT_SLEW : Fld := ⟨R.HB_STAT, 6, 6⟩
abbrev F.HB_STAT_REFUSED : Fld := ⟨R.HB_STAT, 5, 5⟩
abbrev F.HB_STAT_OCXOOK : Fld := ⟨R.HB_STAT, 4, 4⟩
abbrev F.HB_STAT_REFOK : Fld := ⟨R.HB_STAT, 3, 3⟩
abbrev F.HB_STAT_LOCK : Fld := ⟨R.HB_STAT, 2, 2⟩
abbrev F.HB_STAT_STATE : Fld := ⟨R.HB_STAT, 1, 0⟩
/-- HB_TUNC (02 R79). -/
abbrev R.HB_TUNC : Nat := 0x400020038
abbrev F.HB_TUNC_UNC : Fld := ⟨R.HB_TUNC, 31, 0⟩
/-- HB_HRATE (02 R79). -/
abbrev R.HB_HRATE : Nat := 0x40002003C
abbrev F.HB_HRATE_RATE : Fld := ⟨R.HB_HRATE, 15, 0⟩
/-- HB_TICK (02 R79). -/
abbrev R.HB_TICK : Nat := 0x400020040
abbrev F.HB_TICK_TICK : Fld := ⟨R.HB_TICK, 31, 0⟩
/-- HB_FUSP (02 R79). -/
abbrev R.HB_FUSP : Nat := 0x400020044
abbrev F.HB_FUSP_PER : Fld := ⟨R.HB_FUSP, 10, 0⟩
/-- HB_GNSP (02 R79). -/
abbrev R.HB_GNSP : Nat := 0x400020048
abbrev F.HB_GNSP_PER : Fld := ⟨R.HB_GNSP, 14, 0⟩
/-- HB_CAPQ (02 R79). -/
abbrev R.HB_CAPQ : Nat := 0x40002004C
abbrev F.HB_CAPQ_EN : Fld := ⟨R.HB_CAPQ, 7, 7⟩
abbrev F.HB_CAPQ_QUEUE : Fld := ⟨R.HB_CAPQ, 6, 0⟩
/-- HB_LCFG{n} (02 R80). -/
abbrev R.HB_LCFG (n : Nat) : Nat := 0x400020100 + n * 0x20
abbrev F.HB_LCFG_TRIM (n : Nat) : Fld := ⟨R.HB_LCFG n, 13, 8⟩
abbrev F.HB_LCFG_ALIGN (n : Nat) : Fld := ⟨R.HB_LCFG n, 3, 3⟩
abbrev F.HB_LCFG_POL (n : Nat) : Fld := ⟨R.HB_LCFG n, 2, 2⟩
abbrev F.HB_LCFG_MODE (n : Nat) : Fld := ⟨R.HB_LCFG n, 1, 0⟩
/-- HB_LPER_LO{n} (02 R80). -/
abbrev R.HB_LPER_LO (n : Nat) : Nat := 0x400020104 + n * 0x20
abbrev F.HB_LPER_LO_PER (n : Nat) : Fld := ⟨R.HB_LPER_LO n, 31, 0⟩
/-- HB_LPER_HI{n} (02 R80). -/
abbrev R.HB_LPER_HI (n : Nat) : Nat := 0x400020108 + n * 0x20
abbrev F.HB_LPER_HI_PER (n : Nat) : Fld := ⟨R.HB_LPER_HI n, 1, 0⟩
/-- HB_LPHS_LO{n} (02 R80). -/
abbrev R.HB_LPHS_LO (n : Nat) : Nat := 0x40002010C + n * 0x20
abbrev F.HB_LPHS_LO_PHS (n : Nat) : Fld := ⟨R.HB_LPHS_LO n, 31, 0⟩
/-- HB_LPHS_HI{n} (02 R80). -/
abbrev R.HB_LPHS_HI (n : Nat) : Nat := 0x400020110 + n * 0x20
abbrev F.HB_LPHS_HI_PHS (n : Nat) : Fld := ⟨R.HB_LPHS_HI n, 1, 0⟩
/-- HB_LWID{n} (02 R80). -/
abbrev R.HB_LWID (n : Nat) : Nat := 0x400020114 + n * 0x20
abbrev F.HB_LWID_WID (n : Nat) : Fld := ⟨R.HB_LWID n, 31, 0⟩
/-- HB_LSEQ{n} (02 R80). -/
abbrev R.HB_LSEQ (n : Nat) : Nat := 0x400020118 + n * 0x20
abbrev F.HB_LSEQ_SEQ (n : Nat) : Fld := ⟨R.HB_LSEQ n, 31, 0⟩
/-- HB_LOMIT{n} (02 R80). -/
abbrev R.HB_LOMIT (n : Nat) : Nat := 0x40002011C + n * 0x20
abbrev F.HB_LOMIT_OMIT (n : Nat) : Fld := ⟨R.HB_LOMIT n, 31, 0⟩

/-- PPS_CFG (02 R81). -/
abbrev R.PPS_CFG : Nat := 0x400510000
abbrev F.PPS_CFG_WIDTH : Fld := ⟨R.PPS_CFG, 15, 8⟩
abbrev F.PPS_CFG_HOLD : Fld := ⟨R.PPS_CFG, 3, 3⟩
abbrev F.PPS_CFG_FREE : Fld := ⟨R.PPS_CFG, 2, 2⟩
abbrev F.PPS_CFG_POL : Fld := ⟨R.PPS_CFG, 1, 1⟩
abbrev F.PPS_CFG_EN : Fld := ⟨R.PPS_CFG, 0, 0⟩
/-- PPS_STAT (02 R81). -/
abbrev R.PPS_STAT : Nat := 0x400510004
abbrev F.PPS_STAT_ACTIVE : Fld := ⟨R.PPS_STAT, 2, 2⟩
abbrev F.PPS_STAT_STATE : Fld := ⟨R.PPS_STAT, 1, 0⟩
/-- PPS_CNT (02 R81). -/
abbrev R.PPS_CNT : Nat := 0x400510008
abbrev F.PPS_CNT_COUNT : Fld := ⟨R.PPS_CNT, 31, 0⟩

/-- CSI_CFG{n} (03 R114). -/
abbrev R.CSI_CFG (n : Nat) : Nat := 0x400100000 + n * 0x10000
abbrev F.CSI_CFG_VEN1 (n : Nat) : Fld := ⟨R.CSI_CFG n, 14, 14⟩
abbrev F.CSI_CFG_VCS1 (n : Nat) : Fld := ⟨R.CSI_CFG n, 13, 12⟩
abbrev F.CSI_CFG_VEN0 (n : Nat) : Fld := ⟨R.CSI_CFG n, 10, 10⟩
abbrev F.CSI_CFG_VCS0 (n : Nat) : Fld := ⟨R.CSI_CFG n, 9, 8⟩
abbrev F.CSI_CFG_LANES (n : Nat) : Fld := ⟨R.CSI_CFG n, 2, 1⟩
abbrev F.CSI_CFG_EN (n : Nat) : Fld := ⟨R.CSI_CFG n, 0, 0⟩
/-- CSI_RATE{n} (03 R114). -/
abbrev R.CSI_RATE (n : Nat) : Nat := 0x400100004 + n * 0x10000
abbrev F.CSI_RATE_RATE (n : Nat) : Fld := ⟨R.CSI_RATE n, 11, 0⟩
/-- CSI_STAT{n} (03 R114). -/
abbrev R.CSI_STAT (n : Nat) : Nat := 0x400100008 + n * 0x10000
abbrev F.CSI_STAT_CFGERR (n : Nat) : Fld := ⟨R.CSI_STAT n, 8, 8⟩
abbrev F.CSI_STAT_UNKDT (n : Nat) : Fld := ⟨R.CSI_STAT n, 7, 7⟩
abbrev F.CSI_STAT_VCUNK (n : Nat) : Fld := ⟨R.CSI_STAT n, 6, 6⟩
abbrev F.CSI_STAT_HDR (n : Nat) : Fld := ⟨R.CSI_STAT n, 5, 5⟩
abbrev F.CSI_STAT_CRC (n : Nat) : Fld := ⟨R.CSI_STAT n, 4, 4⟩
abbrev F.CSI_STAT_ECC1 (n : Nat) : Fld := ⟨R.CSI_STAT n, 3, 3⟩
abbrev F.CSI_STAT_OVF (n : Nat) : Fld := ⟨R.CSI_STAT n, 2, 2⟩
abbrev F.CSI_STAT_DESKEW (n : Nat) : Fld := ⟨R.CSI_STAT n, 1, 1⟩
abbrev F.CSI_STAT_LINK (n : Nat) : Fld := ⟨R.CSI_STAT n, 0, 0⟩
/-- CSI_ECNT{n} (03 R114). -/
abbrev R.CSI_ECNT (n : Nat) : Nat := 0x40010000C + n * 0x10000
abbrev F.CSI_ECNT_HDR (n : Nat) : Fld := ⟨R.CSI_ECNT n, 31, 16⟩
abbrev F.CSI_ECNT_CRC (n : Nat) : Fld := ⟨R.CSI_ECNT n, 15, 0⟩
/-- CSI_DCNT{n} (03 R114). -/
abbrev R.CSI_DCNT (n : Nat) : Nat := 0x400100010 + n * 0x10000
abbrev F.CSI_DCNT_UNK (n : Nat) : Fld := ⟨R.CSI_DCNT n, 31, 16⟩
abbrev F.CSI_DCNT_ECC1 (n : Nat) : Fld := ⟨R.CSI_DCNT n, 15, 0⟩
/-- CSI_FILL{n} (03 R114). -/
abbrev R.CSI_FILL (n : Nat) : Nat := 0x400100014 + n * 0x10000
abbrev F.CSI_FILL_PEAK (n : Nat) : Fld := ⟨R.CSI_FILL n, 26, 16⟩
abbrev F.CSI_FILL_FILL (n : Nat) : Fld := ⟨R.CSI_FILL n, 10, 0⟩
/-- CSI_CLR{n} (03 R114). -/
abbrev R.CSI_CLR (n : Nat) : Nat := 0x400100018 + n * 0x10000
abbrev F.CSI_CLR_CLR (n : Nat) : Fld := ⟨R.CSI_CLR n, 0, 0⟩

/-- MPL_CFG{n} (03 R115). -/
abbrev R.MPL_CFG (n : Nat) : Nat := 0x400140000 + n * 0x10000
abbrev F.MPL_CFG_READYL (n : Nat) : Fld := ⟨R.MPL_CFG n, 12, 8⟩
abbrev F.MPL_CFG_SMODE (n : Nat) : Fld := ⟨R.MPL_CFG n, 0, 0⟩
/-- MPL_STAT{n} (03 R115). -/
abbrev R.MPL_STAT (n : Nat) : Nat := 0x400140004 + n * 0x10000
abbrev F.MPL_STAT_POISON (n : Nat) : Fld := ⟨R.MPL_STAT n, 11, 11⟩
abbrev F.MPL_STAT_PTR (n : Nat) : Fld := ⟨R.MPL_STAT n, 10, 8⟩
abbrev F.MPL_STAT_BUSY (n : Nat) : Fld := ⟨R.MPL_STAT n, 4, 4⟩
abbrev F.MPL_STAT_CTX (n : Nat) : Fld := ⟨R.MPL_STAT n, 2, 0⟩
/-- MPL_PIX{n} (03 R115). -/
abbrev R.MPL_PIX (n : Nat) : Nat := 0x400140008 + n * 0x10000
abbrev F.MPL_PIX_PIX (n : Nat) : Fld := ⟨R.MPL_PIX n, 31, 0⟩
/-- MPL_SWCNT{n} (03 R115). -/
abbrev R.MPL_SWCNT (n : Nat) : Nat := 0x40014000C + n * 0x10000
abbrev F.MPL_SWCNT_SW (n : Nat) : Fld := ⟨R.MPL_SWCNT n, 31, 0⟩
/-- MPL_PCNT{n} (03 R115). -/
abbrev R.MPL_PCNT (n : Nat) : Nat := 0x400140010 + n * 0x10000
abbrev F.MPL_PCNT_PERR (n : Nat) : Fld := ⟨R.MPL_PCNT n, 15, 0⟩
/-- MPL_CLR{n} (03 R115). -/
abbrev R.MPL_CLR (n : Nat) : Nat := 0x400140014 + n * 0x10000
abbrev F.MPL_CLR_CLR (n : Nat) : Fld := ⟨R.MPL_CLR n, 0, 0⟩

/-- VSC_CCFG{c} (03 R116). -/
abbrev R.VSC_CCFG (c : Nat) : Nat := 0x400160100 + c * 0x80
abbrev F.VSC_CCFG_WEIGHT (c : Nat) : Fld := ⟨R.VSC_CCFG c, 27, 24⟩
abbrev F.VSC_CCFG_RECON (c : Nat) : Fld := ⟨R.VSC_CCFG c, 21, 20⟩
abbrev F.VSC_CCFG_TAP (c : Nat) : Fld := ⟨R.VSC_CCFG c, 18, 16⟩
abbrev F.VSC_CCFG_EMB (c : Nat) : Fld := ⟨R.VSC_CCFG c, 14, 14⟩
abbrev F.VSC_CCFG_DT (c : Nat) : Fld := ⟨R.VSC_CCFG c, 13, 12⟩
abbrev F.VSC_CCFG_TLINE (c : Nat) : Fld := ⟨R.VSC_CCFG c, 8, 4⟩
abbrev F.VSC_CCFG_TEN (c : Nat) : Fld := ⟨R.VSC_CCFG c, 3, 3⟩
abbrev F.VSC_CCFG_PIPE (c : Nat) : Fld := ⟨R.VSC_CCFG c, 1, 1⟩
abbrev F.VSC_CCFG_EN (c : Nat) : Fld := ⟨R.VSC_CCFG c, 0, 0⟩
/-- VSC_CGEO{c} (03 R116). -/
abbrev R.VSC_CGEO (c : Nat) : Nat := 0x400160104 + c * 0x80
abbrev F.VSC_CGEO_HEIGHT (c : Nat) : Fld := ⟨R.VSC_CGEO c, 31, 16⟩
abbrev F.VSC_CGEO_WIDTH (c : Nat) : Fld := ⟨R.VSC_CGEO c, 15, 0⟩
/-- VSC_TWIN{c} (03 R116). -/
abbrev R.VSC_TWIN (c : Nat) : Nat := 0x400160108 + c * 0x80
abbrev F.VSC_TWIN_WMAX (c : Nat) : Fld := ⟨R.VSC_TWIN c, 31, 16⟩
abbrev F.VSC_TWIN_WMIN (c : Nat) : Fld := ⟨R.VSC_TWIN c, 15, 0⟩
/-- VSC_MOS_LO{c} (03 R116). -/
abbrev R.VSC_MOS_LO (c : Nat) : Nat := 0x40016010C + c * 0x80
abbrev F.VSC_MOS_LO_CELLS (c : Nat) : Fld := ⟨R.VSC_MOS_LO c, 29, 0⟩
/-- VSC_MOS_HI{c} (03 R116). -/
abbrev R.VSC_MOS_HI (c : Nat) : Nat := 0x400160110 + c * 0x80
abbrev F.VSC_MOS_HI_CELLS (c : Nat) : Fld := ⟨R.VSC_MOS_HI c, 17, 0⟩
/-- VSC_PB_LO{c} (03 R116). -/
abbrev R.VSC_PB_LO (c : Nat) : Nat := 0x400160114 + c * 0x80
abbrev F.VSC_PB_LO_ADDR (c : Nat) : Fld := ⟨R.VSC_PB_LO c, 31, 8⟩
/-- VSC_PB_HI{c} (03 R116). -/
abbrev R.VSC_PB_HI (c : Nat) : Nat := 0x400160118 + c * 0x80
abbrev F.VSC_PB_HI_ADDR (c : Nat) : Fld := ⟨R.VSC_PB_HI c, 15, 0⟩
/-- VSC_OUT_LO{c} (03 R116). -/
abbrev R.VSC_OUT_LO (c : Nat) : Nat := 0x40016011C + c * 0x80
abbrev F.VSC_OUT_LO_ADDR (c : Nat) : Fld := ⟨R.VSC_OUT_LO c, 31, 8⟩
/-- VSC_OUT_HI{c} (03 R116). -/
abbrev R.VSC_OUT_HI (c : Nat) : Nat := 0x400160120 + c * 0x80
abbrev F.VSC_OUT_HI_ADDR (c : Nat) : Fld := ⟨R.VSC_OUT_HI c, 15, 0⟩
/-- VSC_TAP_LO{c} (03 R116). -/
abbrev R.VSC_TAP_LO (c : Nat) : Nat := 0x400160124 + c * 0x80
abbrev F.VSC_TAP_LO_ADDR (c : Nat) : Fld := ⟨R.VSC_TAP_LO c, 31, 8⟩
/-- VSC_TAP_HI{c} (03 R116). -/
abbrev R.VSC_TAP_HI (c : Nat) : Nat := 0x400160128 + c * 0x80
abbrev F.VSC_TAP_HI_ADDR (c : Nat) : Fld := ⟨R.VSC_TAP_HI c, 15, 0⟩
/-- VSC_ST_LO{c} (03 R116). -/
abbrev R.VSC_ST_LO (c : Nat) : Nat := 0x40016012C + c * 0x80
abbrev F.VSC_ST_LO_ADDR (c : Nat) : Fld := ⟨R.VSC_ST_LO c, 31, 8⟩
/-- VSC_ST_HI{c} (03 R116). -/
abbrev R.VSC_ST_HI (c : Nat) : Nat := 0x400160130 + c * 0x80
abbrev F.VSC_ST_HI_ADDR (c : Nat) : Fld := ⟨R.VSC_ST_HI c, 15, 0⟩
/-- VSC_BUF{c} (03 R116). -/
abbrev R.VSC_BUF (c : Nat) : Nat := 0x400160134 + c * 0x80
abbrev F.VSC_BUF_NBUF (c : Nat) : Fld := ⟨R.VSC_BUF c, 27, 24⟩
abbrev F.VSC_BUF_STRIDE (c : Nat) : Fld := ⟨R.VSC_BUF c, 23, 0⟩
/-- VSC_TSTR{c} (03 R116). -/
abbrev R.VSC_TSTR (c : Nat) : Nat := 0x400160138 + c * 0x80
abbrev F.VSC_TSTR_TSTR (c : Nat) : Fld := ⟨R.VSC_TSTR c, 23, 0⟩
/-- VSC_NQ{c} (03 R116). -/
abbrev R.VSC_NQ (c : Nat) : Nat := 0x40016013C + c * 0x80
abbrev F.VSC_NQ_EN (c : Nat) : Fld := ⟨R.VSC_NQ c, 7, 7⟩
abbrev F.VSC_NQ_QUEUE (c : Nat) : Fld := ⟨R.VSC_NQ c, 6, 0⟩
/-- VSC_WR{c} (03 R116). -/
abbrev R.VSC_WR (c : Nat) : Nat := 0x400160140 + c * 0x80
abbrev F.VSC_WR_WR (c : Nat) : Fld := ⟨R.VSC_WR c, 15, 0⟩
/-- VSC_REL{c} (03 R116). -/
abbrev R.VSC_REL (c : Nat) : Nat := 0x400160144 + c * 0x80
abbrev F.VSC_REL_REL (c : Nat) : Fld := ⟨R.VSC_REL c, 15, 0⟩
/-- VSC_CSTAT{c} (03 R116). -/
abbrev R.VSC_CSTAT (c : Nat) : Nat := 0x400160148 + c * 0x80
abbrev F.VSC_CSTAT_MIGPEND (c : Nat) : Fld := ⟨R.VSC_CSTAT c, 19, 19⟩
abbrev F.VSC_CSTAT_OPEN (c : Nat) : Fld := ⟨R.VSC_CSTAT c, 18, 18⟩
abbrev F.VSC_CSTAT_CFGERR (c : Nat) : Fld := ⟨R.VSC_CSTAT c, 17, 17⟩
abbrev F.VSC_CSTAT_MARKS (c : Nat) : Fld := ⟨R.VSC_CSTAT c, 11, 0⟩
/-- VSC_FCNT{c} (03 R116). -/
abbrev R.VSC_FCNT (c : Nat) : Nat := 0x40016014C + c * 0x80
abbrev F.VSC_FCNT_CTXFN (c : Nat) : Fld := ⟨R.VSC_FCNT c, 31, 0⟩
/-- VSC_DCNT{c} (03 R116). -/
abbrev R.VSC_DCNT (c : Nat) : Nat := 0x400160150 + c * 0x80
abbrev F.VSC_DCNT_TRUNC (c : Nat) : Fld := ⟨R.VSC_DCNT c, 31, 16⟩
abbrev F.VSC_DCNT_DROP (c : Nat) : Fld := ⟨R.VSC_DCNT c, 15, 0⟩
/-- VSC_UCNT{c} (03 R116). -/
abbrev R.VSC_UCNT (c : Nat) : Nat := 0x400160154 + c * 0x80
abbrev F.VSC_UCNT_XLINES (c : Nat) : Fld := ⟨R.VSC_UCNT c, 31, 16⟩
abbrev F.VSC_UCNT_UNTRIG (c : Nat) : Fld := ⟨R.VSC_UCNT c, 15, 0⟩
/-- VSC_CCLR{c} (03 R116). -/
abbrev R.VSC_CCLR (c : Nat) : Nat := 0x400160158 + c * 0x80
abbrev F.VSC_CCLR_CLR (c : Nat) : Fld := ⟨R.VSC_CCLR c, 0, 0⟩

/-- HRA_CAL (04 R162). -/
abbrev R.HRA_CAL : Nat := 0x400300000
abbrev F.HRA_CAL_PER : Fld := ⟨R.HRA_CAL, 15, 8⟩
abbrev F.HRA_CAL_TEMP : Fld := ⟨R.HRA_CAL, 1, 1⟩
abbrev F.HRA_CAL_NOW : Fld := ⟨R.HRA_CAL, 0, 0⟩
/-- HRA_STAT (04 R162). -/
abbrev R.HRA_STAT : Nat := 0x400300004
abbrev F.HRA_STAT_CFGERR : Fld := ⟨R.HRA_STAT, 11, 11⟩
abbrev F.HRA_STAT_CALFAIL : Fld := ⟨R.HRA_STAT, 10, 10⟩
abbrev F.HRA_STAT_OMIT : Fld := ⟨R.HRA_STAT, 9, 9⟩
abbrev F.HRA_STAT_CALACT : Fld := ⟨R.HRA_STAT, 3, 3⟩
abbrev F.HRA_STAT_CALCH : Fld := ⟨R.HRA_STAT, 2, 0⟩
/-- HRA_CLR (04 R162). -/
abbrev R.HRA_CLR : Nat := 0x400300008
abbrev F.HRA_CLR_CLR : Fld := ⟨R.HRA_CLR, 0, 0⟩
/-- HRA_CFG{n} (04 R162). -/
abbrev R.HRA_CFG (n : Nat) : Nat := 0x400300100 + n * 0x40
abbrev F.HRA_CFG_TLINE (n : Nat) : Fld := ⟨R.HRA_CFG n, 12, 8⟩
abbrev F.HRA_CFG_RSP (n : Nat) : Fld := ⟨R.HRA_CFG n, 7, 5⟩
abbrev F.HRA_CFG_RAT (n : Nat) : Fld := ⟨R.HRA_CFG n, 4, 4⟩
abbrev F.HRA_CFG_GAIN (n : Nat) : Fld := ⟨R.HRA_CFG n, 3, 1⟩
abbrev F.HRA_CFG_EN (n : Nat) : Fld := ⟨R.HRA_CFG n, 0, 0⟩
/-- HRA_IMP{n} (04 R162). -/
abbrev R.HRA_IMP (n : Nat) : Nat := 0x400300104 + n * 0x40
abbrev F.HRA_IMP_BSH (n : Nat) : Fld := ⟨R.HRA_IMP n, 14, 11⟩
abbrev F.HRA_IMP_ESHIFT (n : Nat) : Fld := ⟨R.HRA_IMP n, 10, 5⟩
abbrev F.HRA_IMP_KBIN (n : Nat) : Fld := ⟨R.HRA_IMP n, 4, 1⟩
abbrev F.HRA_IMP_IEN (n : Nat) : Fld := ⟨R.HRA_IMP n, 0, 0⟩
/-- HRA_ITHR{n} (04 R162). -/
abbrev R.HRA_ITHR (n : Nat) : Nat := 0x400300108 + n * 0x40
abbrev F.HRA_ITHR_THR (n : Nat) : Fld := ⟨R.HRA_ITHR n, 22, 0⟩
/-- HRA_IHLD{n} (04 R162). -/
abbrev R.HRA_IHLD (n : Nat) : Nat := 0x40030010C + n * 0x40
abbrev F.HRA_IHLD_MAXLEN (n : Nat) : Fld := ⟨R.HRA_IHLD n, 31, 16⟩
abbrev F.HRA_IHLD_HOLD (n : Nat) : Fld := ⟨R.HRA_IHLD n, 15, 0⟩
/-- HRA_Q{n} (04 R162). -/
abbrev R.HRA_Q (n : Nat) : Nat := 0x400300110 + n * 0x40
abbrev F.HRA_Q_SQEN (n : Nat) : Fld := ⟨R.HRA_Q n, 15, 15⟩
abbrev F.HRA_Q_SQUEUE (n : Nat) : Fld := ⟨R.HRA_Q n, 14, 8⟩
abbrev F.HRA_Q_IQEN (n : Nat) : Fld := ⟨R.HRA_Q n, 7, 7⟩
abbrev F.HRA_Q_IQUEUE (n : Nat) : Fld := ⟨R.HRA_Q n, 6, 0⟩
/-- HRA_DATA{n} (04 R162). -/
abbrev R.HRA_DATA (n : Nat) : Nat := 0x400300114 + n * 0x40
abbrev F.HRA_DATA_OVR (n : Nat) : Fld := ⟨R.HRA_DATA n, 26, 26⟩
abbrev F.HRA_DATA_SETTLE (n : Nat) : Fld := ⟨R.HRA_DATA n, 25, 25⟩
abbrev F.HRA_DATA_SHADOW (n : Nat) : Fld := ⟨R.HRA_DATA n, 24, 24⟩
abbrev F.HRA_DATA_SAMPLE (n : Nat) : Fld := ⟨R.HRA_DATA n, 23, 0⟩
/-- HRA_CSTAT{n} (04 R162). -/
abbrev R.HRA_CSTAT (n : Nat) : Nat := 0x400300118 + n * 0x40
abbrev F.HRA_CSTAT_POISON (n : Nat) : Fld := ⟨R.HRA_CSTAT n, 4, 4⟩
abbrev F.HRA_CSTAT_EXCLOW (n : Nat) : Fld := ⟨R.HRA_CSTAT n, 3, 3⟩
abbrev F.HRA_CSTAT_OMIT (n : Nat) : Fld := ⟨R.HRA_CSTAT n, 2, 2⟩
abbrev F.HRA_CSTAT_CALFAIL (n : Nat) : Fld := ⟨R.HRA_CSTAT n, 1, 1⟩
abbrev F.HRA_CSTAT_OVR (n : Nat) : Fld := ⟨R.HRA_CSTAT n, 0, 0⟩
/-- HRA_ICNT{n} (04 R162). -/
abbrev R.HRA_ICNT (n : Nat) : Nat := 0x40030011C + n * 0x40
abbrev F.HRA_ICNT_COUNT (n : Nat) : Fld := ⟨R.HRA_ICNT n, 31, 0⟩
/-- HRA_XCNT{n} (04 R162). -/
abbrev R.HRA_XCNT (n : Nat) : Nat := 0x400300120 + n * 0x40
abbrev F.HRA_XCNT_FORCED (n : Nat) : Fld := ⟨R.HRA_XCNT n, 31, 16⟩
abbrev F.HRA_XCNT_OMIT (n : Nat) : Fld := ⟨R.HRA_XCNT n, 15, 0⟩
/-- HRA_CALAGE{n} (04 R162). -/
abbrev R.HRA_CALAGE (n : Nat) : Nat := 0x400300124 + n * 0x40
abbrev F.HRA_CALAGE_AGE (n : Nat) : Fld := ⟨R.HRA_CALAGE n, 15, 0⟩

/-- GPA_CAL (04 R163). -/
abbrev R.GPA_CAL : Nat := 0x400310000
abbrev F.GPA_CAL_PER : Fld := ⟨R.GPA_CAL, 15, 8⟩
abbrev F.GPA_CAL_NOW : Fld := ⟨R.GPA_CAL, 0, 0⟩
/-- GPA_STAT (04 R163). -/
abbrev R.GPA_STAT : Nat := 0x400310004
abbrev F.GPA_STAT_CFGERR : Fld := ⟨R.GPA_STAT, 11, 11⟩
abbrev F.GPA_STAT_CALLATE : Fld := ⟨R.GPA_STAT, 10, 10⟩
abbrev F.GPA_STAT_OMIT : Fld := ⟨R.GPA_STAT, 9, 9⟩
abbrev F.GPA_STAT_BUSY : Fld := ⟨R.GPA_STAT, 0, 0⟩
/-- GPA_CLR (04 R163). -/
abbrev R.GPA_CLR : Nat := 0x400310008
abbrev F.GPA_CLR_CLR : Fld := ⟨R.GPA_CLR, 0, 0⟩
/-- GPA_LCFG{L} (04 R163). -/
abbrev R.GPA_LCFG (L : Nat) : Nat := 0x400310100 + L * 0x40
abbrev F.GPA_LCFG_QUEUE (L : Nat) : Fld := ⟨R.GPA_LCFG L, 19, 13⟩
abbrev F.GPA_LCFG_QEN (L : Nat) : Fld := ⟨R.GPA_LCFG L, 12, 12⟩
abbrev F.GPA_LCFG_LEN (L : Nat) : Fld := ⟨R.GPA_LCFG L, 11, 6⟩
abbrev F.GPA_LCFG_TLINE (L : Nat) : Fld := ⟨R.GPA_LCFG L, 5, 1⟩
abbrev F.GPA_LCFG_EN (L : Nat) : Fld := ⟨R.GPA_LCFG L, 0, 0⟩
/-- GPA_LOMIT{L} (04 R163). -/
abbrev R.GPA_LOMIT (L : Nat) : Nat := 0x400310104 + L * 0x40
abbrev F.GPA_LOMIT_OMIT (L : Nat) : Fld := ⟨R.GPA_LOMIT L, 31, 0⟩
/-- GPA_SLOT{L}{k} (04 R163). -/
abbrev R.GPA_SLOT (L : Nat) (k : Nat) : Nat := 0x400310108 + L * 0x40 + k * 4
abbrev F.GPA_SLOT_CH0 (L : Nat) (k : Nat) : Fld := ⟨R.GPA_SLOT L k, 4, 0⟩
abbrev F.GPA_SLOT_CH1 (L : Nat) (k : Nat) : Fld := ⟨R.GPA_SLOT L k, 12, 8⟩
abbrev F.GPA_SLOT_CH2 (L : Nat) (k : Nat) : Fld := ⟨R.GPA_SLOT L k, 20, 16⟩
abbrev F.GPA_SLOT_CH3 (L : Nat) (k : Nat) : Fld := ⟨R.GPA_SLOT L k, 28, 24⟩
/-- GPA_CCFG{c} (04 R163). -/
abbrev R.GPA_CCFG (c : Nat) : Nat := 0x400310200 + c * 0x10
abbrev F.GPA_CCFG_RSP (c : Nat) : Fld := ⟨R.GPA_CCFG c, 5, 3⟩
abbrev F.GPA_CCFG_RAT (c : Nat) : Fld := ⟨R.GPA_CCFG c, 2, 2⟩
abbrev F.GPA_CCFG_RANGE (c : Nat) : Fld := ⟨R.GPA_CCFG c, 1, 0⟩
/-- GPA_CDATA{c} (04 R163). -/
abbrev R.GPA_CDATA (c : Nat) : Nat := 0x400310204 + c * 0x10
abbrev F.GPA_CDATA_VALID (c : Nat) : Fld := ⟨R.GPA_CDATA c, 31, 31⟩
abbrev F.GPA_CDATA_EXCLOW (c : Nat) : Fld := ⟨R.GPA_CDATA c, 30, 30⟩
abbrev F.GPA_CDATA_OVR (c : Nat) : Fld := ⟨R.GPA_CDATA c, 29, 29⟩
abbrev F.GPA_CDATA_VALUE (c : Nat) : Fld := ⟨R.GPA_CDATA c, 17, 0⟩
/-- GPA_CAPCFG{p} (04 R163). -/
abbrev R.GPA_CAPCFG (p : Nat) : Nat := 0x400310400 + p * 0x10
abbrev F.GPA_CAPCFG_TLINE (p : Nat) : Fld := ⟨R.GPA_CAPCFG p, 25, 21⟩
abbrev F.GPA_CAPCFG_NCYC (p : Nat) : Fld := ⟨R.GPA_CAPCFG p, 20, 9⟩
abbrev F.GPA_CAPCFG_FREQ (p : Nat) : Fld := ⟨R.GPA_CAPCFG p, 8, 1⟩
abbrev F.GPA_CAPCFG_EN (p : Nat) : Fld := ⟨R.GPA_CAPCFG p, 0, 0⟩
/-- GPA_CAPC{p} (04 R163). -/
abbrev R.GPA_CAPC (p : Nat) : Nat := 0x400310404 + p * 0x10
abbrev F.GPA_CAPC_SAT (p : Nat) : Fld := ⟨R.GPA_CAPC p, 31, 31⟩
abbrev F.GPA_CAPC_C (p : Nat) : Fld := ⟨R.GPA_CAPC p, 16, 0⟩
/-- GPA_CAPG{p} (04 R163). -/
abbrev R.GPA_CAPG (p : Nat) : Nat := 0x400310408 + p * 0x10
abbrev F.GPA_CAPG_SAT (p : Nat) : Fld := ⟨R.GPA_CAPG p, 31, 31⟩
abbrev F.GPA_CAPG_G (p : Nat) : Fld := ⟨R.GPA_CAPG p, 16, 0⟩

/-- FQI_STALE (04 R164). -/
abbrev R.FQI_STALE : Nat := 0x400320000
abbrev F.FQI_STALE_STALE : Fld := ⟨R.FQI_STALE, 23, 0⟩
/-- FQI_OVR (04 R164). -/
abbrev R.FQI_OVR : Nat := 0x400320004
abbrev F.FQI_OVR_OVERRANGE : Fld := ⟨R.FQI_OVR, 23, 0⟩
/-- FQI_STAT (04 R164). -/
abbrev R.FQI_STAT : Nat := 0x400320008
abbrev F.FQI_STAT_CFGERR : Fld := ⟨R.FQI_STAT, 2, 2⟩
abbrev F.FQI_STAT_OVRS : Fld := ⟨R.FQI_STAT, 1, 1⟩
abbrev F.FQI_STAT_STALES : Fld := ⟨R.FQI_STAT, 0, 0⟩
/-- FQI_CLR (04 R164). -/
abbrev R.FQI_CLR : Nat := 0x40032000C
abbrev F.FQI_CLR_CLR : Fld := ⟨R.FQI_CLR, 0, 0⟩
/-- FQI_CFG{i} (04 R164). -/
abbrev R.FQI_CFG (i : Nat) : Nat := 0x400320100 + i * 0x40
abbrev F.FQI_CFG_EQUEUE (i : Nat) : Fld := ⟨R.FQI_CFG i, 26, 20⟩
abbrev F.FQI_CFG_EQEN (i : Nat) : Fld := ⟨R.FQI_CFG i, 19, 19⟩
abbrev F.FQI_CFG_FAVG (i : Nat) : Fld := ⟨R.FQI_CFG i, 18, 13⟩
abbrev F.FQI_CFG_PULL (i : Nat) : Fld := ⟨R.FQI_CFG i, 12, 12⟩
abbrev F.FQI_CFG_VR (i : Nat) : Fld := ⟨R.FQI_CFG i, 11, 11⟩
abbrev F.FQI_CFG_GF (i : Nat) : Fld := ⟨R.FQI_CFG i, 10, 3⟩
abbrev F.FQI_CFG_EDGE (i : Nat) : Fld := ⟨R.FQI_CFG i, 2, 1⟩
abbrev F.FQI_CFG_EN (i : Nat) : Fld := ⟨R.FQI_CFG i, 0, 0⟩
/-- FQI_STALL{i} (04 R164). -/
abbrev R.FQI_STALL (i : Nat) : Nat := 0x400320104 + i * 0x40
abbrev F.FQI_STALL_STALL (i : Nat) : Fld := ⟨R.FQI_STALL i, 23, 0⟩
/-- FQI_VR{i} (04 R164). -/
abbrev R.FQI_VR (i : Nat) : Nat := 0x400320108 + i * 0x40
abbrev F.FQI_VR_VRFRAC (i : Nat) : Fld := ⟨R.FQI_VR i, 9, 8⟩
abbrev F.FQI_VR_VRMIN (i : Nat) : Fld := ⟨R.FQI_VR i, 7, 0⟩
/-- FQI_FREQ{i} (04 R164). -/
abbrev R.FQI_FREQ (i : Nat) : Nat := 0x40032010C + i * 0x40
abbrev F.FQI_FREQ_FREQ (i : Nat) : Fld := ⟨R.FQI_FREQ i, 31, 0⟩
/-- FQI_PER{i} (04 R164). -/
abbrev R.FQI_PER (i : Nat) : Nat := 0x400320110 + i * 0x40
abbrev F.FQI_PER_PER (i : Nat) : Fld := ⟨R.FQI_PER i, 31, 0⟩
/-- FQI_TLO{i} (04 R164). -/
abbrev R.FQI_TLO (i : Nat) : Nat := 0x400320114 + i * 0x40
abbrev F.FQI_TLO_T (i : Nat) : Fld := ⟨R.FQI_TLO i, 31, 0⟩
/-- FQI_THI{i} (04 R164). -/
abbrev R.FQI_THI (i : Nat) : Nat := 0x400320118 + i * 0x40
abbrev F.FQI_THI_T (i : Nat) : Fld := ⟨R.FQI_THI i, 31, 0⟩
/-- FQI_ECNT{i} (04 R164). -/
abbrev R.FQI_ECNT (i : Nat) : Nat := 0x40032011C + i * 0x40
abbrev F.FQI_ECNT_COUNT (i : Nat) : Fld := ⟨R.FQI_ECNT i, 31, 0⟩
/-- FQI_OCNT{i} (04 R164). -/
abbrev R.FQI_OCNT (i : Nat) : Nat := 0x400320120 + i * 0x40
abbrev F.FQI_OCNT_COUNT (i : Nat) : Fld := ⟨R.FQI_OCNT i, 31, 0⟩

/-- FEX_CFG (05 R199). -/
abbrev R.FEX_CFG : Nat := 0x400200000
abbrev F.FEX_CFG_ARENA : Fld := ⟨R.FEX_CFG, 12, 8⟩
abbrev F.FEX_CFG_EN : Fld := ⟨R.FEX_CFG, 0, 0⟩
/-- FEX_STAT (05 R199). -/
abbrev R.FEX_STAT : Nat := 0x400200004
abbrev F.FEX_STAT_JOBS : Fld := ⟨R.FEX_STAT, 11, 6⟩
abbrev F.FEX_STAT_BUSY : Fld := ⟨R.FEX_STAT, 5, 5⟩
abbrev F.FEX_STAT_SETOK : Fld := ⟨R.FEX_STAT, 4, 4⟩
abbrev F.FEX_STAT_POISON : Fld := ⟨R.FEX_STAT, 3, 3⟩
abbrev F.FEX_STAT_JDROP : Fld := ⟨R.FEX_STAT, 2, 2⟩
abbrev F.FEX_STAT_CFGERR : Fld := ⟨R.FEX_STAT, 1, 1⟩
/-- FEX_SETID (05 R199). -/
abbrev R.FEX_SETID : Nat := 0x400200008
abbrev F.FEX_SETID_SETID : Fld := ⟨R.FEX_SETID, 31, 0⟩
/-- FEX_PVAL_LO (05 R199). -/
abbrev R.FEX_PVAL_LO : Nat := 0x40020000C
abbrev F.FEX_PVAL_LO_VALID : Fld := ⟨R.FEX_PVAL_LO, 31, 0⟩
/-- FEX_PVAL_HI (05 R199). -/
abbrev R.FEX_PVAL_HI : Nat := 0x400200010
abbrev F.FEX_PVAL_HI_VALID : Fld := ⟨R.FEX_PVAL_HI, 31, 0⟩
/-- FEX_WBASE_LO (05 R199). -/
abbrev R.FEX_WBASE_LO : Nat := 0x400200014
abbrev F.FEX_WBASE_LO_ADDR : Fld := ⟨R.FEX_WBASE_LO, 31, 0⟩
/-- FEX_WBASE_HI (05 R199). -/
abbrev R.FEX_WBASE_HI : Nat := 0x400200018
abbrev F.FEX_WBASE_HI_ADDR : Fld := ⟨R.FEX_WBASE_HI, 15, 0⟩
/-- FEX_JCNT (05 R199). -/
abbrev R.FEX_JCNT : Nat := 0x40020001C
abbrev F.FEX_JCNT_COUNT : Fld := ⟨R.FEX_JCNT, 31, 0⟩
/-- FEX_JDROP (05 R199). -/
abbrev R.FEX_JDROP : Nat := 0x400200020
abbrev F.FEX_JDROP_COUNT : Fld := ⟨R.FEX_JDROP, 31, 0⟩
/-- FEX_BUSY (05 R199). -/
abbrev R.FEX_BUSY : Nat := 0x400200024
abbrev F.FEX_BUSY_TIME : Fld := ⟨R.FEX_BUSY, 31, 0⟩
/-- FEX_CLR (05 R199). -/
abbrev R.FEX_CLR : Nat := 0x400200028
abbrev F.FEX_CLR_CLR : Fld := ⟨R.FEX_CLR, 0, 0⟩

/-- PRJ_PTS (05 R200). -/
abbrev R.PRJ_PTS : Nat := 0x400210000
abbrev F.PRJ_PTS_COUNT : Fld := ⟨R.PRJ_PTS, 31, 0⟩
/-- PRJ_OUT (05 R200). -/
abbrev R.PRJ_OUT : Nat := 0x400210004
abbrev F.PRJ_OUT_COUNT : Fld := ⟨R.PRJ_OUT, 31, 0⟩
/-- PRJ_CLR (05 R200). -/
abbrev R.PRJ_CLR : Nat := 0x400210008
abbrev F.PRJ_CLR_CLR : Fld := ⟨R.PRJ_CLR, 0, 0⟩

/-- FUS_SD_LO (05 R201). -/
abbrev R.FUS_SD_LO : Nat := 0x400220000
abbrev F.FUS_SD_LO_ADDR : Fld := ⟨R.FUS_SD_LO, 31, 8⟩
/-- FUS_SD_HI (05 R201). -/
abbrev R.FUS_SD_HI : Nat := 0x400220004
abbrev F.FUS_SD_HI_ADDR : Fld := ⟨R.FUS_SD_HI, 15, 0⟩
/-- FUS_STAT (05 R201). -/
abbrev R.FUS_STAT : Nat := 0x400220008
abbrev F.FUS_STAT_MISM : Fld := ⟨R.FUS_STAT, 3, 3⟩
abbrev F.FUS_STAT_LATE : Fld := ⟨R.FUS_STAT, 2, 2⟩
abbrev F.FUS_STAT_POISON : Fld := ⟨R.FUS_STAT, 1, 1⟩
abbrev F.FUS_STAT_CFGERR : Fld := ⟨R.FUS_STAT, 0, 0⟩
/-- FUS_INST (05 R201). -/
abbrev R.FUS_INST : Nat := 0x40022000C
abbrev F.FUS_INST_ID : Fld := ⟨R.FUS_INST, 31, 0⟩
/-- FUS_HQ (05 R201). -/
abbrev R.FUS_HQ : Nat := 0x400220010
abbrev F.FUS_HQ_EN : Fld := ⟨R.FUS_HQ, 7, 7⟩
abbrev F.FUS_HQ_QUEUE : Fld := ⟨R.FUS_HQ, 6, 0⟩
/-- FUS_CLR (05 R201). -/
abbrev R.FUS_CLR : Nat := 0x400220014
abbrev F.FUS_CLR_CLR : Fld := ⟨R.FUS_CLR, 0, 0⟩
/-- FUS_GCFG{g} (05 R201). -/
abbrev R.FUS_GCFG (g : Nat) : Nat := 0x400220100 + g * 0x40
abbrev F.FUS_GCFG_HM1 (g : Nat) : Fld := ⟨R.FUS_GCFG g, 23, 16⟩
abbrev F.FUS_GCFG_WM1 (g : Nat) : Fld := ⟨R.FUS_GCFG g, 15, 8⟩
abbrev F.FUS_GCFG_C (g : Nat) : Fld := ⟨R.FUS_GCFG g, 7, 1⟩
abbrev F.FUS_GCFG_EN (g : Nat) : Fld := ⟨R.FUS_GCFG g, 0, 0⟩
/-- FUS_GWIN{g} (05 R201). -/
abbrev R.FUS_GWIN (g : Nat) : Nat := 0x400220104 + g * 0x40
abbrev F.FUS_GWIN_WLEN (g : Nat) : Fld := ⟨R.FUS_GWIN g, 16, 0⟩
/-- FUS_GFILL{g} (05 R201). -/
abbrev R.FUS_GFILL (g : Nat) : Nat := 0x400220108 + g * 0x40
abbrev F.FUS_GFILL_SQEN (g : Nat) : Fld := ⟨R.FUS_GFILL g, 23, 23⟩
abbrev F.FUS_GFILL_SQUEUE (g : Nat) : Fld := ⟨R.FUS_GFILL g, 22, 16⟩
abbrev F.FUS_GFILL_FILL (g : Nat) : Fld := ⟨R.FUS_GFILL g, 15, 0⟩
/-- FUS_GSUM_LO{g} (05 R201). -/
abbrev R.FUS_GSUM_LO (g : Nat) : Nat := 0x40022010C + g * 0x40
abbrev F.FUS_GSUM_LO_MASK (g : Nat) : Fld := ⟨R.FUS_GSUM_LO g, 31, 0⟩
/-- FUS_GSUM_HI{g} (05 R201). -/
abbrev R.FUS_GSUM_HI (g : Nat) : Nat := 0x400220110 + g * 0x40
abbrev F.FUS_GSUM_HI_MASK (g : Nat) : Fld := ⟨R.FUS_GSUM_HI g, 31, 0⟩
/-- FUS_GOUT_LO{g} (05 R201). -/
abbrev R.FUS_GOUT_LO (g : Nat) : Nat := 0x400220114 + g * 0x40
abbrev F.FUS_GOUT_LO_ADDR (g : Nat) : Fld := ⟨R.FUS_GOUT_LO g, 31, 8⟩
/-- FUS_GOUT_HI{g} (05 R201). -/
abbrev R.FUS_GOUT_HI (g : Nat) : Nat := 0x400220118 + g * 0x40
abbrev F.FUS_GOUT_HI_ADDR (g : Nat) : Fld := ⟨R.FUS_GOUT_HI g, 15, 0⟩
/-- FUS_GSTR{g} (05 R201). -/
abbrev R.FUS_GSTR (g : Nat) : Nat := 0x40022011C + g * 0x40
abbrev F.FUS_GSTR_GSTR (g : Nat) : Fld := ⟨R.FUS_GSTR g, 23, 0⟩
/-- FUS_GACC_LO{g} (05 R201). -/
abbrev R.FUS_GACC_LO (g : Nat) : Nat := 0x400220120 + g * 0x40
abbrev F.FUS_GACC_LO_ADDR (g : Nat) : Fld := ⟨R.FUS_GACC_LO g, 31, 8⟩
/-- FUS_GACC_HI{g} (05 R201). -/
abbrev R.FUS_GACC_HI (g : Nat) : Nat := 0x400220124 + g * 0x40
abbrev F.FUS_GACC_HI_ADDR (g : Nat) : Fld := ⟨R.FUS_GACC_HI g, 15, 0⟩
/-- FUS_GLAST{g} (05 R201). -/
abbrev R.FUS_GLAST (g : Nat) : Nat := 0x400220128 + g * 0x40
abbrev F.FUS_GLAST_BUF (g : Nat) : Fld := ⟨R.FUS_GLAST g, 0, 0⟩
/-- FUS_GINST{g} (05 R201). -/
abbrev R.FUS_GINST (g : Nat) : Nat := 0x40022012C + g * 0x40
abbrev F.FUS_GINST_ID (g : Nat) : Fld := ⟨R.FUS_GINST g, 31, 0⟩
/-- FUS_SCTL{s} (05 R201). -/
abbrev R.FUS_SCTL (s : Nat) : Nat := 0x400220200 + s * 0x20
abbrev F.FUS_SCTL_ERR (s : Nat) : Fld := ⟨R.FUS_SCTL s, 11, 8⟩
abbrev F.FUS_SCTL_EN (s : Nat) : Fld := ⟨R.FUS_SCTL s, 0, 0⟩
/-- FUS_SCON{s} (05 R201). -/
abbrev R.FUS_SCON (s : Nat) : Nat := 0x400220204 + s * 0x20
abbrev F.FUS_SCON_COUNT (s : Nat) : Fld := ⟨R.FUS_SCON s, 31, 0⟩
/-- FUS_SERR{s} (05 R201). -/
abbrev R.FUS_SERR (s : Nat) : Nat := 0x400220208 + s * 0x20
abbrev F.FUS_SERR_LATE (s : Nat) : Fld := ⟨R.FUS_SERR s, 31, 16⟩
abbrev F.FUS_SERR_MISM (s : Nat) : Fld := ⟨R.FUS_SERR s, 15, 0⟩
/-- FUS_SLOSS{s} (05 R201). -/
abbrev R.FUS_SLOSS (s : Nat) : Nat := 0x40022020C + s * 0x20
abbrev F.FUS_SLOSS_OUTSIDE (s : Nat) : Fld := ⟨R.FUS_SLOSS s, 31, 16⟩
abbrev F.FUS_SLOSS_DROP (s : Nat) : Fld := ⟨R.FUS_SLOSS s, 15, 0⟩
/-- FUS_SDONE{s} (05 R201). -/
abbrev R.FUS_SDONE (s : Nat) : Nat := 0x400220210 + s * 0x20
abbrev F.FUS_SDONE_CTXFN (s : Nat) : Fld := ⟨R.FUS_SDONE s, 31, 0⟩
/-- FUS_SPUT{s} (05 R201). -/
abbrev R.FUS_SPUT (s : Nat) : Nat := 0x400220214 + s * 0x20
abbrev F.FUS_SPUT_VALUE (s : Nat) : Fld := ⟨R.FUS_SPUT s, 31, 0⟩
/-- FUS_SPSEQ{s} (05 R201). -/
abbrev R.FUS_SPSEQ (s : Nat) : Nat := 0x400220218 + s * 0x20
abbrev F.FUS_SPSEQ_SEQ (s : Nat) : Fld := ⟨R.FUS_SPSEQ s, 31, 0⟩
/-- FUS_SMARK{s} (05 R201). -/
abbrev R.FUS_SMARK (s : Nat) : Nat := 0x40022021C + s * 0x20
abbrev F.FUS_SMARK_MARKS (s : Nat) : Fld := ⟨R.FUS_SMARK s, 11, 0⟩
/-- FUS_HCFG{h} (05 R201). -/
abbrev R.FUS_HCFG (h : Nat) : Nat := 0x400220600 + h * 0x10
abbrev F.FUS_HCFG_PROG (h : Nat) : Fld := ⟨R.FUS_HCFG h, 13, 8⟩
abbrev F.FUS_HCFG_GRID (h : Nat) : Fld := ⟨R.FUS_HCFG h, 2, 1⟩
abbrev F.FUS_HCFG_EN (h : Nat) : Fld := ⟨R.FUS_HCFG h, 0, 0⟩
/-- FUS_HOUT{h} (05 R201). -/
abbrev R.FUS_HOUT (h : Nat) : Nat := 0x400220604 + h * 0x10
abbrev F.FUS_HOUT_VALUE (h : Nat) : Fld := ⟨R.FUS_HOUT h, 31, 0⟩
/-- FUS_HINST{h} (05 R201). -/
abbrev R.FUS_HINST (h : Nat) : Nat := 0x400220608 + h * 0x10
abbrev F.FUS_HINST_ID (h : Nat) : Fld := ⟨R.FUS_HINST h, 31, 0⟩
/-- FUS_HSTAT{h} (05 R201). -/
abbrev R.FUS_HSTAT (h : Nat) : Nat := 0x40022060C + h * 0x10
abbrev F.FUS_HSTAT_ERR (h : Nat) : Fld := ⟨R.FUS_HSTAT h, 3, 3⟩
abbrev F.FUS_HSTAT_OVERRUN (h : Nat) : Fld := ⟨R.FUS_HSTAT h, 2, 2⟩
abbrev F.FUS_HSTAT_POISON (h : Nat) : Fld := ⟨R.FUS_HSTAT h, 1, 1⟩
abbrev F.FUS_HSTAT_VALID (h : Nat) : Fld := ⟨R.FUS_HSTAT h, 0, 0⟩

/-- YT_CFG (05 R202). -/
abbrev R.YT_CFG : Nat := 0x400230000
abbrev F.YT_CFG_CELL : Fld := ⟨R.YT_CFG, 19, 16⟩
abbrev F.YT_CFG_HEAD : Fld := ⟨R.YT_CFG, 13, 9⟩
abbrev F.YT_CFG_QUEUE : Fld := ⟨R.YT_CFG, 8, 2⟩
abbrev F.YT_CFG_QEN : Fld := ⟨R.YT_CFG, 1, 1⟩
abbrev F.YT_CFG_EN : Fld := ⟨R.YT_CFG, 0, 0⟩
/-- YT_FLOWFS (05 R202). -/
abbrev R.YT_FLOWFS : Nat := 0x400230004
abbrev F.YT_FLOWFS_FS : Fld := ⟨R.YT_FLOWFS, 31, 0⟩
/-- YT_X (05 R202). -/
abbrev R.YT_X : Nat := 0x400230008
abbrev F.YT_X_X : Fld := ⟨R.YT_X, 31, 0⟩
/-- YT_Y (05 R202). -/
abbrev R.YT_Y : Nat := 0x40023000C
abbrev F.YT_Y_Y : Fld := ⟨R.YT_Y, 31, 0⟩
/-- YT_HDG (05 R202). -/
abbrev R.YT_HDG : Nat := 0x400230010
abbrev F.YT_HDG_HDG : Fld := ⟨R.YT_HDG, 15, 0⟩
/-- YT_WID (05 R202). -/
abbrev R.YT_WID : Nat := 0x400230014
abbrev F.YT_WID_WID : Fld := ⟨R.YT_WID, 15, 0⟩
/-- YT_COMMIT (05 R202). -/
abbrev R.YT_COMMIT : Nat := 0x400230018
abbrev F.YT_COMMIT_COMMIT : Fld := ⟨R.YT_COMMIT, 0, 0⟩
/-- YT_STAT (05 R202). -/
abbrev R.YT_STAT : Nat := 0x40023001C
abbrev F.YT_STAT_CFGERR : Fld := ⟨R.YT_STAT, 3, 3⟩
abbrev F.YT_STAT_MISS : Fld := ⟨R.YT_STAT, 2, 2⟩
abbrev F.YT_STAT_SAT : Fld := ⟨R.YT_STAT, 1, 1⟩
abbrev F.YT_STAT_NOPOS : Fld := ⟨R.YT_STAT, 0, 0⟩
/-- YT_MISS (05 R202). -/
abbrev R.YT_MISS : Nat := 0x400230020
abbrev F.YT_MISS_KG : Fld := ⟨R.YT_MISS, 31, 0⟩
/-- YT_SKIP (05 R202). -/
abbrev R.YT_SKIP : Nat := 0x400230024
abbrev F.YT_SKIP_COUNT : Fld := ⟨R.YT_SKIP, 31, 0⟩
/-- YT_TOTAL (05 R202). -/
abbrev R.YT_TOTAL : Nat := 0x400230028
abbrev F.YT_TOTAL_KG : Fld := ⟨R.YT_TOTAL, 31, 0⟩
/-- YT_CLR (05 R202). -/
abbrev R.YT_CLR : Nat := 0x40023002C
abbrev F.YT_CLR_CLR : Fld := ⟨R.YT_CLR, 0, 0⟩
/-- YT_TCFG{t} (05 R202). -/
abbrev R.YT_TCFG (t : Nat) : Nat := 0x400230040 + t * 0x10
abbrev F.YT_TCFG_TY (t : Nat) : Fld := ⟨R.YT_TCFG t, 27, 16⟩
abbrev F.YT_TCFG_TX (t : Nat) : Fld := ⟨R.YT_TCFG t, 15, 4⟩
abbrev F.YT_TCFG_EN (t : Nat) : Fld := ⟨R.YT_TCFG t, 0, 0⟩
/-- YT_TBASE_LO{t} (05 R202). -/
abbrev R.YT_TBASE_LO (t : Nat) : Nat := 0x400230044 + t * 0x10
abbrev F.YT_TBASE_LO_ADDR (t : Nat) : Fld := ⟨R.YT_TBASE_LO t, 31, 8⟩
/-- YT_TBASE_HI{t} (05 R202). -/
abbrev R.YT_TBASE_HI (t : Nat) : Nat := 0x400230048 + t * 0x10
abbrev F.YT_TBASE_HI_ADDR (t : Nat) : Fld := ⟨R.YT_TBASE_HI t, 15, 0⟩

/-- LPD_CTL{h}{n} (07 R264). -/
abbrev R.LPD_CTL (h : Nat) (n : Nat) : Nat := 0x500100000 + h * 0x100000000 + n * 0x100
abbrev F.LPD_CTL_CSRC (h : Nat) (n : Nat) : Fld := ⟨R.LPD_CTL h n, 23, 16⟩
abbrev F.LPD_CTL_OWNER (h : Nat) (n : Nat) : Fld := ⟨R.LPD_CTL h n, 12, 10⟩
abbrev F.LPD_CTL_TRK (h : Nat) (n : Nat) : Fld := ⟨R.LPD_CTL h n, 7, 7⟩
abbrev F.LPD_CTL_CASC (h : Nat) (n : Nat) : Fld := ⟨R.LPD_CTL h n, 6, 6⟩
abbrev F.LPD_CTL_DSEL (h : Nat) (n : Nat) : Fld := ⟨R.LPD_CTL h n, 4, 4⟩
abbrev F.LPD_CTL_SWB (h : Nat) (n : Nat) : Fld := ⟨R.LPD_CTL h n, 3, 3⟩
abbrev F.LPD_CTL_BANK (h : Nat) (n : Nat) : Fld := ⟨R.LPD_CTL h n, 2, 2⟩
abbrev F.LPD_CTL_MODE (h : Nat) (n : Nat) : Fld := ⟨R.LPD_CTL h n, 1, 1⟩
abbrev F.LPD_CTL_EN (h : Nat) (n : Nat) : Fld := ⟨R.LPD_CTL h n, 0, 0⟩
/-- LPD_STAT{h}{n} (07 R264). -/
abbrev R.LPD_STAT (h : Nat) (n : Nat) : Nat := 0x500100004 + h * 0x100000000 + n * 0x100
abbrev F.LPD_STAT_STAT (h : Nat) (n : Nat) : Fld := ⟨R.LPD_STAT h n, 31, 0⟩
/-- LPD_SP{h}{n} (07 R264). -/
abbrev R.LPD_SP (h : Nat) (n : Nat) : Nat := 0x500100008 + h * 0x100000000 + n * 0x100
abbrev F.LPD_SP_SP (h : Nat) (n : Nat) : Fld := ⟨R.LPD_SP h n, 31, 0⟩
/-- LPD_X{h}{n} (07 R264). -/
abbrev R.LPD_X (h : Nat) (n : Nat) : Nat := 0x50010000C + h * 0x100000000 + n * 0x100
abbrev F.LPD_X_X (h : Nat) (n : Nat) : Fld := ⟨R.LPD_X h n, 31, 0⟩
/-- LPD_M{h}{n} (07 R264). -/
abbrev R.LPD_M (h : Nat) (n : Nat) : Nat := 0x500100010 + h * 0x100000000 + n * 0x100
abbrev F.LPD_M_M (h : Nat) (n : Nat) : Fld := ⟨R.LPD_M h n, 31, 0⟩
/-- LPD_U{h}{n} (07 R264). -/
abbrev R.LPD_U (h : Nat) (n : Nat) : Nat := 0x500100014 + h * 0x100000000 + n * 0x100
abbrev F.LPD_U_U (h : Nat) (n : Nat) : Fld := ⟨R.LPD_U h n, 31, 0⟩
/-- LPD_I{h}{n} (07 R264). -/
abbrev R.LPD_I (h : Nat) (n : Nat) : Nat := 0x500100018 + h * 0x100000000 + n * 0x100
abbrev F.LPD_I_I (h : Nat) (n : Nat) : Fld := ⟨R.LPD_I h n, 31, 0⟩
/-- LPD_D{h}{n} (07 R264). -/
abbrev R.LPD_D (h : Nat) (n : Nat) : Nat := 0x50010001C + h * 0x100000000 + n * 0x100
abbrev F.LPD_D_D (h : Nat) (n : Nat) : Fld := ⟨R.LPD_D h n, 31, 0⟩
/-- LPD_XPREV{h}{n} (07 R264). -/
abbrev R.LPD_XPREV (h : Nat) (n : Nat) : Nat := 0x500100020 + h * 0x100000000 + n * 0x100
abbrev F.LPD_XPREV_XPREV (h : Nat) (n : Nat) : Fld := ⟨R.LPD_XPREV h n, 31, 0⟩
/-- LPD_PLAST{h}{n} (07 R264). -/
abbrev R.LPD_PLAST (h : Nat) (n : Nat) : Nat := 0x500100024 + h * 0x100000000 + n * 0x100
abbrev F.LPD_PLAST_P (h : Nat) (n : Nat) : Fld := ⟨R.LPD_PLAST h n, 31, 0⟩
/-- LPD_CSCL{h}{n} (07 R264). -/
abbrev R.LPD_CSCL (h : Nat) (n : Nat) : Nat := 0x500100028 + h * 0x100000000 + n * 0x100
abbrev F.LPD_CSCL_CSCL (h : Nat) (n : Nat) : Fld := ⟨R.LPD_CSCL h n, 31, 0⟩
/-- LPD_COFS{h}{n} (07 R264). -/
abbrev R.LPD_COFS (h : Nat) (n : Nat) : Nat := 0x50010002C + h * 0x100000000 + n * 0x100
abbrev F.LPD_COFS_COFS (h : Nat) (n : Nat) : Fld := ⟨R.LPD_COFS h n, 31, 0⟩
/-- LPD_TRKP{h}{n} (07 R264). -/
abbrev R.LPD_TRKP (h : Nat) (n : Nat) : Nat := 0x500100030 + h * 0x100000000 + n * 0x100
abbrev F.LPD_TRKP_TLS (h : Nat) (n : Nat) : Fld := ⟨R.LPD_TRKP h n, 20, 16⟩
abbrev F.LPD_TRKP_PORT (h : Nat) (n : Nat) : Fld := ⟨R.LPD_TRKP h n, 15, 0⟩
/-- LPD_TRKG{h}{n} (07 R264). -/
abbrev R.LPD_TRKG (h : Nat) (n : Nat) : Nat := 0x500100034 + h * 0x100000000 + n * 0x100
abbrev F.LPD_TRKG_TRKG (h : Nat) (n : Nat) : Fld := ⟨R.LPD_TRKG h n, 31, 0⟩
/-- LPD_TRKO{h}{n} (07 R264). -/
abbrev R.LPD_TRKO (h : Nat) (n : Nat) : Nat := 0x500100038 + h * 0x100000000 + n * 0x100
abbrev F.LPD_TRKO_TRKO (h : Nat) (n : Nat) : Fld := ⟨R.LPD_TRKO h n, 31, 0⟩
/-- LPD_EVCNT{h}{n} (07 R264). -/
abbrev R.LPD_EVCNT (h : Nat) (n : Nat) : Nat := 0x50010003C + h * 0x100000000 + n * 0x100
abbrev F.LPD_EVCNT_COUNT (h : Nat) (n : Nat) : Fld := ⟨R.LPD_EVCNT h n, 31, 0⟩
/-- LPD_KP{h}{n}{k} (07 R264). -/
abbrev R.LPD_KP (h : Nat) (n : Nat) (k : Nat) : Nat := 0x500100040 + h * 0x100000000 + n * 0x100 + k * 0x20
abbrev F.LPD_KP_KP (h : Nat) (n : Nat) (k : Nat) : Fld := ⟨R.LPD_KP h n k, 31, 0⟩
/-- LPD_KITS{h}{n}{k} (07 R264). -/
abbrev R.LPD_KITS (h : Nat) (n : Nat) (k : Nat) : Nat := 0x500100044 + h * 0x100000000 + n * 0x100 + k * 0x20
abbrev F.LPD_KITS_KITS (h : Nat) (n : Nat) (k : Nat) : Fld := ⟨R.LPD_KITS h n k, 31, 0⟩
/-- LPD_KD{h}{n}{k} (07 R264). -/
abbrev R.LPD_KD (h : Nat) (n : Nat) (k : Nat) : Nat := 0x500100048 + h * 0x100000000 + n * 0x100 + k * 0x20
abbrev F.LPD_KD_KD (h : Nat) (n : Nat) (k : Nat) : Fld := ⟨R.LPD_KD h n k, 31, 0⟩
/-- LPD_ALPHA{h}{n}{k} (07 R264). -/
abbrev R.LPD_ALPHA (h : Nat) (n : Nat) (k : Nat) : Nat := 0x50010004C + h * 0x100000000 + n * 0x100 + k * 0x20
abbrev F.LPD_ALPHA_ALPHA (h : Nat) (n : Nat) (k : Nat) : Fld := ⟨R.LPD_ALPHA h n k, 31, 0⟩
/-- LPD_IMIN{h}{n}{k} (07 R264). -/
abbrev R.LPD_IMIN (h : Nat) (n : Nat) (k : Nat) : Nat := 0x500100050 + h * 0x100000000 + n * 0x100 + k * 0x20
abbrev F.LPD_IMIN_IMIN (h : Nat) (n : Nat) (k : Nat) : Fld := ⟨R.LPD_IMIN h n k, 31, 0⟩
/-- LPD_IMAX{h}{n}{k} (07 R264). -/
abbrev R.LPD_IMAX (h : Nat) (n : Nat) (k : Nat) : Nat := 0x500100054 + h * 0x100000000 + n * 0x100 + k * 0x20
abbrev F.LPD_IMAX_IMAX (h : Nat) (n : Nat) (k : Nat) : Fld := ⟨R.LPD_IMAX h n k, 31, 0⟩
/-- LPD_UMIN{h}{n}{k} (07 R264). -/
abbrev R.LPD_UMIN (h : Nat) (n : Nat) (k : Nat) : Nat := 0x500100058 + h * 0x100000000 + n * 0x100 + k * 0x20
abbrev F.LPD_UMIN_UMIN (h : Nat) (n : Nat) (k : Nat) : Fld := ⟨R.LPD_UMIN h n k, 31, 0⟩
/-- LPD_UMAX{h}{n}{k} (07 R264). -/
abbrev R.LPD_UMAX (h : Nat) (n : Nat) (k : Nat) : Nat := 0x50010005C + h * 0x100000000 + n * 0x100 + k * 0x20
abbrev F.LPD_UMAX_UMAX (h : Nat) (n : Nat) (k : Nat) : Fld := ⟨R.LPD_UMAX h n k, 31, 0⟩

/-- CE_STAT{h} (07 R280). -/
abbrev R.CE_STAT (h : Nat) : Nat := 0x500110000 + h * 0x100000000
abbrev F.CE_STAT_CFGERR (h : Nat) : Fld := ⟨R.CE_STAT h, 19, 19⟩
abbrev F.CE_STAT_MIGFAIL (h : Nat) : Fld := ⟨R.CE_STAT h, 18, 18⟩
abbrev F.CE_STAT_MIGRDY (h : Nat) : Fld := ⟨R.CE_STAT h, 17, 17⟩
abbrev F.CE_STAT_MIGPEND (h : Nat) : Fld := ⟨R.CE_STAT h, 16, 16⟩
abbrev F.CE_STAT_HALT (h : Nat) : Fld := ⟨R.CE_STAT h, 15, 8⟩
abbrev F.CE_STAT_RUN (h : Nat) : Fld := ⟨R.CE_STAT h, 7, 0⟩
/-- CE_MIG{h} (07 R280). -/
abbrev R.CE_MIG (h : Nat) : Nat := 0x500110004 + h * 0x100000000
abbrev F.CE_MIG_ABORT (h : Nat) : Fld := ⟨R.CE_MIG h, 9, 9⟩
abbrev F.CE_MIG_ARM (h : Nat) : Fld := ⟨R.CE_MIG h, 8, 8⟩
abbrev F.CE_MIG_DST (h : Nat) : Fld := ⟨R.CE_MIG h, 6, 4⟩
abbrev F.CE_MIG_SRC (h : Nat) : Fld := ⟨R.CE_MIG h, 2, 0⟩
/-- CE_PCONF{h} (07 R280). -/
abbrev R.CE_PCONF (h : Nat) : Nat := 0x500110008 + h * 0x100000000
abbrev F.CE_PCONF_COUNT (h : Nat) : Fld := ⟨R.CE_PCONF h, 31, 0⟩
/-- CE_OVCNT{h} (07 R280). -/
abbrev R.CE_OVCNT (h : Nat) : Nat := 0x50011000C + h * 0x100000000
abbrev F.CE_OVCNT_COUNT (h : Nat) : Fld := ⟨R.CE_OVCNT h, 31, 0⟩
/-- CE_CLR{h} (07 R280). -/
abbrev R.CE_CLR (h : Nat) : Nat := 0x500110010 + h * 0x100000000
abbrev F.CE_CLR_CLR (h : Nat) : Fld := ⟨R.CE_CLR h, 0, 0⟩
/-- LPH_STAT{h} (07 R280). -/
abbrev R.LPH_STAT (h : Nat) : Nat := 0x500110020 + h * 0x100000000
abbrev F.LPH_STAT_LAST (h : Nat) : Fld := ⟨R.LPH_STAT h, 15, 8⟩
abbrev F.LPH_STAT_POISON (h : Nat) : Fld := ⟨R.LPH_STAT h, 3, 3⟩
abbrev F.LPH_STAT_SWFAIL (h : Nat) : Fld := ⟨R.LPH_STAT h, 2, 2⟩
abbrev F.LPH_STAT_OWNERR (h : Nat) : Fld := ⟨R.LPH_STAT h, 1, 1⟩
abbrev F.LPH_STAT_CFGERR (h : Nat) : Fld := ⟨R.LPH_STAT h, 0, 0⟩
/-- LPH_SWAP{h} (07 R280). -/
abbrev R.LPH_SWAP (h : Nat) : Nat := 0x500110024 + h * 0x100000000
abbrev F.LPH_SWAP_REQ (h : Nat) : Fld := ⟨R.LPH_SWAP h, 9, 9⟩
abbrev F.LPH_SWAP_BANK (h : Nat) : Fld := ⟨R.LPH_SWAP h, 8, 8⟩
abbrev F.LPH_SWAP_LOOP (h : Nat) : Fld := ⟨R.LPH_SWAP h, 7, 0⟩
/-- LPH_EVAL{h} (07 R280). -/
abbrev R.LPH_EVAL (h : Nat) : Nat := 0x500110028 + h * 0x100000000
abbrev F.LPH_EVAL_COUNT (h : Nat) : Fld := ⟨R.LPH_EVAL h, 31, 0⟩

/-- LAN_CFG{h}{l} (07 R281). -/
abbrev R.LAN_CFG (h : Nat) (l : Nat) : Nat := 0x500120000 + h * 0x100000000 + l * 0x10000
abbrev F.LAN_CFG_SPARE (h : Nat) (l : Nat) : Fld := ⟨R.LAN_CFG h l, 11, 9⟩
abbrev F.LAN_CFG_WDACT (h : Nat) (l : Nat) : Fld := ⟨R.LAN_CFG h l, 8, 7⟩
abbrev F.LAN_CFG_OVLIM (h : Nat) (l : Nat) : Fld := ⟨R.LAN_CFG h l, 6, 3⟩
abbrev F.LAN_CFG_OVX (h : Nat) (l : Nat) : Fld := ⟨R.LAN_CFG h l, 2, 2⟩
abbrev F.LAN_CFG_CLASS (h : Nat) (l : Nat) : Fld := ⟨R.LAN_CFG h l, 1, 0⟩
/-- LAN_CTL{h}{l} (07 R281). -/
abbrev R.LAN_CTL (h : Nat) (l : Nat) : Nat := 0x500120004 + h * 0x100000000 + l * 0x10000
abbrev F.LAN_CTL_STOP (h : Nat) (l : Nat) : Fld := ⟨R.LAN_CTL h l, 1, 1⟩
abbrev F.LAN_CTL_START (h : Nat) (l : Nat) : Fld := ⟨R.LAN_CTL h l, 0, 0⟩
/-- LAN_STAT{h}{l} (07 R281). -/
abbrev R.LAN_STAT (h : Nat) (l : Nat) : Nat := 0x500120008 + h * 0x100000000 + l * 0x10000
abbrev F.LAN_STAT_RUNS (h : Nat) (l : Nat) : Fld := ⟨R.LAN_STAT h l, 11, 8⟩
abbrev F.LAN_STAT_POSTERR (h : Nat) (l : Nat) : Fld := ⟨R.LAN_STAT h l, 6, 6⟩
abbrev F.LAN_STAT_CAPSKIP (h : Nat) (l : Nat) : Fld := ⟨R.LAN_STAT h l, 5, 5⟩
abbrev F.LAN_STAT_EXC (h : Nat) (l : Nat) : Fld := ⟨R.LAN_STAT h l, 4, 4⟩
abbrev F.LAN_STAT_OVR (h : Nat) (l : Nat) : Fld := ⟨R.LAN_STAT h l, 3, 3⟩
abbrev F.LAN_STAT_STATE (h : Nat) (l : Nat) : Fld := ⟨R.LAN_STAT h l, 2, 0⟩
/-- LAN_OVCNT{h}{l} (07 R281). -/
abbrev R.LAN_OVCNT (h : Nat) (l : Nat) : Nat := 0x50012000C + h * 0x100000000 + l * 0x10000
abbrev F.LAN_OVCNT_COUNT (h : Nat) (l : Nat) : Fld := ⟨R.LAN_OVCNT h l, 31, 0⟩
/-- LAN_PASS{h}{l} (07 R281). -/
abbrev R.LAN_PASS (h : Nat) (l : Nat) : Nat := 0x500120010 + h * 0x100000000 + l * 0x10000
abbrev F.LAN_PASS_COUNT (h : Nat) (l : Nat) : Fld := ⟨R.LAN_PASS h l, 31, 0⟩
/-- LAN_LASTC{h}{l} (07 R281). -/
abbrev R.LAN_LASTC (h : Nat) (l : Nat) : Nat := 0x500120014 + h * 0x100000000 + l * 0x10000
abbrev F.LAN_LASTC_CYCLES (h : Nat) (l : Nat) : Fld := ⟨R.LAN_LASTC h l, 31, 0⟩
/-- LAN_MAXC{h}{l} (07 R281). -/
abbrev R.LAN_MAXC (h : Nat) (l : Nat) : Nat := 0x500120018 + h * 0x100000000 + l * 0x10000
abbrev F.LAN_MAXC_CYCLES (h : Nat) (l : Nat) : Fld := ⟨R.LAN_MAXC h l, 31, 0⟩
/-- LAN_DUR{h}{l} (07 R281). -/
abbrev R.LAN_DUR (h : Nat) (l : Nat) : Nat := 0x50012001C + h * 0x100000000 + l * 0x10000
abbrev F.LAN_DUR_DLEN (h : Nat) (l : Nat) : Fld := ⟨R.LAN_DUR h l, 17, 10⟩
abbrev F.LAN_DUR_DOFS (h : Nat) (l : Nat) : Fld := ⟨R.LAN_DUR h l, 9, 0⟩
/-- LAN_QOUT{h}{l} (07 R281). -/
abbrev R.LAN_QOUT (h : Nat) (l : Nat) : Nat := 0x500120020 + h * 0x100000000 + l * 0x10000
abbrev F.LAN_QOUT_EN (h : Nat) (l : Nat) : Fld := ⟨R.LAN_QOUT h l, 7, 7⟩
abbrev F.LAN_QOUT_QUEUE (h : Nat) (l : Nat) : Fld := ⟨R.LAN_QOUT h l, 6, 0⟩

/-- FNG_GCTL (08 R328). -/
abbrev R.FNG_GCTL : Nat := 0x400400000
abbrev F.FNG_GCTL_CALEN : Fld := ⟨R.FNG_GCTL, 0, 0⟩
/-- FNG_GFLT (08 R328). -/
abbrev R.FNG_GFLT : Nat := 0x400400004
abbrev F.FNG_GFLT_FLT : Fld := ⟨R.FNG_GFLT, 31, 0⟩
/-- FNG_CALPOS (08 R328). -/
abbrev R.FNG_CALPOS : Nat := 0x400400008
abbrev F.FNG_CALPOS_CALSKIP : Fld := ⟨R.FNG_CALPOS, 31, 16⟩
abbrev F.FNG_CALPOS_POS : Fld := ⟨R.FNG_CALPOS, 4, 0⟩
/-- FNG_CLR (08 R328). -/
abbrev R.FNG_CLR : Nat := 0x40040000C
abbrev F.FNG_CLR_CLR : Fld := ⟨R.FNG_CLR, 0, 0⟩
/-- FNG_CFG{n} (08 R328). -/
abbrev R.FNG_CFG (n : Nat) : Nat := 0x400400100 + n * 0x40
abbrev F.FNG_CFG_DEFER (n : Nat) : Fld := ⟨R.FNG_CFG n, 26, 20⟩
abbrev F.FNG_CFG_RBW (n : Nat) : Fld := ⟨R.FNG_CFG n, 19, 14⟩
abbrev F.FNG_CFG_PWMF (n : Nat) : Fld := ⟨R.FNG_CFG n, 13, 8⟩
abbrev F.FNG_CFG_OFFDEC (n : Nat) : Fld := ⟨R.FNG_CFG n, 7, 6⟩
abbrev F.FNG_CFG_NPH (n : Nat) : Fld := ⟨R.FNG_CFG n, 5, 3⟩
abbrev F.FNG_CFG_DZ (n : Nat) : Fld := ⟨R.FNG_CFG n, 2, 2⟩
abbrev F.FNG_CFG_PAIR (n : Nat) : Fld := ⟨R.FNG_CFG n, 1, 1⟩
abbrev F.FNG_CFG_EN (n : Nat) : Fld := ⟨R.FNG_CFG n, 0, 0⟩
/-- FNG_DITH{n} (08 R328). -/
abbrev R.FNG_DITH (n : Nat) : Nat := 0x400400104 + n * 0x40
abbrev F.FNG_DITH_DPHS (n : Nat) : Fld := ⟨R.FNG_DITH n, 25, 18⟩
abbrev F.FNG_DITH_DSHAPE (n : Nat) : Fld := ⟨R.FNG_DITH n, 17, 17⟩
abbrev F.FNG_DITH_DAMP (n : Nat) : Fld := ⟨R.FNG_DITH n, 16, 9⟩
abbrev F.FNG_DITH_DFREQ (n : Nat) : Fld := ⟨R.FNG_DITH n, 8, 0⟩
/-- FNG_DUTY{n} (08 R328). -/
abbrev R.FNG_DUTY (n : Nat) : Nat := 0x400400108 + n * 0x40
abbrev F.FNG_DUTY_DEN (n : Nat) : Fld := ⟨R.FNG_DUTY n, 21, 21⟩
abbrev F.FNG_DUTY_DLIM (n : Nat) : Fld := ⟨R.FNG_DUTY n, 20, 14⟩
abbrev F.FNG_DUTY_DWIN (n : Nat) : Fld := ⟨R.FNG_DUTY n, 13, 0⟩
/-- FNG_COIL{n} (08 R328). -/
abbrev R.FNG_COIL (n : Nat) : Nat := 0x40040010C + n * 0x40
abbrev F.FNG_COIL_RREF (n : Nat) : Fld := ⟨R.FNG_COIL n, 31, 16⟩
abbrev F.FNG_COIL_LDEF (n : Nat) : Fld := ⟨R.FNG_COIL n, 15, 0⟩
/-- FNG_TH0{n} (08 R328). -/
abbrev R.FNG_TH0 (n : Nat) : Nat := 0x400400110 + n * 0x40
abbrev F.FNG_TH0_RBA (n : Nat) : Fld := ⟨R.FNG_TH0 n, 31, 16⟩
abbrev F.FNG_TH0_RWB (n : Nat) : Fld := ⟨R.FNG_TH0 n, 15, 0⟩
/-- FNG_TH1{n} (08 R328). -/
abbrev R.FNG_TH1 (n : Nat) : Nat := 0x400400114 + n * 0x40
abbrev F.FNG_TH1_CB (n : Nat) : Fld := ⟨R.FNG_TH1 n, 31, 16⟩
abbrev F.FNG_TH1_CW (n : Nat) : Fld := ⟨R.FNG_TH1 n, 15, 0⟩
/-- FNG_TH2{n} (08 R328). -/
abbrev R.FNG_TH2 (n : Nat) : Nat := 0x400400118 + n * 0x40
abbrev F.FNG_TH2_TEN (n : Nat) : Fld := ⟨R.FNG_TH2 n, 31, 31⟩
abbrev F.FNG_TH2_TAMB (n : Nat) : Fld := ⟨R.FNG_TH2 n, 23, 16⟩
abbrev F.FNG_TH2_TRST (n : Nat) : Fld := ⟨R.FNG_TH2 n, 15, 8⟩
abbrev F.FNG_TH2_TTRIP (n : Nat) : Fld := ⟨R.FNG_TH2 n, 7, 0⟩
/-- FNG_CTL{n} (08 R328). -/
abbrev R.FNG_CTL (n : Nat) : Nat := 0x40040011C + n * 0x40
abbrev F.FNG_CTL_REARM (n : Nat) : Fld := ⟨R.FNG_CTL n, 0, 0⟩
/-- FNG_STAT{n} (08 R328). -/
abbrev R.FNG_STAT (n : Nat) : Nat := 0x400400120 + n * 0x40
abbrev F.FNG_STAT_OC (n : Nat) : Fld := ⟨R.FNG_STAT n, 29, 29⟩
abbrev F.FNG_STAT_OTEMP (n : Nat) : Fld := ⟨R.FNG_STAT n, 28, 28⟩
abbrev F.FNG_STAT_THERM (n : Nat) : Fld := ⟨R.FNG_STAT n, 27, 27⟩
abbrev F.FNG_STAT_DUTYLIM (n : Nat) : Fld := ⟨R.FNG_STAT n, 26, 26⟩
abbrev F.FNG_STAT_SHGND (n : Nat) : Fld := ⟨R.FNG_STAT n, 25, 25⟩
abbrev F.FNG_STAT_OPEN (n : Nat) : Fld := ⟨R.FNG_STAT n, 24, 24⟩
abbrev F.FNG_STAT_CFGERR (n : Nat) : Fld := ⟨R.FNG_STAT n, 17, 17⟩
abbrev F.FNG_STAT_REGSAT (n : Nat) : Fld := ⟨R.FNG_STAT n, 16, 16⟩
abbrev F.FNG_STAT_CALFAIL (n : Nat) : Fld := ⟨R.FNG_STAT n, 15, 15⟩
abbrev F.FNG_STAT_RECSUB (n : Nat) : Fld := ⟨R.FNG_STAT n, 14, 14⟩
abbrev F.FNG_STAT_TGTSAT (n : Nat) : Fld := ⟨R.FNG_STAT n, 13, 13⟩
abbrev F.FNG_STAT_POISON (n : Nat) : Fld := ⟨R.FNG_STAT n, 12, 12⟩
abbrev F.FNG_STAT_ENDED (n : Nat) : Fld := ⟨R.FNG_STAT n, 11, 11⟩
abbrev F.FNG_STAT_BTMO (n : Nat) : Fld := ⟨R.FNG_STAT n, 10, 10⟩
abbrev F.FNG_STAT_PKTMO (n : Nat) : Fld := ⟨R.FNG_STAT n, 9, 9⟩
abbrev F.FNG_STAT_DEFERRED (n : Nat) : Fld := ⟨R.FNG_STAT n, 8, 8⟩
abbrev F.FNG_STAT_BOOST (n : Nat) : Fld := ⟨R.FNG_STAT n, 6, 6⟩
abbrev F.FNG_STAT_PHASE (n : Nat) : Fld := ⟨R.FNG_STAT n, 5, 3⟩
abbrev F.FNG_STAT_STATE (n : Nat) : Fld := ⟨R.FNG_STAT n, 2, 0⟩
/-- FNG_IMEAS{n} (08 R328). -/
abbrev R.FNG_IMEAS (n : Nat) : Nat := 0x400400124 + n * 0x40
abbrev F.FNG_IMEAS_IMEAS (n : Nat) : Fld := ⟨R.FNG_IMEAS n, 31, 0⟩
/-- FNG_REST{n} (08 R328). -/
abbrev R.FNG_REST (n : Nat) : Nat := 0x400400128 + n * 0x40
abbrev F.FNG_REST_RVALID (n : Nat) : Fld := ⟨R.FNG_REST n, 31, 31⟩
abbrev F.FNG_REST_REST (n : Nat) : Fld := ⟨R.FNG_REST n, 15, 0⟩
/-- FNG_LEST{n} (08 R328). -/
abbrev R.FNG_LEST (n : Nat) : Nat := 0x40040012C + n * 0x40
abbrev F.FNG_LEST_LVALID (n : Nat) : Fld := ⟨R.FNG_LEST n, 31, 31⟩
abbrev F.FNG_LEST_LREST (n : Nat) : Fld := ⟨R.FNG_LEST n, 30, 30⟩
abbrev F.FNG_LEST_LEST (n : Nat) : Fld := ⟨R.FNG_LEST n, 15, 0⟩
/-- FNG_TEMP{n} (08 R328). -/
abbrev R.FNG_TEMP (n : Nat) : Nat := 0x400400130 + n * 0x40
abbrev F.FNG_TEMP_TMOD (n : Nat) : Fld := ⟨R.FNG_TEMP n, 31, 16⟩
abbrev F.FNG_TEMP_TID (n : Nat) : Fld := ⟨R.FNG_TEMP n, 15, 0⟩
/-- FNG_CAL{n} (08 R328). -/
abbrev R.FNG_CAL (n : Nat) : Nat := 0x400400134 + n * 0x40
abbrev F.FNG_CAL_GCOR (n : Nat) : Fld := ⟨R.FNG_CAL n, 31, 16⟩
abbrev F.FNG_CAL_OCOR (n : Nat) : Fld := ⟨R.FNG_CAL n, 15, 0⟩
/-- FNG_MON{n} (08 R328). -/
abbrev R.FNG_MON (n : Nat) : Nat := 0x400400138 + n * 0x40
abbrev F.FNG_MON_DUTY (n : Nat) : Fld := ⟨R.FNG_MON n, 22, 16⟩
abbrev F.FNG_MON_CALAGE (n : Nat) : Fld := ⟨R.FNG_MON n, 15, 0⟩
/-- FNG_CNT{n} (08 R328). -/
abbrev R.FNG_CNT (n : Nat) : Nat := 0x40040013C + n * 0x40
abbrev F.FNG_CNT_POISON (n : Nat) : Fld := ⟨R.FNG_CNT n, 31, 16⟩
abbrev F.FNG_CNT_DEFER (n : Nat) : Fld := ⟨R.FNG_CNT n, 15, 0⟩
/-- FNG_PHL{m} (08 R329). -/
abbrev R.FNG_PHL (m : Nat) : Nat := 0x400401000 + m * 8
abbrev F.FNG_PHL_W (m : Nat) : Fld := ⟨R.FNG_PHL m, 31, 0⟩
/-- FNG_PHH{m} (08 R329). -/
abbrev R.FNG_PHH (m : Nat) : Nat := 0x400401004 + m * 8
abbrev F.FNG_PHH_W (m : Nat) : Fld := ⟨R.FNG_PHH m, 31, 0⟩

/-- PLM_SUM (08 R330). -/
abbrev R.PLM_SUM : Nat := 0x400410000
abbrev F.PLM_SUM_OVLD : Fld := ⟨R.PLM_SUM, 15, 8⟩
abbrev F.PLM_SUM_OC : Fld := ⟨R.PLM_SUM, 7, 0⟩
/-- PLM_CLR (08 R330). -/
abbrev R.PLM_CLR : Nat := 0x400410004
abbrev F.PLM_CLR_CLR : Fld := ⟨R.PLM_CLR, 0, 0⟩
/-- PLM_CFG{p} (08 R330). -/
abbrev R.PLM_CFG (p : Nat) : Nat := 0x400410100 + p * 0x20
abbrev F.PLM_CFG_SGOFF (p : Nat) : Fld := ⟨R.PLM_CFG p, 5, 5⟩
abbrev F.PLM_CFG_ILIM (p : Nat) : Fld := ⟨R.PLM_CFG p, 4, 0⟩
/-- PLM_CTL{p} (08 R330). -/
abbrev R.PLM_CTL (p : Nat) : Nat := 0x400410104 + p * 0x20
abbrev F.PLM_CTL_REARM (p : Nat) : Fld := ⟨R.PLM_CTL p, 0, 0⟩
/-- PLM_STAT{p} (08 R330). -/
abbrev R.PLM_STAT (p : Nat) : Nat := 0x400410108 + p * 0x20
abbrev F.PLM_STAT_WAITN (p : Nat) : Fld := ⟨R.PLM_STAT p, 15, 13⟩
abbrev F.PLM_STAT_POISON (p : Nat) : Fld := ⟨R.PLM_STAT p, 12, 12⟩
abbrev F.PLM_STAT_CMDERR (p : Nat) : Fld := ⟨R.PLM_STAT p, 11, 11⟩
abbrev F.PLM_STAT_SGND (p : Nat) : Fld := ⟨R.PLM_STAT p, 10, 10⟩
abbrev F.PLM_STAT_OVLD (p : Nat) : Fld := ⟨R.PLM_STAT p, 9, 9⟩
abbrev F.PLM_STAT_OTEMP (p : Nat) : Fld := ⟨R.PLM_STAT p, 8, 8⟩
abbrev F.PLM_STAT_OC (p : Nat) : Fld := ⟨R.PLM_STAT p, 7, 7⟩
abbrev F.PLM_STAT_HVAL (p : Nat) : Fld := ⟨R.PLM_STAT p, 6, 6⟩
abbrev F.PLM_STAT_HOLDER (p : Nat) : Fld := ⟨R.PLM_STAT p, 5, 4⟩
abbrev F.PLM_STAT_SRC (p : Nat) : Fld := ⟨R.PLM_STAT p, 3, 2⟩
abbrev F.PLM_STAT_CMD (p : Nat) : Fld := ⟨R.PLM_STAT p, 1, 0⟩
/-- PLM_I{p} (08 R330). -/
abbrev R.PLM_I (p : Nat) : Nat := 0x40041010C + p * 0x20
abbrev F.PLM_I_IPK (p : Nat) : Fld := ⟨R.PLM_I p, 31, 16⟩
abbrev F.PLM_I_IAVG (p : Nat) : Fld := ⟨R.PLM_I p, 15, 0⟩
/-- PLM_VP{p} (08 R330). -/
abbrev R.PLM_VP (p : Nat) : Nat := 0x400410110 + p * 0x20
abbrev F.PLM_VP_VP (p : Nat) : Fld := ⟨R.PLM_VP p, 15, 0⟩
/-- PLM_GNT{p} (08 R330). -/
abbrev R.PLM_GNT (p : Nat) : Nat := 0x400410114 + p * 0x20
abbrev F.PLM_GNT_COUNT (p : Nat) : Fld := ⟨R.PLM_GNT p, 31, 0⟩
/-- PLM_DEF{p} (08 R330). -/
abbrev R.PLM_DEF (p : Nat) : Nat := 0x400410118 + p * 0x20
abbrev F.PLM_DEF_COUNT (p : Nat) : Fld := ⟨R.PLM_DEF p, 31, 0⟩

/-- LDS_SUM (09 R355). -/
abbrev R.LDS_SUM : Nat := 0x400420000
abbrev F.LDS_SUM_FAULT : Fld := ⟨R.LDS_SUM, 31, 16⟩
abbrev F.LDS_SUM_ON : Fld := ⟨R.LDS_SUM, 15, 0⟩
/-- LDS_GV{g} (09 R355). -/
abbrev R.LDS_GV (g : Nat) : Nat := 0x400420004 + g * 4
abbrev F.LDS_GV_UVNOW (g : Nat) : Fld := ⟨R.LDS_GV g, 16, 16⟩
abbrev F.LDS_GV_MV (g : Nat) : Fld := ⟨R.LDS_GV g, 15, 0⟩
/-- LDS_CLR (09 R355). -/
abbrev R.LDS_CLR : Nat := 0x40042000C
abbrev F.LDS_CLR_CLR : Fld := ⟨R.LDS_CLR, 0, 0⟩
/-- LDS_ISEL (09 R355). -/
abbrev R.LDS_ISEL : Nat := 0x400420010
abbrev F.LDS_ISEL_ISEL : Fld := ⟨R.LDS_ISEL, 2, 0⟩
/-- LDS_CFG{n} (09 R355). -/
abbrev R.LDS_CFG (n : Nat) : Nat := 0x400420100 + n * 0x20
abbrev F.LDS_CFG_INRW (n : Nat) : Fld := ⟨R.LDS_CFG n, 20, 13⟩
abbrev F.LDS_CFG_RTDLY (n : Nat) : Fld := ⟨R.LDS_CFG n, 12, 6⟩
abbrev F.LDS_CFG_RETRY (n : Nat) : Fld := ⟨R.LDS_CFG n, 5, 2⟩
abbrev F.LDS_CFG_ARST (n : Nat) : Fld := ⟨R.LDS_CFG n, 1, 1⟩
abbrev F.LDS_CFG_LOWR (n : Nat) : Fld := ⟨R.LDS_CFG n, 0, 0⟩
/-- LDS_CUR{n} (09 R355). -/
abbrev R.LDS_CUR (n : Nat) : Nat := 0x400420104 + n * 0x20
abbrev F.LDS_CUR_IINR (n : Nat) : Fld := ⟨R.LDS_CUR n, 23, 16⟩
abbrev F.LDS_CUR_ILAT (n : Nat) : Fld := ⟨R.LDS_CUR n, 7, 0⟩
/-- LDS_OL{n} (09 R355). -/
abbrev R.LDS_OL (n : Nat) : Nat := 0x400420108 + n * 0x20
abbrev F.LDS_OL_OLT (n : Nat) : Fld := ⟨R.LDS_OL n, 23, 16⟩
abbrev F.LDS_OL_OLTHR (n : Nat) : Fld := ⟨R.LDS_OL n, 9, 0⟩
/-- LDS_CTL{n} (09 R355). -/
abbrev R.LDS_CTL (n : Nat) : Nat := 0x40042010C + n * 0x20
abbrev F.LDS_CTL_REARM (n : Nat) : Fld := ⟨R.LDS_CTL n, 0, 0⟩
/-- LDS_STAT{n} (09 R355). -/
abbrev R.LDS_STAT (n : Nat) : Nat := 0x400420110 + n * 0x20
abbrev F.LDS_STAT_CMD (n : Nat) : Fld := ⟨R.LDS_STAT n, 18, 18⟩
abbrev F.LDS_STAT_OLNOW (n : Nat) : Fld := ⟨R.LDS_STAT n, 17, 17⟩
abbrev F.LDS_STAT_CFGERR (n : Nat) : Fld := ⟨R.LDS_STAT n, 16, 16⟩
abbrev F.LDS_STAT_CMDERR (n : Nat) : Fld := ⟨R.LDS_STAT n, 15, 15⟩
abbrev F.LDS_STAT_POISON (n : Nat) : Fld := ⟨R.LDS_STAT n, 14, 14⟩
abbrev F.LDS_STAT_RTEXH (n : Nat) : Fld := ⟨R.LDS_STAT n, 13, 13⟩
abbrev F.LDS_STAT_OPEN (n : Nat) : Fld := ⟨R.LDS_STAT n, 12, 12⟩
abbrev F.LDS_STAT_UV (n : Nat) : Fld := ⟨R.LDS_STAT n, 11, 11⟩
abbrev F.LDS_STAT_THTRIP (n : Nat) : Fld := ⟨R.LDS_STAT n, 10, 10⟩
abbrev F.LDS_STAT_HWSC (n : Nat) : Fld := ⟨R.LDS_STAT n, 9, 9⟩
abbrev F.LDS_STAT_OC (n : Nat) : Fld := ⟨R.LDS_STAT n, 8, 8⟩
abbrev F.LDS_STAT_THL (n : Nat) : Fld := ⟨R.LDS_STAT n, 7, 7⟩
abbrev F.LDS_STAT_RTUSED (n : Nat) : Fld := ⟨R.LDS_STAT n, 6, 3⟩
abbrev F.LDS_STAT_STATE (n : Nat) : Fld := ⟨R.LDS_STAT n, 2, 0⟩
/-- LDS_IMEAS{n} (09 R355). -/
abbrev R.LDS_IMEAS (n : Nat) : Nat := 0x400420114 + n * 0x20
abbrev F.LDS_IMEAS_IMEAS (n : Nat) : Fld := ⟨R.LDS_IMEAS n, 31, 0⟩
/-- LDS_ILOW{n} (09 R355). -/
abbrev R.LDS_ILOW (n : Nat) : Nat := 0x400420118 + n * 0x20
abbrev F.LDS_ILOW_VALID (n : Nat) : Fld := ⟨R.LDS_ILOW n, 31, 31⟩
abbrev F.LDS_ILOW_ABOVE (n : Nat) : Fld := ⟨R.LDS_ILOW n, 10, 10⟩
abbrev F.LDS_ILOW_ILOW (n : Nat) : Fld := ⟨R.LDS_ILOW n, 9, 0⟩
/-- LDS_CNT{n} (09 R355). -/
abbrev R.LDS_CNT (n : Nat) : Nat := 0x40042011C + n * 0x20
abbrev F.LDS_CNT_OCCNT (n : Nat) : Fld := ⟨R.LDS_CNT n, 31, 16⟩
abbrev F.LDS_CNT_RSTCNT (n : Nat) : Fld := ⟨R.LDS_CNT n, 15, 0⟩

/-- BRM_DZLK (10 R378). -/
abbrev R.BRM_DZLK : Nat := 0x400430000
abbrev F.BRM_DZLK_FMASK : Fld := ⟨R.BRM_DZLK, 31, 0⟩
/-- BRM_DZL2 (10 R378). -/
abbrev R.BRM_DZL2 : Nat := 0x400430004
abbrev F.BRM_DZL2_ESPKMAX : Fld := ⟨R.BRM_DZL2, 24, 16⟩
abbrev F.BRM_DZL2_PMASK : Fld := ⟨R.BRM_DZL2, 7, 0⟩
/-- BRM_CLR (10 R378). -/
abbrev R.BRM_CLR : Nat := 0x400430008
abbrev F.BRM_CLR_CLR : Fld := ⟨R.BRM_CLR, 0, 0⟩
/-- BRM_CFG{r} (10 R378). -/
abbrev R.BRM_CFG (r : Nat) : Nat := 0x400430100 + r * 0x40
abbrev F.BRM_CFG_VSET (r : Nat) : Fld := ⟨R.BRM_CFG r, 13, 8⟩
abbrev F.BRM_CFG_EN (r : Nat) : Fld := ⟨R.BRM_CFG r, 0, 0⟩
/-- BRM_CEIL{r} (10 R378). -/
abbrev R.BRM_CEIL (r : Nat) : Nat := 0x400430104 + r * 0x40
abbrev F.BRM_CEIL_CEIL (r : Nat) : Fld := ⟨R.BRM_CEIL r, 7, 0⟩
/-- BRM_CDECL{r} (10 R378). -/
abbrev R.BRM_CDECL (r : Nat) : Nat := 0x400430108 + r * 0x40
abbrev F.BRM_CDECL_CDECL (r : Nat) : Fld := ⟨R.BRM_CDECL r, 15, 0⟩
/-- BRM_LOCK{r} (10 R378). -/
abbrev R.BRM_LOCK (r : Nat) : Nat := 0x40043010C + r * 0x40
abbrev F.BRM_LOCK_LOCK (r : Nat) : Fld := ⟨R.BRM_LOCK r, 7, 0⟩
/-- BRM_V{r} (10 R378). -/
abbrev R.BRM_V (r : Nat) : Nat := 0x400430110 + r * 0x40
abbrev F.BRM_V_V (r : Nat) : Fld := ⟨R.BRM_V r, 15, 0⟩
/-- BRM_C{r} (10 R378). -/
abbrev R.BRM_C (r : Nat) : Nat := 0x400430114 + r * 0x40
abbrev F.BRM_C_CVALID (r : Nat) : Fld := ⟨R.BRM_C r, 31, 31⟩
abbrev F.BRM_C_CMEAS (r : Nat) : Fld := ⟨R.BRM_C r, 15, 0⟩
/-- BRM_E{r} (10 R378). -/
abbrev R.BRM_E (r : Nat) : Nat := 0x400430118 + r * 0x40
abbrev F.BRM_E_E (r : Nat) : Fld := ⟨R.BRM_E r, 15, 0⟩
/-- BRM_STAT{r} (10 R378). -/
abbrev R.BRM_STAT (r : Nat) : Nat := 0x40043011C + r * 0x40
abbrev F.BRM_STAT_CFGERR (r : Nat) : Fld := ⟨R.BRM_STAT r, 7, 7⟩
abbrev F.BRM_STAT_CHI (r : Nat) : Fld := ⟨R.BRM_STAT r, 6, 6⟩
abbrev F.BRM_STAT_COPEN (r : Nat) : Fld := ⟨R.BRM_STAT r, 5, 5⟩
abbrev F.BRM_STAT_DIV (r : Nat) : Fld := ⟨R.BRM_STAT r, 4, 4⟩
abbrev F.BRM_STAT_DIVNOW (r : Nat) : Fld := ⟨R.BRM_STAT r, 3, 3⟩
abbrev F.BRM_STAT_BLEED (r : Nat) : Fld := ⟨R.BRM_STAT r, 2, 2⟩
abbrev F.BRM_STAT_FULL (r : Nat) : Fld := ⟨R.BRM_STAT r, 1, 1⟩
abbrev F.BRM_STAT_CHG (r : Nat) : Fld := ⟨R.BRM_STAT r, 0, 0⟩
/-- BRM_DIVCNT{r} (10 R378). -/
abbrev R.BRM_DIVCNT (r : Nat) : Nat := 0x400430120 + r * 0x40
abbrev F.BRM_DIVCNT_COUNT (r : Nat) : Fld := ⟨R.BRM_DIVCNT r, 31, 0⟩
/-- BRM_DIVE{r} (10 R378). -/
abbrev R.BRM_DIVE (r : Nat) : Nat := 0x400430124 + r * 0x40
abbrev F.BRM_DIVE_UJ (r : Nat) : Fld := ⟨R.BRM_DIVE r, 31, 0⟩
/-- BRM_FDZ{n} (10 R378). -/
abbrev R.BRM_FDZ (n : Nat) : Nat := 0x400430200 + n * 0x10
abbrev F.BRM_FDZ_LFIX (n : Nat) : Fld := ⟨R.BRM_FDZ n, 25, 25⟩
abbrev F.BRM_FDZ_ESPK (n : Nat) : Fld := ⟨R.BRM_FDZ n, 24, 16⟩
abbrev F.BRM_FDZ_LMAX (n : Nat) : Fld := ⟨R.BRM_FDZ n, 15, 0⟩
/-- BRM_FLIM{n} (10 R378). -/
abbrev R.BRM_FLIM (n : Nat) : Nat := 0x400430204 + n * 0x10
abbrev F.BRM_FLIM_LOVER (n : Nat) : Fld := ⟨R.BRM_FLIM n, 19, 19⟩
abbrev F.BRM_FLIM_DZBLK (n : Nat) : Fld := ⟨R.BRM_FLIM n, 18, 18⟩
abbrev F.BRM_FLIM_DZSAT (n : Nat) : Fld := ⟨R.BRM_FLIM n, 17, 17⟩
abbrev F.BRM_FLIM_LSRC (n : Nat) : Fld := ⟨R.BRM_FLIM n, 16, 16⟩
abbrev F.BRM_FLIM_ICUT (n : Nat) : Fld := ⟨R.BRM_FLIM n, 15, 0⟩

/-- SNP_RAIL (10 R379). -/
abbrev R.SNP_RAIL : Nat := 0x400440000
abbrev F.SNP_RAIL_ROC : Fld := ⟨R.SNP_RAIL, 7, 4⟩
abbrev F.SNP_RAIL_ROK : Fld := ⟨R.SNP_RAIL, 3, 0⟩
/-- SNP_CLR (10 R379). -/
abbrev R.SNP_CLR : Nat := 0x400440004
abbrev F.SNP_CLR_CLR : Fld := ⟨R.SNP_CLR, 0, 0⟩
/-- SNP_CFG{k} (10 R379). -/
abbrev R.SNP_CFG (k : Nat) : Nat := 0x400440100 + k * 0x20
abbrev F.SNP_CFG_ILIM (k : Nat) : Fld := ⟨R.SNP_CFG k, 9, 2⟩
abbrev F.SNP_CFG_V10 (k : Nat) : Fld := ⟨R.SNP_CFG k, 1, 1⟩
abbrev F.SNP_CFG_EN (k : Nat) : Fld := ⟨R.SNP_CFG k, 0, 0⟩
/-- SNP_STAT{k} (10 R379). -/
abbrev R.SNP_STAT (k : Nat) : Nat := 0x400440104 + k * 0x20
abbrev F.SNP_STAT_FOLDCNT (k : Nat) : Fld := ⟨R.SNP_STAT k, 31, 16⟩
abbrev F.SNP_STAT_CFGERR (k : Nat) : Fld := ⟨R.SNP_STAT k, 4, 4⟩
abbrev F.SNP_STAT_FOLDED (k : Nat) : Fld := ⟨R.SNP_STAT k, 3, 3⟩
abbrev F.SNP_STAT_LOCKED (k : Nat) : Fld := ⟨R.SNP_STAT k, 2, 2⟩
abbrev F.SNP_STAT_STATE (k : Nat) : Fld := ⟨R.SNP_STAT k, 1, 0⟩
/-- SNP_MEAS{k} (10 R379). -/
abbrev R.SNP_MEAS (k : Nat) : Nat := 0x400440108 + k * 0x20
abbrev F.SNP_MEAS_I (k : Nat) : Fld := ⟨R.SNP_MEAS k, 31, 16⟩
abbrev F.SNP_MEAS_V (k : Nat) : Fld := ⟨R.SNP_MEAS k, 15, 0⟩
/-- SNP_DECL0{k} (10 R379). -/
abbrev R.SNP_DECL0 (k : Nat) : Nat := 0x40044010C + k * 0x20
abbrev F.SNP_DECL0_IO (k : Nat) : Fld := ⟨R.SNP_DECL0 k, 31, 16⟩
abbrev F.SNP_DECL0_UO (k : Nat) : Fld := ⟨R.SNP_DECL0 k, 15, 0⟩
/-- SNP_DECL1{k} (10 R379). -/
abbrev R.SNP_DECL1 (k : Nat) : Nat := 0x400440110 + k * 0x20
abbrev F.SNP_DECL1_LI (k : Nat) : Fld := ⟨R.SNP_DECL1 k, 31, 24⟩
abbrev F.SNP_DECL1_CI (k : Nat) : Fld := ⟨R.SNP_DECL1 k, 23, 16⟩
abbrev F.SNP_DECL1_PO (k : Nat) : Fld := ⟨R.SNP_DECL1 k, 15, 0⟩

/-- GNB_CFG (11 R402). -/
abbrev R.GNB_CFG : Nat := 0x400500000
abbrev F.GNB_CFG_SQUEUE : Fld := ⟨R.GNB_CFG, 30, 24⟩
abbrev F.GNB_CFG_SQEN : Fld := ⟨R.GNB_CFG, 23, 23⟩
abbrev F.GNB_CFG_NBUF : Fld := ⟨R.GNB_CFG, 19, 16⟩
abbrev F.GNB_CFG_NQEN : Fld := ⟨R.GNB_CFG, 15, 15⟩
abbrev F.GNB_CFG_NQUEUE : Fld := ⟨R.GNB_CFG, 14, 8⟩
abbrev F.GNB_CFG_EN : Fld := ⟨R.GNB_CFG, 0, 0⟩
/-- GNB_FS (11 R402). -/
abbrev R.GNB_FS : Nat := 0x400500004
abbrev F.GNB_FS_FS : Fld := ⟨R.GNB_FS, 26, 0⟩
/-- GNB_STAT (11 R402). -/
abbrev R.GNB_STAT : Nat := 0x400500008
abbrev F.GNB_STAT_NTRK : Fld := ⟨R.GNB_STAT, 22, 16⟩
abbrev F.GNB_STAT_FECLK : Fld := ⟨R.GNB_STAT, 7, 7⟩
abbrev F.GNB_STAT_ACQBUSY : Fld := ⟨R.GNB_STAT, 6, 6⟩
abbrev F.GNB_STAT_TVALID : Fld := ⟨R.GNB_STAT, 5, 5⟩
abbrev F.GNB_STAT_FEERR : Fld := ⟨R.GNB_STAT, 4, 4⟩
abbrev F.GNB_STAT_POISON : Fld := ⟨R.GNB_STAT, 3, 3⟩
abbrev F.GNB_STAT_DROP : Fld := ⟨R.GNB_STAT, 2, 2⟩
abbrev F.GNB_STAT_CFGERR : Fld := ⟨R.GNB_STAT, 1, 1⟩
/-- GNB_MBASE_LO (11 R402). -/
abbrev R.GNB_MBASE_LO : Nat := 0x40050000C
abbrev F.GNB_MBASE_LO_ADDR : Fld := ⟨R.GNB_MBASE_LO, 31, 12⟩
/-- GNB_MBASE_HI (11 R402). -/
abbrev R.GNB_MBASE_HI : Nat := 0x400500010
abbrev F.GNB_MBASE_HI_ADDR : Fld := ⟨R.GNB_MBASE_HI, 15, 0⟩
/-- GNB_WR (11 R402). -/
abbrev R.GNB_WR : Nat := 0x400500014
abbrev F.GNB_WR_WR : Fld := ⟨R.GNB_WR, 15, 0⟩
/-- GNB_REL (11 R402). -/
abbrev R.GNB_REL : Nat := 0x400500018
abbrev F.GNB_REL_REL : Fld := ⟨R.GNB_REL, 15, 0⟩
/-- GNB_EPOCH (11 R402). -/
abbrev R.GNB_EPOCH : Nat := 0x40050001C
abbrev F.GNB_EPOCH_EPOCH : Fld := ⟨R.GNB_EPOCH, 31, 0⟩
/-- GNB_DCNT (11 R402). -/
abbrev R.GNB_DCNT : Nat := 0x400500020
abbrev F.GNB_DCNT_COUNT : Fld := ⟨R.GNB_DCNT, 31, 0⟩
/-- GNB_CLR (11 R402). -/
abbrev R.GNB_CLR : Nat := 0x400500024
abbrev F.GNB_CLR_CLR : Fld := ⟨R.GNB_CLR, 0, 0⟩
/-- GNB_SYMW (11 R402). -/
abbrev R.GNB_SYMW : Nat := 0x400500028
abbrev F.GNB_SYMW_COUNT : Fld := ⟨R.GNB_SYMW, 31, 0⟩
/-- GNB_BNC (11 R402). -/
abbrev R.GNB_BNC : Nat := 0x40050002C
abbrev F.GNB_BNC_EPHLEN : Fld := ⟨R.GNB_BNC, 23, 16⟩
abbrev F.GNB_BNC_EPHINT : Fld := ⟨R.GNB_BNC, 15, 8⟩
abbrev F.GNB_BNC_BMAX : Fld := ⟨R.GNB_BNC, 3, 0⟩
/-- GNB_BCFG{b} (11 R402). -/
abbrev R.GNB_BCFG (b : Nat) : Nat := 0x400500040 + b * 0x10
abbrev F.GNB_BCFG_FMT (b : Nat) : Fld := ⟨R.GNB_BCFG b, 2, 2⟩
abbrev F.GNB_BCFG_INV (b : Nat) : Fld := ⟨R.GNB_BCFG b, 1, 1⟩
abbrev F.GNB_BCFG_EN (b : Nat) : Fld := ⟨R.GNB_BCFG b, 0, 0⟩
/-- GNB_FIF{b} (11 R402). -/
abbrev R.GNB_FIF (b : Nat) : Nat := 0x400500044 + b * 0x10
abbrev F.GNB_FIF_FIF (b : Nat) : Fld := ⟨R.GNB_FIF b, 31, 0⟩
/-- GNB_AGC{b} (11 R402). -/
abbrev R.GNB_AGC (b : Nat) : Nat := 0x400500048 + b * 0x10
abbrev F.GNB_AGC_CLIP (b : Nat) : Fld := ⟨R.GNB_AGC b, 15, 8⟩
abbrev F.GNB_AGC_MAG (b : Nat) : Fld := ⟨R.GNB_AGC b, 7, 0⟩
/-- GNB_FECMD (11 R402). -/
abbrev R.GNB_FECMD : Nat := 0x400500060
abbrev F.GNB_FECMD_GO : Fld := ⟨R.GNB_FECMD, 31, 31⟩
abbrev F.GNB_FECMD_RD : Fld := ⟨R.GNB_FECMD, 30, 30⟩
abbrev F.GNB_FECMD_ADDR : Fld := ⟨R.GNB_FECMD, 23, 16⟩
abbrev F.GNB_FECMD_DATA : Fld := ⟨R.GNB_FECMD, 15, 0⟩
/-- GNB_FERD (11 R402). -/
abbrev R.GNB_FERD : Nat := 0x400500064
abbrev F.GNB_FERD_BUSY : Fld := ⟨R.GNB_FERD, 31, 31⟩
abbrev F.GNB_FERD_DATA : Fld := ⟨R.GNB_FERD, 15, 0⟩
/-- GNB_ITHR0 (11 R402). -/
abbrev R.GNB_ITHR0 : Nat := 0x400500070
abbrev F.GNB_ITHR0_CNJMP : Fld := ⟨R.GNB_ITHR0, 31, 24⟩
abbrev F.GNB_ITHR0_CNMAX : Fld := ⟨R.GNB_ITHR0, 23, 16⟩
abbrev F.GNB_ITHR0_XDB : Fld := ⟨R.GNB_ITHR0, 15, 8⟩
abbrev F.GNB_ITHR0_CMCTHR : Fld := ⟨R.GNB_ITHR0, 7, 0⟩
/-- GNB_ITHR1 (11 R402). -/
abbrev R.GNB_ITHR1 : Nat := 0x400500074
abbrev F.GNB_ITHR1_PAGE : Fld := ⟨R.GNB_ITHR1, 31, 28⟩
abbrev F.GNB_ITHR1_RRTHR : Fld := ⟨R.GNB_ITHR1, 27, 16⟩
abbrev F.GNB_ITHR1_RTHR : Fld := ⟨R.GNB_ITHR1, 15, 0⟩
/-- GNB_CLKB (11 R402). -/
abbrev R.GNB_CLKB : Nat := 0x400500078
abbrev F.GNB_CLKB_BIAS : Fld := ⟨R.GNB_CLKB, 31, 0⟩
/-- GNB_CLKD (11 R402). -/
abbrev R.GNB_CLKD : Nat := 0x40050007C
abbrev F.GNB_CLKD_DRIFT : Fld := ⟨R.GNB_CLKD, 31, 0⟩
/-- GNB_CLKE (11 R402). -/
abbrev R.GNB_CLKE : Nat := 0x400500080
abbrev F.GNB_CLKE_EPOCH : Fld := ⟨R.GNB_CLKE, 31, 0⟩
/-- GNB_AQ0 (11 R402). -/
abbrev R.GNB_AQ0 : Nat := 0x400500100
abbrev F.GNB_AQ0_GO : Fld := ⟨R.GNB_AQ0, 31, 31⟩
abbrev F.GNB_AQ0_AUTO : Fld := ⟨R.GNB_AQ0, 17, 17⟩
abbrev F.GNB_AQ0_CHAN : Fld := ⟨R.GNB_AQ0, 16, 10⟩
abbrev F.GNB_AQ0_PRN : Fld := ⟨R.GNB_AQ0, 9, 4⟩
abbrev F.GNB_AQ0_SIG : Fld := ⟨R.GNB_AQ0, 3, 0⟩
/-- GNB_AQ1 (11 R402). -/
abbrev R.GNB_AQ1 : Nat := 0x400500104
abbrev F.GNB_AQ1_DCEN : Fld := ⟨R.GNB_AQ1, 31, 0⟩
/-- GNB_AQ2 (11 R402). -/
abbrev R.GNB_AQ2 : Nat := 0x400500108
abbrev F.GNB_AQ2_NBLK : Fld := ⟨R.GNB_AQ2, 20, 16⟩
abbrev F.GNB_AQ2_DHALF : Fld := ⟨R.GNB_AQ2, 15, 0⟩
/-- GNB_AQ3 (11 R402). -/
abbrev R.GNB_AQ3 : Nat := 0x40050010C
abbrev F.GNB_AQ3_PSTART : Fld := ⟨R.GNB_AQ3, 23, 0⟩
/-- GNB_AQ4 (11 R402). -/
abbrev R.GNB_AQ4 : Nat := 0x400500110
abbrev F.GNB_AQ4_THR : Fld := ⟨R.GNB_AQ4, 17, 10⟩
abbrev F.GNB_AQ4_NNC : Fld := ⟨R.GNB_AQ4, 9, 4⟩
abbrev F.GNB_AQ4_TC : Fld := ⟨R.GNB_AQ4, 3, 0⟩
/-- GNB_AQR0 (11 R402). -/
abbrev R.GNB_AQR0 : Nat := 0x400500114
abbrev F.GNB_AQR0_RATIO : Fld := ⟨R.GNB_AQR0, 31, 16⟩
abbrev F.GNB_AQR0_RES : Fld := ⟨R.GNB_AQR0, 1, 0⟩
/-- GNB_AQR1 (11 R402). -/
abbrev R.GNB_AQR1 : Nat := 0x400500118
abbrev F.GNB_AQR1_PHASE : Fld := ⟨R.GNB_AQR1, 31, 0⟩
/-- GNB_AQR2 (11 R402). -/
abbrev R.GNB_AQR2 : Nat := 0x40050011C
abbrev F.GNB_AQR2_DOPP : Fld := ⟨R.GNB_AQR2, 31, 0⟩
/-- GNB_NAVP{k} (11 R402). -/
abbrev R.GNB_NAVP (k : Nat) : Nat := 0x400500200 + k * 4
abbrev F.GNB_NAVP_VALUE (k : Nat) : Fld := ⟨R.GNB_NAVP k, 31, 0⟩
/-- GNB_NAVC (11 R402). -/
abbrev R.GNB_NAVC : Nat := 0x400500280
abbrev F.GNB_NAVC_COMMIT : Fld := ⟨R.GNB_NAVC, 0, 0⟩
/-- GNB_CHCFG{ch} (11 R402). -/
abbrev R.GNB_CHCFG (ch : Nat) : Nat := 0x400500400 + ch * 0x20
abbrev F.GNB_CHCFG_PRN (ch : Nat) : Fld := ⟨R.GNB_CHCFG ch, 10, 5⟩
abbrev F.GNB_CHCFG_SIG (ch : Nat) : Fld := ⟨R.GNB_CHCFG ch, 4, 1⟩
abbrev F.GNB_CHCFG_EN (ch : Nat) : Fld := ⟨R.GNB_CHCFG ch, 0, 0⟩
/-- GNB_CHST{ch} (11 R402). -/
abbrev R.GNB_CHST (ch : Nat) : Nat := 0x400500404 + ch * 0x20
abbrev F.GNB_CHST_FLAGS (ch : Nat) : Fld := ⟨R.GNB_CHST ch, 20, 8⟩
abbrev F.GNB_CHST_STATE (ch : Nat) : Fld := ⟨R.GNB_CHST ch, 2, 0⟩
/-- GNB_PRR{ch} (11 R402). -/
abbrev R.GNB_PRR (ch : Nat) : Nat := 0x400500408 + ch * 0x20
abbrev F.GNB_PRR_RANGE (ch : Nat) : Fld := ⟨R.GNB_PRR ch, 31, 0⟩
/-- GNB_PRD{ch} (11 R402). -/
abbrev R.GNB_PRD (ch : Nat) : Nat := 0x40050040C + ch * 0x20
abbrev F.GNB_PRD_RATE (ch : Nat) : Fld := ⟨R.GNB_PRD ch, 31, 0⟩
/-- GNB_CN0{ch} (11 R402). -/
abbrev R.GNB_CN0 (ch : Nat) : Nat := 0x400500410 + ch * 0x20
abbrev F.GNB_CN0_CN0 (ch : Nat) : Fld := ⟨R.GNB_CN0 ch, 15, 0⟩

/-- IMU_CFG (11 R403). -/
abbrev R.IMU_CFG : Nat := 0x400520000
abbrev F.IMU_CFG_QUEUE : Fld := ⟨R.IMU_CFG, 28, 22⟩
abbrev F.IMU_CFG_QEN : Fld := ⟨R.IMU_CFG, 21, 21⟩
abbrev F.IMU_CFG_TLINE : Fld := ⟨R.IMU_CFG, 20, 16⟩
abbrev F.IMU_CFG_NBYTE : Fld := ⟨R.IMU_CFG, 15, 9⟩
abbrev F.IMU_CFG_SCK : Fld := ⟨R.IMU_CFG, 8, 3⟩
abbrev F.IMU_CFG_MODE : Fld := ⟨R.IMU_CFG, 2, 1⟩
abbrev F.IMU_CFG_EN : Fld := ⟨R.IMU_CFG, 0, 0⟩
/-- IMU_STAT (11 R403). -/
abbrev R.IMU_STAT : Nat := 0x400520004
abbrev F.IMU_STAT_POISON : Fld := ⟨R.IMU_STAT, 3, 3⟩
abbrev F.IMU_STAT_CFGERR : Fld := ⟨R.IMU_STAT, 2, 2⟩
abbrev F.IMU_STAT_OMIT : Fld := ⟨R.IMU_STAT, 1, 1⟩
abbrev F.IMU_STAT_BUSY : Fld := ⟨R.IMU_STAT, 0, 0⟩
/-- IMU_SEQ (11 R403). -/
abbrev R.IMU_SEQ : Nat := 0x400520008
abbrev F.IMU_SEQ_SEQ : Fld := ⟨R.IMU_SEQ, 31, 0⟩
/-- IMU_TLO (11 R403). -/
abbrev R.IMU_TLO : Nat := 0x40052000C
abbrev F.IMU_TLO_T : Fld := ⟨R.IMU_TLO, 31, 0⟩
/-- IMU_THI (11 R403). -/
abbrev R.IMU_THI : Nat := 0x400520010
abbrev F.IMU_THI_T : Fld := ⟨R.IMU_THI, 31, 0⟩
/-- IMU_OCNT (11 R403). -/
abbrev R.IMU_OCNT : Nat := 0x400520014
abbrev F.IMU_OCNT_COUNT : Fld := ⟨R.IMU_OCNT, 31, 0⟩
/-- IMU_CLR (11 R403). -/
abbrev R.IMU_CLR : Nat := 0x400520018
abbrev F.IMU_CLR_CLR : Fld := ⟨R.IMU_CLR, 0, 0⟩
/-- IMU_TX{j} (11 R403). -/
abbrev R.IMU_TX (j : Nat) : Nat := 0x400520040 + j * 4
abbrev F.IMU_TX_TX (j : Nat) : Fld := ⟨R.IMU_TX j, 31, 0⟩
/-- IMU_RX{j} (11 R403). -/
abbrev R.IMU_RX (j : Nat) : Nat := 0x400520080 + j * 4
abbrev F.IMU_RX_RX (j : Nat) : Fld := ⟨R.IMU_RX j, 31, 0⟩

/-- OBJ_CTL{n} (12 R419). -/
abbrev R.OBJ_CTL (n : Nat) : Nat := 0x1000000000000 + n * 0x20
abbrev F.OBJ_CTL_TMO (n : Nat) : Fld := ⟨R.OBJ_CTL n, 31, 24⟩
abbrev F.OBJ_CTL_QUEUE (n : Nat) : Fld := ⟨R.OBJ_CTL n, 15, 9⟩
abbrev F.OBJ_CTL_QEN (n : Nat) : Fld := ⟨R.OBJ_CTL n, 8, 8⟩
abbrev F.OBJ_CTL_SAS (n : Nat) : Fld := ⟨R.OBJ_CTL n, 7, 7⟩
abbrev F.OBJ_CTL_BRS (n : Nat) : Fld := ⟨R.OBJ_CTL n, 6, 6⟩
abbrev F.OBJ_CTL_FDF (n : Nat) : Fld := ⟨R.OBJ_CTL n, 5, 5⟩
abbrev F.OBJ_CTL_IDE (n : Nat) : Fld := ⟨R.OBJ_CTL n, 4, 4⟩
abbrev F.OBJ_CTL_CH (n : Nat) : Fld := ⟨R.OBJ_CTL n, 3, 2⟩
abbrev F.OBJ_CTL_DIR (n : Nat) : Fld := ⟨R.OBJ_CTL n, 1, 1⟩
abbrev F.OBJ_CTL_EN (n : Nat) : Fld := ⟨R.OBJ_CTL n, 0, 0⟩
/-- OBJ_ID{n} (12 R419). -/
abbrev R.OBJ_ID (n : Nat) : Nat := 0x1000000000004 + n * 0x20
abbrev F.OBJ_ID_ID (n : Nat) : Fld := ⟨R.OBJ_ID n, 28, 0⟩
/-- OBJ_MASK{n} (12 R419). -/
abbrev R.OBJ_MASK (n : Nat) : Nat := 0x1000000000008 + n * 0x20
abbrev F.OBJ_MASK_MASK (n : Nat) : Fld := ⟨R.OBJ_MASK n, 28, 0⟩
/-- OBJ_TXP{n} (12 R419): the word of offset 8 while DIR = 1, kept beside MASK (log 86). -/
abbrev R.OBJ_TXP (n : Nat) : Nat := 0x1000000010008 + n * 0x20
abbrev F.OBJ_TXP_RPTMAX (n : Nat) : Fld := ⟨R.OBJ_TXP n, 31, 24⟩
abbrev F.OBJ_TXP_RPT (n : Nat) : Fld := ⟨R.OBJ_TXP n, 23, 16⟩
abbrev F.OBJ_TXP_DEADLINE (n : Nat) : Fld := ⟨R.OBJ_TXP n, 15, 0⟩
/-- OBJ_ESTAT{n} (12 R419). -/
abbrev R.OBJ_ESTAT (n : Nat) : Nat := 0x100000000000C + n * 0x20
abbrev F.OBJ_ESTAT_FDFR (n : Nat) : Fld := ⟨R.OBJ_ESTAT n, 18, 18⟩
abbrev F.OBJ_ESTAT_POISON (n : Nat) : Fld := ⟨R.OBJ_ESTAT n, 17, 17⟩
abbrev F.OBJ_ESTAT_TXERR (n : Nat) : Fld := ⟨R.OBJ_ESTAT n, 16, 16⟩
abbrev F.OBJ_ESTAT_TXPEND (n : Nat) : Fld := ⟨R.OBJ_ESTAT n, 15, 15⟩
abbrev F.OBJ_ESTAT_STALE (n : Nat) : Fld := ⟨R.OBJ_ESTAT n, 14, 14⟩
abbrev F.OBJ_ESTAT_LOST (n : Nat) : Fld := ⟨R.OBJ_ESTAT n, 13, 13⟩
abbrev F.OBJ_ESTAT_NEW (n : Nat) : Fld := ⟨R.OBJ_ESTAT n, 12, 12⟩
abbrev F.OBJ_ESTAT_DLC (n : Nat) : Fld := ⟨R.OBJ_ESTAT n, 11, 8⟩
abbrev F.OBJ_ESTAT_RCNT (n : Nat) : Fld := ⟨R.OBJ_ESTAT n, 7, 0⟩
/-- OBJ_TLO{n} (12 R419). -/
abbrev R.OBJ_TLO (n : Nat) : Nat := 0x1000000000010 + n * 0x20
abbrev F.OBJ_TLO_T (n : Nat) : Fld := ⟨R.OBJ_TLO n, 31, 0⟩
/-- OBJ_THI{n} (12 R419). -/
abbrev R.OBJ_THI (n : Nat) : Nat := 0x1000000000014 + n * 0x20
abbrev F.OBJ_THI_T (n : Nat) : Fld := ⟨R.OBJ_THI n, 31, 0⟩
/-- OBJ_DLO{n} (12 R419). -/
abbrev R.OBJ_DLO (n : Nat) : Nat := 0x1000000000018 + n * 0x20
abbrev F.OBJ_DLO_DATA (n : Nat) : Fld := ⟨R.OBJ_DLO n, 31, 0⟩
/-- OBJ_DHI{n} (12 R419). -/
abbrev R.OBJ_DHI (n : Nat) : Nat := 0x100000000001C + n * 0x20
abbrev F.OBJ_DHI_DATA (n : Nat) : Fld := ⟨R.OBJ_DHI n, 31, 0⟩

/-- CAN_CFG{n} (12 R443). -/
abbrev R.CAN_CFG (n : Nat) : Nat := 0x400600000 + n * 0x10000
abbrev F.CAN_CFG_BODLY (n : Nat) : Fld := ⟨R.CAN_CFG n, 15, 8⟩
abbrev F.CAN_CFG_BOREC (n : Nat) : Fld := ⟨R.CAN_CFG n, 4, 4⟩
abbrev F.CAN_CFG_TXORD (n : Nat) : Fld := ⟨R.CAN_CFG n, 2, 2⟩
abbrev F.CAN_CFG_FDEN (n : Nat) : Fld := ⟨R.CAN_CFG n, 1, 1⟩
abbrev F.CAN_CFG_EN (n : Nat) : Fld := ⟨R.CAN_CFG n, 0, 0⟩
/-- CAN_NBT{n} (12 R443). -/
abbrev R.CAN_NBT (n : Nat) : Nat := 0x400600004 + n * 0x10000
abbrev F.CAN_NBT_NSJW (n : Nat) : Fld := ⟨R.CAN_NBT n, 30, 24⟩
abbrev F.CAN_NBT_NTSEG2 (n : Nat) : Fld := ⟨R.CAN_NBT n, 23, 17⟩
abbrev F.CAN_NBT_NTSEG1 (n : Nat) : Fld := ⟨R.CAN_NBT n, 16, 8⟩
abbrev F.CAN_NBT_NBRP (n : Nat) : Fld := ⟨R.CAN_NBT n, 7, 0⟩
/-- CAN_DBT{n} (12 R443). -/
abbrev R.CAN_DBT (n : Nat) : Nat := 0x400600008 + n * 0x10000
abbrev F.CAN_DBT_DSJW (n : Nat) : Fld := ⟨R.CAN_DBT n, 17, 14⟩
abbrev F.CAN_DBT_DTSEG2 (n : Nat) : Fld := ⟨R.CAN_DBT n, 13, 10⟩
abbrev F.CAN_DBT_DTSEG1 (n : Nat) : Fld := ⟨R.CAN_DBT n, 9, 5⟩
abbrev F.CAN_DBT_DBRP (n : Nat) : Fld := ⟨R.CAN_DBT n, 4, 0⟩
/-- CAN_TDC{n} (12 R443). -/
abbrev R.CAN_TDC (n : Nat) : Nat := 0x40060000C + n * 0x10000
abbrev F.CAN_TDC_TDCEN (n : Nat) : Fld := ⟨R.CAN_TDC n, 7, 7⟩
abbrev F.CAN_TDC_TDCO (n : Nat) : Fld := ⟨R.CAN_TDC n, 6, 0⟩
/-- CAN_TRX{n} (12 R443). -/
abbrev R.CAN_TRX (n : Nat) : Nat := 0x400600010 + n * 0x10000
abbrev F.CAN_TRX_MODE (n : Nat) : Fld := ⟨R.CAN_TRX n, 1, 0⟩
/-- CAN_STAT{n} (12 R443). -/
abbrev R.CAN_STAT (n : Nat) : Nat := 0x400600014 + n * 0x10000
abbrev F.CAN_STAT_TXB (n : Nat) : Fld := ⟨R.CAN_STAT n, 13, 11⟩
abbrev F.CAN_STAT_WKSRC (n : Nat) : Fld := ⟨R.CAN_STAT n, 10, 8⟩
abbrev F.CAN_STAT_WKPEND (n : Nat) : Fld := ⟨R.CAN_STAT n, 7, 7⟩
abbrev F.CAN_STAT_POISON (n : Nat) : Fld := ⟨R.CAN_STAT n, 6, 6⟩
abbrev F.CAN_STAT_CFGERR (n : Nat) : Fld := ⟨R.CAN_STAT n, 5, 5⟩
abbrev F.CAN_STAT_BOFF (n : Nat) : Fld := ⟨R.CAN_STAT n, 4, 4⟩
abbrev F.CAN_STAT_TXDTO (n : Nat) : Fld := ⟨R.CAN_STAT n, 3, 3⟩
abbrev F.CAN_STAT_ESTATE (n : Nat) : Fld := ⟨R.CAN_STAT n, 1, 0⟩
/-- CAN_ERR{n} (12 R443). -/
abbrev R.CAN_ERR (n : Nat) : Nat := 0x400600018 + n * 0x10000
abbrev F.CAN_ERR_LEC (n : Nat) : Fld := ⟨R.CAN_ERR n, 19, 16⟩
abbrev F.CAN_ERR_REC (n : Nat) : Fld := ⟨R.CAN_ERR n, 15, 8⟩
abbrev F.CAN_ERR_TEC (n : Nat) : Fld := ⟨R.CAN_ERR n, 7, 0⟩
/-- CAN_WAKE{n} (12 R443). -/
abbrev R.CAN_WAKE (n : Nat) : Nat := 0x40060001C + n * 0x10000
abbrev F.CAN_WAKE_CANWK (n : Nat) : Fld := ⟨R.CAN_WAKE n, 10, 10⟩
abbrev F.CAN_WAKE_IDE (n : Nat) : Fld := ⟨R.CAN_WAKE n, 9, 9⟩
abbrev F.CAN_WAKE_DLCEN (n : Nat) : Fld := ⟨R.CAN_WAKE n, 8, 8⟩
abbrev F.CAN_WAKE_DLC (n : Nat) : Fld := ⟨R.CAN_WAKE n, 7, 4⟩
abbrev F.CAN_WAKE_WRATE (n : Nat) : Fld := ⟨R.CAN_WAKE n, 3, 2⟩
abbrev F.CAN_WAKE_WMODE (n : Nat) : Fld := ⟨R.CAN_WAKE n, 1, 0⟩
/-- CAN_WID{n} (12 R443). -/
abbrev R.CAN_WID (n : Nat) : Nat := 0x400600020 + n * 0x10000
abbrev F.CAN_WID_ID (n : Nat) : Fld := ⟨R.CAN_WID n, 28, 0⟩
/-- CAN_WMSK{n} (12 R443). -/
abbrev R.CAN_WMSK (n : Nat) : Nat := 0x400600024 + n * 0x10000
abbrev F.CAN_WMSK_MASK (n : Nat) : Fld := ⟨R.CAN_WMSK n, 28, 0⟩
/-- CAN_WDAT_LO{n} (12 R443). -/
abbrev R.CAN_WDAT_LO (n : Nat) : Nat := 0x400600028 + n * 0x10000
abbrev F.CAN_WDAT_LO_WDAT (n : Nat) : Fld := ⟨R.CAN_WDAT_LO n, 31, 0⟩
/-- CAN_WDAT_HI{n} (12 R443). -/
abbrev R.CAN_WDAT_HI (n : Nat) : Nat := 0x40060002C + n * 0x10000
abbrev F.CAN_WDAT_HI_WDAT (n : Nat) : Fld := ⟨R.CAN_WDAT_HI n, 31, 0⟩
/-- CAN_TXCNT{n} (12 R443). -/
abbrev R.CAN_TXCNT (n : Nat) : Nat := 0x400600030 + n * 0x10000
abbrev F.CAN_TXCNT_COUNT (n : Nat) : Fld := ⟨R.CAN_TXCNT n, 31, 0⟩
/-- CAN_RXCNT{n} (12 R443). -/
abbrev R.CAN_RXCNT (n : Nat) : Nat := 0x400600034 + n * 0x10000
abbrev F.CAN_RXCNT_COUNT (n : Nat) : Fld := ⟨R.CAN_RXCNT n, 31, 0⟩
/-- CAN_RXNM{n} (12 R443). -/
abbrev R.CAN_RXNM (n : Nat) : Nat := 0x400600038 + n * 0x10000
abbrev F.CAN_RXNM_COUNT (n : Nat) : Fld := ⟨R.CAN_RXNM n, 31, 0⟩
/-- CAN_CNT{n} (12 R443). -/
abbrev R.CAN_CNT (n : Nat) : Nat := 0x40060003C + n * 0x10000
abbrev F.CAN_CNT_ALOST (n : Nat) : Fld := ⟨R.CAN_CNT n, 31, 16⟩
abbrev F.CAN_CNT_ERRF (n : Nat) : Fld := ⟨R.CAN_CNT n, 15, 0⟩
/-- CAN_CTL{n} (12 R443). -/
abbrev R.CAN_CTL (n : Nat) : Nat := 0x400600040 + n * 0x10000
abbrev F.CAN_CTL_RECOV (n : Nat) : Fld := ⟨R.CAN_CTL n, 0, 0⟩
/-- CAN_CLR{n} (12 R443). -/
abbrev R.CAN_CLR (n : Nat) : Nat := 0x400600044 + n * 0x10000
abbrev F.CAN_CLR_CLR (n : Nat) : Fld := ⟨R.CAN_CLR n, 0, 0⟩

/-- OBJ_PAGE (12 R444). -/
abbrev R.OBJ_PAGE : Nat := 0x400650000
abbrev F.OBJ_PAGE_PAGE : Fld := ⟨R.OBJ_PAGE, 1, 0⟩
/-- OBJ_TXREQ (12 R444). -/
abbrev R.OBJ_TXREQ : Nat := 0x400650004
abbrev F.OBJ_TXREQ_GO : Fld := ⟨R.OBJ_TXREQ, 31, 31⟩
abbrev F.OBJ_TXREQ_DLC : Fld := ⟨R.OBJ_TXREQ, 15, 12⟩
abbrev F.OBJ_TXREQ_OBJ : Fld := ⟨R.OBJ_TXREQ, 10, 0⟩
/-- OBJ_STAT (12 R444). -/
abbrev R.OBJ_STAT : Nat := 0x400650008
abbrev F.OBJ_STAT_POISON : Fld := ⟨R.OBJ_STAT, 2, 2⟩
abbrev F.OBJ_STAT_LWERR : Fld := ⟨R.OBJ_STAT, 1, 1⟩
abbrev F.OBJ_STAT_CFGERR : Fld := ⟨R.OBJ_STAT, 0, 0⟩
/-- OBJ_DBASE_LO (12 R444). -/
abbrev R.OBJ_DBASE_LO : Nat := 0x40065000C
abbrev F.OBJ_DBASE_LO_ADDR : Fld := ⟨R.OBJ_DBASE_LO, 31, 12⟩
/-- OBJ_DBASE_HI (12 R444). -/
abbrev R.OBJ_DBASE_HI : Nat := 0x400650010
abbrev F.OBJ_DBASE_HI_ADDR : Fld := ⟨R.OBJ_DBASE_HI, 15, 0⟩
/-- OBJ_LWIN{w} (12 R444). -/
abbrev R.OBJ_LWIN (w : Nat) : Nat := 0x400650200 + w * 4
abbrev F.OBJ_LWIN_EN (w : Nat) : Fld := ⟨R.OBJ_LWIN w, 15, 15⟩
abbrev F.OBJ_LWIN_OBJ (w : Nat) : Fld := ⟨R.OBJ_LWIN w, 10, 0⟩

/-- MSG_CFG (12 R445). -/
abbrev R.MSG_CFG : Nat := 0x400640000
abbrev F.MSG_CFG_CTSN : Fld := ⟨R.MSG_CFG, 31, 24⟩
abbrev F.MSG_CFG_RXEN : Fld := ⟨R.MSG_CFG, 23, 23⟩
abbrev F.MSG_CFG_RXQ : Fld := ⟨R.MSG_CFG, 22, 16⟩
abbrev F.MSG_CFG_EVEN : Fld := ⟨R.MSG_CFG, 15, 15⟩
abbrev F.MSG_CFG_EVQ : Fld := ⟨R.MSG_CFG, 14, 8⟩
abbrev F.MSG_CFG_TXEN : Fld := ⟨R.MSG_CFG, 7, 7⟩
abbrev F.MSG_CFG_TXQ : Fld := ⟨R.MSG_CFG, 6, 0⟩
/-- MSG_CFG2 (12 R445). -/
abbrev R.MSG_CFG2 : Nat := 0x400640004
abbrev F.MSG_CFG2_BAMGAP : Fld := ⟨R.MSG_CFG2, 8, 1⟩
abbrev F.MSG_CFG2_UNEN : Fld := ⟨R.MSG_CFG2, 0, 0⟩
/-- MSG_POOL_LO (12 R445). -/
abbrev R.MSG_POOL_LO : Nat := 0x400640008
abbrev F.MSG_POOL_LO_ADDR : Fld := ⟨R.MSG_POOL_LO, 31, 11⟩
/-- MSG_POOL_HI (12 R445). -/
abbrev R.MSG_POOL_HI : Nat := 0x40064000C
abbrev F.MSG_POOL_HI_ADDR : Fld := ⟨R.MSG_POOL_HI, 15, 0⟩
/-- MSG_PCFG (12 R445). -/
abbrev R.MSG_PCFG : Nat := 0x400640010
abbrev F.MSG_PCFG_NBLK : Fld := ⟨R.MSG_PCFG, 9, 0⟩
/-- MSG_PREL (12 R445). -/
abbrev R.MSG_PREL : Nat := 0x400640014
abbrev F.MSG_PREL_BLK : Fld := ⟨R.MSG_PREL, 9, 0⟩
/-- MSG_STAT (12 R445). -/
abbrev R.MSG_STAT : Nat := 0x400640018
abbrev F.MSG_STAT_POISON : Fld := ⟨R.MSG_STAT, 3, 3⟩
abbrev F.MSG_STAT_BADREQ : Fld := ⟨R.MSG_STAT, 2, 2⟩
abbrev F.MSG_STAT_POOLOUT : Fld := ⟨R.MSG_STAT, 1, 1⟩
abbrev F.MSG_STAT_CFGERR : Fld := ⟨R.MSG_STAT, 0, 0⟩
/-- MSG_CTAG (12 R445). -/
abbrev R.MSG_CTAG : Nat := 0x40064001C
abbrev F.MSG_CTAG_TAG : Fld := ⟨R.MSG_CTAG, 31, 0⟩
/-- MSG_CANCEL (12 R445). -/
abbrev R.MSG_CANCEL : Nat := 0x400640020
abbrev F.MSG_CANCEL_GO : Fld := ⟨R.MSG_CANCEL, 31, 31⟩
abbrev F.MSG_CANCEL_CH : Fld := ⟨R.MSG_CANCEL, 1, 0⟩
/-- MSG_PEND (12 R445). -/
abbrev R.MSG_PEND : Nat := 0x400640024
abbrev F.MSG_PEND_PEND : Fld := ⟨R.MSG_PEND, 31, 0⟩
/-- MSG_CLR (12 R445). -/
abbrev R.MSG_CLR : Nat := 0x400640028
abbrev F.MSG_CLR_CLR : Fld := ⟨R.MSG_CLR, 0, 0⟩
/-- MSG_NAME_LO{c} (12 R445). -/
abbrev R.MSG_NAME_LO (c : Nat) : Nat := 0x400640100 + c * 0x40
abbrev F.MSG_NAME_LO_NAME (c : Nat) : Fld := ⟨R.MSG_NAME_LO c, 31, 0⟩
/-- MSG_NAME_HI{c} (12 R445). -/
abbrev R.MSG_NAME_HI (c : Nat) : Nat := 0x400640104 + c * 0x40
abbrev F.MSG_NAME_HI_NAME (c : Nat) : Fld := ⟨R.MSG_NAME_HI c, 31, 0⟩
/-- MSG_AC{c} (12 R445). -/
abbrev R.MSG_AC (c : Nat) : Nat := 0x400640108 + c * 0x40
abbrev F.MSG_AC_ADDR (c : Nat) : Fld := ⟨R.MSG_AC c, 31, 24⟩
abbrev F.MSG_AC_STATE (c : Nat) : Fld := ⟨R.MSG_AC c, 17, 16⟩
abbrev F.MSG_AC_LMP (c : Nat) : Fld := ⟨R.MSG_AC c, 9, 9⟩
abbrev F.MSG_AC_EN (c : Nat) : Fld := ⟨R.MSG_AC c, 8, 8⟩
abbrev F.MSG_AC_PREF (c : Nat) : Fld := ⟨R.MSG_AC c, 7, 0⟩
/-- MSG_ETPB_LO{c} (12 R445). -/
abbrev R.MSG_ETPB_LO (c : Nat) : Nat := 0x40064010C + c * 0x40
abbrev F.MSG_ETPB_LO_ADDR (c : Nat) : Fld := ⟨R.MSG_ETPB_LO c, 31, 8⟩
/-- MSG_ETPB_HI{c} (12 R445). -/
abbrev R.MSG_ETPB_HI (c : Nat) : Nat := 0x400640110 + c * 0x40
abbrev F.MSG_ETPB_HI_ADDR (c : Nat) : Fld := ⟨R.MSG_ETPB_HI c, 15, 0⟩
/-- MSG_ETPL{c} (12 R445). -/
abbrev R.MSG_ETPL (c : Nat) : Nat := 0x400640114 + c * 0x40
abbrev F.MSG_ETPL_LEN (c : Nat) : Fld := ⟨R.MSG_ETPL c, 31, 0⟩
/-- MSG_ETPC{c} (12 R445). -/
abbrev R.MSG_ETPC (c : Nat) : Nat := 0x400640118 + c * 0x40
abbrev F.MSG_ETPC_EN (c : Nat) : Fld := ⟨R.MSG_ETPC c, 31, 31⟩
abbrev F.MSG_ETPC_PGN (c : Nat) : Fld := ⟨R.MSG_ETPC c, 17, 0⟩
/-- MSG_SCNT{c} (12 R445). -/
abbrev R.MSG_SCNT (c : Nat) : Nat := 0x40064011C + c * 0x40
abbrev F.MSG_SCNT_ABORT (c : Nat) : Fld := ⟨R.MSG_SCNT c, 31, 16⟩
abbrev F.MSG_SCNT_USED (c : Nat) : Fld := ⟨R.MSG_SCNT c, 4, 0⟩
/-- MSG_SES{s} (12 R445). -/
abbrev R.MSG_SES (s : Nat) : Nat := 0x400640400 + s * 0x10
abbrev F.MSG_SES_PEER (s : Nat) : Fld := ⟨R.MSG_SES s, 15, 8⟩
abbrev F.MSG_SES_STATE (s : Nat) : Fld := ⟨R.MSG_SES s, 6, 3⟩
abbrev F.MSG_SES_KIND (s : Nat) : Fld := ⟨R.MSG_SES s, 2, 0⟩
/-- MSG_SESP{s} (12 R445). -/
abbrev R.MSG_SESP (s : Nat) : Nat := 0x400640404 + s * 0x10
abbrev F.MSG_SESP_PGN (s : Nat) : Fld := ⟨R.MSG_SESP s, 17, 0⟩
/-- MSG_SESB{s} (12 R445). -/
abbrev R.MSG_SESB (s : Nat) : Nat := 0x400640408 + s * 0x10
abbrev F.MSG_SESB_BYTES (s : Nat) : Fld := ⟨R.MSG_SESB s, 31, 0⟩
/-- MSG_SESL{s} (12 R445). -/
abbrev R.MSG_SESL (s : Nat) : Nat := 0x40064040C + s * 0x10
abbrev F.MSG_SESL_LEN (s : Nat) : Fld := ⟨R.MSG_SESL s, 31, 0⟩

/-- OWN_STAT (13 R471). -/
abbrev R.OWN_STAT : Nat := 0x400080000
abbrev F.OWN_STAT_NCLAIM : Fld := ⟨R.OWN_STAT, 23, 16⟩
abbrev F.OWN_STAT_CHG : Fld := ⟨R.OWN_STAT, 8, 8⟩
abbrev F.OWN_STAT_INT : Fld := ⟨R.OWN_STAT, 7, 7⟩
abbrev F.OWN_STAT_CLASS : Fld := ⟨R.OWN_STAT, 6, 4⟩
abbrev F.OWN_STAT_STATE : Fld := ⟨R.OWN_STAT, 1, 0⟩
/-- OWN_MID_LO (13 R471). -/
abbrev R.OWN_MID_LO : Nat := 0x400080004
abbrev F.OWN_MID_LO_MID : Fld := ⟨R.OWN_MID_LO, 31, 0⟩
/-- OWN_MID_HI (13 R471). -/
abbrev R.OWN_MID_HI : Nat := 0x400080008
abbrev F.OWN_MID_HI_MID : Fld := ⟨R.OWN_MID_HI, 31, 0⟩
/-- OWN_LEASE (13 R471). -/
abbrev R.OWN_LEASE : Nat := 0x40008000C
abbrev F.OWN_LEASE_MS : Fld := ⟨R.OWN_LEASE, 11, 0⟩
/-- OWN_CTL (13 R471). -/
abbrev R.OWN_CTL : Nat := 0x400080010
abbrev F.OWN_CTL_CLASS : Fld := ⟨R.OWN_CTL, 6, 4⟩
abbrev F.OWN_CTL_HANDOVER : Fld := ⟨R.OWN_CTL, 3, 3⟩
abbrev F.OWN_CTL_CLAIM : Fld := ⟨R.OWN_CTL, 2, 2⟩
abbrev F.OWN_CTL_RELEASE : Fld := ⟨R.OWN_CTL, 1, 1⟩
abbrev F.OWN_CTL_RENEW : Fld := ⟨R.OWN_CTL, 0, 0⟩
/-- OWN_HSUCC_LO (13 R471). -/
abbrev R.OWN_HSUCC_LO : Nat := 0x400080014
abbrev F.OWN_HSUCC_LO_MID : Fld := ⟨R.OWN_HSUCC_LO, 31, 0⟩
/-- OWN_HSUCC_HI (13 R471). -/
abbrev R.OWN_HSUCC_HI : Nat := 0x400080018
abbrev F.OWN_HSUCC_HI_MID : Fld := ⟨R.OWN_HSUCC_HI, 31, 0⟩
/-- OWN_CCNT (13 R471). -/
abbrev R.OWN_CCNT : Nat := 0x40008001C
abbrev F.OWN_CCNT_COUNT : Fld := ⟨R.OWN_CCNT, 31, 0⟩
/-- OWN_LAST (13 R471). -/
abbrev R.OWN_LAST : Nat := 0x400080020
abbrev F.OWN_LAST_WHY : Fld := ⟨R.OWN_LAST, 3, 0⟩

/-- LMP_CFG (13 R472). -/
abbrev R.LMP_CFG : Nat := 0x400670000
abbrev F.LMP_CFG_USBEN : Fld := ⟨R.LMP_CFG, 2, 2⟩
abbrev F.LMP_CFG_CANEN : Fld := ⟨R.LMP_CFG, 1, 1⟩
abbrev F.LMP_CFG_UDPEN : Fld := ⟨R.LMP_CFG, 0, 0⟩
/-- LMP_STAT (13 R472). -/
abbrev R.LMP_STAT : Nat := 0x400670004
abbrev F.LMP_STAT_NSUB : Fld := ⟨R.LMP_STAT, 7, 2⟩
abbrev F.LMP_STAT_BUSY : Fld := ⟨R.LMP_STAT, 1, 1⟩
abbrev F.LMP_STAT_CRCERR : Fld := ⟨R.LMP_STAT, 0, 0⟩
/-- LMP_RXCNT (13 R472). -/
abbrev R.LMP_RXCNT : Nat := 0x400670008
abbrev F.LMP_RXCNT_COUNT : Fld := ⟨R.LMP_RXCNT, 31, 0⟩
/-- LMP_CRCCNT (13 R472). -/
abbrev R.LMP_CRCCNT : Nat := 0x40067000C
abbrev F.LMP_CRCCNT_COUNT : Fld := ⟨R.LMP_CRCCNT, 31, 0⟩
/-- LMP_REFCNT (13 R472). -/
abbrev R.LMP_REFCNT : Nat := 0x400670010
abbrev F.LMP_REFCNT_COUNT : Fld := ⟨R.LMP_REFCNT, 31, 0⟩
/-- LMP_RETRY (13 R472). -/
abbrev R.LMP_RETRY : Nat := 0x400670014
abbrev F.LMP_RETRY_COUNT : Fld := ⟨R.LMP_RETRY, 31, 0⟩
/-- LMP_CLR (13 R472). -/
abbrev R.LMP_CLR : Nat := 0x400670018
abbrev F.LMP_CLR_CLR : Fld := ⟨R.LMP_CLR, 0, 0⟩

/-- USB_CFG (13 R472). -/
abbrev R.USB_CFG : Nat := 0x400680000
abbrev F.USB_CFG_EN : Fld := ⟨R.USB_CFG, 0, 0⟩
/-- USB_STAT (13 R472). -/
abbrev R.USB_STAT : Nat := 0x400680004
abbrev F.USB_STAT_CFGD : Fld := ⟨R.USB_STAT, 2, 2⟩
abbrev F.USB_STAT_HS : Fld := ⟨R.USB_STAT, 1, 1⟩
abbrev F.USB_STAT_CONN : Fld := ⟨R.USB_STAT, 0, 0⟩

/-- ETH_MAC_LO (13 R473). -/
abbrev R.ETH_MAC_LO : Nat := 0x400660000
abbrev F.ETH_MAC_LO_MAC : Fld := ⟨R.ETH_MAC_LO, 31, 0⟩
/-- ETH_MAC_HI (13 R473). -/
abbrev R.ETH_MAC_HI : Nat := 0x400660004
abbrev F.ETH_MAC_HI_MAC : Fld := ⟨R.ETH_MAC_HI, 15, 0⟩
/-- ETH_IP (13 R473). -/
abbrev R.ETH_IP : Nat := 0x400660008
abbrev F.ETH_IP_IP : Fld := ⟨R.ETH_IP, 31, 0⟩
/-- ETH_TSQ (13 R473). -/
abbrev R.ETH_TSQ : Nat := 0x40066000C
abbrev F.ETH_TSQ_EN : Fld := ⟨R.ETH_TSQ, 7, 7⟩
abbrev F.ETH_TSQ_QUEUE : Fld := ⟨R.ETH_TSQ, 6, 0⟩
/-- ETH_DROP (13 R473). -/
abbrev R.ETH_DROP : Nat := 0x400660010
abbrev F.ETH_DROP_COUNT : Fld := ⟨R.ETH_DROP, 31, 0⟩
/-- ETH_CLR (13 R473). -/
abbrev R.ETH_CLR : Nat := 0x400660014
abbrev F.ETH_CLR_CLR : Fld := ⟨R.ETH_CLR, 0, 0⟩
/-- ETH_LRN (13 R473). -/
abbrev R.ETH_LRN : Nat := 0x400660018
abbrev F.ETH_LRN_USED : Fld := ⟨R.ETH_LRN, 10, 0⟩
/-- ETH_PCFG{p} (13 R473). -/
abbrev R.ETH_PCFG (p : Nat) : Nat := 0x400660040 + p * 0x10
abbrev F.ETH_PCFG_ROLE (p : Nat) : Fld := ⟨R.ETH_PCFG p, 2, 2⟩
abbrev F.ETH_PCFG_SPEED (p : Nat) : Fld := ⟨R.ETH_PCFG p, 1, 1⟩
abbrev F.ETH_PCFG_EN (p : Nat) : Fld := ⟨R.ETH_PCFG p, 0, 0⟩
/-- ETH_PSTAT{p} (13 R473). -/
abbrev R.ETH_PSTAT (p : Nat) : Nat := 0x400660044 + p * 0x10
abbrev F.ETH_PSTAT_SQI (p : Nat) : Fld := ⟨R.ETH_PSTAT p, 3, 1⟩
abbrev F.ETH_PSTAT_LINK (p : Nat) : Fld := ⟨R.ETH_PSTAT p, 0, 0⟩
/-- ETH_PRX{p} (13 R473). -/
abbrev R.ETH_PRX (p : Nat) : Nat := 0x400660048 + p * 0x10
abbrev F.ETH_PRX_COUNT (p : Nat) : Fld := ⟨R.ETH_PRX p, 31, 0⟩
/-- ETH_PTX{p} (13 R473). -/
abbrev R.ETH_PTX (p : Nat) : Nat := 0x40066004C + p * 0x10
abbrev F.ETH_PTX_COUNT (p : Nat) : Fld := ⟨R.ETH_PTX p, 31, 0⟩

/-- ROLE_STAT (14 R503). -/
abbrev R.ROLE_STAT : Nat := 0x400030000
abbrev F.ROLE_STAT_SRC : Fld := ⟨R.ROLE_STAT, 23, 20⟩
abbrev F.ROLE_STAT_SBST : Fld := ⟨R.ROLE_STAT, 19, 16⟩
abbrev F.ROLE_STAT_CFGERR : Fld := ⟨R.ROLE_STAT, 8, 8⟩
abbrev F.ROLE_STAT_FOOK : Fld := ⟨R.ROLE_STAT, 7, 7⟩
abbrev F.ROLE_STAT_CHG : Fld := ⟨R.ROLE_STAT, 6, 6⟩
abbrev F.ROLE_STAT_STATE : Fld := ⟨R.ROLE_STAT, 5, 3⟩
abbrev F.ROLE_STAT_ACTIVE : Fld := ⟨R.ROLE_STAT, 1, 0⟩
/-- ROLE_CFG (14 R503). -/
abbrev R.ROLE_CFG : Nat := 0x400030004
abbrev F.ROLE_CFG_PESC : Fld := ⟨R.ROLE_CFG, 15, 8⟩
abbrev F.ROLE_CFG_FAILEN : Fld := ⟨R.ROLE_CFG, 0, 0⟩
/-- ROLE_CTL (14 R503). -/
abbrev R.ROLE_CTL : Nat := 0x400030008
abbrev F.ROLE_CTL_FCODE : Fld := ⟨R.ROLE_CTL, 31, 16⟩
abbrev F.ROLE_CTL_ABORT : Fld := ⟨R.ROLE_CTL, 3, 3⟩
abbrev F.ROLE_CTL_STEST : Fld := ⟨R.ROLE_CTL, 2, 2⟩
abbrev F.ROLE_CTL_SWAP : Fld := ⟨R.ROLE_CTL, 1, 1⟩
abbrev F.ROLE_CTL_FAIL : Fld := ⟨R.ROLE_CTL, 0, 0⟩
/-- ROLE_JCFG (14 R503). -/
abbrev R.ROLE_JCFG : Nat := 0x40003000C
abbrev F.ROLE_JCFG_EMS : Fld := ⟨R.ROLE_JCFG, 7, 1⟩
abbrev F.ROLE_JCFG_EN : Fld := ⟨R.ROLE_JCFG, 0, 0⟩
/-- ROLE_JSTAT (14 R503). -/
abbrev R.ROLE_JSTAT : Nat := 0x400030010
abbrev F.ROLE_JSTAT_SKIP : Fld := ⟨R.ROLE_JSTAT, 31, 16⟩
abbrev F.ROLE_JSTAT_ACOPY : Fld := ⟨R.ROLE_JSTAT, 2, 2⟩
abbrev F.ROLE_JSTAT_NOCOMMIT : Fld := ⟨R.ROLE_JSTAT, 1, 1⟩
abbrev F.ROLE_JSTAT_BUSY : Fld := ⟨R.ROLE_JSTAT, 0, 0⟩
/-- ROLE_CEP_LO (14 R503). -/
abbrev R.ROLE_CEP_LO : Nat := 0x400030014
abbrev F.ROLE_CEP_LO_EPOCH : Fld := ⟨R.ROLE_CEP_LO, 31, 0⟩
/-- ROLE_CEP_HI (14 R503). -/
abbrev R.ROLE_CEP_HI : Nat := 0x400030018
abbrev F.ROLE_CEP_HI_EPOCH : Fld := ⟨R.ROLE_CEP_HI, 31, 0⟩
/-- ROLE_LHB_LO (14 R503). -/
abbrev R.ROLE_LHB_LO : Nat := 0x40003001C
abbrev F.ROLE_LHB_LO_T : Fld := ⟨R.ROLE_LHB_LO, 31, 0⟩
/-- ROLE_LHB_HI (14 R503). -/
abbrev R.ROLE_LHB_HI : Nat := 0x400030020
abbrev F.ROLE_LHB_HI_T : Fld := ⟨R.ROLE_LHB_HI, 31, 0⟩
/-- ROLE_LAST (14 R503). -/
abbrev R.ROLE_LAST : Nat := 0x400030024
abbrev F.ROLE_LAST_PLACE : Fld := ⟨R.ROLE_LAST, 31, 0⟩
/-- ROLE_FCNT (14 R503). -/
abbrev R.ROLE_FCNT : Nat := 0x400030028
abbrev F.ROLE_FCNT_FAIL : Fld := ⟨R.ROLE_FCNT, 31, 16⟩
abbrev F.ROLE_FCNT_SWAPS : Fld := ⟨R.ROLE_FCNT, 15, 0⟩
/-- ROLE_TKT (14 R503). -/
abbrev R.ROLE_TKT : Nat := 0x40003002C
abbrev F.ROLE_TKT_US : Fld := ⟨R.ROLE_TKT, 31, 0⟩
/-- ROLE_SRCS (14 R503). -/
abbrev R.ROLE_SRCS : Nat := 0x400030030
abbrev F.ROLE_SRCS_MASK : Fld := ⟨R.ROLE_SRCS, 8, 1⟩
/-- ROLE_STCFG (14 R503). -/
abbrev R.ROLE_STCFG : Nat := 0x400030034
abbrev F.ROLE_STCFG_PER : Fld := ⟨R.ROLE_STCFG, 11, 0⟩
/-- ROLE_HEALTH{d} (14 R503). -/
abbrev R.ROLE_HEALTH (d : Nat) : Nat := 0x40003003C + d * 4
abbrev F.ROLE_HEALTH_AGE (d : Nat) : Fld := ⟨R.ROLE_HEALTH d, 31, 16⟩
abbrev F.ROLE_HEALTH_FAILS (d : Nat) : Fld := ⟨R.ROLE_HEALTH d, 15, 8⟩
abbrev F.ROLE_HEALTH_OVERDUE (d : Nat) : Fld := ⟨R.ROLE_HEALTH d, 7, 7⟩
abbrev F.ROLE_HEALTH_IMGOK (d : Nat) : Fld := ⟨R.ROLE_HEALTH d, 6, 6⟩
abbrev F.ROLE_HEALTH_RUNNING (d : Nat) : Fld := ⟨R.ROLE_HEALTH d, 4, 4⟩
abbrev F.ROLE_HEALTH_RESULT (d : Nat) : Fld := ⟨R.ROLE_HEALTH d, 3, 2⟩
abbrev F.ROLE_HEALTH_OK (d : Nat) : Fld := ⟨R.ROLE_HEALTH d, 0, 0⟩
/-- ROLE_DRB{k} (14 R503). -/
abbrev R.ROLE_DRB (k : Nat) : Nat := 0x400030080 + k * 8
abbrev F.ROLE_DRB_OFS (k : Nat) : Fld := ⟨R.ROLE_DRB k, 31, 6⟩
/-- ROLE_DRL{k} (14 R503). -/
abbrev R.ROLE_DRL (k : Nat) : Nat := 0x400030084 + k * 8
abbrev F.ROLE_DRL_LEN (k : Nat) : Fld := ⟨R.ROLE_DRL k, 10, 0⟩

/-- MIT_CFG (14 R504). -/
abbrev R.MIT_CFG : Nat := 0x400450000
abbrev F.MIT_CFG_RAMP : Fld := ⟨R.MIT_CFG, 25, 16⟩
abbrev F.MIT_CFG_HOLD : Fld := ⟨R.MIT_CFG, 9, 0⟩
/-- MIT_LOCK (14 R504). -/
abbrev R.MIT_LOCK : Nat := 0x400450004
abbrev F.MIT_LOCK_CEIL : Fld := ⟨R.MIT_LOCK, 9, 0⟩
/-- MIT_STAT (14 R504). -/
abbrev R.MIT_STAT : Nat := 0x400450008
abbrev F.MIT_STAT_ELAPSED : Fld := ⟨R.MIT_STAT, 31, 16⟩
abbrev F.MIT_STAT_CFGERR : Fld := ⟨R.MIT_STAT, 3, 3⟩
abbrev F.MIT_STAT_EXP : Fld := ⟨R.MIT_STAT, 2, 2⟩
abbrev F.MIT_STAT_STATE : Fld := ⟨R.MIT_STAT, 1, 0⟩
/-- MIT_FHELD (14 R504). -/
abbrev R.MIT_FHELD : Nat := 0x40045000C
abbrev F.MIT_FHELD_MASK : Fld := ⟨R.MIT_FHELD, 31, 0⟩
/-- MIT_OHELD (14 R504). -/
abbrev R.MIT_OHELD : Nat := 0x400450010
abbrev F.MIT_OHELD_PALM : Fld := ⟨R.MIT_OHELD, 23, 16⟩
abbrev F.MIT_OHELD_LOAD : Fld := ⟨R.MIT_OHELD, 15, 0⟩
/-- MIT_CNT (14 R504). -/
abbrev R.MIT_CNT : Nat := 0x400450014
abbrev F.MIT_CNT_EXP : Fld := ⟨R.MIT_CNT, 31, 16⟩
abbrev F.MIT_CNT_ENG : Fld := ⟨R.MIT_CNT, 15, 0⟩

/-- HMN_WDCFG{h} (14 R505). -/
abbrev R.HMN_WDCFG (h : Nat) : Nat := 0x500200000 + h * 0x100000000
abbrev F.HMN_WDCFG_EN (h : Nat) : Fld := ⟨R.HMN_WDCFG h, 19, 16⟩
abbrev F.HMN_WDCFG_TMO (h : Nat) : Fld := ⟨R.HMN_WDCFG h, 11, 0⟩
/-- HMN_KICK{h}{c} (14 R505). -/
abbrev R.HMN_KICK (h : Nat) (c : Nat) : Nat := 0x500200004 + h * 0x100000000 + c * 4
/-- HMN_STAT{h} (14 R505). -/
abbrev R.HMN_STAT (h : Nat) : Nat := 0x500200014 + h * 0x100000000
abbrev F.HMN_STAT_EXP (h : Nat) : Fld := ⟨R.HMN_STAT h, 7, 4⟩
abbrev F.HMN_STAT_HB (h : Nat) : Fld := ⟨R.HMN_STAT h, 3, 3⟩
/-- HMN_HBCNT{h} (14 R505). -/
abbrev R.HMN_HBCNT (h : Nat) : Nat := 0x500200018 + h * 0x100000000
abbrev F.HMN_HBCNT_COUNT (h : Nat) : Fld := ⟨R.HMN_HBCNT h, 31, 0⟩

/-- RST_CAUSE (15 R532). -/
abbrev R.RST_CAUSE : Nat := 0x400000000
abbrev F.RST_CAUSE_PFOK : Fld := ⟨R.RST_CAUSE, 9, 9⟩
abbrev F.RST_CAUSE_PFAIL : Fld := ⟨R.RST_CAUSE, 8, 8⟩
abbrev F.RST_CAUSE_CAUSE : Fld := ⟨R.RST_CAUSE, 3, 0⟩
/-- RST_STAT (15 R532). -/
abbrev R.RST_STAT : Nat := 0x400000004
abbrev F.RST_STAT_IGN : Fld := ⟨R.RST_STAT, 6, 6⟩
abbrev F.RST_STAT_TFORCE : Fld := ⟨R.RST_STAT, 5, 5⟩
abbrev F.RST_STAT_FLUSH : Fld := ⟨R.RST_STAT, 4, 4⟩
abbrev F.RST_STAT_BENCH : Fld := ⟨R.RST_STAT, 3, 3⟩
abbrev F.RST_STAT_SAFE : Fld := ⟨R.RST_STAT, 2, 2⟩
abbrev F.RST_STAT_PWRF : Fld := ⟨R.RST_STAT, 1, 1⟩
abbrev F.RST_STAT_VHOK : Fld := ⟨R.RST_STAT, 0, 0⟩
/-- RST_PLACE (15 R532). -/
abbrev R.RST_PLACE : Nat := 0x400000008
abbrev F.RST_PLACE_PLACE : Fld := ⟨R.RST_PLACE, 31, 0⟩
/-- RST_CTL (15 R532). -/
abbrev R.RST_CTL : Nat := 0x40000000C
abbrev F.RST_CTL_BEANIE : Fld := ⟨R.RST_CTL, 1, 1⟩
abbrev F.RST_CTL_GO : Fld := ⟨R.RST_CTL, 0, 0⟩
/-- RST_IDLE (15 R532). -/
abbrev R.RST_IDLE : Nat := 0x400000010
abbrev F.RST_IDLE_TMO : Fld := ⟨R.RST_IDLE, 13, 0⟩
/-- RST_STRAP (15 R532). -/
abbrev R.RST_STRAP : Nat := 0x400000014
abbrev F.RST_STRAP_OVR : Fld := ⟨R.RST_STRAP, 16, 16⟩
abbrev F.RST_STRAP_CODE : Fld := ⟨R.RST_STRAP, 15, 12⟩
abbrev F.RST_STRAP_MCODE : Fld := ⟨R.RST_STRAP, 11, 8⟩
abbrev F.RST_STRAP_N : Fld := ⟨R.RST_STRAP, 7, 0⟩
/-- RST_FCNT (15 R532). -/
abbrev R.RST_FCNT : Nat := 0x400000018
abbrev F.RST_FCNT_COUNT : Fld := ⟨R.RST_FCNT, 31, 0⟩
/-- RST_BWK_LO (15 R532). -/
abbrev R.RST_BWK_LO : Nat := 0x40000001C
abbrev F.RST_BWK_LO_T : Fld := ⟨R.RST_BWK_LO, 31, 0⟩
/-- RST_BWK_HI (15 R532). -/
abbrev R.RST_BWK_HI : Nat := 0x400000020
abbrev F.RST_BWK_HI_T : Fld := ⟨R.RST_BWK_HI, 31, 0⟩
/-- RST_BCFG (15 R532). -/
abbrev R.RST_BCFG : Nat := 0x400000024
abbrev F.RST_BCFG_TIMW : Fld := ⟨R.RST_BCFG, 2, 2⟩
abbrev F.RST_BCFG_CANW : Fld := ⟨R.RST_BCFG, 1, 1⟩
abbrev F.RST_BCFG_IGNW : Fld := ⟨R.RST_BCFG, 0, 0⟩

/-- PST_STAT (15 R533). -/
abbrev R.PST_STAT : Nat := 0x400460000
abbrev F.PST_STAT_CLKF : Fld := ⟨R.PST_STAT, 6, 6⟩
abbrev F.PST_STAT_OVV : Fld := ⟨R.PST_STAT, 5, 5⟩
abbrev F.PST_STAT_HOLDS : Fld := ⟨R.PST_STAT, 4, 4⟩
abbrev F.PST_STAT_BENCH : Fld := ⟨R.PST_STAT, 3, 3⟩
abbrev F.PST_STAT_SAFEL : Fld := ⟨R.PST_STAT, 2, 2⟩
abbrev F.PST_STAT_SAFE : Fld := ⟨R.PST_STAT, 1, 1⟩
abbrev F.PST_STAT_APPLIED : Fld := ⟨R.PST_STAT, 0, 0⟩
/-- PST_PCMD (15 R533). -/
abbrev R.PST_PCMD : Nat := 0x400460004
abbrev F.PST_PCMD_PCMD : Fld := ⟨R.PST_PCMD, 15, 0⟩
/-- PST_LCMD (15 R533). -/
abbrev R.PST_LCMD : Nat := 0x400460008
abbrev F.PST_LCMD_LCMD : Fld := ⟨R.PST_LCMD, 15, 0⟩
/-- PST_FHELD (15 R533). -/
abbrev R.PST_FHELD : Nat := 0x40046000C
abbrev F.PST_FHELD_MASK : Fld := ⟨R.PST_FHELD, 31, 0⟩
/-- PST_OHELD (15 R533). -/
abbrev R.PST_OHELD : Nat := 0x400460010
abbrev F.PST_OHELD_PALM : Fld := ⟨R.PST_OHELD, 23, 16⟩
abbrev F.PST_OHELD_LOAD : Fld := ⟨R.PST_OHELD, 15, 0⟩
/-- PST_FCODE{n} (15 R533). -/
abbrev R.PST_FCODE (n : Nat) : Nat := 0x400460040 + n * 4
abbrev F.PST_FCODE_CODE (n : Nat) : Fld := ⟨R.PST_FCODE n, 15, 0⟩

/-- EVR_CTL (16 R550). -/
abbrev R.EVR_CTL : Nat := 0x400040000
abbrev F.EVR_CTL_UNFRZ : Fld := ⟨R.EVR_CTL, 3, 3⟩
abbrev F.EVR_CTL_FRZ : Fld := ⟨R.EVR_CTL, 2, 2⟩
abbrev F.EVR_CTL_CLR : Fld := ⟨R.EVR_CTL, 1, 1⟩
abbrev F.EVR_CTL_FLUSH : Fld := ⟨R.EVR_CTL, 0, 0⟩
/-- EVR_STAT (16 R550). -/
abbrev R.EVR_STAT : Nat := 0x400040004
abbrev F.EVR_STAT_REFUSED : Fld := ⟨R.EVR_STAT, 4, 4⟩
abbrev F.EVR_STAT_FROZEN : Fld := ⟨R.EVR_STAT, 3, 3⟩
abbrev F.EVR_STAT_FLUSHING : Fld := ⟨R.EVR_STAT, 2, 2⟩
abbrev F.EVR_STAT_FULL : Fld := ⟨R.EVR_STAT, 1, 1⟩
abbrev F.EVR_STAT_BDROP : Fld := ⟨R.EVR_STAT, 0, 0⟩
/-- EVR_SEQ (16 R550). -/
abbrev R.EVR_SEQ : Nat := 0x400040008
abbrev F.EVR_SEQ_SEQ : Fld := ⟨R.EVR_SEQ, 31, 0⟩
/-- EVR_LCNT (16 R550). -/
abbrev R.EVR_LCNT : Nat := 0x40004000C
abbrev F.EVR_LCNT_LCNT : Fld := ⟨R.EVR_LCNT, 17, 0⟩
/-- EVR_BCNT (16 R550). -/
abbrev R.EVR_BCNT : Nat := 0x400040010
abbrev F.EVR_BCNT_BCNT : Fld := ⟨R.EVR_BCNT, 11, 0⟩
/-- EVR_OVF (16 R550). -/
abbrev R.EVR_OVF : Nat := 0x400040014
abbrev F.EVR_OVF_COUNT : Fld := ⟨R.EVR_OVF, 31, 0⟩
/-- EVR_BDROP (16 R550). -/
abbrev R.EVR_BDROP : Nat := 0x400040018
abbrev F.EVR_BDROP_COUNT : Fld := ⟨R.EVR_BDROP, 31, 0⟩
/-- EVR_FRZ (16 R550). -/
abbrev R.EVR_FRZ : Nat := 0x40004001C
abbrev F.EVR_FRZ_TMO : Fld := ⟨R.EVR_FRZ, 9, 0⟩
/-- EVR_BPAGE (16 R550). -/
abbrev R.EVR_BPAGE : Nat := 0x400040020
abbrev F.EVR_BPAGE_PAGE : Fld := ⟨R.EVR_BPAGE, 0, 0⟩
/-- EVR_OLDEST (16 R550). -/
abbrev R.EVR_OLDEST : Nat := 0x400040024
abbrev F.EVR_OLDEST_SEQ : Fld := ⟨R.EVR_OLDEST, 31, 0⟩

/-- FLT_CFG (16 R551). -/
abbrev R.FLT_CFG : Nat := 0x400050000
abbrev F.FLT_CFG_LEVEL : Fld := ⟨R.FLT_CFG, 1, 0⟩
/-- FLT_STAT (16 R551). -/
abbrev R.FLT_STAT : Nat := 0x400050004
abbrev F.FLT_STAT_OPEN : Fld := ⟨R.FLT_STAT, 7, 2⟩
abbrev F.FLT_STAT_QFULL : Fld := ⟨R.FLT_STAT, 1, 1⟩
abbrev F.FLT_STAT_SUPP : Fld := ⟨R.FLT_STAT, 0, 0⟩
/-- FLT_RCNT (16 R551). -/
abbrev R.FLT_RCNT : Nat := 0x400050008
abbrev F.FLT_RCNT_COUNT : Fld := ⟨R.FLT_RCNT, 31, 0⟩
/-- FLT_COAL (16 R551). -/
abbrev R.FLT_COAL : Nat := 0x40005000C
abbrev F.FLT_COAL_COUNT : Fld := ⟨R.FLT_COAL, 31, 0⟩
/-- FLT_SUPP (16 R551). -/
abbrev R.FLT_SUPP : Nat := 0x400050010
abbrev F.FLT_SUPP_COUNT : Fld := ⟨R.FLT_SUPP, 31, 0⟩
/-- FLT_QDROP (16 R551). -/
abbrev R.FLT_QDROP : Nat := 0x400050014
abbrev F.FLT_QDROP_COUNT : Fld := ⟨R.FLT_QDROP, 31, 0⟩
/-- FLT_CLR (16 R551). -/
abbrev R.FLT_CLR : Nat := 0x400050018
abbrev F.FLT_CLR_CLR : Fld := ⟨R.FLT_CLR, 0, 0⟩

/-- UPD_ID (17 R572). -/
abbrev R.UPD_ID : Nat := 0x400060000
abbrev F.UPD_ID_BUILD : Fld := ⟨R.UPD_ID, 15, 8⟩
abbrev F.UPD_ID_ORDER : Fld := ⟨R.UPD_ID, 1, 0⟩
/-- UPD_STAT (17 R572). -/
abbrev R.UPD_STAT : Nat := 0x400060004
abbrev F.UPD_STAT_NANDERR : Fld := ⟨R.UPD_STAT, 2, 2⟩
abbrev F.UPD_STAT_CFGERR : Fld := ⟨R.UPD_STAT, 1, 1⟩
abbrev F.UPD_STAT_SBUSY : Fld := ⟨R.UPD_STAT, 0, 0⟩
/-- UPD_SCMD (17 R572). -/
abbrev R.UPD_SCMD : Nat := 0x400060008
abbrev F.UPD_SCMD_GO : Fld := ⟨R.UPD_SCMD, 31, 31⟩
abbrev F.UPD_SCMD_KIND : Fld := ⟨R.UPD_SCMD, 2, 0⟩
/-- UPD_SOFS (17 R572). -/
abbrev R.UPD_SOFS : Nat := 0x40006000C
abbrev F.UPD_SOFS_OFS : Fld := ⟨R.UPD_SOFS, 31, 0⟩
/-- UPD_SLEN (17 R572). -/
abbrev R.UPD_SLEN : Nat := 0x400060010
abbrev F.UPD_SLEN_LEN : Fld := ⟨R.UPD_SLEN, 20, 0⟩
/-- UPD_SSRC_LO (17 R572). -/
abbrev R.UPD_SSRC_LO : Nat := 0x400060014
abbrev F.UPD_SSRC_LO_ADDR : Fld := ⟨R.UPD_SSRC_LO, 31, 0⟩
/-- UPD_SSRC_HI (17 R572). -/
abbrev R.UPD_SSRC_HI : Nat := 0x400060018
abbrev F.UPD_SSRC_HI_ADDR : Fld := ⟨R.UPD_SSRC_HI, 15, 0⟩
/-- UPD_CTL (17 R572). -/
abbrev R.UPD_CTL : Nat := 0x40006001C
abbrev F.UPD_CTL_KIND : Fld := ⟨R.UPD_CTL, 18, 16⟩
abbrev F.UPD_CTL_ABORT : Fld := ⟨R.UPD_CTL, 2, 2⟩
abbrev F.UPD_CTL_COMMIT : Fld := ⟨R.UPD_CTL, 1, 1⟩
abbrev F.UPD_CTL_CONFIRM : Fld := ⟨R.UPD_CTL, 0, 0⟩
/-- UPD_FRST (17 R572). -/
abbrev R.UPD_FRST : Nat := 0x400060020
abbrev F.UPD_FRST_PLACE : Fld := ⟨R.UPD_FRST, 31, 0⟩
/-- UPD_BSEQ (17 R572). -/
abbrev R.UPD_BSEQ : Nat := 0x400060024
abbrev F.UPD_BSEQ_SEQ : Fld := ⟨R.UPD_BSEQ, 31, 0⟩
/-- UPD_WBASE_LO (17 R572). -/
abbrev R.UPD_WBASE_LO : Nat := 0x400060028
abbrev F.UPD_WBASE_LO_ADDR : Fld := ⟨R.UPD_WBASE_LO, 31, 8⟩
/-- UPD_WBASE_HI (17 R572). -/
abbrev R.UPD_WBASE_HI : Nat := 0x40006002C
abbrev F.UPD_WBASE_HI_ADDR : Fld := ⟨R.UPD_WBASE_HI, 15, 0⟩
/-- UPD_HOLD (17 R572). -/
abbrev R.UPD_HOLD : Nat := 0x400060030
/-- UPD_KSTAT{k} (17 R572). -/
abbrev R.UPD_KSTAT (k : Nat) : Nat := 0x400060100 + k * 0x20
abbrev F.UPD_KSTAT_REASON (k : Nat) : Fld := ⟨R.UPD_KSTAT k, 19, 16⟩
abbrev F.UPD_KSTAT_REJ (k : Nat) : Fld := ⟨R.UPD_KSTAT k, 13, 13⟩
abbrev F.UPD_KSTAT_FALLBK (k : Nat) : Fld := ⟨R.UPD_KSTAT k, 12, 12⟩
abbrev F.UPD_KSTAT_TRIES (k : Nat) : Fld := ⟨R.UPD_KSTAT k, 9, 8⟩
abbrev F.UPD_KSTAT_STG (k : Nat) : Fld := ⟨R.UPD_KSTAT k, 6, 4⟩
abbrev F.UPD_KSTAT_RUNTRY (k : Nat) : Fld := ⟨R.UPD_KSTAT k, 3, 3⟩
abbrev F.UPD_KSTAT_TRY (k : Nat) : Fld := ⟨R.UPD_KSTAT k, 2, 2⟩
abbrev F.UPD_KSTAT_PSCUR (k : Nat) : Fld := ⟨R.UPD_KSTAT k, 1, 1⟩
abbrev F.UPD_KSTAT_CUR (k : Nat) : Fld := ⟨R.UPD_KSTAT k, 0, 0⟩
/-- UPD_SRCV{k} (17 R572). -/
abbrev R.UPD_SRCV (k : Nat) : Nat := 0x400060104 + k * 0x20
abbrev F.UPD_SRCV_BYTES (k : Nat) : Fld := ⟨R.UPD_SRCV k, 31, 0⟩
/-- UPD_RUNT{k} (17 R572). -/
abbrev R.UPD_RUNT (k : Nat) : Nat := 0x400060108 + k * 0x20
abbrev F.UPD_RUNT_S (k : Nat) : Fld := ⟨R.UPD_RUNT k, 9, 0⟩
/-- UPD_CVER{k} (17 R572). -/
abbrev R.UPD_CVER (k : Nat) : Nat := 0x40006010C + k * 0x20
abbrev F.UPD_CVER_VER (k : Nat) : Fld := ⟨R.UPD_CVER k, 31, 0⟩
/-- UPD_TVER{k} (17 R572). -/
abbrev R.UPD_TVER (k : Nat) : Nat := 0x400060110 + k * 0x20
abbrev F.UPD_TVER_VER (k : Nat) : Fld := ⟨R.UPD_TVER k, 31, 0⟩

/-- TLY_STAT (17 R573). -/
abbrev R.TLY_STAT : Nat := 0x400070000
abbrev F.TLY_STAT_LASTROW : Fld := ⟨R.TLY_STAT, 14, 12⟩
abbrev F.TLY_STAT_LASTSET : Fld := ⟨R.TLY_STAT, 11, 8⟩
abbrev F.TLY_STAT_REFUSED : Fld := ⟨R.TLY_STAT, 4, 4⟩
abbrev F.TLY_STAT_BURNFAIL : Fld := ⟨R.TLY_STAT, 3, 3⟩
abbrev F.TLY_STAT_DONE : Fld := ⟨R.TLY_STAT, 2, 2⟩
abbrev F.TLY_STAT_ARMED : Fld := ⟨R.TLY_STAT, 1, 1⟩
abbrev F.TLY_STAT_BUSY : Fld := ⟨R.TLY_STAT, 0, 0⟩
/-- TLY_ARM (17 R573). -/
abbrev R.TLY_ARM : Nat := 0x400070004
abbrev F.TLY_ARM_KEY : Fld := ⟨R.TLY_ARM, 31, 0⟩
/-- TLY_CMD (17 R573). -/
abbrev R.TLY_CMD : Nat := 0x400070008
abbrev F.TLY_CMD_GO : Fld := ⟨R.TLY_CMD, 31, 31⟩
abbrev F.TLY_CMD_SETTING : Fld := ⟨R.TLY_CMD, 3, 0⟩
/-- TLY_ROWS (17 R573). -/
abbrev R.TLY_ROWS : Nat := 0x40007000C
abbrev F.TLY_ROWS_USED : Fld := ⟨R.TLY_ROWS, 31, 0⟩
/-- TLY_HOURS (17 R573). -/
abbrev R.TLY_HOURS : Nat := 0x400070010
abbrev F.TLY_HOURS_H : Fld := ⟨R.TLY_HOURS, 31, 0⟩
/-- TLY_DATA{j} (17 R573). -/
abbrev R.TLY_DATA (j : Nat) : Nat := 0x400070040 + j * 4
abbrev F.TLY_DATA_DATA (j : Nat) : Fld := ⟨R.TLY_DATA j, 31, 0⟩

/-- The QUE register tables (R42). -/
def regsQue : List RegDesc := [
  ⟨0, [(128, 0x20)], 0, [⟨31, 8, .own, []⟩]⟩,
  ⟨4, [(128, 0x20)], 0, [⟨15, 0, .own, []⟩]⟩,
  ⟨8, [(128, 0x20)], 8, [⟨6, 5, .own, []⟩, ⟨4, 1, .own, [(4, 15)]⟩, ⟨0, 0, .own, []⟩]⟩,
  ⟨0xC, [(128, 0x20)], 0, [⟨15, 0, .any, []⟩]⟩,
  ⟨0x10, [(128, 0x20)], 0, [⟨31, 16, .wo, []⟩, ⟨15, 0, .any, []⟩]⟩,
  ⟨0x14, [(128, 0x20)], 0, [⟨15, 0, .own, []⟩]⟩,
  ⟨0x18, [(128, 0x20)], 0x40000000, [⟨31, 31, .wo, []⟩, ⟨30, 30, .ro, []⟩, ⟨29, 29, .ro, []⟩, ⟨28, 28, .w1c, []⟩, ⟨27, 16, .ro, []⟩, ⟨15, 0, .ro, []⟩]⟩]

/-- The FAB register tables (R46). -/
def regsFab : List RegDesc := [
  ⟨0, [], 0, [⟨31, 0, .ro, []⟩]⟩,
  ⟨4, [], 0, [⟨31, 0, .ro, []⟩]⟩,
  ⟨8, [], 0, [⟨31, 0, .ro, []⟩]⟩,
  ⟨0xC, [], 0, [⟨31, 0, .ro, []⟩]⟩,
  ⟨0x10, [], 0, [⟨31, 0, .ro, []⟩]⟩,
  ⟨0x14, [], 0, [⟨15, 0, .ro, []⟩]⟩,
  ⟨0x18, [], 0, [⟨5, 2, .own, []⟩, ⟨1, 1, .own, []⟩, ⟨0, 0, .own, []⟩]⟩,
  ⟨0x1C, [], 0, [⟨0, 0, .wo, []⟩]⟩]

/-- The HB register tables (R79, R80). -/
def regsHb : List RegDesc := [
  ⟨0, [], 0, [⟨31, 0, .ro, []⟩]⟩,
  ⟨4, [], 0, [⟨31, 0, .ro, []⟩]⟩,
  ⟨8, [], 0, [⟨31, 0, .ro, []⟩]⟩,
  ⟨0xC, [], 0, [⟨31, 0, .ro, []⟩]⟩,
  ⟨0x10, [], 0, [⟨31, 0, .ro, []⟩]⟩,
  ⟨0x14, [], 0, [⟨31, 0, .ro, []⟩]⟩,
  ⟨0x18, [], 0, [⟨31, 0, .own, []⟩]⟩,
  ⟨0x1C, [], 0, [⟨31, 0, .own, []⟩]⟩,
  ⟨0x20, [], 0, [⟨31, 0, .own, []⟩]⟩,
  ⟨0x24, [], 0, [⟨31, 0, .own, []⟩]⟩,
  ⟨0x28, [], 0, [⟨15, 0, .own, []⟩]⟩,
  ⟨0x2C, [], 0, [⟨7, 0, .own, []⟩]⟩,
  ⟨0x30, [], 0x20, [⟨7, 4, .own, [(1, 15)]⟩, ⟨0, 0, .own, []⟩]⟩,
  ⟨0x34, [], 0xC, [⟨11, 11, .w1c, []⟩, ⟨10, 10, .w1c, []⟩, ⟨9, 9, .w1c, []⟩, ⟨8, 8, .w1c, []⟩, ⟨7, 7, .ro, []⟩, ⟨6, 6, .ro, []⟩, ⟨5, 5, .ro, []⟩, ⟨4, 4, .ro, []⟩, ⟨3, 3, .ro, []⟩, ⟨2, 2, .ro, []⟩, ⟨1, 0, .ro, []⟩]⟩,
  ⟨0x38, [], 0xFFFFFFFF, [⟨31, 0, .own, []⟩]⟩,
  ⟨0x3C, [], 0x1F4, [⟨15, 0, .own, []⟩]⟩,
  ⟨0x40, [], 0, [⟨31, 0, .ro, []⟩]⟩,
  ⟨0x44, [], 0xC8, [⟨10, 0, .own, [(20, 2000)]⟩]⟩,
  ⟨0x48, [], 0x3E8, [⟨14, 0, .own, [(200, 20000)]⟩]⟩,
  ⟨0x4C, [], 0, [⟨7, 7, .own, []⟩, ⟨6, 0, .own, []⟩]⟩,
  ⟨0x100, [(32, 0x20)], 0, [⟨13, 8, .own, []⟩, ⟨3, 3, .own, []⟩, ⟨2, 2, .own, []⟩, ⟨1, 0, .own, [(0, 2)]⟩]⟩,
  ⟨0x104, [(32, 0x20)], 0xF4240, [⟨31, 0, .own, []⟩]⟩,
  ⟨0x108, [(32, 0x20)], 0, [⟨1, 0, .own, []⟩]⟩,
  ⟨0x10C, [(32, 0x20)], 0, [⟨31, 0, .own, []⟩]⟩,
  ⟨0x110, [(32, 0x20)], 0, [⟨1, 0, .own, []⟩]⟩,
  ⟨0x114, [(32, 0x20)], 0, [⟨31, 0, .own, []⟩]⟩,
  ⟨0x118, [(32, 0x20)], 0, [⟨31, 0, .ro, []⟩]⟩,
  ⟨0x11C, [(32, 0x20)], 0, [⟨31, 0, .ro, []⟩]⟩]

/-- The PPS register tables (R81). -/
def regsPps : List RegDesc := [
  ⟨0, [], 0x6408, [⟨15, 8, .own, [(1, 200)]⟩, ⟨3, 3, .own, []⟩, ⟨2, 2, .own, []⟩, ⟨1, 1, .own, []⟩, ⟨0, 0, .own, []⟩]⟩,
  ⟨4, [], 0, [⟨2, 2, .ro, []⟩, ⟨1, 0, .ro, []⟩]⟩,
  ⟨8, [], 0, [⟨31, 0, .ro, []⟩]⟩]

/-- The CSI register tables (R114). -/
def regsCsi : List RegDesc := [
  ⟨0, [], 0, [⟨14, 14, .own, []⟩, ⟨13, 12, .own, []⟩, ⟨10, 10, .own, []⟩, ⟨9, 8, .own, []⟩, ⟨2, 1, .own, []⟩, ⟨0, 0, .own, []⟩]⟩,
  ⟨4, [], 0x320, [⟨11, 0, .own, [(80, 2500)]⟩]⟩,
  ⟨8, [], 0, [⟨8, 8, .w1c, []⟩, ⟨7, 7, .w1c, []⟩, ⟨6, 6, .w1c, []⟩, ⟨5, 5, .w1c, []⟩, ⟨4, 4, .w1c, []⟩, ⟨3, 3, .w1c, []⟩, ⟨2, 2, .w1c, []⟩, ⟨1, 1, .ro, []⟩, ⟨0, 0, .ro, []⟩]⟩,
  ⟨0xC, [], 0, [⟨31, 16, .ro, []⟩, ⟨15, 0, .ro, []⟩]⟩,
  ⟨0x10, [], 0, [⟨31, 16, .ro, []⟩, ⟨15, 0, .ro, []⟩]⟩,
  ⟨0x14, [], 0, [⟨26, 16, .ro, []⟩, ⟨10, 0, .ro, []⟩]⟩,
  ⟨0x18, [], 0, [⟨0, 0, .wo, []⟩]⟩]

/-- The MPL register tables (R115). -/
def regsMpl : List RegDesc := [
  ⟨0, [], 0xF01, [⟨12, 8, .own, []⟩, ⟨0, 0, .own, []⟩]⟩,
  ⟨4, [], 0x700, [⟨11, 11, .w1c, []⟩, ⟨10, 8, .ro, []⟩, ⟨4, 4, .ro, []⟩, ⟨2, 0, .ro, []⟩]⟩,
  ⟨8, [], 0, [⟨31, 0, .ro, []⟩]⟩,
  ⟨0xC, [], 0, [⟨31, 0, .ro, []⟩]⟩,
  ⟨0x10, [], 0, [⟨15, 0, .ro, []⟩]⟩,
  ⟨0x14, [], 0, [⟨0, 0, .wo, []⟩]⟩]

/-- The VSC register tables (R116). -/
def regsVsc : List RegDesc := [
  ⟨0x100, [(8, 0x80)], 0x1000000, [⟨27, 24, .own, [(1, 15)]⟩, ⟨21, 20, .own, []⟩, ⟨18, 16, .own, [(0, 5)]⟩, ⟨14, 14, .own, []⟩, ⟨13, 12, .own, [(0, 2)]⟩, ⟨8, 4, .own, []⟩, ⟨3, 3, .own, []⟩, ⟨1, 1, .own, []⟩, ⟨0, 0, .own, []⟩]⟩,
  ⟨0x104, [(8, 0x80)], 0x80040, [⟨31, 16, .own, []⟩, ⟨15, 0, .own, []⟩]⟩,
  ⟨0x108, [(8, 0x80)], 0xFFFF0000, [⟨31, 16, .own, []⟩, ⟨15, 0, .own, []⟩]⟩,
  ⟨0x10C, [(8, 0x80)], 0, [⟨29, 0, .own, []⟩]⟩,
  ⟨0x110, [(8, 0x80)], 0, [⟨17, 0, .own, []⟩]⟩,
  ⟨0x114, [(8, 0x80)], 0, [⟨31, 8, .own, []⟩]⟩,
  ⟨0x118, [(8, 0x80)], 0, [⟨15, 0, .own, []⟩]⟩,
  ⟨0x11C, [(8, 0x80)], 0, [⟨31, 8, .own, []⟩]⟩,
  ⟨0x120, [(8, 0x80)], 0, [⟨15, 0, .own, []⟩]⟩,
  ⟨0x124, [(8, 0x80)], 0, [⟨31, 8, .own, []⟩]⟩,
  ⟨0x128, [(8, 0x80)], 0, [⟨15, 0, .own, []⟩]⟩,
  ⟨0x12C, [(8, 0x80)], 0, [⟨31, 8, .own, []⟩]⟩,
  ⟨0x130, [(8, 0x80)], 0, [⟨15, 0, .own, []⟩]⟩,
  ⟨0x134, [(8, 0x80)], 0x2000000, [⟨27, 24, .own, [(2, 15)]⟩, ⟨23, 0, .own, []⟩]⟩,
  ⟨0x138, [(8, 0x80)], 0, [⟨23, 0, .own, []⟩]⟩,
  ⟨0x13C, [(8, 0x80)], 0, [⟨7, 7, .own, []⟩, ⟨6, 0, .own, []⟩]⟩,
  ⟨0x140, [(8, 0x80)], 0, [⟨15, 0, .ro, []⟩]⟩,
  ⟨0x144, [(8, 0x80)], 0, [⟨15, 0, .any, []⟩]⟩,
  ⟨0x148, [(8, 0x80)], 0, [⟨19, 19, .ro, []⟩, ⟨18, 18, .ro, []⟩, ⟨17, 17, .w1c, []⟩, ⟨11, 0, .ro, []⟩]⟩,
  ⟨0x14C, [(8, 0x80)], 0, [⟨31, 0, .ro, []⟩]⟩,
  ⟨0x150, [(8, 0x80)], 0, [⟨31, 16, .ro, []⟩, ⟨15, 0, .ro, []⟩]⟩,
  ⟨0x154, [(8, 0x80)], 0, [⟨31, 16, .ro, []⟩, ⟨15, 0, .ro, []⟩]⟩,
  ⟨0x158, [(8, 0x80)], 0, [⟨0, 0, .wo, []⟩]⟩]

/-- The HRA register tables (R162). -/
def regsHra : List RegDesc := [
  ⟨0, [], 0xA02, [⟨15, 8, .own, []⟩, ⟨1, 1, .own, []⟩, ⟨0, 0, .wo, []⟩]⟩,
  ⟨4, [], 0, [⟨11, 11, .w1c, []⟩, ⟨10, 10, .w1c, []⟩, ⟨9, 9, .w1c, []⟩, ⟨3, 3, .ro, []⟩, ⟨2, 0, .ro, []⟩]⟩,
  ⟨8, [], 0, [⟨0, 0, .wo, []⟩]⟩,
  ⟨0x100, [(8, 0x40)], 0, [⟨12, 8, .own, []⟩, ⟨7, 5, .own, []⟩, ⟨4, 4, .own, []⟩, ⟨3, 1, .own, []⟩, ⟨0, 0, .own, []⟩]⟩,
  ⟨0x104, [(8, 0x40)], 0x10, [⟨14, 11, .own, []⟩, ⟨10, 5, .own, [(0, 32)]⟩, ⟨4, 1, .own, []⟩, ⟨0, 0, .own, []⟩]⟩,
  ⟨0x108, [(8, 0x40)], 0x7FFFFF, [⟨22, 0, .own, [(1, 8388607)]⟩]⟩,
  ⟨0x10C, [(8, 0x40)], 0x1000010, [⟨31, 16, .own, [(1, 65535)]⟩, ⟨15, 0, .own, [(1, 65535)]⟩]⟩,
  ⟨0x110, [(8, 0x40)], 0, [⟨15, 15, .own, []⟩, ⟨14, 8, .own, []⟩, ⟨7, 7, .own, []⟩, ⟨6, 0, .own, []⟩]⟩,
  ⟨0x114, [(8, 0x40)], 0x2000000, [⟨26, 26, .ro, []⟩, ⟨25, 25, .ro, []⟩, ⟨24, 24, .ro, []⟩, ⟨23, 0, .ro, []⟩]⟩,
  ⟨0x118, [(8, 0x40)], 0, [⟨4, 4, .w1c, []⟩, ⟨3, 3, .w1c, []⟩, ⟨2, 2, .w1c, []⟩, ⟨1, 1, .w1c, []⟩, ⟨0, 0, .w1c, []⟩]⟩,
  ⟨0x11C, [(8, 0x40)], 0, [⟨31, 0, .ro, []⟩]⟩,
  ⟨0x120, [(8, 0x40)], 0, [⟨31, 16, .ro, []⟩, ⟨15, 0, .ro, []⟩]⟩,
  ⟨0x124, [(8, 0x40)], 0xFFFF, [⟨15, 0, .ro, []⟩]⟩]

/-- The GPA register tables (R163). -/
def regsGpa : List RegDesc := [
  ⟨0, [], 0x100, [⟨15, 8, .own, []⟩, ⟨0, 0, .wo, []⟩]⟩,
  ⟨4, [], 0, [⟨11, 11, .w1c, []⟩, ⟨10, 10, .w1c, []⟩, ⟨9, 9, .w1c, []⟩, ⟨0, 0, .ro, []⟩]⟩,
  ⟨8, [], 0, [⟨0, 0, .wo, []⟩]⟩,
  ⟨0x100, [(4, 0x40)], 0x40, [⟨19, 13, .own, []⟩, ⟨12, 12, .own, []⟩, ⟨11, 6, .own, [(1, 32)]⟩, ⟨5, 1, .own, []⟩, ⟨0, 0, .own, []⟩]⟩,
  ⟨0x104, [(4, 0x40)], 0, [⟨31, 0, .ro, []⟩]⟩,
  ⟨0x108, [(4, 0x40), (8, 4)], 0, [⟨4, 0, .own, []⟩, ⟨12, 8, .own, []⟩, ⟨20, 16, .own, []⟩, ⟨28, 24, .own, []⟩]⟩,
  ⟨0x200, [(32, 0x10)], 1, [⟨5, 3, .own, []⟩, ⟨2, 2, .own, []⟩, ⟨1, 0, .own, [(0, 2)]⟩]⟩,
  ⟨0x204, [(32, 0x10)], 0, [⟨31, 31, .ro, []⟩, ⟨30, 30, .ro, []⟩, ⟨29, 29, .ro, []⟩, ⟨17, 0, .ro, []⟩]⟩,
  ⟨0x400, [(4, 0x10)], 0x200C8, [⟨25, 21, .own, []⟩, ⟨20, 9, .own, [(16, 4095)]⟩, ⟨8, 1, .own, [(10, 200)]⟩, ⟨0, 0, .own, []⟩]⟩,
  ⟨0x404, [(4, 0x10)], 0, [⟨31, 31, .ro, []⟩, ⟨16, 0, .ro, []⟩]⟩,
  ⟨0x408, [(4, 0x10)], 0, [⟨31, 31, .ro, []⟩, ⟨16, 0, .ro, []⟩]⟩]

/-- The FQI register tables (R164). -/
def regsFqi : List RegDesc := [
  ⟨0, [], 0xFFFFFF, [⟨23, 0, .ro, []⟩]⟩,
  ⟨4, [], 0, [⟨23, 0, .ro, []⟩]⟩,
  ⟨8, [], 0, [⟨2, 2, .w1c, []⟩, ⟨1, 1, .w1c, []⟩, ⟨0, 0, .w1c, []⟩]⟩,
  ⟨0xC, [], 0, [⟨0, 0, .wo, []⟩]⟩,
  ⟨0x100, [(24, 0x40)], 0x2000, [⟨26, 20, .own, []⟩, ⟨19, 19, .own, []⟩, ⟨18, 13, .own, [(1, 63)]⟩, ⟨12, 12, .own, []⟩, ⟨11, 11, .own, []⟩, ⟨10, 3, .own, []⟩, ⟨2, 1, .own, [(0, 2)]⟩, ⟨0, 0, .own, []⟩]⟩,
  ⟨0x104, [(24, 0x40)], 0xF4240, [⟨23, 0, .own, [(1000, 10000000)]⟩]⟩,
  ⟨0x108, [(24, 0x40)], 0xA, [⟨9, 8, .own, [(0, 2)]⟩, ⟨7, 0, .own, [(10, 250)]⟩]⟩,
  ⟨0x10C, [(24, 0x40)], 0, [⟨31, 0, .ro, []⟩]⟩,
  ⟨0x110, [(24, 0x40)], 0, [⟨31, 0, .ro, []⟩]⟩,
  ⟨0x114, [(24, 0x40)], 0, [⟨31, 0, .ro, []⟩]⟩,
  ⟨0x118, [(24, 0x40)], 0, [⟨31, 0, .ro, []⟩]⟩,
  ⟨0x11C, [(24, 0x40)], 0, [⟨31, 0, .ro, []⟩]⟩,
  ⟨0x120, [(24, 0x40)], 0, [⟨31, 0, .ro, []⟩]⟩]

/-- The FEX register tables (R199). -/
def regsFex : List RegDesc := [
  ⟨0, [], 0x1000, [⟨12, 8, .own, [(4, 28)]⟩, ⟨0, 0, .own, []⟩]⟩,
  ⟨4, [], 0, [⟨11, 6, .ro, []⟩, ⟨5, 5, .ro, []⟩, ⟨4, 4, .ro, []⟩, ⟨3, 3, .w1c, []⟩, ⟨2, 2, .w1c, []⟩, ⟨1, 1, .w1c, []⟩]⟩,
  ⟨8, [], 0, [⟨31, 0, .ro, []⟩]⟩,
  ⟨0xC, [], 0, [⟨31, 0, .ro, []⟩]⟩,
  ⟨0x10, [], 0, [⟨31, 0, .ro, []⟩]⟩,
  ⟨0x14, [], 0, [⟨31, 0, .ro, []⟩]⟩,
  ⟨0x18, [], 0, [⟨15, 0, .ro, []⟩]⟩,
  ⟨0x1C, [], 0, [⟨31, 0, .ro, []⟩]⟩,
  ⟨0x20, [], 0, [⟨31, 0, .ro, []⟩]⟩,
  ⟨0x24, [], 0, [⟨31, 0, .ro, []⟩]⟩,
  ⟨0x28, [], 0, [⟨0, 0, .wo, []⟩]⟩]

/-- The PRJ register tables (R200). -/
def regsPrj : List RegDesc := [
  ⟨0, [], 0, [⟨31, 0, .ro, []⟩]⟩,
  ⟨4, [], 0, [⟨31, 0, .ro, []⟩]⟩,
  ⟨8, [], 0, [⟨0, 0, .wo, []⟩]⟩]

/-- The FUS register tables (R201). -/
def regsFus : List RegDesc := [
  ⟨0, [], 0, [⟨31, 8, .own, []⟩]⟩,
  ⟨4, [], 0, [⟨15, 0, .own, []⟩]⟩,
  ⟨8, [], 0, [⟨3, 3, .w1c, []⟩, ⟨2, 2, .w1c, []⟩, ⟨1, 1, .w1c, []⟩, ⟨0, 0, .w1c, []⟩]⟩,
  ⟨0xC, [], 0, [⟨31, 0, .ro, []⟩]⟩,
  ⟨0x10, [], 0, [⟨7, 7, .own, []⟩, ⟨6, 0, .own, []⟩]⟩,
  ⟨0x14, [], 0, [⟨0, 0, .wo, []⟩]⟩,
  ⟨0x100, [(4, 0x40)], 2, [⟨23, 16, .own, []⟩, ⟨15, 8, .own, []⟩, ⟨7, 1, .own, [(1, 64)]⟩, ⟨0, 0, .own, []⟩]⟩,
  ⟨0x104, [(4, 0x40)], 0x2710, [⟨16, 0, .own, [(1, 100000)]⟩]⟩,
  ⟨0x108, [(4, 0x40)], 0, [⟨23, 23, .own, []⟩, ⟨22, 16, .own, []⟩, ⟨15, 0, .own, []⟩]⟩,
  ⟨0x10C, [(4, 0x40)], 0, [⟨31, 0, .own, []⟩]⟩,
  ⟨0x110, [(4, 0x40)], 0, [⟨31, 0, .own, []⟩]⟩,
  ⟨0x114, [(4, 0x40)], 0, [⟨31, 8, .own, []⟩]⟩,
  ⟨0x118, [(4, 0x40)], 0, [⟨15, 0, .own, []⟩]⟩,
  ⟨0x11C, [(4, 0x40)], 0, [⟨23, 0, .own, []⟩]⟩,
  ⟨0x120, [(4, 0x40)], 0, [⟨31, 8, .own, []⟩]⟩,
  ⟨0x124, [(4, 0x40)], 0, [⟨15, 0, .own, []⟩]⟩,
  ⟨0x128, [(4, 0x40)], 0, [⟨0, 0, .ro, []⟩]⟩,
  ⟨0x12C, [(4, 0x40)], 0, [⟨31, 0, .ro, []⟩]⟩,
  ⟨0x200, [(32, 0x20)], 0, [⟨11, 8, .ro, []⟩, ⟨0, 0, .own, []⟩]⟩,
  ⟨0x204, [(32, 0x20)], 0, [⟨31, 0, .ro, []⟩]⟩,
  ⟨0x208, [(32, 0x20)], 0, [⟨31, 16, .ro, []⟩, ⟨15, 0, .ro, []⟩]⟩,
  ⟨0x20C, [(32, 0x20)], 0, [⟨31, 16, .ro, []⟩, ⟨15, 0, .ro, []⟩]⟩,
  ⟨0x210, [(32, 0x20)], 0xFFFFFFFF, [⟨31, 0, .ro, []⟩]⟩,
  ⟨0x214, [(32, 0x20)], 0, [⟨31, 0, .any, []⟩]⟩,
  ⟨0x218, [(32, 0x20)], 0, [⟨31, 0, .any, []⟩]⟩,
  ⟨0x21C, [(32, 0x20)], 0, [⟨11, 0, .ro, []⟩]⟩,
  ⟨0x600, [(32, 0x10)], 0, [⟨13, 8, .own, []⟩, ⟨2, 1, .own, []⟩, ⟨0, 0, .own, []⟩]⟩,
  ⟨0x604, [(32, 0x10)], 0, [⟨31, 0, .ro, []⟩]⟩,
  ⟨0x608, [(32, 0x10)], 0, [⟨31, 0, .ro, []⟩]⟩,
  ⟨0x60C, [(32, 0x10)], 0, [⟨3, 3, .ro, []⟩, ⟨2, 2, .ro, []⟩, ⟨1, 1, .ro, []⟩, ⟨0, 0, .ro, []⟩]⟩]

/-- The YT register tables (R202). -/
def regsYt : List RegDesc := [
  ⟨0, [], 0x40000, [⟨19, 16, .own, []⟩, ⟨13, 9, .own, []⟩, ⟨8, 2, .own, []⟩, ⟨1, 1, .own, []⟩, ⟨0, 0, .own, []⟩]⟩,
  ⟨4, [], 0, [⟨31, 0, .own, []⟩]⟩,
  ⟨8, [], 0, [⟨31, 0, .any, []⟩]⟩,
  ⟨0xC, [], 0, [⟨31, 0, .any, []⟩]⟩,
  ⟨0x10, [], 0, [⟨15, 0, .any, []⟩]⟩,
  ⟨0x14, [], 0, [⟨15, 0, .any, []⟩]⟩,
  ⟨0x18, [], 0, [⟨0, 0, .wo, []⟩]⟩,
  ⟨0x1C, [], 0, [⟨3, 3, .w1c, []⟩, ⟨2, 2, .w1c, []⟩, ⟨1, 1, .w1c, []⟩, ⟨0, 0, .w1c, []⟩]⟩,
  ⟨0x20, [], 0, [⟨31, 0, .ro, []⟩]⟩,
  ⟨0x24, [], 0, [⟨31, 0, .ro, []⟩]⟩,
  ⟨0x28, [], 0, [⟨31, 0, .ro, []⟩]⟩,
  ⟨0x2C, [], 0, [⟨0, 0, .wo, []⟩]⟩,
  ⟨0x40, [(4, 0x10)], 0, [⟨27, 16, .own, []⟩, ⟨15, 4, .own, []⟩, ⟨0, 0, .own, []⟩]⟩,
  ⟨0x44, [(4, 0x10)], 0, [⟨31, 8, .own, []⟩]⟩,
  ⟨0x48, [(4, 0x10)], 0, [⟨15, 0, .own, []⟩]⟩]

/-- The LPD register tables (R264). -/
def regsLpd : List RegDesc := [
  ⟨0, [], 0, [⟨23, 16, .own, []⟩, ⟨12, 10, .own, []⟩, ⟨7, 7, .own, []⟩, ⟨6, 6, .own, []⟩, ⟨4, 4, .own, []⟩, ⟨3, 3, .own, []⟩, ⟨2, 2, .own, []⟩, ⟨1, 1, .own, []⟩, ⟨0, 0, .own, []⟩]⟩,
  ⟨4, [], 0, [⟨31, 0, .ro, []⟩]⟩,
  ⟨8, [], 0, [⟨31, 0, .own, []⟩]⟩,
  ⟨0xC, [], 0, [⟨31, 0, .own, []⟩]⟩,
  ⟨0x10, [], 0, [⟨31, 0, .own, []⟩]⟩,
  ⟨0x14, [], 0, [⟨31, 0, .own, []⟩]⟩,
  ⟨0x18, [], 0, [⟨31, 0, .own, []⟩]⟩,
  ⟨0x1C, [], 0, [⟨31, 0, .own, []⟩]⟩,
  ⟨0x20, [], 0, [⟨31, 0, .own, []⟩]⟩,
  ⟨0x24, [], 0, [⟨31, 0, .ro, []⟩]⟩,
  ⟨0x28, [], 0x1000000, [⟨31, 0, .own, []⟩]⟩,
  ⟨0x2C, [], 0, [⟨31, 0, .own, []⟩]⟩,
  ⟨0x30, [], 0, [⟨20, 16, .own, []⟩, ⟨15, 0, .own, []⟩]⟩,
  ⟨0x34, [], 0x1000000, [⟨31, 0, .own, []⟩]⟩,
  ⟨0x38, [], 0, [⟨31, 0, .own, []⟩]⟩,
  ⟨0x3C, [], 0, [⟨31, 0, .ro, []⟩]⟩,
  ⟨0x40, [(2, 0x20)], 0, [⟨31, 0, .own, []⟩]⟩,
  ⟨0x44, [(2, 0x20)], 0, [⟨31, 0, .own, []⟩]⟩,
  ⟨0x48, [(2, 0x20)], 0, [⟨31, 0, .own, []⟩]⟩,
  ⟨0x4C, [(2, 0x20)], 0, [⟨31, 0, .own, []⟩]⟩,
  ⟨0x50, [(2, 0x20)], 0, [⟨31, 0, .own, []⟩]⟩,
  ⟨0x54, [(2, 0x20)], 0, [⟨31, 0, .own, []⟩]⟩,
  ⟨0x58, [(2, 0x20)], 0, [⟨31, 0, .own, []⟩]⟩,
  ⟨0x5C, [(2, 0x20)], 0, [⟨31, 0, .own, []⟩]⟩]

/-- The CE register tables (R280). -/
def regsCe : List RegDesc := [
  ⟨0, [], 0, [⟨19, 19, .w1c, []⟩, ⟨18, 18, .w1c, []⟩, ⟨17, 17, .ro, []⟩, ⟨16, 16, .ro, []⟩, ⟨15, 8, .ro, []⟩, ⟨7, 0, .ro, []⟩]⟩,
  ⟨4, [], 0, [⟨9, 9, .wo, []⟩, ⟨8, 8, .wo, []⟩, ⟨6, 4, .own, []⟩, ⟨2, 0, .own, []⟩]⟩,
  ⟨8, [], 0, [⟨31, 0, .ro, []⟩]⟩,
  ⟨0xC, [], 0, [⟨31, 0, .ro, []⟩]⟩,
  ⟨0x10, [], 0, [⟨0, 0, .wo, []⟩]⟩,
  ⟨0x20, [], 0, [⟨15, 8, .ro, []⟩, ⟨3, 3, .w1c, []⟩, ⟨2, 2, .w1c, []⟩, ⟨1, 1, .w1c, []⟩, ⟨0, 0, .w1c, []⟩]⟩,
  ⟨0x24, [], 0, [⟨9, 9, .wo, []⟩, ⟨8, 8, .own, []⟩, ⟨7, 0, .own, []⟩]⟩,
  ⟨0x28, [], 0, [⟨31, 0, .ro, []⟩]⟩]

/-- The LAN register tables (R281). -/
def regsLan : List RegDesc := [
  ⟨0, [], 8, [⟨11, 9, .own, []⟩, ⟨8, 7, .own, [(0, 2)]⟩, ⟨6, 3, .own, [(1, 15)]⟩, ⟨2, 2, .own, []⟩, ⟨1, 0, .own, []⟩]⟩,
  ⟨4, [], 0, [⟨1, 1, .woOwn, []⟩, ⟨0, 0, .woOwn, []⟩]⟩,
  ⟨8, [], 0, [⟨11, 8, .ro, []⟩, ⟨6, 6, .w1c, []⟩, ⟨5, 5, .w1c, []⟩, ⟨4, 4, .w1c, []⟩, ⟨3, 3, .w1c, []⟩, ⟨2, 0, .ro, []⟩]⟩,
  ⟨0xC, [], 0, [⟨31, 0, .ro, []⟩]⟩,
  ⟨0x10, [], 0, [⟨31, 0, .ro, []⟩]⟩,
  ⟨0x14, [], 0, [⟨31, 0, .ro, []⟩]⟩,
  ⟨0x18, [], 0, [⟨31, 0, .ro, []⟩]⟩,
  ⟨0x1C, [], 0, [⟨17, 10, .own, [(0, 128)]⟩, ⟨9, 0, .own, []⟩]⟩,
  ⟨0x20, [], 0, [⟨7, 7, .own, []⟩, ⟨6, 0, .own, []⟩]⟩]

/-- The FNG register tables (R328, R329). -/
def regsFng : List RegDesc := [
  ⟨0, [], 1, [⟨0, 0, .own, []⟩]⟩,
  ⟨4, [], 0, [⟨31, 0, .ro, []⟩]⟩,
  ⟨8, [], 0, [⟨31, 16, .ro, []⟩, ⟨4, 0, .ro, []⟩]⟩,
  ⟨0xC, [], 0, [⟨0, 0, .wo, []⟩]⟩,
  ⟨0x100, [(32, 0x40)], 0x29400, [⟨26, 20, .own, [(0, 100)]⟩, ⟨19, 14, .own, [(1, 40)]⟩, ⟨13, 8, .own, [(2, 50)]⟩, ⟨7, 6, .own, [(0, 2)]⟩, ⟨5, 3, .own, []⟩, ⟨2, 2, .own, []⟩, ⟨1, 1, .own, []⟩, ⟨0, 0, .own, []⟩]⟩,
  ⟨0x104, [(32, 0x40)], 0x64, [⟨25, 18, .own, []⟩, ⟨17, 17, .own, []⟩, ⟨16, 9, .own, [(0, 200)]⟩, ⟨8, 0, .own, [(50, 400)]⟩]⟩,
  ⟨0x108, [(32, 0x40)], 0x1903E8, [⟨21, 21, .own, []⟩, ⟨20, 14, .own, [(0, 100)]⟩, ⟨13, 0, .own, [(10, 10000)]⟩]⟩,
  ⟨0x10C, [(32, 0x40)], 0x3E8, [⟨31, 16, .own, []⟩, ⟨15, 0, .own, [(1, 65535)]⟩]⟩,
  ⟨0x110, [(32, 0x40)], 0, [⟨31, 16, .own, []⟩, ⟨15, 0, .own, []⟩]⟩,
  ⟨0x114, [(32, 0x40)], 0, [⟨31, 16, .own, []⟩, ⟨15, 0, .own, []⟩]⟩,
  ⟨0x118, [(32, 0x40)], 0x5596B4, [⟨31, 31, .own, []⟩, ⟨23, 16, .own, []⟩, ⟨15, 8, .own, []⟩, ⟨7, 0, .own, []⟩]⟩,
  ⟨0x11C, [(32, 0x40)], 0, [⟨0, 0, .woOwn, []⟩]⟩,
  ⟨0x120, [(32, 0x40)], 0, [⟨29, 29, .ro, []⟩, ⟨28, 28, .ro, []⟩, ⟨27, 27, .ro, []⟩, ⟨26, 26, .ro, []⟩, ⟨25, 25, .ro, []⟩, ⟨24, 24, .ro, []⟩, ⟨17, 17, .w1c, []⟩, ⟨16, 16, .w1c, []⟩, ⟨15, 15, .w1c, []⟩, ⟨14, 14, .w1c, []⟩, ⟨13, 13, .w1c, []⟩, ⟨12, 12, .w1c, []⟩, ⟨11, 11, .w1c, []⟩, ⟨10, 10, .w1c, []⟩, ⟨9, 9, .w1c, []⟩, ⟨8, 8, .w1c, []⟩, ⟨6, 6, .ro, []⟩, ⟨5, 3, .ro, []⟩, ⟨2, 0, .ro, []⟩]⟩,
  ⟨0x124, [(32, 0x40)], 0, [⟨31, 0, .ro, []⟩]⟩,
  ⟨0x128, [(32, 0x40)], 0, [⟨31, 31, .ro, []⟩, ⟨15, 0, .ro, []⟩]⟩,
  ⟨0x12C, [(32, 0x40)], 0, [⟨31, 31, .ro, []⟩, ⟨30, 30, .ro, []⟩, ⟨15, 0, .ro, []⟩]⟩,
  ⟨0x130, [(32, 0x40)], 0x80008000, [⟨31, 16, .ro, []⟩, ⟨15, 0, .ro, []⟩]⟩,
  ⟨0x134, [(32, 0x40)], 0, [⟨31, 16, .ro, []⟩, ⟨15, 0, .ro, []⟩]⟩,
  ⟨0x138, [(32, 0x40)], 0xFFFF, [⟨22, 16, .ro, []⟩, ⟨15, 0, .ro, []⟩]⟩,
  ⟨0x13C, [(32, 0x40)], 0, [⟨31, 16, .ro, []⟩, ⟨15, 0, .ro, []⟩]⟩,
  ⟨0x1000, [(256, 8)], 0, [⟨31, 0, .own, []⟩]⟩,
  ⟨0x1004, [(256, 8)], 0, [⟨31, 0, .own, []⟩]⟩]

/-- The PLM register tables (R330). -/
def regsPlm : List RegDesc := [
  ⟨0, [], 0, [⟨15, 8, .ro, []⟩, ⟨7, 0, .ro, []⟩]⟩,
  ⟨4, [], 0, [⟨0, 0, .wo, []⟩]⟩,
  ⟨0x100, [(8, 0x20)], 0x14, [⟨5, 5, .own, []⟩, ⟨4, 0, .own, [(10, 24)]⟩]⟩,
  ⟨0x104, [(8, 0x20)], 0, [⟨0, 0, .woOwn, []⟩]⟩,
  ⟨0x108, [(8, 0x20)], 0, [⟨15, 13, .ro, []⟩, ⟨12, 12, .w1c, []⟩, ⟨11, 11, .w1c, []⟩, ⟨10, 10, .w1c, []⟩, ⟨9, 9, .w1c, []⟩, ⟨8, 8, .ro, []⟩, ⟨7, 7, .ro, []⟩, ⟨6, 6, .ro, []⟩, ⟨5, 4, .ro, []⟩, ⟨3, 2, .ro, []⟩, ⟨1, 0, .ro, []⟩]⟩,
  ⟨0x10C, [(8, 0x20)], 0, [⟨31, 16, .ro, []⟩, ⟨15, 0, .ro, []⟩]⟩,
  ⟨0x110, [(8, 0x20)], 0, [⟨15, 0, .ro, []⟩]⟩,
  ⟨0x114, [(8, 0x20)], 0, [⟨31, 0, .ro, []⟩]⟩,
  ⟨0x118, [(8, 0x20)], 0, [⟨31, 0, .ro, []⟩]⟩]

/-- The LDS register tables (R355). -/
def regsLds : List RegDesc := [
  ⟨0, [], 0, [⟨31, 16, .ro, []⟩, ⟨15, 0, .ro, []⟩]⟩,
  ⟨4, [(2, 4)], 0, [⟨16, 16, .ro, []⟩, ⟨15, 0, .ro, []⟩]⟩,
  ⟨0xC, [], 0, [⟨0, 0, .wo, []⟩]⟩,
  ⟨0x10, [], 0, [⟨2, 0, .ro, []⟩]⟩,
  ⟨0x100, [(16, 0x20)], 0x1428C, [⟨20, 13, .own, [(1, 200)]⟩, ⟨12, 6, .own, [(1, 127)]⟩, ⟨5, 2, .own, []⟩, ⟨1, 1, .own, []⟩, ⟨0, 0, .own, []⟩]⟩,
  ⟨0x104, [(8, 0x20)], 0x640032, [⟨23, 16, .own, [(10, 200)]⟩, ⟨7, 0, .own, [(10, 120)]⟩]⟩,
  ⟨0x204, [(8, 0x20)], 0x640019, [⟨23, 16, .own, [(5, 100)]⟩, ⟨7, 0, .own, [(5, 60)]⟩]⟩,
  ⟨0x108, [(16, 0x20)], 0x640064, [⟨23, 16, .own, [(1, 255)]⟩, ⟨9, 0, .own, [(1, 1000)]⟩]⟩,
  ⟨0x10C, [(16, 0x20)], 0, [⟨0, 0, .woOwn, []⟩]⟩,
  ⟨0x110, [(16, 0x20)], 0, [⟨18, 18, .ro, []⟩, ⟨17, 17, .ro, []⟩, ⟨16, 16, .w1c, []⟩, ⟨15, 15, .w1c, []⟩, ⟨14, 14, .w1c, []⟩, ⟨13, 13, .w1c, []⟩, ⟨12, 12, .w1c, []⟩, ⟨11, 11, .w1c, []⟩, ⟨10, 10, .w1c, []⟩, ⟨9, 9, .w1c, []⟩, ⟨8, 8, .w1c, []⟩, ⟨7, 7, .ro, []⟩, ⟨6, 3, .ro, []⟩, ⟨2, 0, .ro, []⟩]⟩,
  ⟨0x114, [(16, 0x20)], 0, [⟨31, 0, .ro, []⟩]⟩,
  ⟨0x118, [(16, 0x20)], 0, [⟨31, 31, .ro, []⟩, ⟨10, 10, .ro, []⟩, ⟨9, 0, .ro, []⟩]⟩,
  ⟨0x11C, [(16, 0x20)], 0, [⟨31, 16, .ro, []⟩, ⟨15, 0, .ro, []⟩]⟩]

/-- The BRM register tables (R378). -/
def regsBrm : List RegDesc := [
  ⟨0, [], 0, [⟨31, 0, .ro, []⟩]⟩,
  ⟨4, [], 0x1F40000, [⟨24, 16, .ro, []⟩, ⟨7, 0, .ro, []⟩]⟩,
  ⟨8, [], 0, [⟨0, 0, .wo, []⟩]⟩,
  ⟨0x100, [(2, 0x40)], 0x1800, [⟨13, 8, .own, [(24, 63)]⟩, ⟨0, 0, .own, []⟩]⟩,
  ⟨0x104, [(2, 0x40)], 0x32, [⟨7, 0, .own, [(1, 200)]⟩]⟩,
  ⟨0x108, [(2, 0x40)], 0x3E8, [⟨15, 0, .own, [(1, 65535)]⟩]⟩,
  ⟨0x10C, [(2, 0x40)], 0, [⟨7, 0, .ro, []⟩]⟩,
  ⟨0x110, [(2, 0x40)], 0, [⟨15, 0, .ro, []⟩]⟩,
  ⟨0x114, [(2, 0x40)], 0, [⟨31, 31, .ro, []⟩, ⟨15, 0, .ro, []⟩]⟩,
  ⟨0x118, [(2, 0x40)], 0, [⟨15, 0, .ro, []⟩]⟩,
  ⟨0x11C, [(2, 0x40)], 0, [⟨7, 7, .w1c, []⟩, ⟨6, 6, .w1c, []⟩, ⟨5, 5, .ro, []⟩, ⟨4, 4, .w1c, []⟩, ⟨3, 3, .ro, []⟩, ⟨2, 2, .ro, []⟩, ⟨1, 1, .ro, []⟩, ⟨0, 0, .ro, []⟩]⟩,
  ⟨0x120, [(2, 0x40)], 0, [⟨31, 0, .ro, []⟩]⟩,
  ⟨0x124, [(2, 0x40)], 0, [⟨31, 0, .ro, []⟩]⟩,
  ⟨0x200, [(32, 0x10)], 0, [⟨25, 25, .own, []⟩, ⟨24, 16, .own, []⟩, ⟨15, 0, .own, []⟩]⟩,
  ⟨0x204, [(32, 0x10)], 0, [⟨19, 19, .w1c, []⟩, ⟨18, 18, .w1c, []⟩, ⟨17, 17, .w1c, []⟩, ⟨16, 16, .ro, []⟩, ⟨15, 0, .ro, []⟩]⟩]

/-- The SNP register tables (R379). -/
def regsSnp : List RegDesc := [
  ⟨0, [], 0xF, [⟨7, 4, .ro, []⟩, ⟨3, 0, .ro, []⟩]⟩,
  ⟨4, [], 0, [⟨0, 0, .wo, []⟩]⟩,
  ⟨0x100, [(8, 0x20)], 0x50, [⟨9, 2, .own, [(10, 80)]⟩, ⟨1, 1, .own, []⟩, ⟨0, 0, .own, []⟩]⟩,
  ⟨0x104, [(8, 0x20)], 0, [⟨31, 16, .ro, []⟩, ⟨4, 4, .w1c, []⟩, ⟨3, 3, .w1c, []⟩, ⟨2, 2, .ro, []⟩, ⟨1, 0, .ro, []⟩]⟩,
  ⟨0x108, [(8, 0x20)], 0, [⟨31, 16, .ro, []⟩, ⟨15, 0, .ro, []⟩]⟩,
  ⟨0x10C, [(8, 0x20)], 0x8FC1482, [⟨31, 16, .ro, []⟩, ⟨15, 0, .ro, []⟩]⟩,
  ⟨0x110, [(8, 0x20)], 0xA160079, [⟨31, 24, .ro, []⟩, ⟨23, 16, .ro, []⟩, ⟨15, 0, .ro, []⟩]⟩]

/-- The GNB register tables, part 1 (R402). -/
def regsGnb1 : List RegDesc := [
  ⟨0, [], 0x20000, [⟨30, 24, .own, []⟩, ⟨23, 23, .own, []⟩, ⟨19, 16, .own, [(2, 15)]⟩, ⟨15, 15, .own, []⟩, ⟨14, 8, .own, []⟩, ⟨0, 0, .own, []⟩]⟩,
  ⟨4, [], 0x2625A00, [⟨26, 0, .own, [(8000000, 100000000)]⟩]⟩,
  ⟨8, [], 0, [⟨22, 16, .ro, []⟩, ⟨7, 7, .ro, []⟩, ⟨6, 6, .ro, []⟩, ⟨5, 5, .ro, []⟩, ⟨4, 4, .w1c, []⟩, ⟨3, 3, .w1c, []⟩, ⟨2, 2, .w1c, []⟩, ⟨1, 1, .w1c, []⟩]⟩,
  ⟨0xC, [], 0, [⟨31, 12, .own, []⟩]⟩,
  ⟨0x10, [], 0, [⟨15, 0, .own, []⟩]⟩,
  ⟨0x14, [], 0, [⟨15, 0, .ro, []⟩]⟩,
  ⟨0x18, [], 0, [⟨15, 0, .any, []⟩]⟩,
  ⟨0x1C, [], 0, [⟨31, 0, .ro, []⟩]⟩,
  ⟨0x20, [], 0, [⟨31, 0, .ro, []⟩]⟩,
  ⟨0x24, [], 0, [⟨0, 0, .wo, []⟩]⟩,
  ⟨0x28, [], 0, [⟨31, 0, .ro, []⟩]⟩,
  ⟨0x2C, [], 0x241E08, [⟨23, 16, .own, [(6, 60)]⟩, ⟨15, 8, .own, []⟩, ⟨3, 0, .own, [(1, 12)]⟩]⟩,
  ⟨0x40, [(2, 0x10)], 0, [⟨2, 2, .own, []⟩, ⟨1, 1, .own, []⟩, ⟨0, 0, .own, []⟩]⟩,
  ⟨0x44, [(2, 0x10)], 0, [⟨31, 0, .own, []⟩]⟩,
  ⟨0x48, [(2, 0x10)], 0, [⟨15, 8, .ro, []⟩, ⟨7, 0, .ro, []⟩]⟩,
  ⟨0x60, [], 0, [⟨31, 31, .woOwn, []⟩, ⟨30, 30, .own, []⟩, ⟨23, 16, .own, []⟩, ⟨15, 0, .own, []⟩]⟩,
  ⟨0x64, [], 0, [⟨31, 31, .ro, []⟩, ⟨15, 0, .ro, []⟩]⟩,
  ⟨0x70, [], 0x14371414, [⟨31, 24, .own, []⟩, ⟨23, 16, .own, []⟩, ⟨15, 8, .own, []⟩, ⟨7, 0, .own, []⟩]⟩,
  ⟨0x74, [], 0x50320064, [⟨31, 28, .own, [(1, 15)]⟩, ⟨27, 16, .own, []⟩, ⟨15, 0, .own, []⟩]⟩,
  ⟨0x78, [], 0, [⟨31, 0, .own, []⟩]⟩,
  ⟨0x7C, [], 0, [⟨31, 0, .own, []⟩]⟩,
  ⟨0x80, [], 0, [⟨31, 0, .own, []⟩]⟩,
  ⟨0x100, [], 0, [⟨31, 31, .woOwn, []⟩, ⟨17, 17, .own, []⟩, ⟨16, 10, .own, []⟩, ⟨9, 4, .own, []⟩, ⟨3, 0, .own, []⟩]⟩,
  ⟨0x104, [], 0, [⟨31, 0, .own, []⟩]⟩,
  ⟨0x108, [], 0x1388, [⟨20, 16, .own, [(0, 20)]⟩, ⟨15, 0, .own, [(0, 20000)]⟩]⟩,
  ⟨0x10C, [], 0, [⟨23, 0, .own, []⟩]⟩,
  ⟨0x110, [], 0x28041, [⟨17, 10, .own, []⟩, ⟨9, 4, .own, [(1, 63)]⟩, ⟨3, 0, .own, []⟩]⟩,
  ⟨0x114, [], 0, [⟨31, 16, .ro, []⟩, ⟨1, 0, .ro, []⟩]⟩,
  ⟨0x118, [], 0, [⟨31, 0, .ro, []⟩]⟩,
  ⟨0x11C, [], 0, [⟨31, 0, .ro, []⟩]⟩]

/-- The GNB register tables, part 2 (R402). -/
def regsGnb2 : List RegDesc := [
  ⟨0x200, [(32, 4)], 0, [⟨31, 0, .any, []⟩]⟩,
  ⟨0x280, [], 0, [⟨0, 0, .wo, []⟩]⟩,
  ⟨0x400, [(96, 0x20)], 0, [⟨10, 5, .own, []⟩, ⟨4, 1, .own, []⟩, ⟨0, 0, .own, []⟩]⟩,
  ⟨0x404, [(96, 0x20)], 0, [⟨20, 8, .ro, []⟩, ⟨2, 0, .ro, []⟩]⟩,
  ⟨0x408, [(96, 0x20)], 0, [⟨31, 0, .any, []⟩]⟩,
  ⟨0x40C, [(96, 0x20)], 0, [⟨31, 0, .any, []⟩]⟩,
  ⟨0x410, [(96, 0x20)], 0, [⟨15, 0, .ro, []⟩]⟩]

/-- All of them. -/
def regsGnb : List RegDesc := regsGnb1 ++ regsGnb2

/-- The IMU register tables (R403). -/
def regsImu : List RegDesc := [
  ⟨0, [], 0x210, [⟨28, 22, .own, []⟩, ⟨21, 21, .own, []⟩, ⟨20, 16, .own, []⟩, ⟨15, 9, .own, [(1, 64)]⟩, ⟨8, 3, .own, [(1, 40)]⟩, ⟨2, 1, .own, []⟩, ⟨0, 0, .own, []⟩]⟩,
  ⟨4, [], 0, [⟨3, 3, .w1c, []⟩, ⟨2, 2, .w1c, []⟩, ⟨1, 1, .w1c, []⟩, ⟨0, 0, .ro, []⟩]⟩,
  ⟨8, [], 0, [⟨31, 0, .ro, []⟩]⟩,
  ⟨0xC, [], 0, [⟨31, 0, .ro, []⟩]⟩,
  ⟨0x10, [], 0, [⟨31, 0, .ro, []⟩]⟩,
  ⟨0x14, [], 0, [⟨31, 0, .ro, []⟩]⟩,
  ⟨0x18, [], 0, [⟨0, 0, .wo, []⟩]⟩,
  ⟨0x40, [(16, 4)], 0, [⟨31, 0, .own, []⟩]⟩,
  ⟨0x80, [(16, 4)], 0, [⟨31, 0, .ro, []⟩]⟩]

/-- The OBE register tables (R419). -/
def regsObe : List RegDesc := [
  ⟨0, [], 0, [⟨31, 24, .own, []⟩, ⟨15, 9, .own, []⟩, ⟨8, 8, .own, []⟩, ⟨7, 7, .own, []⟩, ⟨6, 6, .own, []⟩, ⟨5, 5, .own, []⟩, ⟨4, 4, .own, []⟩, ⟨3, 2, .own, []⟩, ⟨1, 1, .own, []⟩, ⟨0, 0, .own, []⟩]⟩,
  ⟨4, [], 0, [⟨28, 0, .own, []⟩]⟩,
  ⟨8, [], 0x1FFFFFFF, [⟨28, 0, .own, []⟩]⟩,
  ⟨8, [], 0, [⟨31, 24, .own, []⟩, ⟨23, 16, .own, []⟩, ⟨15, 0, .own, []⟩]⟩,
  ⟨0xC, [], 0, [⟨18, 18, .ro, []⟩, ⟨17, 17, .w1c, []⟩, ⟨16, 16, .w1c, []⟩, ⟨15, 15, .ro, []⟩, ⟨14, 14, .ro, []⟩, ⟨13, 13, .w1c, []⟩, ⟨12, 12, .w1c, []⟩, ⟨11, 8, .ro, []⟩, ⟨7, 0, .ro, []⟩]⟩,
  ⟨0x10, [], 0, [⟨31, 0, .ro, []⟩]⟩,
  ⟨0x14, [], 0, [⟨31, 0, .ro, []⟩]⟩,
  ⟨0x18, [], 0, [⟨31, 0, .any, []⟩]⟩,
  ⟨0x1C, [], 0, [⟨31, 0, .any, []⟩]⟩]

/-- The CAN register tables (R443). -/
def regsCan : List RegDesc := [
  ⟨0, [], 0xA10, [⟨15, 8, .own, []⟩, ⟨4, 4, .own, []⟩, ⟨2, 2, .own, []⟩, ⟨1, 1, .own, []⟩, ⟨0, 0, .own, []⟩]⟩,
  ⟨4, [], 0x9124403, [⟨30, 24, .own, [(0, 127)]⟩, ⟨23, 17, .own, [(0, 127)]⟩, ⟨16, 8, .own, [(1, 255)]⟩, ⟨7, 0, .own, []⟩]⟩,
  ⟨8, [], 0xCD40, [⟨17, 14, .own, []⟩, ⟨13, 10, .own, []⟩, ⟨9, 5, .own, []⟩, ⟨4, 0, .own, []⟩]⟩,
  ⟨0xC, [], 0, [⟨7, 7, .own, []⟩, ⟨6, 0, .own, []⟩]⟩,
  ⟨0x10, [], 0, [⟨1, 0, .own, [(0, 2)]⟩]⟩,
  ⟨0x14, [], 0, [⟨13, 11, .ro, []⟩, ⟨10, 8, .ro, []⟩, ⟨7, 7, .w1c, []⟩, ⟨6, 6, .w1c, []⟩, ⟨5, 5, .w1c, []⟩, ⟨4, 4, .w1c, []⟩, ⟨3, 3, .w1c, []⟩, ⟨1, 0, .ro, []⟩]⟩,
  ⟨0x18, [], 0, [⟨19, 16, .ro, []⟩, ⟨15, 8, .ro, []⟩, ⟨7, 0, .ro, []⟩]⟩,
  ⟨0x1C, [], 4, [⟨10, 10, .own, []⟩, ⟨9, 9, .own, []⟩, ⟨8, 8, .own, []⟩, ⟨7, 4, .own, [(0, 8)]⟩, ⟨3, 2, .own, []⟩, ⟨1, 0, .own, []⟩]⟩,
  ⟨0x20, [], 0, [⟨28, 0, .own, []⟩]⟩,
  ⟨0x24, [], 0x1FFFFFFF, [⟨28, 0, .own, []⟩]⟩,
  ⟨0x28, [], 0, [⟨31, 0, .own, []⟩]⟩,
  ⟨0x2C, [], 0, [⟨31, 0, .own, []⟩]⟩,
  ⟨0x30, [], 0, [⟨31, 0, .ro, []⟩]⟩,
  ⟨0x34, [], 0, [⟨31, 0, .ro, []⟩]⟩,
  ⟨0x38, [], 0, [⟨31, 0, .ro, []⟩]⟩,
  ⟨0x3C, [], 0, [⟨31, 16, .ro, []⟩, ⟨15, 0, .ro, []⟩]⟩,
  ⟨0x40, [], 0, [⟨0, 0, .woOwn, []⟩]⟩,
  ⟨0x44, [], 0, [⟨0, 0, .wo, []⟩]⟩]

/-- The OBJ register tables (R444). -/
def regsObj : List RegDesc := [
  ⟨0, [], 0, [⟨1, 0, .any, []⟩]⟩,
  ⟨4, [], 0, [⟨31, 31, .wo, []⟩, ⟨15, 12, .any, []⟩, ⟨10, 0, .any, []⟩]⟩,
  ⟨8, [], 0, [⟨2, 2, .w1c, []⟩, ⟨1, 1, .w1c, []⟩, ⟨0, 0, .w1c, []⟩]⟩,
  ⟨0xC, [], 0, [⟨31, 12, .own, []⟩]⟩,
  ⟨0x10, [], 0, [⟨15, 0, .own, []⟩]⟩,
  ⟨0x200, [(128, 4)], 0, [⟨15, 15, .own, []⟩, ⟨10, 0, .own, []⟩]⟩]

/-- The MSG register tables (R445). -/
def regsMsg : List RegDesc := [
  ⟨0, [], 0x10000000, [⟨31, 24, .own, [(1, 255)]⟩, ⟨23, 23, .own, []⟩, ⟨22, 16, .own, []⟩, ⟨15, 15, .own, []⟩, ⟨14, 8, .own, []⟩, ⟨7, 7, .own, []⟩, ⟨6, 0, .own, []⟩]⟩,
  ⟨4, [], 0x64, [⟨8, 1, .own, [(10, 200)]⟩, ⟨0, 0, .own, []⟩]⟩,
  ⟨8, [], 0, [⟨31, 11, .own, []⟩]⟩,
  ⟨0xC, [], 0, [⟨15, 0, .own, []⟩]⟩,
  ⟨0x10, [], 0, [⟨9, 0, .own, [(0, 1023)]⟩]⟩,
  ⟨0x14, [], 0, [⟨9, 0, .wo, []⟩]⟩,
  ⟨0x18, [], 0, [⟨3, 3, .w1c, []⟩, ⟨2, 2, .w1c, []⟩, ⟨1, 1, .w1c, []⟩, ⟨0, 0, .w1c, []⟩]⟩,
  ⟨0x1C, [], 0, [⟨31, 0, .any, []⟩]⟩,
  ⟨0x20, [], 0, [⟨31, 31, .wo, []⟩, ⟨1, 0, .any, []⟩]⟩,
  ⟨0x24, [], 0, [⟨31, 0, .ro, []⟩]⟩,
  ⟨0x28, [], 0, [⟨0, 0, .wo, []⟩]⟩,
  ⟨0x100, [(4, 0x40)], 0, [⟨31, 0, .own, []⟩]⟩,
  ⟨0x104, [(4, 0x40)], 0, [⟨31, 0, .own, []⟩]⟩,
  ⟨0x108, [(4, 0x40)], 0xFE000080, [⟨31, 24, .ro, []⟩, ⟨17, 16, .ro, []⟩, ⟨9, 9, .own, []⟩, ⟨8, 8, .own, []⟩, ⟨7, 0, .own, []⟩]⟩,
  ⟨0x10C, [(4, 0x40)], 0, [⟨31, 8, .own, []⟩]⟩,
  ⟨0x110, [(4, 0x40)], 0, [⟨15, 0, .own, []⟩]⟩,
  ⟨0x114, [(4, 0x40)], 0, [⟨31, 0, .own, []⟩]⟩,
  ⟨0x118, [(4, 0x40)], 0, [⟨31, 31, .own, []⟩, ⟨17, 0, .own, []⟩]⟩,
  ⟨0x11C, [(4, 0x40)], 0, [⟨31, 16, .ro, []⟩, ⟨4, 0, .ro, []⟩]⟩,
  ⟨0x400, [(64, 0x10)], 0, [⟨15, 8, .ro, []⟩, ⟨6, 3, .ro, []⟩, ⟨2, 0, .ro, []⟩]⟩,
  ⟨0x404, [(64, 0x10)], 0, [⟨17, 0, .ro, []⟩]⟩,
  ⟨0x408, [(64, 0x10)], 0, [⟨31, 0, .ro, []⟩]⟩,
  ⟨0x40C, [(64, 0x10)], 0, [⟨31, 0, .ro, []⟩]⟩]

/-- The OWN register tables (R471). -/
def regsOwn : List RegDesc := [
  ⟨0, [], 0x82, [⟨23, 16, .ro, []⟩, ⟨8, 8, .w1c, []⟩, ⟨7, 7, .ro, []⟩, ⟨6, 4, .ro, []⟩, ⟨1, 0, .ro, []⟩]⟩,
  ⟨4, [], 1, [⟨31, 0, .ro, []⟩]⟩,
  ⟨8, [], 0, [⟨31, 0, .ro, []⟩]⟩,
  ⟨0xC, [], 0xBB8, [⟨11, 0, .ro, []⟩]⟩,
  ⟨0x10, [], 0, [⟨6, 4, .wo, []⟩, ⟨3, 3, .wo, []⟩, ⟨2, 2, .wo, []⟩, ⟨1, 1, .wo, []⟩, ⟨0, 0, .wo, []⟩]⟩,
  ⟨0x14, [], 0, [⟨31, 0, .own, []⟩]⟩,
  ⟨0x18, [], 0, [⟨31, 0, .own, []⟩]⟩,
  ⟨0x1C, [], 0, [⟨31, 0, .ro, []⟩]⟩,
  ⟨0x20, [], 0, [⟨3, 0, .ro, []⟩]⟩]

/-- The LMP register tables (R472). -/
def regsLmp : List RegDesc := [
  ⟨0, [], 7, [⟨2, 2, .own, []⟩, ⟨1, 1, .own, []⟩, ⟨0, 0, .own, []⟩]⟩,
  ⟨4, [], 0, [⟨7, 2, .ro, []⟩, ⟨1, 1, .w1c, []⟩, ⟨0, 0, .w1c, []⟩]⟩,
  ⟨8, [], 0, [⟨31, 0, .ro, []⟩]⟩,
  ⟨0xC, [], 0, [⟨31, 0, .ro, []⟩]⟩,
  ⟨0x10, [], 0, [⟨31, 0, .ro, []⟩]⟩,
  ⟨0x14, [], 0, [⟨31, 0, .ro, []⟩]⟩,
  ⟨0x18, [], 0, [⟨0, 0, .wo, []⟩]⟩]

/-- The USB register tables (R472). -/
def regsUsb : List RegDesc := [
  ⟨0, [], 0, [⟨0, 0, .own, []⟩]⟩,
  ⟨4, [], 0, [⟨2, 2, .ro, []⟩, ⟨1, 1, .ro, []⟩, ⟨0, 0, .ro, []⟩]⟩]

/-- The ETH register tables (R473). -/
def regsEth : List RegDesc := [
  ⟨0, [], 0, [⟨31, 0, .own, []⟩]⟩,
  ⟨4, [], 0, [⟨15, 0, .own, []⟩]⟩,
  ⟨8, [], 0, [⟨31, 0, .own, []⟩]⟩,
  ⟨0xC, [], 0, [⟨7, 7, .own, []⟩, ⟨6, 0, .own, []⟩]⟩,
  ⟨0x10, [], 0, [⟨31, 0, .ro, []⟩]⟩,
  ⟨0x14, [], 0, [⟨0, 0, .wo, []⟩]⟩,
  ⟨0x18, [], 0, [⟨10, 0, .ro, []⟩]⟩,
  ⟨0x40, [(3, 0x10)], 2, [⟨2, 2, .own, []⟩, ⟨1, 1, .own, []⟩, ⟨0, 0, .own, []⟩]⟩,
  ⟨0x44, [(3, 0x10)], 0, [⟨3, 1, .ro, []⟩, ⟨0, 0, .ro, []⟩]⟩,
  ⟨0x48, [(3, 0x10)], 0, [⟨31, 0, .ro, []⟩]⟩,
  ⟨0x4C, [(3, 0x10)], 0, [⟨31, 0, .ro, []⟩]⟩]

/-- The ROLE register tables (R503). -/
def regsRole : List RegDesc := [
  ⟨0, [], 0x18, [⟨23, 20, .ro, []⟩, ⟨19, 16, .ro, []⟩, ⟨8, 8, .w1c, []⟩, ⟨7, 7, .ro, []⟩, ⟨6, 6, .w1c, []⟩, ⟨5, 3, .ro, []⟩, ⟨1, 0, .ro, []⟩]⟩,
  ⟨4, [], 0x1001, [⟨15, 8, .own, []⟩, ⟨0, 0, .own, []⟩]⟩,
  ⟨8, [], 0, [⟨31, 16, .wo, []⟩, ⟨3, 3, .woOwn, []⟩, ⟨2, 2, .woOwn, []⟩, ⟨1, 1, .woOwn, []⟩, ⟨0, 0, .wo, []⟩]⟩,
  ⟨0xC, [], 0x14, [⟨7, 1, .own, [(1, 100)]⟩, ⟨0, 0, .own, []⟩]⟩,
  ⟨0x10, [], 0, [⟨31, 16, .ro, []⟩, ⟨2, 2, .ro, []⟩, ⟨1, 1, .w1c, []⟩, ⟨0, 0, .ro, []⟩]⟩,
  ⟨0x14, [], 0, [⟨31, 0, .ro, []⟩]⟩,
  ⟨0x18, [], 0, [⟨31, 0, .ro, []⟩]⟩,
  ⟨0x1C, [], 0, [⟨31, 0, .ro, []⟩]⟩,
  ⟨0x20, [], 0, [⟨31, 0, .ro, []⟩]⟩,
  ⟨0x24, [], 0, [⟨31, 0, .ro, []⟩]⟩,
  ⟨0x28, [], 0, [⟨31, 16, .ro, []⟩, ⟨15, 0, .ro, []⟩]⟩,
  ⟨0x2C, [], 0, [⟨31, 0, .ro, []⟩]⟩,
  ⟨0x30, [], 0, [⟨8, 1, .ro, []⟩]⟩,
  ⟨0x34, [], 0x258, [⟨11, 0, .own, [(60, 3600)]⟩]⟩,
  ⟨0x40, [(2, 4)], 0xFFFF0000, [⟨31, 16, .ro, []⟩, ⟨15, 8, .ro, []⟩, ⟨7, 7, .ro, []⟩, ⟨6, 6, .ro, []⟩, ⟨4, 4, .ro, []⟩, ⟨3, 2, .ro, []⟩, ⟨0, 0, .ro, []⟩]⟩,
  ⟨0x80, [(8, 8)], 0, [⟨31, 6, .own, []⟩]⟩,
  ⟨0x84, [(8, 8)], 0, [⟨10, 0, .own, [(0, 1216)]⟩]⟩]

/-- The MIT register tables (R504). -/
def regsMit : List RegDesc := [
  ⟨0, [], 0x6400FA, [⟨25, 16, .own, [(0, 1000)]⟩, ⟨9, 0, .own, [(10, 1000)]⟩]⟩,
  ⟨4, [], 0x3E8, [⟨9, 0, .ro, []⟩]⟩,
  ⟨8, [], 0, [⟨31, 16, .ro, []⟩, ⟨3, 3, .w1c, []⟩, ⟨2, 2, .w1c, []⟩, ⟨1, 0, .ro, []⟩]⟩,
  ⟨0xC, [], 0, [⟨31, 0, .ro, []⟩]⟩,
  ⟨0x10, [], 0, [⟨23, 16, .ro, []⟩, ⟨15, 0, .ro, []⟩]⟩,
  ⟨0x14, [], 0, [⟨31, 16, .ro, []⟩, ⟨15, 0, .ro, []⟩]⟩]

/-- The HMN register tables (R505). -/
def regsHmn : List RegDesc := [
  ⟨0, [], 0x64, [⟨19, 16, .own, []⟩, ⟨11, 0, .own, [(1, 4095)]⟩]⟩,
  ⟨4, [(4, 4)], 0, []⟩,
  ⟨0x14, [], 0, [⟨7, 4, .w1c, []⟩, ⟨3, 3, .ro, []⟩]⟩,
  ⟨0x18, [], 0, [⟨31, 0, .ro, []⟩]⟩]

/-- The RST register tables (R532). -/
def regsRst : List RegDesc := [
  ⟨0, [], 0, [⟨9, 9, .ro, []⟩, ⟨8, 8, .ro, []⟩, ⟨3, 0, .ro, []⟩]⟩,
  ⟨4, [], 0, [⟨6, 6, .ro, []⟩, ⟨5, 5, .w1c, []⟩, ⟨4, 4, .ro, []⟩, ⟨3, 3, .ro, []⟩, ⟨2, 2, .ro, []⟩, ⟨1, 1, .ro, []⟩, ⟨0, 0, .ro, []⟩]⟩,
  ⟨8, [], 0xFFFFFFF, [⟨31, 0, .own, []⟩]⟩,
  ⟨0xC, [], 0, [⟨1, 1, .woOwn, []⟩, ⟨0, 0, .woOwn, []⟩]⟩,
  ⟨0x10, [], 0x64, [⟨13, 0, .own, [(1, 10000)]⟩]⟩,
  ⟨0x14, [], 0, [⟨16, 16, .ro, []⟩, ⟨15, 12, .ro, []⟩, ⟨11, 8, .ro, []⟩, ⟨7, 0, .ro, []⟩]⟩,
  ⟨0x18, [], 0, [⟨31, 0, .ro, []⟩]⟩,
  ⟨0x1C, [], 0xFFFFFFFF, [⟨31, 0, .own, []⟩]⟩,
  ⟨0x20, [], 0xFFFFFFFF, [⟨31, 0, .own, []⟩]⟩,
  ⟨0x24, [], 3, [⟨2, 2, .own, []⟩, ⟨1, 1, .own, []⟩, ⟨0, 0, .own, []⟩]⟩]

/-- The PST register tables (R533). -/
def regsPst : List RegDesc := [
  ⟨0, [], 0, [⟨6, 6, .ro, []⟩, ⟨5, 5, .w1c, []⟩, ⟨4, 4, .ro, []⟩, ⟨3, 3, .ro, []⟩, ⟨2, 2, .w1c, []⟩, ⟨1, 1, .ro, []⟩, ⟨0, 0, .ro, []⟩]⟩,
  ⟨4, [], 0, [⟨15, 0, .tly, []⟩]⟩,
  ⟨8, [], 0, [⟨15, 0, .tly, []⟩]⟩,
  ⟨0xC, [], 0, [⟨31, 0, .ro, []⟩]⟩,
  ⟨0x10, [], 0, [⟨23, 16, .ro, []⟩, ⟨15, 0, .ro, []⟩]⟩,
  ⟨0x40, [(32, 4)], 0, [⟨15, 0, .tly, []⟩]⟩]

/-- The EVR register tables (R550). -/
def regsEvr : List RegDesc := [
  ⟨0, [], 0, [⟨3, 3, .wo, []⟩, ⟨2, 2, .wo, []⟩, ⟨1, 1, .wo, []⟩, ⟨0, 0, .wo, []⟩]⟩,
  ⟨4, [], 0, [⟨4, 4, .w1c, []⟩, ⟨3, 3, .ro, []⟩, ⟨2, 2, .ro, []⟩, ⟨1, 1, .ro, []⟩, ⟨0, 0, .w1c, []⟩]⟩,
  ⟨8, [], 0, [⟨31, 0, .ro, []⟩]⟩,
  ⟨0xC, [], 0, [⟨17, 0, .ro, []⟩]⟩,
  ⟨0x10, [], 0, [⟨11, 0, .ro, []⟩]⟩,
  ⟨0x14, [], 0, [⟨31, 0, .ro, []⟩]⟩,
  ⟨0x18, [], 0, [⟨31, 0, .ro, []⟩]⟩,
  ⟨0x1C, [], 0x64, [⟨9, 0, .own, [(1, 1000)]⟩]⟩,
  ⟨0x20, [], 0, [⟨0, 0, .any, []⟩]⟩,
  ⟨0x24, [], 0, [⟨31, 0, .ro, []⟩]⟩]

/-- The FLT register tables (R551). -/
def regsFlt : List RegDesc := [
  ⟨0, [], 0, [⟨1, 0, .own, [(0, 2)]⟩]⟩,
  ⟨4, [], 0, [⟨7, 2, .ro, []⟩, ⟨1, 1, .w1c, []⟩, ⟨0, 0, .w1c, []⟩]⟩,
  ⟨8, [], 0, [⟨31, 0, .ro, []⟩]⟩,
  ⟨0xC, [], 0, [⟨31, 0, .ro, []⟩]⟩,
  ⟨0x10, [], 0, [⟨31, 0, .ro, []⟩]⟩,
  ⟨0x14, [], 0, [⟨31, 0, .ro, []⟩]⟩,
  ⟨0x18, [], 0, [⟨0, 0, .wo, []⟩]⟩]

/-- The UPD register tables (R572). -/
def regsUpd : List RegDesc := [
  ⟨0, [], 0xB000, [⟨15, 8, .ro, []⟩, ⟨1, 0, .ro, []⟩]⟩,
  ⟨4, [], 0, [⟨2, 2, .w1c, []⟩, ⟨1, 1, .w1c, []⟩, ⟨0, 0, .ro, []⟩]⟩,
  ⟨8, [], 0, [⟨31, 31, .woOwn, []⟩, ⟨2, 0, .own, [(1, 5)]⟩]⟩,
  ⟨0xC, [], 0, [⟨31, 0, .own, []⟩]⟩,
  ⟨0x10, [], 0, [⟨20, 0, .own, []⟩]⟩,
  ⟨0x14, [], 0, [⟨31, 0, .own, []⟩]⟩,
  ⟨0x18, [], 0, [⟨15, 0, .own, []⟩]⟩,
  ⟨0x1C, [], 0, [⟨18, 16, .own, [(1, 5)]⟩, ⟨2, 2, .woOwn, []⟩, ⟨1, 1, .woOwn, []⟩, ⟨0, 0, .woOwn, []⟩]⟩,
  ⟨0x20, [], 0, [⟨31, 0, .woOwn, []⟩]⟩,
  ⟨0x24, [], 0, [⟨31, 0, .ro, []⟩]⟩,
  ⟨0x28, [], 0, [⟨31, 8, .own, []⟩]⟩,
  ⟨0x2C, [], 0, [⟨15, 0, .own, []⟩]⟩,
  ⟨0x30, [], 0, []⟩,
  ⟨0x120, [(5, 0x20)], 0, [⟨19, 16, .ro, []⟩, ⟨13, 13, .w1c, []⟩, ⟨12, 12, .w1c, []⟩, ⟨9, 8, .ro, []⟩, ⟨6, 4, .ro, []⟩, ⟨3, 3, .ro, []⟩, ⟨2, 2, .ro, []⟩, ⟨1, 1, .ro, []⟩, ⟨0, 0, .ro, []⟩]⟩,
  ⟨0x124, [(5, 0x20)], 0, [⟨31, 0, .ro, []⟩]⟩,
  ⟨0x128, [(5, 0x20)], 0, [⟨9, 0, .ro, []⟩]⟩,
  ⟨0x12C, [(5, 0x20)], 0, [⟨31, 0, .ro, []⟩]⟩,
  ⟨0x130, [(5, 0x20)], 0, [⟨31, 0, .ro, []⟩]⟩]

/-- The TLY register tables (R573). -/
def regsTly : List RegDesc := [
  ⟨0, [], 0, [⟨14, 12, .ro, []⟩, ⟨11, 8, .ro, []⟩, ⟨4, 4, .w1c, []⟩, ⟨3, 3, .w1c, []⟩, ⟨2, 2, .w1c, []⟩, ⟨1, 1, .ro, []⟩, ⟨0, 0, .ro, []⟩]⟩,
  ⟨4, [], 0, [⟨31, 0, .woOwn, []⟩]⟩,
  ⟨8, [], 0, [⟨31, 31, .woOwn, []⟩, ⟨3, 0, .own, []⟩]⟩,
  ⟨0xC, [], 0, [⟨31, 0, .ro, []⟩]⟩,
  ⟨0x10, [], 0, [⟨31, 0, .ro, []⟩]⟩,
  ⟨0x40, [(30, 4)], 0, [⟨31, 0, .own, []⟩]⟩]

/-- The windows that hold registers (R22, R25, R27), each with its tables. -/
def regBlocks : List BlockDesc := [
  ⟨.que, 0x400700000, 0x10000, [], regsQue⟩,
  ⟨.fab, 0x400710000, 0x10000, [], regsFab⟩,
  ⟨.hb, 0x400020000, 0x10000, [], regsHb⟩,
  ⟨.pps, 0x400510000, 0x10000, [], regsPps⟩,
  ⟨.csi, 0x400100000, 0x10000, [(4, 0x10000)], regsCsi⟩,
  ⟨.mpl, 0x400140000, 0x10000, [(2, 0x10000)], regsMpl⟩,
  ⟨.vsc, 0x400160000, 0x10000, [], regsVsc⟩,
  ⟨.hra, 0x400300000, 0x10000, [], regsHra⟩,
  ⟨.gpa, 0x400310000, 0x10000, [], regsGpa⟩,
  ⟨.fqi, 0x400320000, 0x10000, [], regsFqi⟩,
  ⟨.fex, 0x400200000, 0x10000, [], regsFex⟩,
  ⟨.prj, 0x400210000, 0x10000, [], regsPrj⟩,
  ⟨.fus, 0x400220000, 0x10000, [], regsFus⟩,
  ⟨.yt, 0x400230000, 0x10000, [], regsYt⟩,
  ⟨.lpd, 0x500100000, 0x100, [(2, 0x100000000), (256, 0x100)], regsLpd⟩,
  ⟨.ce, 0x500110000, 0x10000, [(2, 0x100000000)], regsCe⟩,
  ⟨.lan, 0x500120000, 0x10000, [(2, 0x100000000), (8, 0x10000)], regsLan⟩,
  ⟨.fng, 0x400400000, 0x10000, [], regsFng⟩,
  ⟨.plm, 0x400410000, 0x10000, [], regsPlm⟩,
  ⟨.lds, 0x400420000, 0x10000, [], regsLds⟩,
  ⟨.brm, 0x400430000, 0x10000, [], regsBrm⟩,
  ⟨.snp, 0x400440000, 0x10000, [], regsSnp⟩,
  ⟨.gnb, 0x400500000, 0x10000, [], regsGnb⟩,
  ⟨.imu, 0x400520000, 0x10000, [], regsImu⟩,
  ⟨.obe, 0x1000000000000, 0x20, [(2048, 0x20)], regsObe⟩,
  ⟨.can, 0x400600000, 0x10000, [(4, 0x10000)], regsCan⟩,
  ⟨.obj, 0x400650000, 0x10000, [], regsObj⟩,
  ⟨.msg, 0x400640000, 0x10000, [], regsMsg⟩,
  ⟨.own, 0x400080000, 0x10000, [], regsOwn⟩,
  ⟨.lmp, 0x400670000, 0x10000, [], regsLmp⟩,
  ⟨.usb, 0x400680000, 0x10000, [], regsUsb⟩,
  ⟨.eth, 0x400660000, 0x10000, [], regsEth⟩,
  ⟨.role, 0x400030000, 0x10000, [], regsRole⟩,
  ⟨.mit, 0x400450000, 0x10000, [], regsMit⟩,
  ⟨.hmn, 0x500200000, 0x10000, [(2, 0x100000000)], regsHmn⟩,
  ⟨.rst, 0x400000000, 0x10000, [], regsRst⟩,
  ⟨.pst, 0x400460000, 0x10000, [], regsPst⟩,
  ⟨.evr, 0x400040000, 0x10000, [], regsEvr⟩,
  ⟨.flt, 0x400050000, 0x10000, [], regsFlt⟩,
  ⟨.upd, 0x400060000, 0x10000, [], regsUpd⟩,
  ⟨.tly, 0x400070000, 0x10000, [], regsTly⟩]

end Sys2Proof.Machine
end

