-- ==== Sys2Proof/Machine/State.lean ====
section
/-! DEFINITION. The state of the module: plain data, holding what the spec gives the machine. Every register of the register
tables is in `State.regs`; the structures below hold what the spec gives each block beside its registers, and the queue of waiting
commands stands in `State.pending`. -/

namespace Sys2Proof.Machine

/-- Why the machine stops: no event of this hardware stops the block, so this type has no constructor.
What fails in the module is a flag, a status, an exception or a reset, which are next states. -/
inductive Fault where
  deriving DecidableEq, Repr

/-- Why a command has no meaning. -/
inductive Refusal where
  /-- No meaning is written for the command yet; raised by `exec` alone. Safe: the machine stops where the hardware goes on. -/
  | notModelled (mnemonic : String)
  deriving DecidableEq, Repr

/-- A Jarug unit (R204, R234). An A-core uses `f`, `fcsr`, `ipend`, `imask`, `cmptime`, `resv`, `busErr`; a lane uses `acc`,
`rstack`, `cycles`. -/
structure Cpu where
  g : Vector DWord 32 := Vector.replicate 32 0
  f : Vector DWord 32 := Vector.replicate 32 0
  acc : Vector Acc 8 := Vector.replicate 8 0
  pc : DWord := 0
  st : BitVec 5 := 0
  /-- The return stack, newest first, at most 8 entries. -/
  rstack : List (BitVec 16) := []
  vbase : DWord := 0
  epc : DWord := 0
  ecause : DWord := 0
  eaddr : DWord := 0
  estat : DWord := 0
  ien : BitVec 3 := 0
  scr0 : DWord := 0
  scr1 : DWord := 0
  fcsr : DWord := 0
  ipend : DWord := 0
  imask : DWord := 0
  cmptime : DWord := 0xFFFFFFFFFFFFFFFF
  /-- CMPTIME has not yet set IPEND bit 4 since it was last written. -/
  cmpArmed : Bool := true
  /-- The reserved 64-byte granule (R227). -/
  resv : Option Nat := none
  /-- The bus errors of posted stores that have not yet arrived, oldest first: SUB and address (R236). -/
  busErr : List (Nat × Nat) := []
  /-- The unit runs a program: an A-core between its boot and its half's power-down. -/
  started : Bool := false
  /-- Stopped under R240. -/
  stopped : Bool := false
  /-- Waiting in WFI. -/
  waiting : Bool := false
  /-- Unit clock cycles since the unit's registers were reset (lanes; R234 CYCLE). -/
  cycles : Nat := 0
  /-- The module time at which `cycles` was 0 (lanes); the clock at which the unit's registers were reset (A-cores). -/
  cycBase : Nat := 0
  /-- What CYCLE of an A-core read last, before it wraps. -/
  cycRead : Nat := 0
  deriving DecidableEq, Repr, Inhabited

/-- A report to the fault concentrator (R538). `place` is a 32-bit place code. -/
structure Report where
  code : Nat := 0
  place : Nat := 0
  time : Nat := 0
  p0 : Nat := 0
  p1 : Nat := 0
  p2 : Nat := 0
  p3 : Nat := 0
  deriving DecidableEq, Repr, Inhabited

/-- An open concentration window (R538): its key's ancestor, its first report, how many reports it holds, its end. -/
structure FltWindow where
  ancestor : Nat := 0
  first : Report := {}
  count : Nat := 0
  ends : Nat := 0
  deriving DecidableEq, Repr, Inhabited

/-- The fault concentrator beside its registers (R538–R540, R544, R547). -/
structure Flt where
  windows : List FltWindow := []
  /-- The second of module time that the rate limit counts. -/
  sec : Nat := 0
  /-- Records emitted in it. -/
  inSec : Nat := 0
  /-- Records discarded in it. -/
  lost : Nat := 0
  /-- Code of the first record discarded in it. -/
  lostCode : Nat := 0
  /-- Records held while EVR is frozen, oldest first, at most 256. -/
  queue : List Report := []
  /-- The latest pending report of each source while EVR is not running. -/
  held : List Report := []
  /-- Reports of errors that EVR's own writes have met, until they are delivered (R46). -/
  own : List Report := []
  deriving DecidableEq, Repr, Inhabited

/-- One slot of the event buffer (R541). -/
structure EvSlot where
  seq : Nat := 0
  entry : Report := {}
  flushed : Bool := false
  deriving DecidableEq, Repr, Inhabited

/-- The event recorder beside its registers (R541–R548). -/
structure Evr where
  /-- EVR runs: not before its release after a module reset, and not in Beanie. -/
  running : Bool := false
  /-- The records still held, oldest first, at most 2,048. -/
  buf : List EvSlot := []
  /-- The slot that the next record takes. -/
  slot : Nat := 0
  /-- EVR_SEQ when the sequence floor was last written. -/
  floorAt : Nat := 0
  /-- When the freeze in force ends by itself. -/
  freezeEnds : Nat := 0
  /-- The clock at which the last flush ends (R541). -/
  flushEnds : Nat := 0
  deriving DecidableEq, Repr, Inhabited

/-- A correction of HB_GOFS that waits or slews (R57, R58). -/
inductive HbPend where
  | none
  /-- HB_GOFS takes this value at the next GNSS second boundary. -/
  | set (v : Int)
  /-- This is added at the next GNSS second boundary. -/
  | add (v : Int)
  /-- This is slewed in; the next 1 ns at module time `due`. -/
  | slew (left : Int) (due : Nat)
  deriving DecidableEq, Repr, Inhabited

/-- A trigger line beside its registers (R62–R72). -/
structure HbLine where
  perStaged : Nat := 1000000
  phsStaged : Nat := 0
  widStaged : Nat := 0
  /-- The strike due next, in the time scale of `align`; none when the line does not strike. -/
  next : Option Int := none
  /-- Its sequence number. -/
  nextSeq : Nat := 0
  /-- It is scheduled in GNSS time. -/
  align : Bool := false
  /-- The last strikes, newest first: sequence number and module time; at most 256. -/
  strikes : List (Nat × Nat) := []
  /-- The period of the schedule of each (R125). -/
  pers : List Nat := []
  /-- How many of the newest FUS has in its record (R198). -/
  known : Nat := 0
  /-- Capture begins at this module time. -/
  capFrom : Nat := 0
  lastEdge : Option Nat := none
  /-- Period and phase of the schedule that the strike due next belongs to (R67). -/
  per : Nat := 0
  phs : Nat := 0
  /-- No strike has been issued since the schedule started: the earliest module time of the first one. -/
  first : Option Nat := none
  /-- Width, trim and polarity that the strike due next is issued with (R67). -/
  wid : Nat := 0
  trim : Nat := 0
  pol : Bool := false
  /-- The last pulse on the ball: the module times, in quarter nanoseconds, at which it starts and ends, and its polarity; and the one before it,
  which TRIM may let run past the next strike. -/
  pulse : Nat × Nat := (0, 0)
  pulsePol : Bool := false
  before : Nat × Nat := (0, 0)
  beforePol : Bool := false
  deriving DecidableEq, Repr, Inhabited

/-- Hatband beside its registers. -/
structure Hb where
  pend : HbPend := .none
  /-- The GNSS-to-UTC difference in force (R61). -/
  leap : Int := 0
  /-- When HB_GCOR or HB_FADJ was last written, module time (R59). -/
  discAt : Nat := 0
  /-- The second of module time at which HB_TUNC last grew. -/
  tuncSec : Nat := 0
  /-- The full tick count of the last base tick (R73). -/
  tick : Nat := 0
  /-- The periods in effect, in ticks (R75). -/
  fusp : Nat := 200
  gnsp : Nat := 1000
  /-- The module time of the last GNSS second boundary taken. -/
  bound : Option Nat := none
  /-- The clock since which OCXO_IN has been valid without a break. -/
  ocxoSince : Option Nat := none
  /-- The module time at which the pulse on PPS_OUT ends. -/
  ppsEnds : Nat := 0
  /-- A step was applied since the last epoch block (R388). -/
  stepped : Bool := false
  lines : List HbLine := List.replicate 32 {}
  deriving DecidableEq, Repr, Inhabited

/-- A frame of a context between its frame start and its completion (R92–R104). Packets are raw bytes until they are processed. -/
structure Frame where
  csifn : Nat := 0
  ctxfn : Nat := 0
  tseq : Nat := 0
  tstrike : Nat := 0
  tfs : Nat := 0
  tfe : Nat := 0
  marks : Nat := 0
  /-- The buffer taken, when one was. -/
  buf : Nat := 0
  /-- Its frame end has not yet arrived. -/
  isOpen : Bool := true
  /-- Further packets of the frame are discarded. -/
  discard : Bool := false
  /-- Packets in the input buffer, oldest first: (embedded data, payload). -/
  waiting : List (Bool × List Byte) := []
  /-- Image lines that the pipeline has taken, oldest first. -/
  taken : List (List Byte) := []
  /-- The pipeline has taken all of the frame, its end included (R107, R108); and which one did. -/
  processed : Bool := false
  pipe : Nat := 0
  /-- Embedded data that the pipeline has taken. -/
  emb : List Byte := []
  crcErrs : Nat := 0
  lineLens : Nat := 0
  xlines : Nat := 0
  /-- The parameter block and the lens shading table, as read at frame start (R101). -/
  pb : List Byte := []
  lsc : List Byte := []
  deriving DecidableEq, Repr, Inhabited

/-- A context beside its registers. -/
structure Ctx where
  /-- Frames not yet complete, oldest first; only the last can be open. -/
  frames : List Frame := []
  lastSeq : Option Nat := none
  /-- Round-robin credit (R109). -/
  credit : Nat := 0
  /-- The pipeline that the context is bound to while a migration waits (R112). -/
  pipe : Nat := 0
  /-- Frames that must be complete before a waiting migration is made (R112). -/
  migAfter : Nat := 0
  deriving DecidableEq, Repr, Inhabited

/-- An HRIN channel beside its registers (R123–R139). -/
structure Hrin where
  /-- Samples carry SETTLE (R127); `made` counts those produced since it began. -/
  settle : Bool := true
  made : Nat := 0
  /-- SETTLE lasts for 8 samples only, after a restart for new microcode (R160). -/
  brief : Bool := false
  /-- The line's period and phase at the last sample. -/
  per : Nat := 0
  phs : Nat := 0
  lastSeq : Option Nat := none
  /-- Strikes at or before this module time give no further sample. -/
  after : Option Nat := none
  /-- Strikes omitted, until their bin and record are closed: the first one's module time, how many, how far apart (R136, R139). -/
  omits : List (Nat × Nat × Nat) := []
  /-- HRA_IMP, HRA_ITHR and HRA_IHLD as written while IEN = 1, with the bin from which they are in force (R138). -/
  sets : List (Nat × Nat × Nat × Nat) := []
  /-- The detector settings in force (R138): HRA_IMP, HRA_ITHR, HRA_IHLD. -/
  imp : Nat := 0
  thr : Nat := 0
  hld : Nat := 0
  base : Int := 0
  pulse : Bool := false
  energy : Nat := 0
  run : Nat := 0
  quiet : Nat := 0
  /-- The open bin's number; none before the first sample. -/
  bin : Option Nat := none
  flags : Nat := 0
  count : Nat := 0
  kcount : Nat := 0
  esum : Nat := 0
  hist : List Nat := List.replicate 16 0
  /-- What port 0x480 + n returns: the last closed bin. -/
  lastBin : Nat := 0
  /-- The open sample record (R139): first sequence number, first strike time, flags, samples. -/
  recSeq : Nat := 0
  recTime : Nat := 0
  recFlags : Nat := 0
  samples : List Int := []
  /-- The correction in force: gain in ppm from the factory value, offset in ppm of full scale. -/
  corr : Int × Int := (0, 0)
  /-- When the last calibration ended, module time. -/
  calAt : Option Nat := none
  /-- Samples since the running calibration of the channel began, and the module time at which it did (R127, R129). -/
  calMade : Nat := 0
  calFrom : Option Nat := none
  deriving DecidableEq, Repr, Inhabited

/-- A scan list (R141, R142): the waiting run and the converting run, each its sequence number and strike time; the wait in µs; when the conversions
began and which channels they are of. -/
structure ScanList where
  waiting : Option (Nat × Nat) := none
  running : Option (Nat × Nat) := none
  wait : Nat := 0
  began : Nat := 0
  chans : List Nat := []
  /-- Strikes at or before this module time are done with. -/
  after : Option Nat := none
  deriving DecidableEq, Repr, Inhabited

/-- A capacitance pair (R146, R148). -/
structure CapPair where
  /-- The measurement in progress: sequence number and strike time. -/
  busy : Option (Nat × Nat) := none
  /-- It is made on the internal reference. -/
  onRef : Bool := false
  /-- When the reference was last measured, module time; none since enable. -/
  refAt : Option Nat := none
  /-- What the last measurement of the reference gave, capacitance and conductance: the correction (R148). -/
  corr : Option (Int × Int) := none
  /-- Strikes at or before this module time are done with. -/
  after : Option Nat := none
  deriving DecidableEq, Repr, Inhabited

/-- HRA and GPA beside their registers. -/
structure Inputs where
  hrin : List Hrin := List.replicate 8 {}
  /-- Channels that the rotation has still to visit, in order; it is at the first (R129). -/
  calQueue : List Nat := []
  /-- A rotation became due while one was running. -/
  rotWaits : Bool := false
  /-- The module time at which the last rotation started. -/
  rotAt : Nat := 0
  lists : List ScanList := List.replicate 4 {}
  pairs : List CapPair := List.replicate 4 {}
  /-- GPA: the last background calibration, and a calibration asked for by NOW. -/
  gcalAt : Nat := 0
  gcalNow : Bool := false
  gcalLate : Bool := false
  /-- The module time until which the background calibration holds the converter (R145). -/
  gcalEnds : Nat := 0
  deriving DecidableEq, Repr, Inhabited

/-- A frequency input (R150–R155): stamps since STALE was set, newest first, at most 64. -/
structure FinSt where
  stamps : List Nat := []
  last : Option Nat := none
  excessAt : Nat := 0
  /-- The level behind the glitch filter; none before the first accepted change (R150). -/
  level : Option Bool := none
  /-- The peak of the previous positive half-cycle in mV (R152). -/
  vrPeak : Nat := 0
  deriving DecidableEq, Repr, Inhabited

/-- A source descriptor as FUS loaded it (R175). -/
structure Src where
  kind : Nat := 0
  grid : Nat := 0
  proj : Nat := 0
  agg : Nat := 0
  ten : Bool := false
  tline : Nat := 0
  elem : Nat := 0
  wgt : Nat := 1
  chofs : Nat := 0
  nch : Nat := 1
  vsh : Nat := 0
  vmul : Int := 0
  prog : Nat := 0
  lead : Nat := 0
  u0 : Int := 0
  v0 : Int := 0
  du : Int := 0
  dv : Int := 0
  hom : List Int := []
  dlut : Nat := 0
  nx : Nat := 0
  ny : Nat := 0
  stepx : Nat := 0
  stepy : Nat := 0
  x0 : Nat := 0
  y0 : Nat := 0
  x1 : Nat := 0
  y1 : Nat := 0
  deriving DecidableEq, Repr, Inhabited

/-- A source: in effect, waiting for its grid's next instant, waiting for removal, and whether it was expected at the last close. -/
structure SrcSt where
  cur : Option Src := none
  next : Option Src := none
  leaving : Bool := false
  deriving DecidableEq, Repr, Inhabited

/-- A scalar contribution admitted to the instant that closes at `closes` (R184). -/
structure Contrib where
  src : Nat := 0
  closes : Nat := 0
  stamp : Nat := 0
  vals : List Int := []
  deriving DecidableEq, Repr, Inhabited

/-- A grid beside its registers. -/
structure Grid where
  /-- It runs: enabled at a close that has passed (R201). -/
  run : Bool := false
  first : Bool := false
  /-- The module time of its last close. -/
  closed : Nat := 0
  /-- The close time of the open instant, and the accumulator set that it uses (R186). -/
  opens : Nat := 0
  set : Nat := 0
  late : Nat := 0
  mism : Nat := 0
  outside : Nat := 0
  /-- The close of the instant of each job dropped, and of each cell or head input that met poison, that no summary has told of (R174, R187). -/
  drops : List Nat := []
  poisons : List Nat := []
  /-- Scalar contributions that wait for their instant. -/
  contribs : List Contrib := []
  /-- What each instant holds so far: close time, source and sequence number (0 beyond bit 32: none), frame marks. -/
  seen : List (Nat × Nat × Nat × Nat) := []
  /-- Contributions counted in a cell: ((close time, cell), count), at most 255. -/
  cover : List ((Nat × Nat) × Nat) := []
  deriving DecidableEq, Repr, Inhabited

/-- A frame job of the executor (R172). -/
structure FrameJob where
  src : Nat := 0
  ctx : Nat := 0
  ctxfn : Nat := 0
  tseq : Nat := 0
  tstrike : Nat := 0
  marks : Nat := 0
  addr : Nat := 0
  width : Nat := 0
  height : Nat := 0
  deriving DecidableEq, Repr, Inhabited

/-- A position latched for the yield deposit of a close (R190). -/
structure YtJob where
  closes : Nat := 0
  x : Int := 0
  y : Int := 0
  hdg : Nat := 0
  wid : Nat := 0
  fusp : Nat := 0
  /-- The enabled tiles at the close: origin and base address. -/
  tiles : List (Int × Int × Nat) := []
  deriving DecidableEq, Repr, Inhabited

/-- A head job (R188). -/
structure HeadJob where
  head : Nat := 0
  grid : Nat := 0
  closes : Nat := 0
  mask : Nat := 0
  addr : Nat := 0
  prog : Nat := 0
  yt : Option YtJob := none
  deriving DecidableEq, Repr, Inhabited

/-- The feature and fusion engine beside its registers. -/
structure Fusion where
  /-- Address of the loaded weight set; none loaded: 0. -/
  setBase : Nat := 0
  /-- A restart is running (R196). -/
  restarting : Bool := false
  jobs : List FrameJob := []
  started : Option FrameJob := none
  heads : List HeadJob := []
  /-- The plaintext of the weight set in the current slot, and of one on trial, as FEX last took them (R194); none before. -/
  curPlain : Option (List Byte) := none
  trialPlain : Option (List Byte) := none
  /-- The module time up to which the busy time is counted, and the busy nanoseconds (R199). -/
  lastUnit : Nat := 0
  busyNs : Nat := 0
  /-- The job that runs has met a parity error in the engine's SRAM (R44). -/
  jobBad : Bool := false
  srcs : List SrcSt := List.replicate 32 {}
  grids : List Grid := List.replicate 4 {}
  /-- The position committed since the last close: X, Y, HDG, WID. -/
  ytPos : Option (Int × Int × Nat × Nat) := none
  deriving DecidableEq, Repr, Inhabited

/-- A lane beside its Jarug unit and its registers (R250–R263, R273–R279). -/
structure LaneSt where
  /-- Values staged by SETP: port, value, poisoned; one entry a port, in the order first staged. -/
  staged : List (Nat × Nat × Bool) := []
  /-- The values latched at the last release: port, value, poisoned. -/
  latched : List (Nat × Nat × Bool) := []
  /-- The cycle count at the last release. -/
  relCycle : Nat := 0
  /-- The cycle count at the boundary of the last release. -/
  bndCycle : Nat := 0
  /-- What the next release reports as RESTORED and MIGRATED. -/
  restored : Bool := false
  migrated : Bool := false
  /-- The post area of the pass, and whether the last drain found an invalid one. -/
  parea : Nat := 0
  posterr : Bool := false
  /-- Boundaries passed without release. -/
  missed : Nat := 0
  startAt : Nat := 0
  /-- The module time of its last synchronous exception, and an overrun exception left pending by it (R237). -/
  trapAt : Option Nat := none
  ovPend : Bool := false
  /-- The boundary block before the last missed boundary, which a pass still running may read word by word (R256). -/
  prev : List Nat := []
  deriving DecidableEq, Repr, Inhabited

/-- The control engine of a half beside its registers. -/
structure CeSt where
  /-- The mailboxes: value, poisoned (R255). -/
  mail : List (Nat × Bool) := List.replicate 64 (0, false)
  /-- The module time of the last boundary. -/
  boundAt : Option Nat := none
  /-- The module time of the last epoch boundary, and the lanes captured there (R273). -/
  capAt : Option Nat := none
  capMask : Nat := 0
  /-- The source and the destination of the armed migration (R277). -/
  mig : Option (Nat × Nat) := none
  /-- Lanes are not released before this (R499, R500): the swap boundary holds them. -/
  held : Bool := false
  /-- The loops whose preset by LAUTO the integrator limits forbade: ISAT is due at the next evaluation (R269). -/
  isatDue : List Nat := []
  /-- The loops restored at a takeover that wait for their preset at their owner's first release (R276). -/
  trackDue : List Nat := []
  deriving DecidableEq, Repr, Inhabited

/-- Mitten beside its registers (R495, R496). Times are of `clock`. -/
structure MitSt where
  engagedAt : Option Nat := none
  expiredAt : Nat := 0
  /-- R of the ramp that runs, the last step made, and the fingers in it with the code each began from. -/
  ramp : Nat := 0
  step : Nat := 0
  fingers : List (Nat × Nat) := []
  deriving DecidableEq, Repr, Inhabited

/-- A finger beside its registers (R292–R321). Times are of `clock`; electrical quantities in ohm, henry, volt, ampere, °C. -/
structure FngSt where
  /-- The code in force (R288). -/
  code : Nat := 0
  /-- The posture profile is in force (R526). -/
  posture : Bool := false
  /-- The working copy (R293): FNG_CFG, FNG_DITH and the phase entries. -/
  wcfg : Nat := 0
  wdith : Nat := 0
  phases : List (Nat × Nat) := []
  /-- The phase last entered: it runs, or waits for its grant (R313). -/
  next : Nat := 0
  /-- The profile ran to its end; cleared when the code returns to 0 (R296). -/
  ended : Bool := false
  /-- The running phase was deferred to battery (R313). -/
  deferred : Bool := false
  /-- The 2 ms grant limit was reached in this turn-on (R314). -/
  spent : Bool := false
  phaseAt : Nat := 0
  waitAt : Nat := 0
  /-- Lg and Rg kept through a boost phase (R300). -/
  gains : Option (Rat × Rat) := none
  /-- The integral term and the duty of the regulator (R300). -/
  q : Rat := 0
  duty : Rat := 0
  /-- Consecutive updates at dmax with |e| above 5 %, and with the current below 10 % of the target (R300, R322). -/
  satN : Nat := 0
  openN : Nat := 0
  iPrev : Rat := 0
  /-- Va, Ia, m, last_ok of R306, and the estimate. -/
  va : Rat := 0
  ia : Rat := 0
  mN : Nat := 0
  lastOk : Nat := 0
  stepAt : Nat := 0
  rest : Rat := 0
  /-- Inductance samples since LEST was last replaced (R307). -/
  lSamples : List Rat := []
  calAt : Option Nat := none
  /-- I_CUT in force, mA (R365), and the switch opened at it until the next update (R366). -/
  icut : Nat := 0
  /-- I_CUT as last computed, not yet in force or higher than that in force (R365), and the working copy of BRM_FDZ (R378). -/
  icutNew : Option Nat := none
  wfdz : Nat := 0
  cut : Bool := false
  /-- I_CUT is computed again at the next regulator update (R364). -/
  dzDue : Bool := false
  /-- ITGT in A and Rg of the boost rise whose time is still to come (R307). -/
  riseTgt : Option (Rat × Rat) := none
  /-- The decay since its switch opened is fast (R321–R323, R360, R519), and the recovery replaced at the last update (R315). -/
  fast : Bool := false
  sub : Bool := false
  /-- The duty window (R318): nanoseconds in RUN per completed slot, newest first; the open slot's start and sum; FNG_DUTY in force. -/
  slots : List Nat := []
  slotAt : Nat := 0
  slotRun : Nat := 0
  markAt : Nat := 0
  dutyCfg : Nat := 0x001903E8
  /-- The pair thermal model (R319). -/
  tw : Rat := 85
  tb : Rat := 85
  /-- It was in WAIT or RUN, or was to turn on, when the outputs were forced off (R519). -/
  wasOn : Bool := false
  deriving DecidableEq, Repr, Inhabited

/-- A palm beside its registers: waiting boost requests, the grant's start (R313, R314). -/
structure PalmSt where
  queue : List Nat := []
  grantAt : Nat := 0
  deriving DecidableEq, Repr, Inhabited

/-- A reservoir beside its registers (R357–R362). -/
structure ResSt where
  /-- The last samples, newest first: charge in nC and rise in mV. -/
  samples : List (Nat × Nat) := []
  sampleAt : Nat := 0
  /-- A bleed for a sample or to 5 V ends at this voltage, mV. -/
  bleedTo : Option Nat := none
  deriving DecidableEq, Repr, Inhabited

/-- A sensor port beside its registers: when it entered LIMIT, and FOLD (R368). -/
structure SnpSt where
  limAt : Nat := 0
  foldAt : Nat := 0
  deriving DecidableEq, Repr, Inhabited

/-- The power die beside its registers. -/
structure Drive where
  fngs : List FngSt := List.replicate 32 {}
  palms : List PalmSt := List.replicate 8 {}
  ress : List ResSt := List.replicate 2 {}
  ports : List SnpSt := List.replicate 8 {}
  /-- The start of the calibration visit, and the last save of the coil models. -/
  visitAt : Nat := 0
  savedAt : Nat := 0
  /-- The outputs are forced off: module reset, flush, no P-firmware (R518, R522, R561). -/
  forced : Bool := true
  /-- VBAT has exceeded 36.5 V and not yet recovered (R519). -/
  ovv : Bool := false
  deriving DecidableEq, Repr, Inhabited

/-- The conditions that a load channel met in one 10 µs test (R344): the test's number; LDS_STAT, LDS_CNT and the channel as the first of them found it;
command 0, an over-current with its current, and whether it came after a restart of that test, a thermal trip, an under-voltage, a restart. -/
structure LdTest where
  k : Nat := 0
  stat : Nat := 0
  cnt : Nat := 0
  wcfg : Nat := 0
  startAt : Nat := 0
  latchAt : Nat := 0
  lowN : Nat := 0
  counted : Bool := false
  byOc : Bool := false
  off : Bool := false
  oc : Option Nat := none
  late : Bool := false
  therm : Bool := false
  uv : Bool := false
  restart : Bool := false
  deriving DecidableEq, Repr, Inhabited

/-- A load channel beside its registers (R334–R347). Times are of `clock`. -/
structure LdsSt where
  /-- The working copy of LDS_CFG taken at turn-on or restart, and LDS_CUR, LDS_OL, LOWR since the last report (R355). -/
  wcfg : Nat := 0x1428C
  wcur : Nat := 0x00640032
  wol : Nat := 0x00640064
  wlow : Bool := false
  startAt : Nat := 0
  onAt : Nat := 0
  /-- The cause of the restart that is due is COUNTED (R342). -/
  counted : Bool := false
  /-- The last latch was over-current, at this time. -/
  byOc : Bool := false
  latchAt : Nat := 0
  /-- Consecutive low-range reports below OLTHR, and whether this run of them has set OPEN (R347). -/
  lowN : Nat := 0
  olHit : Bool := false
  /-- The millisecond of module time of the latest change of STATE or report, whether INRUSH was in force in it and in the one before, and STATE
  at the end of that one (R345). -/
  ms : Nat := 0
  rush : Bool := false
  rushPrev : Bool := false
  endSt : Nat := 0
  /-- The millisecond in which the latest report was received, and the word before it (R345). -/
  repMs : Nat := 0
  prevWord : Nat := 0
  /-- The conditions met in the latest 10 µs test (R344). -/
  test : Option LdTest := none
  /-- It was in INRUSH or ON, or was to turn on, when the outputs were forced off (R519). -/
  wasOn : Bool := false
  deriving DecidableEq, Repr, Inhabited

/-- A supply group beside its registers: whether, and when last, its supply was seen at or below 7.5 V (R339, R342). -/
structure LdGroup where
  low : Bool := false
  lowAt : Option Nat := none
  deriving DecidableEq, Repr, Inhabited

/-- A GNB channel beside its registers (R385–R395). -/
structure GnbCh where
  /-- The module time at which STATE was entered, and at which carrier continuity was last lost. -/
  since : Nat := 0
  slipAt : Nat := 0
  /-- Continuity was lost since the previous block. -/
  slip : Bool := false
  /-- CODELOCK, BITSYNC and TOWSET as last measured. -/
  codeLock : Bool := false
  bitSync : Bool := false
  towSet : Bool := false
  /-- C/N0 at the previous epoch; the band-0 channel's code-minus-carrier difference with its partner there, in m (R392). -/
  prevCn0 : Option Nat := none
  prevCmc : Option (Nat × Rat) := none
  /-- The committed prediction: the epochs counted at the commit, range in cm, rate in mm/s (R393). -/
  pred : Option (Nat × Nat × Int) := none
  deriving DecidableEq, Repr, Inhabited

/-- The search that runs (R386). -/
structure Acq where
  sig : Nat := 0
  prn : Nat := 0
  auto : Bool := false
  chan : Nat := 0
  dcen : Int := 0
  dhalf : Nat := 0
  pstart : Nat := 0
  nb : Nat := 0
  thr : Nat := 0
  nnc : Nat := 0
  tc : Nat := 1
  /-- The bin and the block of the running step, and when it began. -/
  bin : Nat := 0
  blk : Nat := 0
  stepAt : Nat := 0
  /-- The largest ratio met, its phase and its Doppler. -/
  best : Option (Nat × Nat × Int) := none
  deriving DecidableEq, Repr, Inhabited

/-- A block that waits to be written (R388): its words, the numbers of its poisoned records, and what it tells of the time since the previous block:
samples dropped, a step, epochs not written, poison, and the channels that slipped. -/
structure GnbBlock where
  words : List Nat := []
  bad : List Nat := []
  drops : Nat := 0
  stepped : Bool := false
  omitted : Bool := false
  poison : Bool := false
  slips : List Nat := []
  deriving DecidableEq, Repr, Inhabited

/-- GNB beside its registers. -/
structure Gnb where
  chans : List GnbCh := List.replicate 96 {}
  acq : Option Acq := none
  /-- SIG and PRN that GNB_AQR0 speaks of. -/
  found : Nat × Nat := (0, 0)
  /-- The navigation words as last committed (R390). -/
  navp : List Nat := List.replicate 32 0
  /-- The committed clock prediction: bias in ns, drift in ps/s, epoch (R393). -/
  clk : Option (Int × Int × Nat) := none
  /-- Epochs counted since power-on or a block reset, whatever EN is written. -/
  ticks : Nat := 0
  /-- The last epochs, newest first: GNB_EPOCH and module time, at most 16. -/
  epochs : List (Nat × Nat) := []
  /-- Since the previous block: samples dropped, epochs not written, poison met. -/
  drops : Nat := 0
  omitted : Bool := false
  poison : Bool := false
  /-- The block that waits to be written (R388). -/
  block : Option GnbBlock := none
  /-- The front-end frame that runs is a read (R382). -/
  feRead : Bool := false
  /-- EPOCH of the last block completed. -/
  lastBlock : Nat := 0
  /-- The module time at which a channel last had CODELOCK (R394). -/
  codeAt : Nat := 0
  /-- The Beanie burst that runs: its start, and whether it is a long one (R396). -/
  burst : Option (Nat × Bool) := none
  deriving DecidableEq, Repr, Inhabited

/-- The IMU port beside its registers: sequence number and strike time of the running transaction. -/
structure ImuSt where
  seq : Nat := 0
  time : Nat := 0
  /-- IMU_CFG when it began, and whether IMU_TX met poison then. -/
  cfg : Nat := 0
  bad : Bool := false
  /-- The bytes that the running or last transaction shifts out on IMU_SDO, byte 0 first. -/
  sdo : List Byte := []
  /-- Strikes at or before this module time are done with. -/
  after : Option Nat := none
  deriving DecidableEq, Repr, Inhabited

/-- What a frame on its way to a channel stands for (R415, R425, R428, R433, R434). -/
inductive TxSrc where
  | obj (n : Nat)
  | msg (id : Nat)
  | pkt (sess : Nat)
  | dpo (sess : Nat)
  | claim
  | ctl
  deriving DecidableEq, Repr, Inhabited

/-- A frame that waits for a buffer. Identifier and data are those of a frame that MSG made itself; those of objects and messages are
taken when a buffer is filled. -/
structure TxItem where
  src : TxSrc := .ctl
  ident : Nat := 0
  data : List Byte := []
  deriving DecidableEq, Repr, Inhabited

/-- A full transmit buffer. A held cancel (R418) names its status and DL, or none for a frame that goes back to the list (R416). -/
structure TxBuf where
  item : TxItem := {}
  frame : CanFrame := {}
  cancel : Option (Option (Nat × Bool)) := none
  deriving DecidableEq, Repr, Inhabited

/-- A message taken from the request queue (R428). -/
structure Msg where
  id : Nat := 0
  tag : Nat := 0
  raw : Bool := false
  prio : Nat := 0
  fdf : Bool := false
  brs : Bool := false
  da : Nat := 0
  /-- The PGN, or the identifier with IDE in bit 29. -/
  pgn : Nat := 0
  len : Nat := 0
  addr : Nat := 0
  deadline : Option Nat := none
  /-- It goes by transport (R429). -/
  transport : Bool := false
  /-- The bytes of a response of LMP (R452); none: the data lies at `addr`. -/
  own : List Byte := []
  deriving DecidableEq, Repr, Inhabited

/-- A session beside its registers (R433). -/
structure Sess where
  sa : Nat := 0
  da : Nat := 0
  prio : Nat := 0
  tag : Nat := 0
  addr : Nat := 0
  deadline : Option Nat := none
  packets : Nat := 0
  /-- The next packet to send or receive, and the last one of the set. -/
  next : Nat := 1
  setEnd : Nat := 0
  /-- The packet offset of the last DPO. -/
  base : Nat := 0
  timer : Option Nat := none
  block : Nat := 0
  misses : Nat := 0
  own : List Byte := []
  deriving DecidableEq, Repr, Inhabited

/-- A CAN channel beside its registers, in CANn and in MSG. -/
structure CanSt where
  items : List TxItem := []
  bufs : List (Option TxBuf) := [none, none, none]
  /-- The buffer that is filled next with TXORD = 1. -/
  nextBuf : Nat := 0
  boffAt : Nat := 0
  recovering : Bool := false
  /-- The transmitter was released to recessive (R405). -/
  released : Bool := false
  wakeErr : Nat := 0
  /-- The sleeping bus is biased to 2.5 V (R406). -/
  biased : Bool := false
  /-- When the sleeping transceiver last saw activity, or fell asleep (R406). -/
  heard : Nat := 0
  /-- The buffers that have held the highest priority since the last frame ended: one of them may be under transmission (R415). -/
  offered : List Nat := []
  msgs : List Msg := []
  /-- NAMEs and the addresses they hold (R435). -/
  names : List (Nat × Nat) := []
  cand : Nat := 0
  claimAt : Option Nat := none
  cannotDue : Bool := false
  deriving DecidableEq, Repr, Inhabited

/-- An object beside its registers (R424–R426). -/
structure ObjSt where
  pend : Option Nat := none
  wait : Option Nat := none
  waitDue : Option Nat := none
  inBuf : Bool := false
  deadline : Option Nat := none
  lastDlc : Nat := 0
  /-- When its last frame was sent, or its last repeat fell due (R426). -/
  rptFrom : Option Nat := none
  rpts : Nat := 0
  since : Nat := 0
  deriving DecidableEq, Repr, Inhabited

/-- A Lamip frame's fields (R453), and the master it goes to: LMP has sent it, or will when its status is known (log 10). -/
structure LampFrame where
  mid : Nat := 0
  type : Nat := 0
  push : Bool := false
  status : Nat := 0
  tid : Nat := 0
  place : Nat := 0
  addr : Nat := 0
  payload : List Nat := []
  deriving DecidableEq, Repr, Inhabited

/-- An entry of the Lamip retry cache (R460). `answer`: the stored response, none while it is held or not yet made. -/
structure CacheEntry where
  mid : Nat := 0
  tid : Nat := 0
  answer : Option LampFrame := none
  /-- The clock at which its response was sent. -/
  at1 : Nat := 0
  deriving DecidableEq, Repr, Inhabited

/-- A response held until its epoch commits (R459, R479). -/
structure HeldResp where
  frame : LampFrame := {}
  epoch : Nat := 0
  deriving DecidableEq, Repr, Inhabited

/-- A subscription (R458): its requester, TID, the READ it pushes, its period in ms, when it was last asked for. -/
structure Subs where
  mid : Nat := 0
  tid : Nat := 0
  place : Nat := 0
  addr : Nat := 0
  bytes : Nat := 0
  period : Nat := 0
  at1 : Nat := 0
  /-- The module time of its last push. -/
  pushed : Option Nat := none
  deriving DecidableEq, Repr, Inhabited

/-- A claim that waits for the settle window's end (R464): MID, class, and by Lamip the response to fill in. -/
structure Claim where
  mid : Nat := 0
  cls : Nat := 0
  /-- The clock at which it arrived. -/
  at1 : Nat := 0
  frame : Option LampFrame := none
  deriving DecidableEq, Repr, Inhabited

/-- A frame in an egress queue of the switch (R447); queue 3 goes first. -/
structure EgressFrame where
  port : Nat := 0
  queue : Nat := 0
  bytes : List Byte := []
  deriving DecidableEq, Repr, Inhabited

/-- LMP, OWN, ETH and USB beside their registers. -/
structure Net where
  /-- The retry cache, oldest entry first. -/
  cache : List CacheEntry := []
  heldResps : List HeldResp := []
  subs : List Subs := []
  /-- The frames that LMP has sent, oldest first. -/
  sent : List LampFrame := []
  /-- Reaches that Lamip RESET named, and when each is reset: 1 ms after its response (R457). -/
  resets : List (Nat × Nat) := []
  /-- Waiting claims, earliest first; when the settle window ends. -/
  claims : List Claim := []
  settleAt : Nat := 0
  /-- The clock at which the owner's lease began; none before the first boot completes. -/
  leaseAt : Option Nat := none
  /-- Datagrams for LMP from the switch, oldest first (R449): source address, source port, bytes. -/
  lmpUdp : List (Nat × Nat × List Byte) := []
  /-- The frames that the switch has sent, oldest first: port, bytes; port 3 is the active half (log 10). -/
  ethOut : List (Nat × List Byte) := []
  /-- The frames in the egress queues, earliest first (R447). -/
  egress : List EgressFrame := []
  /-- Fragmented datagrams to LMP whose later fragments are dropped (R449): IPv6, addresses, identification. -/
  frags : List (Bool × Nat × Nat × Nat) := []
  /-- The stations that requests over UDP came from (R452): address, MAC address, 802.1Q tag or nothing. -/
  hosts : List (Nat × Nat × List Byte) := []
  /-- Learned MAC addresses (R447): address, port, when last seen. -/
  macs : List (Nat × Nat × Nat) := []
  /-- The half that switch port 3 leads to (R448). -/
  port3 : Option Nat := none
  /-- USB stays detached until this clock time (R470). -/
  usbOff : Nat := 0
  deriving DecidableEq, Repr, Inhabited

/-- What is known of the journal beside its registers (R476–R483). -/
structure Journal where
  /-- The number that the next epoch takes, and the EMS in force. -/
  next : Nat := 1
  ems : Nat := 0
  /-- The module time of the last epoch boundary. -/
  bound : Option Nat := none
  /-- The epoch captured and not yet committed: number, boundary, PFAIL, SWAP. -/
  pend : Option (Nat × Nat × Bool × Bool) := none
  /-- Its copy met poison. -/
  bad : Bool := false
  /-- The parts of the checkpoint that met poison when they were captured: lane `l` is `l`, loop `n` is 8 + n, A-core region `k` is 264 + k. -/
  badParts : List Nat := []
  /-- The checkpoint: the bytes of the slot image that are not zero, by slot offset. -/
  image : List (Nat × Byte) := []
  /-- The final capture of a flush or of the entry to Beanie has been made (R483, R502, R522). -/
  final : Bool := false
  deriving DecidableEq, Repr, Inhabited

/-- The role arbiter and the health monitors beside their registers. -/
structure RoleSt where
  /-- Failover sources raised and not yet acted on: code and place; the FCODE of FAIL. -/
  srcs : List (Nat × Nat) := []
  fcode : Nat := 0
  /-- The clock at detection. -/
  detectAt : Nat := 0
  /-- The half that failed, and the half that boots. -/
  failed : Nat := 0
  booting : Option Nat := none
  /-- The boot of the active half has completed, at this clock time. -/
  bootAt : Option Nat := none
  /-- Module time from which the loss of heartbeats of the active half counts: the last one, or the end of its boot. -/
  hbAt : Option Nat := none
  /-- Module time of its last heartbeat. -/
  beatAt : Option Nat := none
  /-- The clock at the start of the last restart in place (R493). -/
  restartAt : Option Nat := none
  /-- Parity faults in the halves in the last second: domain and module time of each (R485). -/
  parity : List (Nat × Nat) := []
  /-- The last kick of each A-core's watchdog, half A's four first (R485). -/
  kicks : List Nat := List.replicate 8 0
  /-- Self-tests (R498, R49): the clock that the period counts from, the clock at which STEST asked for a test, the clock before which
  no start is tried. -/
  testBase : Nat := 0
  asked : Option Nat := none
  tryAt : Nat := 0
  /-- The clock at the end of each half's last test (ROLE_HEALTH:AGE). -/
  tested : List (Option Nat) := [none, none]
  /-- The swap: when it was accepted, the boundaries that found a lane running, and its boundary B (R499, R500). -/
  swapAt : Nat := 0
  swapMiss : Nat := 0
  swapB : Option Nat := none
  /-- The halves that run the trial A-image (R561–R563). -/
  trial : List Bool := [false, false]
  deriving DecidableEq, Repr, Inhabited

/-- A block reset in progress (R511): its block, its start, the reset it belongs to, whether it is applied, and when. -/
structure BlockReset where
  place : Nat := 0
  startAt : Nat := 0
  /-- Block resets of one number are released in the order of R513. -/
  group : Nat := 0
  applied : Option Nat := none
  deriving DecidableEq, Repr, Inhabited

/-- The reset controller beside its registers. Times are of `clock`. -/
structure RstSt where
  /-- VBAT has passed 6.5 V since it last failed. -/
  powered : Bool := false
  /-- The cause that the next power-on carries: 1, 2 or 8 (R506). -/
  nextCause : Nat := 1
  /-- A module reset is in force: its cause and its start; when its last source was released. -/
  hold : Option (Nat × Nat) := none
  released : Option Nat := none
  /-- The active half boots (R518 steps 7 and 8). -/
  booting : Bool := false
  /-- The golden recovery path runs (R565). -/
  golden : Bool := false
  blocks : List BlockReset := []
  /-- The flush's start. -/
  flushAt : Option Nat := none
  /-- FAULT_N and RESET_N are driven low. -/
  faultN : Bool := true
  resetN : Bool := true
  /-- The entry to Beanie waits for the final commit (R502, R530). -/
  entering : Bool := false
  deriving DecidableEq, Repr, Inhabited

/-- An image kind beside its registers (R553, R557–R562). -/
structure ImgKind where
  /-- A copy of the staged slot into the program store runs (R559). -/
  committing : Bool := false
  /-- The current image of the kind has been verified and taken into use since it was selected. -/
  fresh : Bool := false
  /-- The module time at which the trial began to run (R562). -/
  runAt : Option Nat := none
  /-- The response that waits for the COMMIT that runs (R559). -/
  resp : Option LampFrame := none
  deriving DecidableEq, Repr, Inhabited

/-- UPD and TLY beside their registers. -/
structure UpdSt where
  kinds : List ImgKind := List.replicate 6 {}
  /-- The bytes of the NAND slots that are not zero: kind × 2^27 + slot × 2^26 + offset. -/
  nand : List (Nat × Byte) := []
  /-- The stagings that run from the registers: kind and the rest of what UPD_SCMD gave: source, offset, length (R557). -/
  staging : List (Nat × Nat × Nat × Nat) := []
  /-- The blocks that restart, those that run the trial F-microcode, and those left unstarted by a restart without an image (R561, R564). -/
  restarting : List Nat := []
  trials : List Nat := []
  stopped : List Nat := []
  deriving DecidableEq, Repr, Inhabited

/-- The tally fuses beside their registers. -/
structure TlySt where
  /-- The armed window ends at this clock time (R570). -/
  armEnds : Nat := 0
  /-- The burn that runs: setting, row, value bytes, class and MID of the burner. -/
  burn : Option (Nat × Nat × List Byte × Nat × Nat) := none
  /-- Powered nanoseconds counted up to the last loss of supply, and the clock since which it counts again (R573 TLY_HOURS). -/
  powered : Nat := 0
  since : Option Nat := none
  deriving DecidableEq, Repr, Inhabited

/-- The boundary-scan port (R590–R592). Cell 0 of the boundary register is the one next to DBG_TDI. -/
structure TapSt where
  /-- DBG_EN is high. -/
  dbgEn : Bool := false
  /-- The instruction register. -/
  ir : Byte := 0x02
  /-- The boundary register's update stage: what EXTEST and CLAMP drive. -/
  cells : BitVec 88 := 0
  /-- What the selected data register last shifted out; none: DBG_TDO is high impedance. -/
  out : Option Nat := none
  deriving DecidableEq, Repr, Inhabited

/-- The machine. -/
structure State where
  /-- The commands that wait, first in, first out (the block form; log 1). -/
  pending : List Instr := []
  /-- Nanoseconds since power was first applied (log 2). -/
  clock : Nat := 0
  /-- The clock at which module time started (R51); none before. -/
  start : Option Nat := none
  /-- How many free values have been taken (log 7): the model's own, no state of the spec. -/
  freeCtr : Nat := 0
  /-- The registers that do not hold their reset value. -/
  regs : List (Nat × Word) := []
  /-- Memory that does not hold zero (log 6): the header of the root-key-hash row that the factory burned (R569, R570). -/
  mem : List Host.Cell := [(0x380000600, 0x71), (0x380000601, 0xFF)]
  /-- The addresses whose byte carries a poison mark (R44), rising. -/
  poison : List Nat := []
  /-- Of these, the bytes that carry it for one failed read over the fabric only (R44). -/
  fabBad : List Nat := []
  /-- The holding registers of R35: ((master, address of the higher word), value). -/
  held : List ((Nat × Nat) × Word) := []
  /-- The clock at which the error in FAB_LAST was detected (R47). -/
  fabAt : Option Nat := none
  /-- The words that a master sees of its own: OBJ_PAGE and EVR_BPAGE, ((master, address), value). -/
  perMaster : List ((Nat × Nat) × Word) := []
  /-- QUE's record count of each queue (R37): sparse, unlisted 0. -/
  queSeq : List (Nat × Nat) := []
  /-- What the module last answered to a master: a status of R455 and the words read. The model's own output port (log 10). -/
  reply : Option (Nat × List Nat) := none
  /-- The module is in Beanie (R529). -/
  inBeanie : Bool := false
  /-- The A-cores, half A's four first. -/
  aCores : List Cpu := List.replicate 8 {}
  /-- The lanes, half A's eight first. -/
  lanes : List Cpu := List.replicate 16 {}
  flt : Flt := {}
  evr : Evr := {}
  hb : Hb := {}
  ctxs : List Ctx := List.replicate 8 {}
  /-- Lines processed in the grant in force, per pipeline. -/
  mplLines : List Nat := List.replicate 2 0
  /-- Per pipeline: the grant in force is in stripe mode; MPL_CFG takes effect at a grant point (R115). -/
  mplStripe : List Bool := List.replicate 2 true
  /-- READYL at the last grant point of each pipeline (R115). -/
  mplReadyl : List Nat := List.replicate 2 15
  inp : Inputs := {}
  fins : List FinSt := List.replicate 24 {}
  fus : Fusion := {}
  lns : List LaneSt := List.replicate 16 {}
  ces : List CeSt := List.replicate 2 {}
  mit : MitSt := {}
  drv : Drive := {}
  lds : List LdsSt := List.replicate 8 ({} : LdsSt) ++ List.replicate 8 ({ wcur := 0x00640019 } : LdsSt)
  ldGroups : List LdGroup := List.replicate 2 {}
  gnb : Gnb := {}
  imu : ImuSt := {}
  cans : List CanSt := List.replicate 4 {}
  /-- The objects that are not in their first state. -/
  objs : List (Nat × ObjSt) := []
  sess : List Sess := List.replicate 64 {}
  /-- How many messages have been taken. -/
  msgNext : Nat := 0
  /-- The pool blocks in use (R432). -/
  blocks : List Nat := []
  /-- Messages for the Lamip engine from CAN (R436): channel, source address, bytes; oldest first. -/
  lmpCan : List (Nat × Nat × List Byte) := []
  /-- Responses of the Lamip engine that wait for room in the pending list of their channel: channel, destination, bytes (R428, R452). -/
  lmpRes : List (Nat × Nat × List Byte) := []
  net : Net := {}
  jnl : Journal := {}
  role : RoleSt := {}
  rst : RstSt := {}
  upd : UpdSt := {}
  tly : TlySt := {}
  tap : TapSt := {}
  deriving DecidableEq, Repr, Inhabited

/-- The machine right after reset: every register at its reset value, nothing written, nothing running, no command waiting.
The values that the spec does not give are those of assumption logs 5, 6, 7 and 8. -/
def State.reset : State := {}

end Sys2Proof.Machine
end

