-- ==== Sys2Proof/Machine/Ops.lean ====
section
/-! DEFINITION. The named operations over the state that every meaning is written with: time, registers and their fields, memory
and poison marks, free values, power, ownership, interrupts. -/

namespace Sys2Proof.Machine

/-! Time. -/

/-- The state at device time `t`, or at the time already reached if that is later (log 2). -/
def State.atTime (s : State) (t : Nat) : State := { s with clock := max s.clock t }

/-- Module time in nanoseconds (R50, R51): 0 until it starts. -/
def State.now (s : State) : Nat :=
  match s.start with
  | none => 0
  | some b => s.clock - b

/-- Module time runs. -/
def State.timed (s : State) : Bool := s.start.isSome

/-! Registers (R10–R13). -/

/-- The kind of window and the register that address `a` names. -/
def regDescAt (a : Nat) : Option (Blk × RegDesc) :=
  match blockAt a regBlocks with
  | some (b, o) => (regIn o b.regs).map (fun d => (b.id, d))
  | none => none

/-- The reset value of the register at `a`; a reserved offset reads zero. -/
def regReset (a : Nat) : Word :=
  match regDescAt a with
  | some (_, d) => BitVec.ofNat 32 d.reset
  | none => 0

/-- The register at address `a`. -/
def State.reg (s : State) (a : Nat) : Word := sparseGet regReset s.regs a

/-- The register at `a` set to `v`. -/
def State.setReg (s : State) (a : Nat) (v : Word) : State := { s with regs := sparsePut regReset s.regs a v }

/-- The register at `a` as a number. -/
def State.word (s : State) (a : Nat) : Nat := (s.reg a).toNat

/-- The register at `a` set to the low 32 bits of `n`. -/
def State.setWord (s : State) (a n : Nat) : State := s.setReg a (BitVec.ofNat 32 n)

/-- The width of a field. -/
def Fld.width (f : Fld) : Nat := f.hi + 1 - f.lo

/-- The number that the bits of field `f` of word `w` hold. -/
def fieldOf (f : Fld) (w : Nat) : Nat := w / 2 ^ f.lo % 2 ^ f.width

/-- Word `w` with field `f` set to the low bits of `v`. -/
def withField (f : Fld) (w v : Nat) : Nat := w % 2 ^ f.lo + (v % 2 ^ f.width) * 2 ^ f.lo + w / 2 ^ (f.hi + 1) * 2 ^ (f.hi + 1)

/-- Field `f`. -/
def State.get (s : State) (f : Fld) : Nat := fieldOf f (s.word f.reg)

/-- Field `f` as a signed number. -/
def State.getS (s : State) (f : Fld) : Int := signedOf f.width (s.get f)

/-- Field `f` set to the low bits of `v`. -/
def State.put (s : State) (f : Fld) (v : Nat) : State := s.setWord f.reg (withField f (s.word f.reg) v)

/-- Field `f` set to the low bits of a signed number. -/
def State.putS (s : State) (f : Fld) (v : Int) : State := s.put f (bitsOf f.width v)

/-- The flag `f` is 1. -/
def State.flag (s : State) (f : Fld) : Bool := s.get f != 0

/-- The flag `f` set or cleared. -/
def State.putB (s : State) (f : Fld) (b : Bool) : State := s.put f (bit b)

/-- The flag `f` set. -/
def State.raise (s : State) (f : Fld) : State := s.put f 1

/-- The flag `f` set when `c` holds. -/
def State.raiseIf (s : State) (c : Bool) (f : Fld) : State := if c then s.raise f else s

/-- The wrapping counter `f` increased by `n`. -/
def State.count (s : State) (f : Fld) (n : Nat := 1) : State := s.put f (s.get f + n)

/-- The saturating counter `f` increased by `n`. -/
def State.countSat (s : State) (f : Fld) (n : Nat := 1) : State := s.put f (min (s.get f + n) (2 ^ f.width - 1))

/-- The 64-bit value of a pair of words. -/
def State.get64 (s : State) (lo hi : Nat) : Nat := s.word lo + s.word hi * 2 ^ 32

/-- A pair of words set to a 64-bit value. -/
def State.put64 (s : State) (lo hi n : Nat) : State := (s.setWord lo n).setWord hi (n / 2 ^ 32)

/-- An address held as `ADDR<31..k>` in a low word and `ADDR<47..32>` in a high word; reserved bits read zero. -/
def State.getAddr (s : State) (lo hi : Nat) : Nat := s.word lo + s.word hi % 2 ^ 16 * 2 ^ 32

/-- `n / d` to the nearest whole number, a tie upward (R596). -/
def nearest (n d : Nat) : Nat := (2 * n + d) / (2 * d)

/-! Free values (log 7). -/

/-- The next free value and the state after it is taken. -/
def State.free (s : State) : Nat × State := (Config.freeValue s.freeCtr, { s with freeCtr := s.freeCtr + 1 })

/-! Memory (R22–R25), bytes, little-endian. -/

/-- What a byte of memory reads as that nothing has written (log 6). -/
def memDefault (_ : Nat) : Byte := 0

/-- The byte at address `a`. -/
def State.byte (s : State) (a : Nat) : Byte := sparseGet memDefault s.mem a

/-- Addresses without `a`, in order. -/
def poisonErase (a : Nat) (l : List Nat) : List Nat := l.filter (fun x => x != a)

/-- Addresses with `a`, in order, once. -/
def poisonInsert (a : Nat) : List Nat → List Nat
  | [] => [a]
  | x :: r => if a < x then a :: x :: r else if a = x then x :: r else x :: poisonInsert a r

/-- Byte `a` set to clean data `v`. -/
def State.setByte (s : State) (a : Nat) (v : Byte) : State :=
  { s with mem := sparsePut memDefault s.mem a v, poison := poisonErase a s.poison }

/-- `n` bytes from address `a`, as a little-endian number. -/
def State.readN (s : State) (a : Nat) : Nat → Nat
  | 0 => 0
  | n + 1 => (s.byte a).toNat + 256 * s.readN (a + 1) n

/-- `n` bytes from address `a`. -/
def State.readBytes (s : State) (a : Nat) : Nat → List Byte
  | 0 => []
  | n + 1 => s.byte a :: s.readBytes (a + 1) n

/-- The reservation of a core on a 64-byte granule that the `n` bytes from `a` touch ends (R228). -/
def Cpu.lose (a n : Nat) (c : Cpu) : Cpu :=
  match c.resv with
  | some g => if decide (g * 64 < a + n) && decide (a < g * 64 + 64) then { c with resv := none } else c
  | none => c

/-- The reservations on what a store of `n` bytes at `a` touches end; the storing core's own is its instruction's to keep (R228). -/
def State.loseResv (s : State) (a n : Nat) : State := { s with aCores := s.aCores.map (Cpu.lose a n) }

/-- The low `n` bytes of `v` put little-endian from address `a`. -/
def State.putN (s : State) (a : Nat) : Nat → Nat → State
  | 0, _ => s
  | n + 1, v => (s.setByte a (BitVec.ofNat 8 v)).putN (a + 1) n (v / 256)

/-- Bytes put from address `a` on. -/
def State.putBytes (s : State) (a : Nat) : List Byte → State
  | [] => s
  | b :: r => (s.setByte a b).putBytes (a + 1) r

/-- 32-bit words put from address `a` on. -/
def State.putWords (s : State) (a : Nat) : List Nat → State
  | [] => s
  | w :: r => (s.putN a 4 w).putWords (a + 4) r

/-- The low `n` bytes of `v` written little-endian from address `a`. -/
def State.writeN (s : State) (a n v : Nat) : State := (s.putN a n v).loseResv a n

/-- Bytes written from address `a` on. -/
def State.writeBytes (s : State) (a : Nat) (l : List Byte) : State := (s.putBytes a l).loseResv a l.length

/-- 32-bit words written from address `a` on. -/
def State.writeWords (s : State) (a : Nat) (l : List Nat) : State := (s.putWords a l).loseResv a (4 * l.length)

/-- `n` 32-bit words from address `a`. -/
def State.readWords (s : State) (a : Nat) : Nat → List Nat
  | 0 => []
  | n + 1 => s.readN a 4 :: s.readWords (a + 4) n

/-- Some of the `n` bytes from address `a` carry a poison mark (R44). -/
def State.poisoned (s : State) (a n : Nat) : Bool := s.poison.any (fun x => decide (a ≤ x) && decide (x < a + n))

/-- The `n` bytes from `a` marked as poison. -/
def State.markPoison (s : State) (a : Nat) : Nat → State
  | 0 => s
  | n + 1 => { s with poison := poisonInsert a s.poison }.markPoison (a + 1) n

/-- The word at `a` written with clean data: it carries no poison mark. -/
def State.cleanWord (s : State) (a : Nat) : State := { s with poison := s.poison.filter (fun x => decide (x < a) || decide (a + 4 ≤ x)) }

/-- The `n` bytes from `dst` made a copy of those from `src`, poison marks included. -/
def State.copyMem (s : State) (src dst n : Nat) : State :=
  { s.loseResv dst n with
    mem := sparseBlit dst n (sparseCut src n s.mem) s.mem
    poison := s.poison.filter (fun x => decide (x < dst)) ++ (s.poison.filter (fun x => decide (src ≤ x) && decide (x < src + n))).map (fun x => x - src + dst)
      ++ s.poison.filter (fun x => decide (dst + n ≤ x)) }

/-- The `n` bytes from `a` hold the bytes of `img`, offset and value, and zero elsewhere; no poison. -/
def State.blit (s : State) (a n : Nat) (img : List (Nat × Byte)) : State :=
  { s with mem := sparseBlit a n img s.mem, poison := s.poison.filter (fun x => decide (x < a) || decide (a + n ≤ x)) }

/-! Halves, ownership, interrupts. -/

/-- The active half: 0 for A, 1 for B (ROLE_STAT:ACTIVE, R503); none in the codes 0b00 and 0b11. -/
def State.active (s : State) : Option Nat :=
  match s.get F.ROLE_STAT_ACTIVE with
  | 1 => some 0
  | 2 => some 1
  | _ => none

/-- Half `h` is the active half. -/
def State.isActive (s : State) (h : Nat) : Bool := s.active == some h

/-- Half `h` is powered beyond its health monitor: the active half, or the standby in self-test, boot or takeover (R20). -/
def State.halfPowered (s : State) (h : Nat) : Bool :=
  s.isActive h || (s.active.isSome && s.get F.ROLE_STAT_SBST != 0) || s.role.booting == some h

/-- Masters reach the DRAM, TCMs and registers of half `h`: the active half's port alone is open to them (R474). -/
def State.halfOpen (s : State) (h : Nat) : Bool := s.isActive h

/-- The MID of half `h`'s A-cores (R463): 1 for half A, 2 for half B. -/
def halfMid (h : Nat) : Master := h + 1

/-- Master `m` is the current owner (R461): OWN is in OWNED and names it. -/
def State.isOwner (s : State) (m : Master) : Bool :=
  s.get F.OWN_STAT_STATE == 2 && s.get64 R.OWN_MID_LO R.OWN_MID_HI == m

/-- Master `m` is the A-cores of the active half. -/
def State.isActiveCore (s : State) (m : Master) : Bool :=
  match s.active with
  | some h => m == halfMid h
  | none => false

/-- A-core number `i` in `aCores` changed by `f`. -/
def State.modACore (s : State) (i : Nat) (f : Cpu → Cpu) : State := { s with aCores := s.aCores.modify i f }

/-- Lane number `i` in `lanes` changed by `f`. -/
def State.modLane (s : State) (i : Nat) (f : Cpu → Cpu) : State := { s with lanes := s.lanes.modify i f }

/-- IPEND bit `k` of a core set. -/
def Cpu.setIpend (c : Cpu) (k : Nat) : Cpu := { c with ipend := c.ipend ||| BitVec.ofNat 64 (2 ^ k) }

/-- IPEND bit `k` set in the four A-cores of half `h`. -/
def State.irqHalf (s : State) (h k : Nat) : State :=
  { s with aCores := s.aCores.mapIdx (fun i c => if i / 4 = h then c.setIpend k else c) }

/-- IPEND bit `k` set in every A-core of the active half (R243). -/
def State.irq (s : State) (k : Nat) : State :=
  match s.active with
  | some h => s.irqHalf h k
  | none => s

/-- A failover source raised by the unit with place code `p` (R485), for FAILOVER_DETECT to act on. -/
def State.addSource (s : State) (code p : Nat) : State :=
  { s with role := { s.role with srcs := s.role.srcs ++ [(code, p)], detectAt := if s.role.srcs.isEmpty then s.clock else s.role.detectAt } }

/-! Tables kept as association lists in State. -/

/-- The value of key `k` in an association list. -/
def assoc {κ α : Type} [DecidableEq κ] (k : κ) : List (κ × α) → Option α
  | [] => none
  | (j, v) :: r => if j = k then some v else assoc k r

/-- The association list with key `k` at `v`. -/
def assocPut {κ α : Type} [DecidableEq κ] (k : κ) (v : α) : List (κ × α) → List (κ × α)
  | [] => [(k, v)]
  | (j, w) :: r => if j = k then (k, v) :: r else (j, w) :: assocPut k v r

/-- The association list without key `k`. -/
def assocErase {κ α : Type} [DecidableEq κ] (k : κ) : List (κ × α) → List (κ × α)
  | [] => []
  | (j, w) :: r => if j = k then r else (j, w) :: assocErase k r

/-- The outcome of a command that has its effect. -/
abbrev done (s : State) : Host.Outcome State Fault Refusal := .next s

end Sys2Proof.Machine
end

