-- ==== Sys2Proof/Machine/Recorder.lean ====
section
/-! DEFINITION. The way of a report to the log: the fault concentrator FLT and the event recorder EVR
(spec/16_event_recorder.md R534–R551). What a flush writes, it writes at its start (log 9). -/

namespace Sys2Proof.Machine

/-! Place codes (R5–R9). -/

/-- A place code from its fields. -/
def place (domain cluster block element : Nat) : Nat := domain * 2 ^ 28 + cluster * 2 ^ 24 + block * 2 ^ 16 + element

/-- A block of the field domain. -/
def fieldBlock (cluster block : Nat) : Nat := place 3 cluster block 0xFFFF

/-- A block of the power die (R9). -/
def powerBlock (block : Nat) : Nat := place 4 4 block 0xFFFF

/-- A block of half `h`. -/
def halfBlock (h cluster block : Nat) : Nat := place (h + 1) cluster block 0xFFFF

/-- The place code in the DOMAIN 0x4 form of R9. -/
def canonPlace (p : Nat) : Nat :=
  if bitField p 31 28 = 3 ∧ bitField p 27 24 = 4 then p % 2 ^ 28 + 4 * 2 ^ 28 else p

/-- The place of a block in the order of release: the module domain, the power die, the field domain, its clusters ascending, last a half (R513). -/
def releaseRank (p : Nat) : Nat :=
  match bitField p 31 28 with
  | 0 => 0
  | 4 => 1
  | 3 => 2 + bitField p 27 24
  | _ => 10

/-- The block waits for idle, or its reset was applied less than 1 µs before clock `c` (R511). -/
def BlockReset.waits (e : BlockReset) (c : Nat) : Bool :=
  match e.applied with
  | none => true
  | some a => decide (c < a + 1000)

/-- Block `p` takes no access: it waits, or a block of the same reset that is released before it does (R511, R513). -/
def State.blockHeld (s : State) (p : Nat) : Bool :=
  s.rst.blocks.any (fun e => e.place == p && s.rst.blocks.any (fun x =>
    (x.place == p || (x.group == e.group && decide (releaseRank x.place < releaseRank p))) && x.waits s.clock))

/-! Blocks that do not run. -/

/-- UPD's own part of kind `k`. -/
def State.img (s : State) (k : Nat) : ImgKind := s.upd.kinds.getD k {}

/-- FEX, whose restart takes a weight set; every other field block takes F-microcode. -/
def fexPlace : Nat := fieldBlock 2 0

/-- The kind of image that a restart of block `p` takes. -/
def restartKind (p : Nat) : Nat := if p = fexPlace then 4 else 2

/-- The next restart of block `p` verifies its image first: after an activation, and for a weight set on trial each time (R561, R564). -/
def State.restartVerifies (s : State) (p : Nat) : Bool :=
  let k := restartKind p
  if s.flag (F.UPD_KSTAT_TRY k) then k == 4 || !s.flag (F.UPD_KSTAT_RUNTRY k) else !(s.img k).fresh

/-- Block `p` is down for a restart between UPD_FRST and the restart's end, or was left unstarted; while its image is verified the block runs on
(R561, R564; log 87). -/
def State.restarting (s : State) (p : Nat) : Bool := s.upd.stopped.contains p || (s.upd.restarting.contains p && !s.restartVerifies p)

/-- A power-fail flush runs. -/
def State.flushing (s : State) : Bool := s.flag F.RST_STAT_FLUSH

/-- A power-fail flush is over, 20 ms after its start: every domain is held in reset (R522). -/
def State.flushOver (s : State) : Bool := s.flushing && decide (s.rst.flushAt.getD s.clock + 20000000 ≤ s.clock)

/-- No master acts and no link answers: a module reset is in force, a flush is over, or the module has no power. -/
def State.down (s : State) : Bool := s.rst.hold.isSome || (!s.rst.powered && !s.flushing) || s.flushOver

/-- Field block `p` runs: it is not down for a restart, and the domain is neither powered down in Beanie nor held in reset after a flush. -/
def State.awake (s : State) (p : Nat) : Bool := !s.inBeanie && !s.restarting p && !s.flushOver

/-- The compressed place code of `p` (R536). -/
def cplace (p : Nat) : Nat :=
  let d := bitField p 31 28
  let c := bitField p 27 24
  let b := bitField p 23 16
  d % 8 * 2 ^ 13 + c * 2 ^ 9 + (if b = 0xFF then 0xF else b % 16) * 2 ^ 5 + bit (p % 2 ^ 16 != 0xFFFF) * 2 ^ 4

/-- The place that contains `p` at the level FLT_CFG:LEVEL names (R538). -/
def ancestorOf (level p : Nat) : Nat :=
  match level with
  | 0 => p / 2 ^ 16 * 2 ^ 16 + 0xFFFF
  | 1 => p / 2 ^ 24 * 2 ^ 24 + 0xFFFFFF
  | _ => p / 2 ^ 28 * 2 ^ 28 + 0xFFFFFFF

/-- CODE<15>, the fault bit (R535). -/
def Report.isFault (r : Report) : Bool := r.code / 2 ^ 15 % 2 == 1

/-- The 32 bytes of a record as a number (R534). -/
def recordWord (seq : Nat) (r : Report) : Nat :=
  let p0 := if r.place % 2 ^ 16 = 0xFFFF then r.p0 else r.place % 2 ^ 16
  seq % 2 ^ 32 + r.code % 2 ^ 16 * 2 ^ 32 + cplace r.place * 2 ^ 48 + r.time % 2 ^ 64 * 2 ^ 64 + p0 % 2 ^ 32 * 2 ^ 128
    + r.p1 % 2 ^ 32 * 2 ^ 160 + r.p2 % 2 ^ 32 * 2 ^ 192 + r.p3 % 2 ^ 32 * 2 ^ 224

/-- The state with the recorder's own part at `e`. -/
def State.withEvr (s : State) (e : Evr) : State := { s with evr := e }

/-- The state with the concentrator's own part at `f`. -/
def State.withFlt (s : State) (f : Flt) : State := { s with flt := f }

/-! Errors of the fabric (R44, R46, R47). -/

/-- FAB's own place code. -/
def fabPlace : Nat := fieldBlock 7 1

/-- An error detected by the unit with place code `p` at address `a`, counted in `cnt` beside FAB_PCNT; of two errors of one instant the one of the
lower place code stays in FAB_LAST (R47). -/
def State.fabError (s : State) (p a : Nat) (cnt : Fld) : State :=
  let s := (s.countSat F.FAB_PCNT_COUNT).countSat cnt
  if s.fabAt == some s.clock && decide (s.word R.FAB_LAST < p) && s.word R.FAB_LAST != 0 then s
  else (((({ s with fabAt := some s.clock } : State).setWord R.FAB_LAST p).setWord R.FAB_LADDR_LO a).setWord R.FAB_LADDR_HI (a / 2 ^ 32 % 2 ^ 16))

/-- An injection is armed for reads (`write` false) or writes. -/
def State.armed (s : State) (write : Bool) : Bool := s.flag F.FAB_INJ_ARM && s.flag F.FAB_INJ_WRITE == write

/-- The injected error at `a` is done and counted, `clean` where a retry clears it. Whatever byte lane FAB_INJ:LANE names, the whole transfer is
in error (log 30). -/
def State.injectedAt (s : State) (a : Nat) (clean : Bool) : State :=
  (s.put F.FAB_INJ_ARM 0).fabError fabPlace a (if clean then F.FAB_RCNT_COUNT else F.FAB_ECNT_COUNT)

/-- FAB's report of a parity error at address `a` (R549). -/
def State.parityReport (s : State) (a : Nat) : Report :=
  { code := 0xA701, place := fabPlace, time := s.now, p1 := a % 2 ^ 32, p2 := a / 2 ^ 32 % 2 ^ 16 }

/-! The recorder. -/

/-- EVR has written `n` bytes of MRAM at `a`: where an injection is armed for writes, the first transfer is stored with a poison mark. Its report
waits in `flt.own` until the record in hand is done. -/
def State.evrWrote (s : State) (a n : Nat) : State :=
  if s.armed true then
    let s := (s.markPoison a (min n (16 - a % 16))).injectedAt a false
    s.withFlt { s.flt with own := s.flt.own ++ [s.parityReport a] }
  else s

/-- The sequence-floor word of the module record area (R537, R598) written. -/
def State.evrFloor (s : State) : State :=
  let s := s.withEvr { s.evr with floorAt := s.word R.EVR_SEQ }
  (s.writeN 0x3010FFF00 4 ((s.word R.EVR_SEQ + 2048) % 2 ^ 32)).evrWrote 0x3010FFF00 4

/-- EVR_LCNT, EVR_OVF and FULL have changed: they are written to the module record area (R543, R598). -/
def State.evrCounts (s : State) : State :=
  (s.writeWords 0x3010FFF04 [s.get F.EVR_LCNT_LCNT, s.word R.EVR_OVF, s.get F.EVR_STAT_FULL]).evrWrote 0x3010FFF04 12

/-- The count of unflushed records in EVR_BCNT. -/
def State.evrCount (s : State) : State := s.put F.EVR_BCNT_BCNT (s.evr.buf.countP (fun e => !e.flushed))

/-- One record to the log, or counted when the log is full (R541, R543). -/
def State.logRecord (s : State) (e : EvSlot) : State :=
  if s.flag F.EVR_STAT_FULL then (s.countSat F.EVR_OVF_COUNT).evrCounts
  else
    let n := s.get F.EVR_LCNT_LCNT
    let s := (s.writeN (0x300C00000 + n * 32) 32 (recordWord e.seq e.entry)).evrWrote (0x300C00000 + n * 32) 32
    let s := s.put F.EVR_LCNT_LCNT (n + 1)
    (s.raiseIf (n + 1 == 131072) F.EVR_STAT_FULL).evrCounts

/-- A flush runs (R541; log 9). -/
def State.evrFlushing (s : State) : Bool := decide (s.clock < s.evr.flushEnds)

/-- When the flush of `n` records that starts now ends: within 100 µs up to 1,024 of them, else within the 200 µs of R544 (R541; log 9). -/
def State.flushEndsAt (s : State) (n : Nat) : Nat :=
  if s.evrFlushing then s.evr.flushEnds
  else s.clock + min (Config.flushTime (s.word R.EVR_SEQ)) (if n ≤ 1024 then 100000 else 200000)

/-- Every unflushed record to the log, in SEQ order, and the sequence floor written (R537, R541, R543). -/
def State.evrFlush (s : State) : State :=
  let waiting := s.evr.buf.filter (fun e => !e.flushed)
  let s1 := waiting.foldl State.logRecord s
  let e : Evr := { s1.evr with buf := s1.evr.buf.map (fun e => { e with flushed := true }), flushEnds := s.flushEndsAt waiting.length }
  ((s1.withEvr e).evrCount).evrFloor

/-- The next record would overwrite an unflushed slot while the log is not full (R542). -/
def State.evrBlocked (s : State) : Bool :=
  decide (2048 ≤ s.evr.buf.length) && (s.evr.buf.headD {}).flushed == false && !s.flag F.EVR_STAT_FULL

/-- The address in EVR's window that shows ring slot `k` (R550). -/
def slotWindow (k : Nat) : Nat := 0x400048000 + 32 * (k % 1024)

/-- A record takes the next slot of the buffer and the next number; no flush starts (R537, R541–R543). -/
def State.evrEnter (s : State) (r : Report) : State :=
  if s.evrBlocked then (s.countSat F.EVR_BDROP_COUNT).raise F.EVR_STAT_BDROP
  else
    let full := s.flag F.EVR_STAT_FULL
    let seq := s.word R.EVR_SEQ
    let kept := if 2048 ≤ s.evr.buf.length then s.evr.buf.drop 1 else s.evr.buf
    let k := slotWindow s.evr.slot
    let s : State := { s with poison := s.poison.filter (fun x => decide (x < k) || decide (k + 32 ≤ x)) }
    let s := s.withEvr { s.evr with buf := kept ++ [{ seq := seq, entry := r, flushed := full }], slot := (s.evr.slot + 1) % 2048 }
    let s := s.setWord R.EVR_SEQ (seq + 1)
    let s := if full then (s.countSat F.EVR_OVF_COUNT).evrCounts else s
    (if 1024 ≤ (s.word R.EVR_SEQ + 2 ^ 32 - s.evr.floorAt) % 2 ^ 32 then s.evrFloor else s).evrCount

/-- A record into the buffer: a fault, the 1,024th unflushed record, and a record that meets a running flush are flushed (R541). -/
def State.evrAccept (s : State) (r : Report) : State :=
  if s.evrBlocked then s.evrEnter r
  else
    let x := s.evrEnter r
    if r.isFault || decide (1024 ≤ x.get F.EVR_BCNT_BCNT) || x.evrFlushing then x.evrFlush else x

/-! The concentrator. -/

/-- A record from FLT to EVR: numbered, or held while EVR is frozen (R547), and IPEND bit 5 set (R539). -/
def State.fltSend (s : State) (r : Report) : State :=
  let s := (s.count F.FLT_RCNT_COUNT).irq 5
  if s.flag F.EVR_STAT_FROZEN then
    if s.flt.queue.length < 256 then s.withFlt { s.flt with queue := s.flt.queue ++ [r] }
    else (s.countSat F.FLT_QDROP_COUNT).raise F.FLT_STAT_QFULL
  else s.evrAccept r

/-- The records that the limit does not count (R540). -/
def limitExempt (code : Nat) : Bool := code == 0x200C || code == 0x2014 || code == 0x200D

/-- The limiter brought to the second of module time now: a summary opens the next second after a discard (R540). -/
def State.fltSecond (s : State) : State :=
  let sec := s.now / 1000000000
  if sec = s.flt.sec then s
  else
    let lost := s.flt.lost
    let code := s.flt.lostCode
    let s := s.withFlt { s.flt with sec := sec, inSec := 0, lost := 0, lostCode := 0 }
    if lost = 0 then s
    else s.fltSend { code := 0x200D, place := fieldBlock 0 5, time := s.now, p1 := lost, p2 := code }

/-- One record emitted under the rate limit (R540). -/
def State.fltEmit (s : State) (r : Report) : State :=
  let s := s.fltSecond
  if limitExempt r.code then s.fltSend r
  else if s.flt.inSec < 256 then (s.withFlt { s.flt with inSec := s.flt.inSec + 1 }).fltSend r
  else
    let s := (s.countSat F.FLT_SUPP_COUNT).raise F.FLT_STAT_SUPP
    s.withFlt { s.flt with lost := s.flt.lost + 1, lostCode := if s.flt.lost = 0 then r.code else s.flt.lostCode }

/-- FLT_STAT:OPEN brought up to date. -/
def State.fltOpen (s : State) : State := s.put F.FLT_STAT_OPEN s.flt.windows.length

/-- The report of a window of one report: P3 = 1 for a fault (R539). -/
def Report.single (r : Report) : Report := if r.isFault then { r with p3 := 1 } else r

/-- The record that a window stands for when it ends (R539). -/
def FltWindow.record (w : FltWindow) : Report :=
  if w.count ≤ 1 then w.first.single
  else
    let first := w.first
    let p0 := if first.place % 2 ^ 16 = 0xFFFF then first.p0 else first.place % 2 ^ 16
    { first with place := w.ancestor, p0 := p0, p3 := if first.isFault then min w.count 65535 else first.p3 }

/-- The report joins window `w` of its key. -/
def FltWindow.keyed (w : FltWindow) (code ancestor : Nat) : Bool := w.first.code == code && w.ancestor == ancestor

/-- A parity fault whose place names a half: PESC of them within 1 s are failover source 0x4 of that half (R485). -/
def State.parityNote (s : State) (r : Report) : State :=
  let d := bitField r.place 31 28
  if (r.code == 0xA701 || r.code == 0x9004) && (d == 1 || d == 2) then
    let seen := s.role.parity.filter (fun x => decide (s.now < x.2 + 1000000000)) ++ [(d, s.now)]
    let limit := s.get F.ROLE_CFG_PESC
    if limit ≠ 0 ∧ limit ≤ seen.countP (fun x => x.1 == d) then
      ({ s with role := { s.role with parity := seen.filter (fun x => x.1 != d) } }).addSource 4 r.place
    else { s with role := { s.role with parity := seen } }
  else s

/-- The windows of FLT that have ended by module time `t`, emitted in the order they were opened (R539). -/
def State.fltExpire (s : State) (t : Nat) : State :=
  let ended := s.flt.windows.filter (fun w => decide (w.ends ≤ t))
  let s := s.withFlt { s.flt with windows := s.flt.windows.filter (fun w => decide (t < w.ends)) }
  (ended.foldl (fun s w => s.fltEmit w.record) s).fltOpen

/-- A report delivered to FLT (R538, R544): held while EVR does not run; else the windows that ended before it are emitted, and it joins its
key's window, opens one, or is emitted. -/
def State.fltDeliver (s : State) (r : Report) : State :=
  if !s.evr.running then
    let others := s.flt.held.filter (fun x => !(x.code == r.code && x.place == r.place))
    s.withFlt { s.flt with held := others ++ [r] }
  else
    let s := s.fltExpire (s.now - 1)
    let a := ancestorOf (s.get F.FLT_CFG_LEVEL) r.place
    if s.flt.windows.any (fun w => w.keyed r.code a) then
      let ws := s.flt.windows.map (fun w => if w.keyed r.code a then { w with count := w.count + 1 } else w)
      (s.withFlt { s.flt with windows := ws }).count F.FLT_COAL_COUNT
    else if s.flt.windows.length < 32 then
      (s.withFlt { s.flt with windows := s.flt.windows ++ [{ ancestor := a, first := r, count := 1, ends := s.now + 1000000 }] }).fltOpen
    else s.fltEmit r.single

/-- The reports of errors that EVR's own writes have met are delivered (R46). -/
def State.fltJoin (s : State) : State :=
  match s.flt.own with
  | [] => s
  | l => l.foldl State.fltDeliver (s.withFlt { s.flt with own := [] })

/-- A report to FLT, and those that its way to the log gives rise to. -/
def State.fltTake (s : State) (r : Report) : State := (s.fltDeliver r).fltJoin

/-- A flush that is started by itself (R541). -/
def State.flushLog (s : State) : State := s.evrFlush.fltJoin

/-- A report arises: it counts towards parity escalation and goes to FLT with its place in the form of R9. -/
def State.report (s : State) (r : Report) : State :=
  let r := { r with place := canonPlace r.place }
  (s.parityNote r).fltTake r

/-- A report made now, by the unit with place code `p`. -/
def State.event (s : State) (code p : Nat) (p0 p1 p2 p3 : Nat := 0) : State :=
  s.report { code := code, place := p, time := s.now, p0 := p0, p1 := p1, p2 := p2, p3 := p3 }

/-! Transfers over the fabric (R44, R46). -/

/-- A transfer of the armed kind meets the injected error. -/
def State.injected (s : State) (a : Nat) (clean : Bool) : State :=
  let s := s.injectedAt a clean
  s.report (s.parityReport a)

/-- A block has written `n` bytes at `a` over the fabric: where an injection is armed for writes, the first transfer, up to 16 bytes, is stored with
a poison mark. -/
def State.dmaWrote (s : State) (a n : Nat) : State :=
  if s.armed true then (s.markPoison a (min n (16 - a % 16))).injected a false else s

/-- The bytes of the fabric transfer of the 16-byte line of address `a` that a failed read poisons for that read alone (R44). -/
def State.failing (s : State) (a : Nat) : List Nat := s.fabBad.filter (fun x => x / 16 == a / 16)

/-- The read of the line of address `a`, whose retry failed, has been delivered as poison: what memory holds there is as it was (R44). -/
def State.delivered (s : State) (a : Nat) : State :=
  let l := s.failing a
  if l.isEmpty then s
  else { s with poison := s.poison.filter (fun x => !l.contains x), fabBad := s.fabBad.filter (fun x => !l.contains x) }

/-- A block has read from `a` over the fabric: where an injection is armed for reads, the retry is clean. -/
def State.dmaRead (s : State) (a : Nat) : State := (if s.armed false then s.injected a true else s).delivered a

/-- The next read of the line of address `a` fails, its retry too (R44; log 30). -/
def State.failRead (s : State) (a : Nat) : State :=
  let l := a / 16 * 16
  let fresh := ((List.range 16).map (l + ·)).filter (fun x => !s.poison.contains x)
  { s.markPoison l 16 with fabBad := s.fabBad.filter (fun x => !fresh.contains x) ++ fresh }

/-- EVR begins to run: it resumes its counts from the module record area, and the held reports are delivered (R537, R543, R544). -/
def State.evrStart (s : State) : State :=
  let s := s.dmaRead 0x3010FFF00
  let s := s.setWord R.EVR_SEQ (s.readN 0x3010FFF00 4)
  let s := s.put F.EVR_LCNT_LCNT (s.readN 0x3010FFF04 4)
  let s := s.setWord R.EVR_OVF (s.readN 0x3010FFF08 4)
  let s := s.put F.EVR_STAT_FULL (s.readN 0x3010FFF0C 1)
  let waiting := s.flt.held
  let s := { s with evr := { s.evr with running := true, floorAt := (s.readN 0x3010FFF00 4 + 2 ^ 32 - 2048) % 2 ^ 32 }, flt := { s.flt with held := [] } }
  waiting.foldl State.fltTake s

/-- The freeze ends: the held records enter in order, and a flush follows if any has F = 1, or where 1,024 records are unflushed (R541, R547). -/
def State.evrUnfreeze (s : State) : State :=
  if s.flag F.EVR_STAT_FROZEN then
    let waiting := s.flt.queue
    let s := { s.put F.EVR_STAT_FROZEN 0 with flt := { s.flt with queue := [] } }
    let s := waiting.foldl State.evrEnter s
    (if waiting.any Report.isFault || decide (1024 ≤ s.get F.EVR_BCNT_BCNT) then s.evrFlush else s).fltJoin
  else s

end Sys2Proof.Machine
end

