-- ==== Sys2Proof/Machine/Queue.lean ====
section
/-! DEFINITION. The hardware queues (spec/01_harvest_architecture.md R37–R42). -/

namespace Sys2Proof.Machine

/-- N = 2^LOG2N entries (R38). -/
def State.queN (s : State) (q : Nat) : Nat := 2 ^ s.get (F.QUE_CFG_LOG2N q)

/-- The entry size in bytes (R42). -/
def State.queEsize (s : State) (q : Nat) : Nat := 32 * 2 ^ s.get (F.QUE_CFG_ESIZE q)

/-- How many entries the ring holds (R38). -/
def State.queDepth (s : State) (q : Nat) : Nat :=
  (s.get (F.QUE_PIDX_PIDX q) + 2 ^ 16 - s.get (F.QUE_CIDX_CIDX q)) % 2 ^ 16

/-- The address of the entry for index `i` (R38). -/
def State.queEntry (s : State) (q i : Nat) : Nat :=
  s.getAddr (R.QUE_BASE_LO q) (R.QUE_BASE_HI q) + i % s.queN q * s.queEsize q

/-- EMPTY and FULL brought up to date. -/
def State.queRefresh (s : State) (q : Nat) : State :=
  let n := s.queDepth q
  let full := n == s.queN q
  (s.putB (F.QUE_STAT_EMPTY q) (n == 0)).putB (F.QUE_STAT_FULL q) full

/-- The DRAM of range `k` of R22 (0 half A, 1 half B, 2 field) is powered and open (R20, R474). -/
def State.dramPowered (s : State) (k : Nat) : Bool :=
  match k with
  | 0 => s.halfOpen 0
  | 1 => s.halfOpen 1
  | 2 => !s.inBeanie
  | _ => false

/-- The `n` bytes from address `a` lie within one DRAM range that is powered (R39). -/
def State.inDram (s : State) (a n : Nat) : Bool :=
  (a / 2 ^ 32 == (a + n - 1) / 2 ^ 32) && decide (a / 2 ^ 32 ≤ 2) && s.dramPowered (a / 2 ^ 32)

/-- A record dropped (R39). -/
def State.queDrop (s : State) (q : Nat) (n : Nat := 1) : State := (s.countSat (F.QUE_STAT_DROP q) n).raise (F.QUE_STAT_OVF q)

/-- QUE's count of the records of queue `q` (R37). -/
def State.queSeqOf (s : State) (q : Nat) : Nat := sparseGet (fun _ => 0) s.queSeq q

/-- QUE's place code. -/
def quePlace : Nat := fieldBlock 7 0

/-- A hardware producer's record into queue `q` (R37–R39): written with its header and the doorbell rung, or dropped.
A record longer than the entry is dropped in the same way (R157). While QUE is in a block reset it takes no doorbell, and the record is lost (R511; log 96). -/
def State.quePush (s : State) (q kind : Nat) (payload : List Nat) : State :=
  if s.blockHeld quePlace then s else
  let p := s.get (F.QUE_PIDX_PIDX q)
  let a := s.queEntry q p
  if s.flag (F.QUE_CFG_EN q) && decide (s.queDepth q < s.queN q) && decide (payload.length * 4 + 8 ≤ s.queEsize q)
      && s.inDram a (s.queEsize q) then
    let seq := s.queSeqOf q
    let s := (s.writeWords a ((s.get (F.QUE_TAG_CUR q) + kind % 256 * 2 ^ 16 + payload.length * 2 ^ 24) :: seq :: payload)).dmaWrote a (4 * payload.length + 8)
    let s := { s with queSeq := sparsePut (fun _ => 0) s.queSeq q ((seq + 1) % 2 ^ 32) }
    ((s.put (F.QUE_PIDX_PIDX q) (p + 1)).queRefresh q).irq (16 + q % 32)
  else s.queDrop q

/-- The oldest entry of queue `q`: whether its tag is current, its payload words, and whether it is poisoned. -/
def State.queHead (s : State) (q : Nat) : Option (Bool × List Nat × Bool) :=
  if s.flag (F.QUE_CFG_EN q) && s.queDepth q != 0 then
    let a := s.queEntry q (s.get (F.QUE_CIDX_CIDX q))
    let h := s.readN a 4
    some (h % 2 ^ 16 == s.get (F.QUE_TAG_CUR q), s.readWords (a + 8) (h / 2 ^ 24), s.poisoned a (s.queEsize q))
  else none

/-- The oldest entry of queue `q` released by a hardware consumer; `stale`: it was discarded for its tag (R40). -/
def State.quePop (s : State) (q : Nat) (stale : Bool) : State :=
  let s := s.dmaRead (s.queEntry q (s.get (F.QUE_CIDX_CIDX q)))
  let s := if stale then s.countSat (F.QUE_STAT_STALE q) else s
  (s.count (F.QUE_CIDX_CIDX q)).queRefresh q

/-- A record into the queue that an enable bit and a queue field name. -/
def State.queRecord (s : State) (en : Fld) (queue : Fld) (kind : Nat) (payload : List Nat) : State :=
  if s.flag en then s.quePush (s.get queue) kind payload else s

/-- The tag of queue `q` advanced (R41). -/
def State.queTagAdvance (s : State) (q : Nat) : State := s.count (F.QUE_TAG_CUR q)

/-- A write of PIDX (R39). -/
def State.quePidxWrite (s : State) (q v : Nat) : State :=
  if (v % 2 ^ 16 + 2 ^ 16 - s.get (F.QUE_CIDX_CIDX q)) % 2 ^ 16 > s.queN q then s.raise (F.QUE_STAT_OVF q)
  else (s.put (F.QUE_PIDX_PIDX q) v).queRefresh q

/-- A write of CIDX with its DISC (R39, R40). -/
def State.queCidxWrite (s : State) (q v : Nat) : State :=
  if (v % 2 ^ 16 + 2 ^ 16 - s.get (F.QUE_CIDX_CIDX q)) % 2 ^ 16 > s.queDepth q then s.raise (F.QUE_STAT_OVF q)
  else ((s.put (F.QUE_CIDX_CIDX q) v).countSat (F.QUE_STAT_STALE q) (v / 2 ^ 16 % 2 ^ 16)).queRefresh q

/-- A write of QUE_STAT: OVF is W1C and CLR clears STALE and DROP (R42). -/
def State.queStatWrite (s : State) (q v : Nat) : State :=
  let s := if v / 2 ^ 28 % 2 = 1 then s.put (F.QUE_STAT_OVF q) 0 else s
  if v / 2 ^ 31 % 2 = 1 then (s.put (F.QUE_STAT_STALE q) 0).put (F.QUE_STAT_DROP q) 0 else s

/-- What follows a write of QUE_CFG: EN = 0 empties the ring (R42). -/
def State.queCfgWritten (s : State) (q : Nat) : State :=
  if s.flag (F.QUE_CFG_EN q) then s.queRefresh q
  else ((s.put (F.QUE_PIDX_PIDX q) 0).put (F.QUE_CIDX_CIDX q) 0).queRefresh q

end Sys2Proof.Machine
end

