-- ==== Sys2Proof/Machine/Access.lean ====
section
/-! DEFINITION. Register accesses: the access codes (spec/00_scope.md R12), refused values (R593), owner-only words (R594),
action bits (R595), and the statuses that an access is answered with (spec/13_lamip_ownership_ethernet.md R455). -/

namespace Sys2Proof.Machine

/-! Statuses (R455). -/

def stOk : Nat := 0
def stNotOwner : Nat := 1
def stBadPlace : Nat := 2
def stBadAddr : Nat := 3
def stBadLen : Nat := 4
def stBadType : Nat := 5
def stHeld : Nat := 6
def stLost : Nat := 7
def stBusy : Nat := 8
def stNotPowered : Nat := 9
def stError : Nat := 10
def stAbandoned : Nat := 11

/-- A state and the status that the access which led to it is answered with. -/
abbrev Acc2 := State × Nat

/-- An access that has its effect. -/
def okay (s : State) : Acc2 := (s, stOk)

/-- A write that the block refuses: the fabric answers OK (R593), and the word stands as it was, a poison mark with it. -/
def stKept : Nat := 0x100
def kept (s : State) : Acc2 := (s, stKept)

/-- The state with the answer to its last access recorded (log 10). -/
def Acc2.reply (r : Acc2) : State := { r.1 with reply := some (r.2, []) }

/-- The field of a table row, at register `a`. -/
def FieldDesc.at (d : FieldDesc) (a : Nat) : Fld := ⟨a, d.hi, d.lo⟩

/-- A word that holds an Own field or an owner's WO bit (R594). -/
def RegDesc.ownerOnly (d : RegDesc) : Bool := d.fields.any (fun f => f.acc == .own || f.acc == .woOwn)

/-- The value that word `w` gives field `f` is one that its table admits (R593). -/
def FieldDesc.admits (f : FieldDesc) (w : Nat) : Bool :=
  f.ok.isEmpty || f.ok.any (fun r => decide (r.1 ≤ fieldOf (f.at 0) w) && decide (fieldOf (f.at 0) w ≤ r.2))

/-- Every field that the write would change is given an admitted value. -/
def RegDesc.admits (d : RegDesc) (w : Nat) : Bool := d.fields.all (fun f => f.admits w)

/-- What a write of `v` leaves of `old` in one field, by its access code (R12). -/
def FieldDesc.write (f : FieldDesc) (old v : Nat) (w : Nat) : Nat :=
  match f.acc with
  | .own | .any => withField (f.at 0) w (fieldOf (f.at 0) v)
  | .w1c => withField (f.at 0) w (fieldOf (f.at 0) old - (fieldOf (f.at 0) old &&& fieldOf (f.at 0) v))
  | .w1s => withField (f.at 0) w (fieldOf (f.at 0) old ||| fieldOf (f.at 0) v)
  | .ro | .wo | .woOwn | .tly => w

/-- What a write of `v` leaves in a register that holds `old`. -/
def RegDesc.write (d : RegDesc) (old v : Nat) : Nat := d.fields.foldl (fun w f => f.write old v w) old

/-- What a write of `v` leaves in the register at `a` when it holds `old`. -/
def regWritten (a old v : Nat) : Nat :=
  match regDescAt a with
  | some (_, d) => d.write old v
  | none => old

/-- The index of an address in an array that begins at `base` with the given stride. -/
def indexIn (a base stride : Nat) : Nat := (a - base) / stride

/-- The half whose local window holds `a`. -/
def halfOf (a : Nat) : Nat := (a - 0x500000000) / 0x100000000

/-- The flag that a refused value sets (the table of R593, else the CFGERR flag of the block; none where it has none). -/
def cfgErrFlag (b : Blk) (a : Nat) : Option Fld :=
  match b with
  | .que | .fab | .pps | .mpl | .prj | .plm | .own | .lmp | .usb | .eth | .hmn | .rst | .pst | .evr | .flt | .tly => none
  | .hb => some F.HB_STAT_CFGERR
  | .csi => some (F.CSI_STAT_CFGERR (indexIn a 0x400100000 0x10000))
  | .vsc => some (F.VSC_CSTAT_CFGERR (indexIn a 0x400160100 0x80))
  | .hra => some F.HRA_STAT_CFGERR
  | .gpa => some F.GPA_STAT_CFGERR
  | .fqi => some F.FQI_STAT_CFGERR
  | .fex => some F.FEX_STAT_CFGERR
  | .fus => some F.FUS_STAT_CFGERR
  | .yt => some F.YT_STAT_CFGERR
  | .lpd => some (F.LPH_STAT_CFGERR (halfOf a))
  | .ce => if a % 0x10000 = 0x24 then some (F.LPH_STAT_CFGERR (halfOf a)) else some (F.CE_STAT_CFGERR (halfOf a))
  | .lan => some (F.CE_STAT_CFGERR (halfOf a))
  | .fng => if a < R.FNG_CFG 0 then none else some (F.FNG_STAT_CFGERR (indexIn a (R.FNG_CFG 0) 0x40))
  | .lds => if a < R.LDS_CFG 0 then none else some (F.LDS_STAT_CFGERR (indexIn a (R.LDS_CFG 0) 0x20))
  | .brm =>
    if a < R.BRM_CFG 0 then none
    else if a < R.BRM_FDZ 0 then some (F.BRM_STAT_CFGERR (indexIn a (R.BRM_CFG 0) 0x40))
    else some (F.BRM_STAT_CFGERR (indexIn a (R.BRM_FDZ 0) 0x10 / 16))
  | .snp => if a < R.SNP_CFG 0 then none else some (F.SNP_STAT_CFGERR (indexIn a (R.SNP_CFG 0) 0x20))
  | .gnb => some F.GNB_STAT_CFGERR
  | .imu => some F.IMU_STAT_CFGERR
  | .can => some (F.CAN_STAT_CFGERR (indexIn a 0x400600000 0x10000))
  | .obj | .obe => some F.OBJ_STAT_CFGERR
  | .msg => some F.MSG_STAT_CFGERR
  | .role => some F.ROLE_STAT_CFGERR
  | .mit => some F.MIT_STAT_CFGERR
  | .upd => some F.UPD_STAT_CFGERR

/-- A flag that may be absent, set. -/
def State.raiseOpt (s : State) : Option Fld → State
  | some f => s.raise f
  | none => s

/-- The write refused for its value: no field changes, the flag is set, the access completes with OK (R593). -/
def State.refuseValue (s : State) (b : Blk) (a : Nat) : Acc2 := kept (s.raiseOpt (cfgErrFlag b a))

/-- Master `m` may write a word of description `d` (R594). -/
def State.mayWrite (s : State) (m : Master) (d : RegDesc) : Bool := !d.ownerOnly || s.isOwner m

/-- A write by the access codes, after the checks of R593 and R594, and then what `next` gives the state it leaves; `guard` refuses what the
register's chapter refuses. A refused write has no further effect. -/
def State.writeThen (s : State) (m : Master) (a : Nat) (v : Nat) (next : State → State) (guard : Bool := true) : Acc2 :=
  match regDescAt a with
  | none => okay s
  | some (b, d) =>
    if !s.mayWrite m d then (s, stNotOwner)
    else if !(d.admits v && guard) then s.refuseValue b a
    else okay (next (s.setWord a (d.write (s.word a) v)))

/-- A write by the access codes alone. -/
def State.plainWrite (s : State) (m : Master) (a : Nat) (v : Nat) (guard : Bool := true) : Acc2 := s.writeThen m a v id guard

/-- The number of action bits that a write sets (R595). -/
def actionCount (bits : List Nat) (v : Nat) : Nat := (bits.map (fun b => v / 2 ^ b % 2)).sum

/-- Bit `b` of a written word. -/
def wbit (v b : Nat) : Bool := v / 2 ^ b % 2 == 1

/-! The lane I/O ports (R29). -/

/-- A range of ports (R29): first port, count, SETP is admitted. -/
def portTable : List (Nat × Nat × Bool) :=
  [(0x0000, 32, true), (0x0040, 32, false), (0x0100, 8, true), (0x0200, 16, true), (0x0240, 8, false), (0x0400, 8, false), (0x0480, 8, false),
   (0x0500, 32, false), (0x0600, 24, false), (0x0800, 32, false), (0x0A00, 512, true), (0x0C00, 64, false), (0x0E00, 64, true)]

/-- SAMP may name the port. -/
def sampPort (p : Nat) : Bool := portTable.any (fun r => decide (r.1 ≤ p) && decide (p < r.1 + r.2.1))

/-- SETP may name the port. -/
def setpPort (p : Nat) : Bool := portTable.any (fun r => decide (r.1 ≤ p) && decide (p < r.1 + r.2.1) && r.2.2)

/-- The ports that SAMP may name. -/
def sampPorts : List Nat := portTable.flatMap (fun r => (List.range r.2.1).map (r.1 + ·))

end Sys2Proof.Machine
end

