-- ==== Sys2Proof/Machine/Crc.lean ====
section
/-! DEFINITION. CRC-32C (Castagnoli), used by Lamip frames (spec/13_lamip_ownership_ethernet.md R453), weight sets
(spec/05_feature_fusion_engine.md R167) and images (spec/17_update_tally_fuses.md). Also byte strings as numbers, and the rounding helpers of the spec. -/

namespace Sys2Proof.Machine

/-- One bit of the reflected CRC-32C division. -/
def crcBit (c : BitVec 32) : BitVec 32 := if c &&& 1 = 1 then (c >>> 1) ^^^ 0x82F63B78 else c >>> 1

/-- One byte into the CRC. -/
def crcByte (c : BitVec 32) (b : Byte) : BitVec 32 :=
  crcBit (crcBit (crcBit (crcBit (crcBit (crcBit (crcBit (crcBit (c ^^^ b.setWidth 32))))))))

/-- CRC-32C of a byte string. -/
def crc32c (bs : List Byte) : BitVec 32 := ~~~ (bs.foldl crcByte 0xFFFFFFFF)

/-- round_nearest(a / b) = floor(a / b + 1/2) (R222, R596). -/
def rdiv (a : Int) (b : Nat) : Int := (2 * a + b) / (2 * b)

/-- `x` saturated to a signed number of `w` bits. -/
def satS (w : Nat) (x : Int) : Int := clampInt (-(2 ^ (w - 1) : Nat)) ((2 ^ (w - 1) : Nat) - 1) x

/-- `x` saturated to an unsigned number of `w` bits. -/
def satU (w : Nat) (x : Int) : Int := clampInt 0 ((2 ^ w : Nat) - 1) x

/-- The little-endian number that a byte string holds. -/
def leNat : List Byte → Nat
  | [] => 0
  | b :: r => b.toNat + 256 * leNat r

/-- `n` bytes of `v`, little-endian. -/
def leBytes : Nat → Nat → List Byte
  | 0, _ => []
  | n + 1, v => BitVec.ofNat 8 v :: leBytes n (v / 256)

/-- The big-endian number that a byte string holds. -/
def beNat (bs : List Byte) : Nat := bs.foldl (fun x y => x * 256 + y.toNat) 0

/-- The big-endian number held by `n` bytes from offset `o` of a byte string. -/
def beAt (b : List Byte) (o n : Nat) : Nat := beNat ((b.drop o).take n)

/-- `n` bytes of `v`, big-endian. -/
def beBytes (n v : Nat) : List Byte := (leBytes n v).reverse

/-- The number held by `n` bytes from offset `o` of a byte string. -/
def leAt (bs : List Byte) (o n : Nat) : Nat := leNat ((bs.drop o).take n)

end Sys2Proof.Machine
end

