-- ==== Sys2Proof/Machine/FeatureNet.lean ====
section
/-! DEFINITION. Weight sets and the arithmetic of feature programs (spec/05_feature_fusion_engine.md R167–R171). -/

namespace Sys2Proof.Machine

/-- A layer record (R168). -/
structure Layer where
  op : Nat
  flags : Nat
  clip : Int
  ina : Nat
  inb : Nat
  out : Nat
  hin : Nat
  win : Nat
  cin : Nat
  cout : Nat
  woff : Nat
  boff : Nat
  qoff : Nat
  deriving DecidableEq, Repr

/-- A program header (R168). -/
structure ProgHdr where
  nlayer : Nat
  inkind : Nat
  inch : Nat
  inw : Nat
  inh : Nat
  arena : Nat
  outl : Nat
  outkind : Nat
  outsh : Nat
  outmul : Int
  deriving DecidableEq, Repr

namespace Layer
def prec16 (l : Layer) : Bool := l.flags % 2 == 1
def stride (l : Layer) : Nat := if l.flags / 2 % 2 = 1 then 2 else 1
def pad (l : Layer) : Nat := l.flags / 4 % 2
def act (l : Layer) : Nat := l.flags / 16 % 4
def raw32 (l : Layer) : Bool := l.flags / 64 % 2 == 1
/-- Bytes of one element of the layer's tensors. -/
def esize (l : Layer) : Nat := if l.prec16 then 2 else 1
/-- Bytes of one output element. -/
def osize (l : Layer) : Nat := if l.raw32 then 4 else l.esize
/-- Output height for input height `h`, and width alike (R170). -/
def outDim (l : Layer) (h : Nat) : Nat :=
  match l.op with
  | 1 => (h + l.stride - 1) / l.stride
  | 2 | 3 => if l.pad = 1 then (h + l.stride - 1) / l.stride else if h < 3 then 0 else (h - 3) / l.stride + 1
  | 4 | 5 => h / 2
  | 6 | 7 => 1
  | _ => h
/-- Output channels. -/
def outCh (l : Layer) : Nat := if l.op = 1 ∨ l.op = 2 then l.cout else l.cin
/-- Elements of the output. -/
def outLen (l : Layer) : Nat := l.outDim l.hin * l.outDim l.win * l.outCh
end Layer

/-- The header of the program at address `a`. -/
def State.progHdr (s : State) (a : Nat) : ProgHdr :=
  { nlayer := s.readN a 2, inkind := s.readN (a + 2) 1, inch := s.readN (a + 3) 1, inw := s.readN (a + 4) 2, inh := s.readN (a + 6) 2,
    arena := s.readN (a + 8) 4, outl := s.readN (a + 12) 2, outkind := s.readN (a + 14) 1, outsh := s.readN (a + 15) 1,
    outmul := signedOf 32 (s.readN (a + 16) 4) }

/-- The layer record at address `a`. -/
def State.layerAt (s : State) (a : Nat) : Layer :=
  { op := s.readN a 1, flags := s.readN (a + 1) 1, clip := signedOf 16 (s.readN (a + 2) 2), ina := s.readN (a + 4) 4,
    inb := s.readN (a + 8) 4, out := s.readN (a + 12) 4, hin := s.readN (a + 16) 2, win := s.readN (a + 18) 2,
    cin := s.readN (a + 20) 2, cout := s.readN (a + 22) 2, woff := s.readN (a + 24) 4, boff := s.readN (a + 28) 4, qoff := s.readN (a + 32) 4 }

/-- The layers of the program at address `a`. -/
def State.layers (s : State) (a : Nat) : List Layer :=
  (List.range (s.progHdr a).nlayer).map (fun i => s.layerAt (a + 64 + 64 * i))

/-! The arena: what the layers have written so far, latest first. -/

/-- A byte of the arena. -/
def arenaByte : List (Nat × List Byte) → Nat → Byte
  | [], i => BitVec.ofNat 8 (Config.arenaByte i)
  | (o, bs) :: r, i => if o ≤ i ∧ i < o + bs.length then bs.getD (i - o) 0 else arenaByte r i

/-- The signed element of `n` bytes at arena offset `i`. -/
def arenaElem (ar : List (Nat × List Byte)) (n i : Nat) : Int :=
  signedOf (8 * n) (leNat ((List.range n).map (fun k => arenaByte ar (i + k))))

/-- The activation of R170. -/
def activate (l : Layer) (x : Int) : Int :=
  match l.act with
  | 1 => max 0 x
  | 2 => min l.clip (max 0 x)
  | _ => x

/-- One output element of a layer at row `y`, column `x`, channel `c` (R170); `a` and `b` give the elements of the inputs. -/
def State.layerOut (s : State) (set : Nat) (l : Layer) (a b : Nat → Nat → Nat → Int) (y x c : Nat) : Int :=
  let bits := if l.prec16 then 16 else 8
  let weight (i : Nat) : Int := signedOf bits (s.readN (set + l.woff + i * l.esize) l.esize)
  let inp (yy xx : Int) (ci : Nat) : Int :=
    if yy < 0 ∨ xx < 0 ∨ (l.hin : Int) ≤ yy ∨ (l.win : Int) ≤ xx then 0 else a yy.toNat xx.toNat ci
  let conv (k : Nat) (depth : Bool) : Int :=
    let p := if l.pad = 1 ∧ k = 3 then 1 else 0
    let taps := (List.range (k * k)).flatMap (fun t => (if depth then [c] else List.range l.cin).map (fun ci => (t, ci)))
    let acc := taps.foldl (fun (acc : Int) tc =>
      let yy : Int := ((y * l.stride + tc.1 / k : Nat) : Int) - (p : Nat)
      let xx : Int := ((x * l.stride + tc.1 % k : Nat) : Int) - (p : Nat)
      let w := if depth then weight (c * (k * k) + tc.1) else weight ((c * (k * k) + tc.1) * l.cin + tc.2)
      satS (if l.prec16 then 48 else 32) (acc + w * inp yy xx tc.2)) (signedOf 32 (s.readN (set + l.boff + 4 * c) 4))
    if l.raw32 then satS 32 acc
    else satS bits (rdiv (acc * s.readN (set + l.qoff + 4 * c) 2) (2 ^ s.readN (set + l.qoff + 4 * c + 2) 1))
  let four := [a (2 * y) (2 * x) c, a (2 * y) (2 * x + 1) c, a (2 * y + 1) (2 * x) c, a (2 * y + 1) (2 * x + 1) c]
  let all := (List.range l.hin).flatMap (fun yy => (List.range l.win).map (fun xx => a yy xx c))
  activate l
    (match l.op with
     | 1 => conv 1 false
     | 2 => conv 3 false
     | 3 => conv 3 true
     | 4 => four.foldl max (four.headD 0)
     | 5 => rdiv four.sum 4
     | 6 => rdiv all.sum (l.hin * l.win)
     | 7 => satS bits all.sum
     | 8 => satS bits (a y x c + b y x c)
     | _ => a y x c)

/-- The elements of a layer's output, height, width, channel. -/
def State.layerRun (s : State) (set : Nat) (l : Layer) (a b : Nat → Nat → Nat → Int) : List Int :=
  (List.range (l.outDim l.hin)).flatMap (fun y => (List.range (l.outDim l.win)).flatMap (fun x =>
    (List.range l.outCh).map (fun c => s.layerOut set l a b y x c)))

/-- The arena after a program's layers, in order, on the program input `inp`. -/
def State.progRun (s : State) (set : Nat) (inp : Nat → Nat → Nat → Int) (ls : List Layer) : List (Nat × List Byte) :=
  ls.foldl (fun ar l =>
    let src (o : Nat) : Nat → Nat → Nat → Int :=
      if o = 0xFFFFFFFF then inp else fun y x c => arenaElem ar l.esize (o + ((y * l.win + x) * l.cin + c) * l.esize)
    let out := s.layerRun set l (src l.ina) (src l.inb)
    (l.out, out.flatMap (fun v => leBytes l.osize (bitsOf (8 * l.osize) v))) :: ar) []

/-- The output of the program at address `a` of the set at `set`, as signed elements (R168: the output of layer OUTL). -/
def State.progOutput (s : State) (set a : Nat) (inp : Nat → Nat → Nat → Int) : List Int :=
  let ls := s.layers a
  let ar := s.progRun set inp (ls.take ((s.progHdr a).outl + 1))
  match ls[(s.progHdr a).outl]? with
  | none => []
  | some l => (List.range l.outLen).map (fun i => arenaElem ar l.osize (l.out + i * l.osize))

/-- A byte that the program at address `a` of the set at `set` reads is poisoned: its header and layers, and the weights, biases and requantisation tables of
the layers that run. -/
def State.progPoisoned (s : State) (set a : Nat) : Bool :=
  let hd := s.progHdr a
  s.poisoned a (64 + 64 * hd.nlayer)
    || ((s.layers a).take (hd.outl + 1)).any (fun l =>
      (l.op == 1 || l.op == 2 || l.op == 3)
        && (s.poisoned (set + l.woff) ((if l.op = 3 then l.cin * 9 else l.cout * (if l.op = 1 then 1 else 9) * l.cin) * l.esize)
          || s.poisoned (set + l.boff) (4 * l.outCh) || s.poisoned (set + l.qoff) (4 * l.outCh)))

/-! Checks at the load of a set (R171). -/

/-- The input of size `h` × `w` × `c` at arena offset `o` is the program input, or what an earlier layer leaves there. -/
def chained (hd : ProgHdr) (before : List Layer) (o h w c esize : Nat) : Bool :=
  if o = 0xFFFFFFFF then h == hd.inh && w == hd.inw && c == hd.inch
  else
    match before.reverse.find? (fun l => l.out == o) with
    | none => false
    | some l => l.outDim l.hin == h && l.outDim l.win == w && l.outCh == c && l.osize == esize

/-- The codes, bounds and chaining of one layer (R171). -/
def State.layerOk (s : State) (set total : Nat) (hd : ProgHdr) (before : List Layer) (isOut : Bool) (l : Layer) : Bool :=
  let used := l.op == 1 || l.op == 2 || l.op == 3
  let kk := if l.op = 1 then 1 else 9
  let wlen := (if l.op = 3 then l.cin * 9 else l.cout * kk * l.cin) * l.esize
  decide (1 ≤ l.op) && decide (l.op ≤ 9) && l.act != 3 && decide (l.flags < 128)
    && (!l.raw32 || (isOut && hd.outkind == 1 && used))
    && (l.op != 3 || l.cout == l.cin)
    && chained hd before l.ina l.hin l.win l.cin l.esize
    && (l.op != 8 || chained hd before l.inb l.hin l.win l.cin l.esize)
    && decide (l.out + l.outLen * l.osize ≤ hd.arena)
    && (!used || (decide (l.woff + wlen ≤ total) && decide (l.boff + 4 * l.outCh ≤ total) && decide (l.qoff + 4 * l.outCh ≤ total)
        && (List.range l.outCh).all (fun c => decide (s.readN (set + l.qoff + 4 * c + 2) 1 ≤ 47))))

/-- Program `p` of the set at `set` passes the checks of R171. -/
def State.progOk (s : State) (set p : Nat) : Bool :=
  let total := s.readN (set + 16) 4
  let off := s.readN (set + 128 + 8 * p) 4
  let len := s.readN (set + 132 + 8 * p) 4
  let hd := s.progHdr (set + off)
  let ls := s.layers (set + off)
  let chans := [1, 3, 4, 2]
  len != 0 && off % 64 == 0 && decide (off + len ≤ total) && decide (1 ≤ hd.nlayer) && decide (hd.nlayer ≤ 255)
    && decide (64 + 64 * hd.nlayer ≤ len) && decide (hd.inkind ≤ 4) && decide (hd.outkind ≤ 1) && decide (hd.outsh ≤ 63)
    && (hd.inkind == 4 || hd.inch == chans.getD hd.inkind 0) && decide (hd.outl < hd.nlayer)
    && decide (hd.arena ≤ s.get F.FEX_CFG_ARENA * 262144)
    && (List.range hd.nlayer).all (fun i =>
        match ls[i]? with
        | none => false
        | some l => s.layerOk set total hd (ls.take i) (i == hd.outl) l)
    && (hd.outkind == 0 || (match ls[hd.outl]? with | none => false | some l => l.raw32 && l.outLen == 1))

/-- The words of a set's header, of which `w` gives the one at an offset, pass the check of magic and format (R167, R171). -/
def setHeadOk (w : Nat → Nat) : Bool := w 0 == 0x4B575331 && w 4 == 1 && decide (1 ≤ w 12) && decide (w 12 ≤ 64) && decide (640 ≤ w 16)

/-- The header of a set passes its magic, format and CRC check (R167, R171). -/
def State.setOk (s : State) (set : Nat) : Bool :=
  let w (o : Nat) : Nat := s.readN (set + o) 4
  setHeadOk w && (crc32c (s.readBytes (set + 128) (w 16 - 128))).toNat == w 20

/-- The same check of a set that is not in memory. -/
def setBytesOk (b : List Byte) : Bool :=
  let w (o : Nat) : Nat := leAt b o 4
  setHeadOk w && decide (w 16 ≤ b.length) && (crc32c ((b.drop 128).take (w 16 - 128))).toNat == w 20

/-- The address of program `p` of the set at `set`. -/
def State.progAddr (s : State) (set p : Nat) : Nat := set + s.readN (set + 128 + 8 * p) 4

end Sys2Proof.Machine
end

