-- ==== Sys2Proof/Machine/Samples.lean ====
section
/-! DEFINITION. What an input block keeps of a strike that gives it no sample (spec/04_cropflow_analog_inputs.md R122, R136, R139, R142, R157, R160):
the counts of HRA and GPA, the strikes that an impact bin misses, and the sample record that ends there. -/

namespace Sys2Proof.Machine

/-- HRA and GPA (R7). -/
def hraBlock : Nat := fieldBlock 3 0
def gpaBlock : Nat := fieldBlock 3 1
def fqiBlock : Nat := fieldBlock 3 2

/-- The state with the blocks' own part at `x`. -/
def State.withInp (s : State) (x : Inputs) : State := { s with inp := x }

/-- HRIN channel `n`. -/
def State.hrin (s : State) (n : Nat) : Hrin := s.inp.hrin.getD n {}

/-- HRIN channel `n` set. -/
def State.setHrin (s : State) (n : Nat) (x : Hrin) : State := s.withInp { s.inp with hrin := s.inp.hrin.set n x }

/-- The open sample record of channel `n` is written (R139). -/
def State.closeSamples (s : State) (n : Nat) : State :=
  let x := s.hrin n
  if x.samples.isEmpty then s
  else
    let k := x.samples.length
    let s := s.queRecord (F.HRA_Q_SQEN n) (F.HRA_Q_SQUEUE n) 0x21
      ([n + x.recFlags * 2 ^ 8 + k * 2 ^ 16, x.recSeq, x.recTime % 2 ^ 32, x.recTime / 2 ^ 32]
        ++ x.samples.map (bitsOf 32) ++ List.replicate (16 - k) 0)
    s.setHrin n { s.hrin n with samples := [] }

/-- Some of the `e.2.1` strikes omitted from module time `e.1` on, `e.2.2` ns apart, lies in [lo, hi). -/
def omitIn (lo hi : Nat) (e : Nat × Nat × Nat) : Bool :=
  let i := if lo ≤ e.1 then 0 else (lo - e.1 + e.2.2 - 1) / e.2.2
  decide (i < e.2.1) && decide (e.1 + i * e.2.2 < hi)

/-- The next strike of channel `n`'s line after module time `stamp` was omitted: a record whose last sample is of `stamp` ends with it (R139). -/
def State.recordEnds (s : State) (n stamp : Nat) : Bool :=
  let issued := ((s.hb.lines.getD (s.get (F.HRA_CFG_TLINE n)) {}).strikes.filter (fun e => decide (stamp < e.2))).getLast?
  let hi := match issued with
    | some e => e.2
    | none => s.now + 1
  (s.hrin n).omits.any (omitIn (stamp + 1) hi)

/-- `k` strikes of channel `n`'s line omitted, the first at module time `t`, `per` ns apart (R122, R157). The module keeps them until the bin and the record
that they concern are closed. -/
def State.hraOmit (s : State) (n k t per : Nat) : State :=
  let s := ((s.countSat (F.HRA_XCNT_OMIT n) k).raise (F.HRA_CSTAT_OMIT n)).raise F.HRA_STAT_OMIT
  let x := s.hrin n
  let s := s.setHrin n { x with omits := (x.omits ++ [(t, k, max 1 per)]).drop (x.omits.length - 255) }
  match x.after with
  | some a => if s.recordEnds n a then s.closeSamples n else s
  | none => s

/-- Channel `c` samples at line `n`: HRA_STAT:CFGERR while the line's PERIOD is outside the range of R124. -/
def State.hraPeriod (s : State) (n c : Nat) : State :=
  let per := s.word (R.HB_LPER_LO n) + s.get (F.HB_LPER_HI_PER n) * 2 ^ 32
  s.raiseIf (s.flag (F.HRA_CFG_EN c) && s.get (F.HRA_CFG_TLINE c) == n && (decide (per < 3907) || decide (125000 < per))) F.HRA_STAT_CFGERR

/-- A commit has changed line `n`: the channels that sample at it. -/
def State.hraPeriods (s : State) (n : Nat) : State := (List.range 8).foldl (fun s c => s.hraPeriod n c) s

/-- Every channel against the line that it samples at: CFGERR stands while a PERIOD is out of range (R124). -/
def State.hraCheck (s : State) : State := (List.range 8).foldl (fun s c => s.hraPeriod (s.get (F.HRA_CFG_TLINE c)) c) s

/-- `k` strikes omitted by list or pair `l` (R142, R146). -/
def State.gpaOmit (s : State) (l : Nat) (k : Nat := 1) : State := (s.countSat (F.GPA_LOMIT_OMIT l) k).raise F.GPA_STAT_OMIT

/-- `k` strikes of line `n` give no sample in the blocks that `hra` and `gpa` name. -/
def State.inputsOmit (s : State) (n k t per : Nat) (hra gpa : Bool) : State :=
  let s := (List.range 8).foldl (fun s c =>
    if hra && s.flag (F.HRA_CFG_EN c) && s.get (F.HRA_CFG_TLINE c) == n then s.hraOmit c k t per else s) s
  (List.range 4).foldl (fun s l =>
    let s := if gpa && s.flag (F.GPA_LCFG_EN l) && s.get (F.GPA_LCFG_TLINE l) == n then s.gpaOmit l k else s
    if gpa && s.flag (F.GPA_CAPCFG_EN l) && s.get (F.GPA_CAPCFG_TLINE l) == n then s.gpaOmit l k else s) s

/-- Line `n` strikes at `t` while HRA or GPA is down for a restart: no sample (R160). In Beanie the strike is not delivered and not counted
(spec/02_hatband_timebase.md R85). -/
def State.strikeMissed (s : State) (n t : Nat) : State :=
  let hra := s.restarting hraBlock
  let gpa := s.restarting gpaBlock
  if s.inBeanie || !(hra || gpa) then s
  else
    let s := s.inputsOmit n 1 t 1 hra gpa
    s.withInp { s.inp with
      hrin := s.inp.hrin.mapIdx (fun c x => if hra && s.get (F.HRA_CFG_TLINE c) == n then { x with after := some t } else x) }

end Sys2Proof.Machine
end

