-- ==== Sys2Proof/Machine/Frequency.lean ====
section
/-! DEFINITION. Frequency inputs, FQI (spec/04_cropflow_analog_inputs.md R150–R156, R158–R160, R164). -/

namespace Sys2Proof.Machine

/-- Frequency input `i`. -/
def State.fin (s : State) (i : Nat) : FinSt := s.fins.getD i {}

/-- Frequency input `i` set. -/
def State.setFin (s : State) (i : Nat) (x : FinSt) : State := { s with fins := s.fins.set i x }

/-- Bit `i` of FQI_STALE, and of FQI_OVR. -/
def staleBit (i : Nat) : Fld := ⟨R.FQI_STALE, i, i⟩
def overBit (i : Nat) : Fld := ⟨R.FQI_OVR, i, i⟩

/-- FQI_FREQ at its ceiling, 100,000 Hz. -/
def freqMax : Nat := 0x061A8000

/-- The span t[k] − t[k − m] and m of R153. -/
def State.finSpan (s : State) (i : Nat) : Nat × Nat :=
  let h := (s.fin i).stamps
  let m := min (s.get (F.FQI_CFG_FAVG i)) (h.length - 1)
  (h.getD 0 0 - h.getD m 0, m)

/-- FQI_FREQ{i} at module time now (R153). -/
def State.finFreq (s : State) (i : Nat) : Nat :=
  if s.flag (staleBit i) then 0
  else if s.flag (overBit i) then freqMax
  else
    let d := s.finSpan i
    let age := s.now - (s.fin i).stamps.getD 0 0
    let f1 := (rdiv (d.2 * 1024 * 10 ^ 9 : Nat) d.1).toNat
    let f2 := if age = 0 then freqMax else (rdiv (1024 * 10 ^ 9 : Nat) age).toNat
    min (min f1 f2) freqMax

/-- FQI_PER{i} (R153). -/
def State.finPer (s : State) (i : Nat) : Nat :=
  if s.flag (staleBit i) then 0
  else
    let d := s.finSpan i
    min (d.1 / d.2) (2 ^ 32 - 1)

/-- The level behind the glitch filter of input `i`, followed also while the input takes no edges (R150). -/
def State.finLevel (s : State) (i : Nat) (rising : Bool) : State := s.setFin i { s.fin i with level := some rising }

/-- A change that passes the glitch filter of input `i` (R150, R152): the state after it and whether it is an edge. A digital input changes level; in
variable-reluctance mode the negative-going crossing counts when the positive half-cycle before it, of `peak` mV, has armed it, and one of less than the
hysteresis is none. -/
def State.finAccept (s : State) (i : Nat) (rising : Bool) (peak : Nat) : State × Bool :=
  let x := s.fin i
  if s.flag (F.FQI_CFG_VR i) then
    if rising || decide (peak < 20) then (s.finLevel i rising, false)
    else
      (s.setFin i { x with vrPeak := peak, level := some rising },
        decide (max (s.get (F.FQI_VR_VRMIN i) * 2 * 4) ((s.get (F.FQI_VR_VRFRAC i) + 1) * x.vrPeak) < peak * 4))
  else
    let edge := s.get (F.FQI_CFG_EDGE i)
    (s.finLevel i rising, x.level != some rising && (if edge = 0 then rising else if edge = 1 then !rising else true))

/-- A qualified edge on input `i` at `stamp` (R151, R153, R155, R156). -/
def State.finQualified (s : State) (i : Nat) (rising : Bool) (stamp : Nat) : State :=
  let x := s.fin i
  let excess := match x.last with
    | some p => decide (stamp < p + 10000)
    | none => false
  if excess then
    (((s.countSat (F.FQI_OCNT_COUNT i)).raise (overBit i)).raise F.FQI_STAT_OVRS).setFin i { x with excessAt := s.now }
  else
    let s := s.setFin i { x with stamps := (stamp :: x.stamps).take 64, last := some stamp }
    let s := (s.put64 (R.FQI_TLO i) (R.FQI_THI i) stamp).count (F.FQI_ECNT_COUNT i)
    let s := if x.stamps.isEmpty then s else s.put (staleBit i) 0
    s.queRecord (F.FQI_CFG_EQEN i) (F.FQI_CFG_EQUEUE i) 0x30
      [i + bit (!rising) * 2 ^ 8 + bit (s.flag (F.FQI_CFG_VR i)) * 2 ^ 9, stamp % 2 ^ 32, stamp / 2 ^ 32]

/-- A change on input `i` that has been stable for some time (R150–R152): shorter than GF × 0.1 µs it is ignored, else stamped with the start of the
stable interval. -/
def State.finEdge (s : State) (i : Nat) (e : FinChange) : State :=
  if e.stable < s.get (F.FQI_CFG_GF i) * 100 then s
  else if !(s.flag (F.FQI_CFG_EN i) && s.awake fqiBlock) then s.finLevel i e.rising
  else
    let r := s.finAccept i e.rising e.peak
    if r.2 then r.1.finQualified i e.rising (s.now - e.stable) else r.1

def execFinEdge (t : Nat) (n : Fin 24) (change : FinChange) (s : State) : Host.Outcome State Fault Refusal :=
  done ((s.atTime t).finEdge n change)

/-- No edge within FQI_STALL (R154); a lone edge, of an input that is stale already, is discarded after that time too, without a new STALES (log 94). -/
def State.finStall (s : State) (i : Nat) : State :=
  let x := s.fin i
  match x.stamps with
  | [] => s
  | t0 :: _ =>
    if t0 + s.get (F.FQI_STALL_STALL i) * 1000 < s.now ∧ s.awake fqiBlock then
      let s := if s.flag (staleBit i) then s else (s.raise (staleBit i)).raise F.FQI_STAT_STALES
      s.setFin i { x with stamps := [] }
    else s

def execFinStall (t : Nat) (n : Fin 24) (s : State) : Host.Outcome State Fault Refusal := done ((s.atTime t).finStall n)

/-- 1 ms without an excess edge (R155). -/
def execFinOvrClear (t : Nat) (n : Fin 24) (s : State) : Host.Outcome State Fault Refusal :=
  let s := s.atTime t
  done (if (s.fin n).excessAt + 1000000 ≤ s.now ∧ s.awake fqiBlock then s.put (overBit n) 0 else s)

/-- A write of FQI_CFG{i}: VR = 1 on FIN8–FIN23, or with EDGE other than 0b00, is refused (R152). -/
def State.wFqiCfg (s : State) (m : Master) (i v : Nat) : Acc2 :=
  s.plainWrite m (R.FQI_CFG i) v (guard := !wbit v 11 || (decide (i < 8) && v / 2 % 4 == 0))

/-- Writing 1 clears every FQI_OCNT. -/
def State.wFqiClr (s : State) (v : Nat) : Acc2 :=
  okay (if wbit v 0 then (List.range 24).foldl (fun s i => s.setWord (R.FQI_OCNT i) 0) s else s)

/-- The registers of an address range at their reset values, and no poison mark on a word of theirs. -/
def State.clearRegs (s : State) (lo hi : Nat) : State :=
  { s with regs := s.regs.filter (fun e => decide (e.1 < lo) || decide (hi ≤ e.1))
           poison := s.poison.filter (fun p => decide (p < lo) || decide (hi ≤ p) || (regDescAt (p / 4 * 4)).isNone) }

/-- A block reset of FQI (R158). -/
def State.fqiReset (s : State) : State :=
  let s := { s with fins := List.replicate 24 {} }
  s.clearRegs R.FQI_STALE (R.FQI_STALE + 0x1000)

/-- A restart of FQI (R160): the edge history is discarded. -/
def State.fqiRestart (s : State) : State :=
  let stale := (List.range 24).any (fun i => !s.flag (staleBit i))
  let s : State := { s.setWord R.FQI_STALE 0xFFFFFF with fins := s.fins.map (fun x => { x with stamps := [] }) }
  s.raiseIf stale F.FQI_STAT_STALES

end Sys2Proof.Machine
end

