-- ==== Sys2Proof/Machine/Scan.lean ====
section
/-! DEFINITION. The boundary register: its cells, and what they drive (spec/18_package_electrical.md R590, R591). -/

namespace Sys2Proof.Machine

/-- The balls of the boundary register (R591). -/
inductive Ball
  | gpio (n : Nat)
  | trg (n : Nat)
  | ppsOut
  | imuSck
  | imuSdo
  | imuSdi
  | imuCsN
  | gfeSck
  | gfeSda
  | gfeSen
  | isel (n : Nat)
  | pwrfailN
  | resetN
  | faultN
  | canWake
  | ign
  | safeN
  deriving DecidableEq, Repr

/-- What a cell stands for. -/
inductive CellKind
  | input
  | output
  | enable
  | driveLow
  deriving DecidableEq, Repr

/-- The cells of a ball, from DBG_TDI: those of a bidirectional, an output, an open-drain and an input ball (R591). -/
def Ball.cells : Ball → List CellKind
  | .gpio _ | .trg _ | .gfeSda => [.input, .output, .enable]
  | .ppsOut | .imuSck | .imuSdo | .imuCsN | .gfeSck | .gfeSen => [.output, .enable]
  | .resetN | .faultN | .canWake => [.input, .driveLow]
  | .imuSdi | .isel _ | .pwrfailN | .ign | .safeN => [.input]

/-- The balls in the order of R591. -/
def scanBalls : List Ball :=
  (List.range 12).map .gpio ++ (List.range 8).map .trg ++ [.ppsOut, .imuSck, .imuSdo, .imuSdi, .imuCsN, .gfeSck, .gfeSda, .gfeSen]
    ++ (List.range 3).map .isel ++ [.pwrfailN, .resetN, .faultN, .canWake, .ign, .safeN]

/-- The 88 cells from DBG_TDI to DBG_TDO: cell i is bit i of the register. -/
def scanCells : List (Ball × CellKind) := scanBalls.flatMap (fun b => b.cells.map (fun k => (b, k)))

/-- What the update stage holds for a cell. -/
def TapSt.cell (x : TapSt) (b : Ball) (k : CellKind) : Bool := x.cells.getLsbD ((scanCells.findIdx? (fun c => c == (b, k))).getD 88)

/-- The boundary cells drive their balls. -/
def TapSt.driven (x : TapSt) : Bool := x.dbgEn && (x.ir == 0x00 || x.ir == 0x04)

/-- The scanned balls float. -/
def TapSt.floats (x : TapSt) : Bool := x.dbgEn && x.ir == 0x03

/-- What the port makes of a ball: nothing, so that the ball's function has it; or the level driven, none where it floats. An enable cell of 1 drives the
ball (log 85). -/
def TapSt.drives (x : TapSt) (b : Ball) : Option (Option Bool) :=
  if b.cells = [.input] then none
  else if x.floats then some none
  else if !x.driven then none
  else if b.cells.contains .driveLow then some (if x.cell b .driveLow then some false else none)
  else some (if x.cell b .enable then some (x.cell b .output) else none)

end Sys2Proof.Machine
end

