-- ==== Sys2Proof/Machine/Hatband.lean ====
section
/-! DEFINITION. Hatband and PPS (spec/02_hatband_timebase.md R50–R85). -/

namespace Sys2Proof.Machine

/-- The state with Hatband's own part at `h`. -/
def State.withHb (s : State) (h : Hb) : State := { s with hb := h }

/-- Trigger line `n`. -/
def State.line (s : State) (n : Nat) : HbLine := s.hb.lines.getD n {}

/-- Trigger line `n` changed. -/
def State.setLine (s : State) (n : Nat) (l : HbLine) : State := s.withHb { s.hb with lines := s.hb.lines.set n l }

/-- HB_GOFS as a signed number. -/
def State.gofs (s : State) : Int := signedOf 64 (s.get64 R.HB_GOFS_LO R.HB_GOFS_HI)

/-- GNSS time minus module time (R56). A write of HB_CDLY moves it at once and is no step of R57: ALIGN = 1 lines keep the GNSS times they are due at,
nothing is counted, and a strike that the write passed is issued at once (log 92). -/
def State.gnssOffset (s : State) : Int := s.gofs + s.getS F.HB_CDLY_DLY

/-- GNSS time as the module keeps it (R56). -/
def State.gnss (s : State) : Int := (s.now : Int) + s.gnssOffset

/-- The full tick count (R73). -/
def State.tickCount (s : State) : Nat := s.now / 50000

/-! Start of module time and references (R51, R54, R55, R59). -/

/-- PPS_OUT is driven in the discipline state now (R76). -/
def State.ppsDriven (s : State) : Bool :=
  match s.get F.HB_STAT_STATE with
  | 0 => s.flag F.PPS_CFG_FREE
  | 1 => true
  | _ => s.flag F.PPS_CFG_HOLD

/-- A pulse that PPS_OUT is no longer to drive, in the state or with the configuration now, ends (R76; log 26). -/
def State.ppsCheck (s : State) : State :=
  if s.flag F.PPS_STAT_ACTIVE && !(s.flag F.PPS_CFG_EN && s.ppsDriven) then (s.put F.PPS_STAT_ACTIVE 0).withHb { s.hb with ppsEnds := s.now } else s

/-- The level of ball PPS_OUT (R76, R81): the active level of POL while a pulse is driven, else the inactive one. -/
def State.ppsLevel (s : State) : Bool := s.flag F.PPS_STAT_ACTIVE != s.flag F.PPS_CFG_POL

/-- A write of PPS_CFG (R81). -/
def State.wPpsCfg (s : State) (m : Master) (v : Nat) : Acc2 :=
  s.writeThen m R.PPS_CFG v State.ppsCheck

/-- LOCKED becomes HOLDOVER (R59); any other state stays. -/
def State.toHoldover (s : State) : State :=
  if s.get F.HB_STAT_STATE = 1 then
    (((s.put F.HB_STAT_STATE 2).raise F.HB_STAT_HOLD).withHb { s.hb with tuncSec := s.now / 1000000000 }).ppsCheck
  else s

/-- PLLT reports lock for the first time: module time starts at 0 (R51). -/
def execPlltLock (t : Nat) (s : State) : Host.Outcome State Fault Refusal :=
  let s := s.atTime t
  if s.start.isNone && s.flag F.HB_STAT_REFOK then
    done (({ s with start := some s.clock }.raise F.HB_STAT_LOCK).put F.HB_STAT_STATE 0)
  else done s

/-- No reference 10 ms after power-on: PLLT free-runs and module time starts (start-up table, step 3). -/
def execRefinAbsentTimeout (t : Nat) (s : State) : Host.Outcome State Fault Refusal :=
  let s := s.atTime t
  if s.start.isNone then
    let s := { s with start := some s.clock }
    let s := ((s.put F.HB_STAT_LOCK 0).put F.HB_STAT_REFOK 0).raise F.HB_STAT_REFLOSS
    done (s.event 0x2001 (fieldBlock 0 2))
  else done s

/-- A write of HB_DISC (R54): OCXO_IN is used when it is selected and valid, also where R55's wait of 10 s for it still runs: the write ends the wait,
whichever of its fields it changes. A write that leaves PLLT on a reference that is not valid clears LOCK and no more, since R59 speaks of the loss of a
reference in use (log 22). -/
def State.wDisc (s : State) (m : Master) (v : Nat) : Acc2 :=
  s.writeThen m R.HB_DISC v (fun s =>
    let useOcxo := s.flag F.HB_DISC_REFSEL && s.flag F.HB_STAT_OCXOOK
    let s := s.putB F.HB_STAT_REFUSED useOcxo
    s.putB F.HB_STAT_LOCK (useOcxo || s.flag F.HB_STAT_REFOK))

/-- Loss of a reference (R55, R59): only the loss of the one in use changes more than its valid bit. -/
def execReferenceLoss (t : Nat) (ocxo : Bool) (s : State) : Host.Outcome State Fault Refusal :=
  let s := s.atTime t
  let inUse := s.flag F.HB_STAT_REFUSED == ocxo
  let s := s.put (if ocxo then F.HB_STAT_OCXOOK else F.HB_STAT_REFOK) 0
  let s := if ocxo then s.withHb { s.hb with ocxoSince := none } else s
  if !inUse then done s
  else
    let s := (s.raise F.HB_STAT_REFLOSS).event 0x2001 (fieldBlock 0 2) (p1 := bit ocxo)
    let s := s.put F.HB_STAT_REFUSED 0
    if ocxo && s.flag F.HB_STAT_REFOK then done s
    else done ((s.put F.HB_STAT_LOCK 0).toHoldover)

/-- A reference returns (R55): PLLT relocks when it is the one it would use. -/
def execReferenceReturn (t : Nat) (ocxo : Bool) (s : State) : Host.Outcome State Fault Refusal :=
  let s := s.atTime t
  if ocxo then
    let s := s.raise F.HB_STAT_OCXOOK
    done (s.withHb { s.hb with ocxoSince := some s.clock })
  else
    let s := s.raise F.HB_STAT_REFOK
    done (if s.flag F.HB_STAT_REFUSED then s else s.raise F.HB_STAT_LOCK)

/-- OCXO_IN has been valid for 10 s without a break while selected (R55). -/
def execOcxoReturn (t : Nat) (s : State) : Host.Outcome State Fault Refusal :=
  let s := s.atTime t
  match s.hb.ocxoSince with
  | none => done s
  | some t0 =>
    if s.flag F.HB_DISC_REFSEL && !s.flag F.HB_STAT_REFUSED && s.flag F.HB_STAT_OCXOOK && decide (t0 + 10000000000 ≤ s.clock) then
      done ((s.raise F.HB_STAT_REFUSED).raise F.HB_STAT_LOCK)
    else done s

/-! Discipline (R56–R61). -/

/-- FREE becomes LOCKED at the first write of HB_GSET or HB_GCOR (R59). -/
def State.leaveFree (s : State) : State :=
  if s.get F.HB_STAT_STATE = 0 then (s.put F.HB_STAT_STATE 1).withHb { s.hb with discAt := s.now } else s

/-- HOLDOVER becomes LOCKED while GNB indicates time-valid and PLLT is locked (R59). -/
def State.leaveHoldover (s : State) : State :=
  if s.get F.HB_STAT_STATE = 2 && s.flag F.GNB_STAT_TVALID && s.flag F.HB_STAT_LOCK then s.put F.HB_STAT_STATE 1 else s

/-- The correction in force replaced (R58): what waits or slews, STEPPEND, SLEW and the part of HB_GCOR not yet applied. -/
def State.setPend (s : State) (p : HbPend) : State :=
  let s := s.withHb { s.hb with pend := p }
  match p with
  | .none => ((s.put F.HB_STAT_STEPPEND 0).put F.HB_STAT_SLEW 0).put F.HB_GCOR_COR 0
  | .set _ => ((s.put F.HB_STAT_STEPPEND 1).put F.HB_STAT_SLEW 0).put F.HB_GCOR_COR 0
  | .add v => ((s.put F.HB_STAT_STEPPEND 1).put F.HB_STAT_SLEW 0).putS F.HB_GCOR_COR v
  | .slew v _ => ((s.put F.HB_STAT_STEPPEND 0).put F.HB_STAT_SLEW 1).putS F.HB_GCOR_COR v

/-- A write of HB_GSET_LO (R57): the step to the written 64-bit value waits for the next GNSS second boundary. -/
def State.wGset (s : State) (m : Master) (v : Nat) : Acc2 :=
  s.writeThen m R.HB_GSET_LO v (fun s => s.leaveFree.setPend (.set (signedOf 64 (s.get64 R.HB_GSET_LO R.HB_GSET_HI))))

/-- A write of HB_GCOR (R57–R59): a slew below 1,000 ns, a step from 1,000 ns on. -/
def State.wGcor (s : State) (m : Master) (v : Nat) : Acc2 :=
  if !s.isOwner m then (s, stNotOwner)
  else
    let c := signedOf 32 v
    let s := s.leaveFree.leaveHoldover
    let s := s.withHb { s.hb with discAt := s.now }
    okay (s.setPend (if c = 0 then .none else if c.natAbs < 1000 then .slew c (s.now + 10000000) else .add c))

/-- A write of HB_FADJ (R52, R59): saturated at ±200 ppm. The rate of real time is an input of this model (log 2). -/
def State.wFadj (s : State) (m : Master) (v : Nat) : Acc2 :=
  if !s.isOwner m then (s, stNotOwner)
  else
    let s := s.putS F.HB_FADJ_ADJ (clampInt (-200000000) 200000000 (signedOf 32 v))
    okay (s.leaveHoldover.withHb { s.leaveHoldover.hb with discAt := s.now })

/-- HB_GOFS set to a signed number. -/
def State.setGofs (s : State) (g : Int) : State := s.put64 R.HB_GOFS_LO R.HB_GOFS_HI (bitsOf 64 g)

/-- 1 ns of a slew (R57). -/
def execSlewStep (t : Nat) (s : State) : Host.Outcome State Fault Refusal :=
  let s := s.atTime t
  match s.hb.pend with
  | .slew left due =>
    if s.now < due then done s
    else
      let d : Int := if left < 0 then -1 else 1
      let s := s.setGofs (s.gofs + d)
      done (s.setPend (if left = d then .none else .slew (left - d) (due + 10000000)))
  | _ => done s

/-! Trigger lines (R62–R72). -/

/-- The first time not before `x` at which a line of this period and phase strikes (R62). -/
def firstStrike (per phs : Nat) (x : Int) : Int := phs + per * ((x - phs + per - 1) / per)

/-- The sequence number of the strike at `x` (R63). -/
def strikeSeq (per phs : Nat) (x : Int) : Nat := bitsOf 32 ((x - phs) / per)

/-- The period in force of line `n`. -/
def State.linePer (s : State) (n : Nat) : Nat := s.word (R.HB_LPER_LO n) + s.get (F.HB_LPER_HI_PER n) * 2 ^ 32

/-- The phase in force of line `n`. -/
def State.linePhs (s : State) (n : Nat) : Nat := s.word (R.HB_LPHS_LO n) + s.get (F.HB_LPHS_HI_PHS n) * 2 ^ 32

/-- Module time now in the scale of a line. -/
def State.inScale (s : State) (align : Bool) (t : Int) : Int := if align then t + s.gnssOffset else t

/-- A time of a line's scale as module time (R64). -/
def State.fromScale (s : State) (align : Bool) (x : Int) : Int := if align then x - s.gnssOffset else x

/-- Line `n` scheduled under its configuration in force, from module time `from` on. -/
def State.schedule (s : State) (n : Nat) (start : Int) : State :=
  let align := s.flag (F.HB_LCFG_ALIGN n)
  let x := firstStrike (s.linePer n) (s.linePhs n) (s.inScale align start)
  s.setLine n
    { s.line n with
      next := some x, nextSeq := strikeSeq (s.linePer n) (s.linePhs n) x, align := align, per := s.linePer n, phs := s.linePhs n
      wid := s.word (R.HB_LWID n), trim := s.get (F.HB_LCFG_TRIM n), pol := s.flag (F.HB_LCFG_POL n) }

/-- A write that stages a period, phase or width word of line `n` (R67). -/
def State.wLineStage (s : State) (m : Master) (a : Nat) (v : Nat) : Acc2 :=
  if !s.isOwner m then (s, stNotOwner)
  else
    let n := indexIn a (R.HB_LCFG 0) 0x20
    let l := s.line n
    okay (s.setLine n
      (match (a - R.HB_LCFG 0) % 0x20 with
       | 0x04 => { l with perStaged := l.perStaged / 2 ^ 32 * 2 ^ 32 + v }
       | 0x08 => { l with perStaged := l.perStaged % 2 ^ 32 + v % 4 * 2 ^ 32 }
       | 0x0C => { l with phsStaged := l.phsStaged / 2 ^ 32 * 2 ^ 32 + v }
       | 0x10 => { l with phsStaged := l.phsStaged % 2 ^ 32 + v % 4 * 2 ^ 32 }
       | 0x14 => { l with widStaged := v }
       | _ => l))

/-- The ranges of R62, R66 and R68 that a commit of mode `mode` on line `n` must keep; only WIDTH's depends on the mode (R66). -/
def lineOk (n mode per phs wid : Nat) : Bool :=
  decide (1000 ≤ per) && decide (per ≤ 10000000000) && decide (phs < per)
    && (match mode with
        | 0 => true
        | 1 => decide (8 ≤ n) || (decide (4 ≤ wid) && decide (wid + 4 ≤ per))
        | 2 => decide (n < 8)
        | _ => false)

/-- A write of HB_LCFG{n} (R67, R68, R71). From capture, strikes start as from off, and a commit to capture acts at once: the strike that was due next is
not issued; the words that a refused commit left staged stay so for the next one (log 25). A new period or phase clears the line's record in FUS
(spec/05_feature_fusion_engine.md R198); the samplers of the strikes issued before take them all the same (spec/04_cropflow_analog_inputs.md R122). -/
def State.wLcfg (s : State) (m : Master) (n v : Nat) : Acc2 :=
  let l := s.line n
  let mode := fieldOf (F.HB_LCFG_MODE n) v
  if !s.isOwner m then (s, stNotOwner)
  else if !lineOk n mode l.perStaged l.phsStaged l.widStaged then okay (s.raise F.HB_STAT_CFGERR)
  else
    let was := s.get (F.HB_LCFG_MODE n)
    let moved := s.linePer n != l.perStaged || s.linePhs n != l.phsStaged
    let s := (s.plainWrite m (R.HB_LCFG n) v).1
    let s := (s.setWord (R.HB_LPER_LO n) l.perStaged).put (F.HB_LPER_HI_PER n) (l.perStaged / 2 ^ 32)
    let s := (s.setWord (R.HB_LPHS_LO n) l.phsStaged).put (F.HB_LPHS_HI_PHS n) (l.phsStaged / 2 ^ 32)
    let s := s.setWord (R.HB_LWID n) l.widStaged
    let l := if moved then { l with known := 0 } else l
    let s := (s.setLine n l).hraPeriods n
    okay
      (if mode = 1 then
        if was = 1 && l.next.isSome then s
        else
          let s := s.schedule n (s.now + 2000)
          s.setLine n { s.line n with first := some (s.now + 2000) }
      else
        let s := s.setLine n { l with next := none, pulse := (0, 0), before := (0, 0) }
        if mode = 2 then
          let s := s.setLine n { s.line n with capFrom := s.now + 2000, lastEdge := if was = 2 then l.lastEdge else none }
          if was = 2 then s else s.setWord (R.HB_LSEQ n) 0
        else s)

/-- The strike of line `n` that is due (R62–R66): numbered, recorded, its ball driven, the next one scheduled. -/
def State.strike (s : State) (n : Nat) : State :=
  let l := s.line n
  match l.next with
  | none => s
  | some x =>
    let t := s.fromScale l.align x
    if s.timed && decide (t ≤ s.now) && s.get (F.HB_LCFG_MODE n) == 1 && !s.restarting (fieldBlock 0 2) then
      let s := s.setWord (R.HB_LSEQ n) l.nextSeq
      let starts := 4 * t.toNat + l.trim
      let s := s.setLine n
        { l with
          strikes := ((l.nextSeq, t.toNat) :: l.strikes).take 256, pers := (l.per :: l.pers).take 256, known := min (l.known + 1) 256
          pulse := if n < 8 then (starts, starts + 4 * l.wid) else (0, 0), pulsePol := l.pol, before := l.pulse, beforePol := l.pulsePol
          first := none }
      (s.schedule n (t + 1)).strikeMissed n t.toNat
    else s

def execStrike (t : Nat) (n : Fin 32) (s : State) : Host.Outcome State Fault Refusal := done ((s.atTime t).strike n)

/-- An edge on a ball in capture mode (R71, R72). A restart of HB for new microcode omits strikes, of which R83 speaks; edges are stamped and counted
through it (log 87). -/
def State.captureEdge (s : State) (n : Nat) (rising : Bool) : State :=
  let l := s.line n
  if s.get (F.HB_LCFG_MODE n) != 2 || s.flag (F.HB_LCFG_POL n) == rising || decide (s.now < l.capFrom) then s
  else
    match l.lastEdge with
    | some t0 =>
      if s.now < t0 + 1000 then s.countSat (F.HB_LOMIT_OMIT n) else stamp l
    | none => stamp l
where
  /-- The edge stamped, counted and recorded. -/
  stamp (l : HbLine) : State :=
    let s := (s.count (F.HB_LSEQ_SEQ n)).setLine n { l with lastEdge := some s.now }
    s.queRecord F.HB_CAPQ_EN F.HB_CAPQ_QUEUE 0x01 [n + bit (!rising) * 2 ^ 8, s.now, s.now / 2 ^ 32]

def execTrgCaptureEdge (t : Nat) (n : Fin 8) (rising : Bool) (s : State) : Host.Outcome State Fault Refusal :=
  done ((s.atTime t).captureEdge n rising)

/-- `k` strikes of line `n` omitted (R70), the first at module time `t`, `per` ns apart: counted in HB_LOMIT and in the input channels, lists and pairs that
the line strikes (spec/04_cropflow_analog_inputs.md R122, R157). -/
def State.omitted (s : State) (n k t per : Nat) : State :=
  if k = 0 then s
  else
    let s := s.countSat (F.HB_LOMIT_OMIT n) k
    if s.inBeanie then s else s.inputsOmit n k t per true true

/-- Strikes of line `n` that have fallen before now unissued are omitted: the one due next, and those of the configuration in force after it (R67, R70,
R83); the line goes on with the first that has not. `step`: a step of GNSS time passed them, which a line of the module scale does not see. -/
def State.skipLine (s : State) (n : Nat) (step : Bool) : State :=
  let l := s.line n
  match l.next with
  | none => s
  | some x =>
    let t := s.fromScale l.align x
    if decide (t < s.now) && (l.align || !step) then
      let align := s.flag (F.HB_LCFG_ALIGN n)
      let per := s.linePer n
      let y := firstStrike per (s.linePhs n) (s.inScale align (if step && !align then (s.now : Int) else t + 1))
      let k := ((s.inScale align s.now - y + per - 1) / per).toNat
      let s := (s.omitted n 1 (if step then s.now else t.toNat) 1).omitted n k (if step then s.now else (s.fromScale align y).toNat) (if step then 1 else per)
      s.schedule n (s.fromScale align (y + per * k))
    else s

/-- Line `n` after a step of GNSS time by `d` (R70): forward, the strikes passed are omitted; back, a line that has struck keeps the strike due next,
and one that has not is scheduled from the step. -/
def State.realign (s : State) (d : Int) (n : Nat) : State :=
  let l := s.line n
  if 0 < d then s.skipLine n true
  else
    match l.first with
    | some f =>
      if l.align && l.next.isSome then
        let y := firstStrike l.per l.phs (s.inScale true (max s.now f))
        s.setLine n { l with next := some y, nextSeq := strikeSeq l.per l.phs y }
      else s
    | none => s

/-- A step of HB_GOFS to `g` (R57, R70). -/
def State.stepGofs (s : State) (g : Int) : State :=
  let d := g - s.gofs
  let s := ((s.setGofs g).raise F.HB_STAT_STEP).setPend .none
  let s := s.withHb { s.hb with stepped := true }
  let s := s.event 0x2002 (fieldBlock 0 2) (p1 := bitsOf 32 d) (p2 := bitsOf 64 d / 2 ^ 32)
  (List.range 32).foldl (fun s n => s.realign d n) s

/-- A pulse on PPS_OUT starts (R76). -/
def State.ppsPulse (s : State) : State :=
  if s.flag F.PPS_CFG_EN && s.ppsDriven then
    let s := (s.raise F.PPS_STAT_ACTIVE).count F.PPS_CNT_COUNT
    s.withHb { s.hb with ppsEnds := s.now + s.get F.PPS_CFG_WIDTH * 1000000 }
  else s

/-- The step that waits for the next GNSS second boundary: the new HB_GOFS (R57). -/
def State.stepDue (s : State) : Option Int :=
  match s.hb.pend with
  | .set v => some v
  | .add v => some (s.gofs + v)
  | _ => none

/-- A GNSS second boundary (R56, R57, R61, R76, R77). A step back to before the boundary brings the boundary again: its pulse is issued then. -/
def State.secondBoundary (s : State) : State :=
  if s.timed && s.gnss % 1000000000 == 0 && s.hb.bound != some s.now then
    let s := s.withHb { s.hb with bound := some s.now, leap := s.getS F.HB_LEAP_LEAP }
    match s.stepDue with
    | some g => (if g < s.gofs ∧ (g - s.gofs) % 1000000000 ≠ 0 then s else s.ppsPulse).stepGofs g
    | none => s.ppsPulse
  else s

def execGnssSecondBoundary (t : Nat) (s : State) : Host.Outcome State Fault Refusal := done ((s.atTime t).secondBoundary)

/-- TMO seconds without a write of HB_GCOR or HB_FADJ (R59). -/
def execDisciplineTimeout (t : Nat) (s : State) : Host.Outcome State Fault Refusal :=
  let s := s.atTime t
  done (if s.hb.discAt + s.get F.HB_DISC_TMO * 1000000000 ≤ s.now then s.toHoldover else s)

/-- A second of module time in HOLDOVER (R60). -/
def execTuncGrowth (t : Nat) (s : State) : Host.Outcome State Fault Refusal :=
  let s := s.atTime t
  if s.get F.HB_STAT_STATE = 2 && decide (s.hb.tuncSec < s.now / 1000000000) then
    done ((s.countSat F.HB_TUNC_UNC (s.get F.HB_HRATE_RATE)).withHb { s.hb with tuncSec := s.now / 1000000000 })
  else done s

/-! The common instant (R73–R75). -/

/-- What grid `x` holds for its open instant moves to the first close of the new period `p`, and what it holds for a later one to the
close after (spec/05_feature_fusion_engine.md R198). -/
def Grid.rekey (x : Grid) (now p : Nat) : Grid :=
  if !x.run then x
  else
    let t := (now / p + 1) * p
    let key (c : Nat) : Nat := if c = x.opens then (if x.opens ≤ now then c else t) else if x.opens ≤ now then t else t + p
    { x with
      opens := key x.opens
      contribs := x.contribs.map (fun c => { c with closes := key c.closes })
      seen := x.seen.map (fun e => (key e.1, e.2))
      cover := x.cover.map (fun e => ((key e.1.1, e.1.2), e.2))
      drops := x.drops.map key
      poisons := x.poisons.map key }

/-- The instant period changes to `p` ticks (R75, R198). -/
def State.fuspTurn (s : State) (p : Nat) : State :=
  if p = s.hb.fusp then s else { s with fus := { s.fus with grids := s.fus.grids.map (fun x => x.rekey s.now (p * 50000)) } }

/-- A base tick: the tick count advances and the periods written since the last tick take effect (R73, R75). -/
def State.baseTick (s : State) : State :=
  if s.timed && s.now % 50000 == 0 then
    (s.fuspTurn (s.get F.HB_FUSP_PER)).withHb { s.hb with tick := s.tickCount, fusp := s.get F.HB_FUSP_PER, gnsp := s.get F.HB_GNSP_PER }
  else s

def execBaseTick (t : Nat) (s : State) : Host.Outcome State Fault Refusal := done (s.atTime t).baseTick

/-- PPS_OUT ends its pulse (R76). -/
def execPpsPulseEnd (t : Nat) (s : State) : Host.Outcome State Fault Refusal :=
  let s := s.atTime t
  done (if s.flag F.PPS_STAT_ACTIVE && decide (s.hb.ppsEnds ≤ s.now) then s.put F.PPS_STAT_ACTIVE 0 else s)

/-- What line n makes of ball TRGn (R66, R67, R85): none when the line is in capture mode and does not drive it, also in Beanie (log 27). Between pulses a
striking line rests at the inactive level of the polarity that its next strike is issued with. -/
def State.trgLine (s : State) (n : Nat) : Option Bool :=
  let l := s.line n
  if s.get (F.HB_LCFG_MODE n) = 2 then none
  else if s.inBeanie then some (s.flag (F.HB_LCFG_POL n))
  else if decide (l.pulse.1 ≤ 4 * s.now) && decide (4 * s.now < l.pulse.2) then some (!l.pulsePol)
  else if decide (l.before.1 ≤ 4 * s.now) && decide (4 * s.now < l.before.2) then some (!l.beforePol)
  else some (if l.next.isSome then l.pol else s.flag (F.HB_LCFG_POL n))

/-- The level of ball TRGn, none where it floats: what the boundary register makes of it, else its line (R591). -/
def State.trgLevel (s : State) (n : Nat) : Option Bool := (s.tap.drives (.trg n)).getD (s.trgLine n)

/-- The registers of R80 and R81, HB_CAPQ, HB_FUSP, HB_GNSP and the W1C flags of HB_STAT at their reset values (R82). HB_GCOR, HB_GSET and a correction
that waits or slews are in neither list of R82; they are kept, as HB_GOFS is, and the periods in effect go on to the next base tick, as after a write
(log 24). -/
def State.hbReset (s : State) : State :=
  let regs := s.regs.filter (fun e => !((decide (R.HB_LCFG 0 ≤ e.1) && decide (e.1 < R.HB_LCFG 32))
    || (decide (R.PPS_CFG ≤ e.1) && decide (e.1 < R.PPS_CFG + 0x100)) || e.1 == R.HB_CAPQ || e.1 == R.HB_FUSP || e.1 == R.HB_GNSP))
  let s := { s with regs := regs }
  let s := [F.HB_STAT_CFGERR, F.HB_STAT_HOLD, F.HB_STAT_REFLOSS, F.HB_STAT_STEP].foldl (fun s f => s.put f 0) s
  let lines := s.hb.lines.map (fun l => { strikes := l.strikes, pers := l.pers })
  (s.withHb { s.hb with lines := lines, ppsEnds := 0 }).hraCheck

/-- A restart of HB for new microcode (R83): strikes due during it are omitted and counted. -/
def State.hbRestart (s : State) : State := (List.range 32).foldl (fun s n => s.skipLine n false) s

end Sys2Proof.Machine
end

