-- ==== Sys2Proof/Machine/Fusion.lean ====
section
/-! DEFINITION. The feature and fusion engine: sources, instants, projection, heads and the yield tiler
(spec/05_feature_fusion_engine.md R165–R202). -/

namespace Sys2Proof.Machine

/-- The state with the engine's own part at `f`. -/
def State.withFus (s : State) (f : Fusion) : State := { s with fus := f }

/-- Grid `g`. -/
def State.grid (s : State) (g : Nat) : Grid := s.fus.grids.getD g {}

/-- Grid `g` set. -/
def State.setGrid (s : State) (g : Nat) (x : Grid) : State := s.withFus { s.fus with grids := s.fus.grids.set g x }

/-- Source `k`. -/
def State.src (s : State) (k : Nat) : SrcSt := s.fus.srcs.getD k {}

/-- Source `k` set. -/
def State.setSrc (s : State) (k : Nat) (x : SrcSt) : State := s.withFus { s.fus with srcs := s.fus.srcs.set k x }

def State.gridW (s : State) (g : Nat) : Nat := s.get (F.FUS_GCFG_WM1 g) + 1
def State.gridH (s : State) (g : Nat) : Nat := s.get (F.FUS_GCFG_HM1 g) + 1
def State.gridC (s : State) (g : Nat) : Nat := s.get (F.FUS_GCFG_C g)

/-- The instant period in nanoseconds (R74). -/
def State.fusPeriod (s : State) : Nat := s.hb.fusp * 50000

/-- A fault report of poison met by a block (R44, code 0xA701). -/
def State.poisonFault (s : State) (p a : Nat) : State := s.event 0xA701 p (p1 := a % 2 ^ 32) (p2 := a / 2 ^ 32)

/-! Accumulators (R185, R186). -/

/-- The accumulator entry of a cell channel in set `set` of grid `g`. -/
def State.accAt (s : State) (g set cell ch : Nat) : Nat :=
  s.getAddr (R.FUS_GACC_LO g) (R.FUS_GACC_HI g) + ((set * (s.gridW g * s.gridH g) + cell) * s.gridC g + ch) * 8

/-- The accumulator entry of a cell channel for the instant that closes at `closes`: one set is for the open instant, the other for the next. -/
def State.accAddr (s : State) (g closes cell ch : Nat) : Nat :=
  s.accAt g (if closes = (s.grid g).opens then (s.grid g).set else 1 - (s.grid g).set) cell ch

/-- FUS, and the blocks whose restart skips instants: PRJ, FUS and YT (R7, R196). -/
def fusPlace : Nat := fieldBlock 2 2
def State.fusDown (s : State) : Bool := s.restarting (fieldBlock 2 1) || s.restarting fusPlace || s.restarting (fieldBlock 2 3)

/-- A DRAM word that a unit read, changed and wrote back: what was poison when it was read stays so (R44). -/
def State.keepPoison (s t : State) (a n : Nat) : State := if s.poisoned a n then t.markPoison a n else t

/-- A value written to powered DRAM; elsewhere it is lost. -/
def State.writeDram (s : State) (a n v : Nat) : State := if s.inDram a n then (s.writeN a n v).dmaWrote a n else s

/-- Every entry of set `set` of grid `g` at zero. -/
def State.clearSet (s : State) (g set : Nat) : State :=
  (List.range (s.gridW g * s.gridH g * s.gridC g)).foldl (fun s i => s.writeDram (s.accAt g set 0 i) 8 0) s

/-- One value placed in one cell channel (R185); a poisoned accumulator stays poisoned until the close (R193). -/
def State.accAdd (s : State) (g closes cell ch : Nat) (v : Int) (wgt : Nat) : State :=
  let a := s.accAddr g closes cell ch
  let acc := satS 32 (signedOf 32 (s.readN a 4) + v * wgt)
  let w := min (s.readN (a + 4) 2 + wgt) 65535
  if s.inDram a 8 then (s.keepPoison ((s.writeN a 4 (bitsOf 32 acc)).writeN (a + 4) 2 w) a 8).dmaWrote a 8 else s

/-- One contribution counted in a cell's coverage, saturating at 255 (R185). -/
def State.coverAdd (s : State) (g closes cell : Nat) : State :=
  let x := s.grid g
  let n := (assoc (closes, cell) x.cover).getD 0
  s.setGrid g { x with cover := assocPut (closes, cell) (min (n + 1) 255) x.cover }

/-- The value that a channel of the source carries into the grid (R178). -/
def Src.scale (d : Src) (x : Int) : Int := satS 16 (rdiv (x * d.vmul) (2 ^ d.vsh))

/-- A list of channel values placed in a cell (R178, R185). -/
def State.placeCell (s : State) (g closes cell : Nat) (d : Src) (vals : List Int) : State :=
  let s := (vals.zipIdx).foldl (fun s vk => s.accAdd g closes cell (d.chofs + vk.2) (d.scale vk.1) d.wgt) s
  s.coverAdd g closes cell

/-! Admission to an instant (R181–R183). -/

/-- What becomes of a contribution. -/
inductive Admit where
  | fused (closes : Nat)
  | late
  | mismatch
  | outside
  deriving DecidableEq, Repr

/-- The close after a stamp of source `d`, and whether the stamp lies in that instant's window (R181). -/
def State.instantOf (s : State) (d : Src) (stamp : Nat) : Nat × Bool :=
  let p := s.fusPeriod
  let x := stamp + d.lead * 1000
  let closes := (x / p + 1) * p
  (closes, decide (closes ≤ x + min (s.get (F.FUS_GWIN_WLEN d.grid) * 1000) p))

/-- FUS's record of line `n`: the strikes since its period or phase last changed, at most 256, newest first (R178, R198). -/
def State.fusRecord (s : State) (n : Nat) : List (Nat × Nat) := (s.line n).strikes.take (s.line n).known

/-- The instant to which a contribution with this stamp belongs, or why it is excluded. -/
def State.admission (s : State) (k : Nat) (d : Src) (stamp : Nat) (seq : Option Nat) (untriggered : Bool) : Admit :=
  let g := s.grid d.grid
  let p := s.fusPeriod
  let closes := (s.instantOf d stamp).1
  let within := (s.instantOf d stamp).2
  let known := match seq with
    | none => false
    | some q => (s.fusRecord d.tline).contains (q, stamp)
  let again := match seq with
    | none => false
    | some q => g.seen.any (fun e => e.1 == closes && e.2.1 == k && e.2.2.1 == q + 1)
  if d.ten && (untriggered || !known || !within) then .mismatch
  else if !within then .outside
  else if closes ≤ g.closed then .late
  else if d.ten && again then .mismatch
  else if closes < g.opens ∨ g.opens + p < closes then .outside
  else .fused closes

/-- A contribution's admission counted for source `k` and its grid. -/
def State.countAdmit (s : State) (k : Nat) (d : Src) (a : Admit) (seq : Option Nat) (marks : Nat) : State :=
  let x := s.grid d.grid
  match a with
  | .fused closes =>
    let q := match seq with | none => 0 | some q => q + 1
    (s.count (F.FUS_SCON_COUNT k)).setGrid d.grid { x with seen := x.seen ++ [(closes, k, q, marks)] }
  | .late => ((s.countSat (F.FUS_SERR_LATE k)).raise F.FUS_STAT_LATE).setGrid d.grid { x with late := x.late + 1 }
  | .mismatch => ((s.countSat (F.FUS_SERR_MISM k)).raise F.FUS_STAT_MISM).setGrid d.grid { x with mism := x.mism + 1 }
  | .outside => (s.countSat (F.FUS_SLOSS_OUTSIDE k)).setGrid d.grid { x with outside := x.outside + 1 }

/-- A scalar contribution to source `k` arrives (R181–R184). -/
def State.contribute (s : State) (k stamp : Nat) (seq : Option Nat) (vals : List Int) : State :=
  match (s.src k).cur with
  | none => s
  | some d =>
    if !(s.grid d.grid).run then s
    else
      let a := s.admission k d stamp seq false
      let s := s.countAdmit k d a seq 0
      match a with
      | .fused closes =>
        let x := s.grid d.grid
        s.setGrid d.grid { x with contribs := x.contribs ++ [{ src := k, closes := closes, stamp := stamp, vals := vals.take d.nch }] }
      | _ => s

/-- A sample of an input block goes to every source of its kind and element (R176). -/
def State.feed (s : State) (kind elem stamp : Nat) (seq : Option Nat) (vals : List Int) : State :=
  (List.range 32).foldl (fun s k =>
    match (s.src k).cur with
    | some d => if d.kind = kind ∧ d.elem = elem then s.contribute k stamp seq vals else s
    | none => s) s

/-! Sources (R175–R177, R180). -/

/-- The descriptor of source `k` as it stands in field DRAM. -/
def State.readSrc (s : State) (k : Nat) : Src :=
  let a := s.getAddr R.FUS_SD_LO R.FUS_SD_HI + 128 * k
  let ctl := s.readN a 4
  let ch := s.readN (a + 4) 4
  { kind := ctl % 16, grid := bitField ctl 5 4, proj := bitField ctl 7 6, agg := bitField ctl 9 8, ten := wbit ctl 10,
    tline := bitField ctl 15 11, elem := bitField ctl 23 16, wgt := bitField ctl 31 24, chofs := bitField ch 5 0,
    nch := bitField ch 12 6, vsh := bitField ch 17 13, vmul := signedOf 16 (s.readN (a + 8) 2), prog := s.readN (a + 10) 2,
    lead := s.readN (a + 12) 4, u0 := signedOf 24 (s.readN (a + 16) 4), v0 := signedOf 24 (s.readN (a + 20) 4),
    du := signedOf 24 (s.readN (a + 24) 4), dv := signedOf 24 (s.readN (a + 28) 4),
    hom := (List.range 9).map (fun i => signedOf 32 (s.readN (a + 32 + 4 * i) 4)), dlut := s.readN (a + 72) 8,
    nx := s.readN (a + 80) 2, ny := s.readN (a + 82) 2, stepx := s.readN (a + 84) 2, stepy := s.readN (a + 86) 2,
    x0 := s.readN (a + 88) 2, y0 := s.readN (a + 90) 2, x1 := s.readN (a + 92) 2, y1 := s.readN (a + 94) 2 }

/-- The width and height of context `c`'s output (R98 stage 8). -/
def State.outSize (s : State) (c : Nat) : Nat × Nat :=
  let sc := s.readN (s.getAddr (R.VSC_PB_LO c) (R.VSC_PB_HI c) + 60) 1
  (s.get (F.VSC_CGEO_WIDTH c) / 2 ^ (sc % 4), s.get (F.VSC_CGEO_HEIGHT c) / 2 ^ (sc / 4 % 4))

/-- Program `p` of the loaded set is valid (R171). -/
def State.progValid (s : State) (p : Nat) : Bool :=
  if p < 32 then wbit (s.word R.FEX_PVAL_LO) p else wbit (s.word R.FEX_PVAL_HI) (p - 32)

/-- The header of program `p` of the loaded set. -/
def State.prog (s : State) (p : Nat) : ProgHdr := s.progHdr (s.progAddr s.fus.setBase p)

/-- Elements and channel counts that a kind admits (R176). -/
def kindLimits (kind : Nat) : Nat × Nat :=
  match kind with
  | 1 => (8, 64)
  | 2 => (8, 3)
  | 3 => (8, 1)
  | 4 => (32, 1)
  | 5 => (4, 2)
  | 6 => (24, 1)
  | _ => (256, 1)

/-- The first failure of a descriptor (R177): the value of FUS_SCTL:ERR. -/
def State.srcErr (s : State) (k : Nat) : Nat :=
  let a := s.getAddr R.FUS_SD_LO R.FUS_SD_HI + 128 * k
  let d := s.readSrc k
  let cam := d.kind == 1
  let lim := kindLimits d.kind
  if s.poisoned a 128 then 7
  else if decide (7 < d.kind) || d.proj == 3 || d.wgt == 0 || d.nch == 0 || decide (64 < d.nch) || bitField (s.readN (a + 4) 4) 31 18 != 0
      || s.readN (a + 68) 4 != 0 || s.readN (a + 96) 32 != 0
      || decide (1000000 < d.lead) || (cam && decide (63 < d.prog)) || (cam && d.agg != 0)
      || (d.kind != 0 && (decide (lim.1 ≤ d.elem) || decide (lim.2 < d.nch)))
      || (d.proj == 2 && (decide (d.nx < 2) || decide (65 < d.nx) || decide (d.ny < 2) || decide (65 < d.ny) || d.stepx == 0
        || decide (1024 < d.stepx) || d.stepy == 0 || decide (1024 < d.stepy))) then 1
  else if (cam && d.proj == 0) || (!cam && d.proj != 0) || (d.ten && (d.kind == 2 || d.kind == 6)) then 2
  else if cam && (!s.progValid d.prog || (s.prog d.prog).outkind != 0 || ((s.prog d.prog).inw, (s.prog d.prog).inh) != s.outSize d.elem) then 3
  else if decide (s.gridC d.grid < d.chofs + d.nch) || !s.flag (F.FUS_GCFG_EN d.grid) then 4
  else if !cam && (decide (d.x1 < d.x0) || decide (d.y1 < d.y0) || decide (s.gridW d.grid ≤ d.x1) || decide (s.gridH d.grid ≤ d.y1)) then 5
  else if d.proj == 2 && (d.dlut % 8 != 0 || decide ((d.nx - 1) * d.stepx + 1 < s.get (F.VSC_CGEO_WIDTH d.elem))
      || decide ((d.ny - 1) * d.stepy + 1 < s.get (F.VSC_CGEO_HEIGHT d.elem))) then 6
  else 0

/-- A write of FUS_SCTL{k} (R177). -/
def State.wSctl (s : State) (m : Master) (k v : Nat) : Acc2 :=
  if !s.isOwner m then (s, stNotOwner)
  else if wbit v 0 then
    let err := s.srcErr k
    let s := (s.put (F.FUS_SCTL_ERR k) err).raiseIf (err == 7) F.FUS_STAT_POISON
    if err = 0 then
      let s := s.raise (F.FUS_SCTL_EN k)
      let d := s.readSrc k
      okay (s.setSrc k { s.src k with next := if d.kind = 0 then none else some d, leaving := decide (d.kind = 0) })
    else
      let s := s.put (F.FUS_SCTL_EN k) 0
      okay (s.setSrc k { s.src k with next := none, cur := none, leaving := false })
  else okay ((s.put (F.FUS_SCTL_EN k) 0).setSrc k { s.src k with next := none, leaving := true })

/-- A write of FUS_SPUT{k} (R180): the value and the stamp of the strike that FUS_SPSEQ{k} names, or of the write. -/
def State.wSput (s : State) (k v : Nat) : Acc2 :=
  let s := s.setWord (R.FUS_SPUT k) v
  okay
    (match (s.src k).cur with
     | none => s
     | some d =>
       if d.kind != 7 then s
       else if d.ten then
         let q := s.word (R.FUS_SPSEQ k)
         match (s.fusRecord d.tline).find? (fun e => e.1 == q) with
         | some e => s.contribute k e.2 (some q) [signedOf 32 v]
         | none => if (s.grid d.grid).run then s.countAdmit k d .mismatch (some q) 0 else s
       else s.contribute k s.now none [signedOf 32 v])

/-! Grids (R201). -/

/-- A write of FUS_GCFG{g}: while EN = 1 only EN may change. -/
def State.wGcfg (s : State) (m : Master) (g v : Nat) : Acc2 :=
  let old := s.word (R.FUS_GCFG g)
  let was := wbit old 0
  s.writeThen m (R.FUS_GCFG g) v (fun s => if was && !s.flag (F.FUS_GCFG_EN g) then s.setGrid g {} else s) (guard := !was || old / 2 == v / 2 % 2 ^ 23)

/-! The executor (R172–R174). -/

/-- The busy time up to now, in nanoseconds (R199). -/
def State.fexBusy (s : State) : Nat := if s.flag F.FEX_STAT_BUSY then s.fus.busyNs + (s.now - s.fus.lastUnit) else s.fus.busyNs

/-- FEX_BUSY (R199). -/
def State.fexBusyTime (s : State) : Nat := nearest s.fexBusy 1000 % 2 ^ 32

/-- The busy time counted, and JOBS and BUSY brought up to date. -/
def State.fexStat (s : State) : State :=
  let s := s.withFus { s.fus with busyNs := s.fexBusy, lastUnit := s.now }
  let s := s.put F.FEX_STAT_JOBS s.fus.jobs.length
  s.putB F.FEX_STAT_BUSY (s.fus.started.isSome || !s.fus.heads.isEmpty)

/-- The close of the instant of grid `d.grid` whose summary tells of a job with this stamp: the one to which the stamp belongs (R181), or the open one
where that has closed. -/
def State.jobInstant (s : State) (d : Src) (stamp : Nat) : Nat := max (s.instantOf d stamp).1 (s.grid d.grid).opens

/-- Poison met for the instant of grid `g` that closes at `closes` (R187). -/
def State.gridPoison (s : State) (g closes : Nat) : State := s.setGrid g { s.grid g with poisons := (s.grid g).poisons ++ [closes] }

/-- A job of source `k` dropped, whose frame has the stamp `stamp` (R172, R174, R193). -/
def State.jobDrop (s : State) (k : Nat) (d : Src) (stamp : Nat) : State :=
  (s.countSat (F.FUS_SLOSS_DROP k)).setGrid d.grid { s.grid d.grid with drops := (s.grid d.grid).drops ++ [s.jobInstant d stamp] }

/-- FEX runs (R196, R197). -/
def State.fexOn (s : State) : Bool := s.awake fexPlace && !s.fus.restarting

/-- A completed frame makes one job for each camera source of its context (R172). -/
def State.queueFrameJobs (s : State) (j : FrameJob) : State :=
  ((List.range 32).foldl (fun s k =>
    match (s.src k).cur with
    | some d =>
      if d.kind = 1 ∧ d.elem = j.ctx then
        if s.flag F.FEX_CFG_EN && s.fexOn && decide (s.fus.jobs.length < 32) then
          s.withFus { s.fus with jobs := s.fus.jobs ++ [{ j with src := k }] }
        else ((s.countSat F.FEX_JDROP_COUNT).raise F.FEX_STAT_JDROP).jobDrop k d j.tstrike
      else s
    | none => s) s).fexStat

/-- A frame job finished or discarded: FUS_SDONE (R174, R201). -/
def State.jobDone (s : State) (j : FrameJob) : State := s.setWord (R.FUS_SDONE j.src) j.ctxfn

/-- The oldest frame job that may start, after discarding those that may not: their instant has closed, their size is not the program's, or the program is
no valid one of the set loaded (R171, R174, R193). -/
def State.startFrameJob : List FrameJob → State → State
  | [], s => s.withFus { s.fus with jobs := [] }
  | j :: r, s =>
    match (s.src j.src).cur with
    | none => startFrameJob r (s.jobDone j)
    | some d =>
      let i := s.instantOf d j.tstrike
      if i.2 && decide (i.1 ≤ (s.grid d.grid).closed) then
        startFrameJob r ((s.countAdmit j.src d .late none 0).jobDone j)
      else if !s.progValid d.prog || (j.width, j.height) != ((s.prog d.prog).inw, (s.prog d.prog).inh) then
        startFrameJob r ((s.jobDrop j.src d j.tstrike).jobDone j)
      else s.withFus { s.fus with jobs := r, started := some j }

/-- A work-unit boundary (R173): head jobs go before frame jobs; a frame job that has started keeps its place. -/
def State.workUnit (s : State) : State :=
  (if s.fexOn && s.fus.heads.isEmpty && s.fus.started.isNone then State.startFrameJob s.fus.jobs s else s).fexStat

def execWorkUnitBoundary (t : Nat) (s : State) : Host.Outcome State Fault Refusal := done (s.atTime t).workUnit

/-! Projection (R179). -/

/-- A node of the distortion table. -/
def State.dlutNode (s : State) (d : Src) (r c : Int) (o : Nat) : Int := signedOf 32 (s.readN ((d.dlut : Int) + (r * d.nx + c) * 8 + o).toNat 4)

/-- The bilinear lookup dlut, for xn (`o` = 0) or yn (`o` = 4). -/
def State.dlutAt (s : State) (d : Src) (x y : Int) (o : Nat) : Int :=
  let sx : Int := (d.stepx * 256 : Nat)
  let sy : Int := (d.stepy * 256 : Nat)
  let c := min (Int.tdiv x sx) ((d.nx : Int) - 2)
  let r := min (Int.tdiv y sy) ((d.ny : Int) - 2)
  let fx := min 65536 (Int.tdiv ((x - c * sx) * 65536) sx)
  let fy := min 65536 (Int.tdiv ((y - r * sy) * 65536) sy)
  let n (i j : Nat) : Int := s.dlutNode d (r + i) (c + j) o
  rdiv (n 0 0 * (65536 - fx) * (65536 - fy) + n 0 1 * fx * (65536 - fy) + n 1 0 * (65536 - fx) * fy + n 1 1 * fx * fy) (2 ^ 32)

/-- The grid cell in which feature cell (i, j) of a camera source falls; none: OUTSIDE. -/
def State.project (s : State) (d : Src) (i j : Nat) : Option (Nat × Nat) :=
  let x := d.u0 + j * d.du
  let y := d.v0 + i * d.dv
  let p : Int × Int × Int := if d.proj = 2 then (s.dlutAt d x y 0, s.dlutAt d x y 4, 2 ^ 20) else (x, y, 2 ^ 8)
  let h (k : Nat) : Int := d.hom.getD k 0
  let row (r : Nat) : Int := h (3 * r) * p.1 + h (3 * r + 1) * p.2.1 + h (3 * r + 2) * p.2.2
  let w := row 2
  if w ≤ 0 then none
  else
    let gx := rdiv (row 0 * 256) w.toNat / 256
    let gy := rdiv (row 1 * 256) w.toNat / 256
    if gx < 0 ∨ (s.gridW d.grid : Int) ≤ gx ∨ gy < 0 ∨ (s.gridH d.grid : Int) ≤ gy then none else some (gy.toNat, gx.toNat)

/-- The image of a frame buffer as the program's input (R170: a byte u enters as u − 128). -/
def State.imageInput (s : State) (addr w ch : Nat) : Nat → Nat → Nat → Int :=
  fun y x c => (s.readN (addr + (y * w + x) * ch + c) 1 : Int) - 128

/-- One feature cell placed in the grid, or counted OUTSIDE (R179). -/
def State.placeFeature (s : State) (k : Nat) (d : Src) (closes i j : Nat) (vals : List Int) : State :=
  match s.project d i j with
  | none =>
    let x := s.grid d.grid
    ((s.countSat F.PRJ_OUT_COUNT).countSat (F.FUS_SLOSS_OUTSIDE k)).setGrid d.grid { x with outside := x.outside + 1 }
  | some (gy, gx) => (s.count F.PRJ_PTS_COUNT).placeCell d.grid closes (gy * s.gridW d.grid + gx) d vals

/-- The job that runs has met a parity error in the engine's SRAM (R44), and the state without the mark. -/
def State.takeJobBad (s : State) : Bool × State := (s.fus.jobBad, s.withFus { s.fus with jobBad := false })

/-- The started frame job finishes (R174, R179, R181). One that read poison, in the frame, the program's part of the weight set or the distortion table, or
in the engine's SRAM, is abandoned. -/
def State.frameJobComplete (s : State) : State :=
  match (if s.fexOn then s.fus.started else none) with
  | none => s
  | some j =>
    let sram := s.takeJobBad
    let s := ((sram.2.withFus { sram.2.fus with started := none }).jobDone j)
    (match (s.src j.src).cur with
     | none => s
     | some d =>
       let hd := s.prog d.prog
       let read := s.poisoned j.addr (j.width * j.height * hd.inch) || s.progPoisoned s.fus.setBase (s.progAddr s.fus.setBase d.prog)
         || (d.proj == 2 && s.poisoned d.dlut (d.nx * d.ny * 8))
       if read || sram.1 then
         let s := ((s.jobDrop j.src d j.tstrike).raise F.FEX_STAT_POISON).gridPoison d.grid (s.jobInstant d j.tstrike)
         if read then s.poisonFault fexPlace j.addr else s
       else
         let s := s.count F.FEX_JCNT_COUNT
         let a := s.admission j.src d j.tstrike (some j.tseq) (wbit j.marks 5)
         let s := s.countAdmit j.src d a (some j.tseq) j.marks
         match a with
         | .fused closes =>
           let out := s.progOutput s.fus.setBase (s.progAddr s.fus.setBase d.prog) (s.imageInput j.addr j.width hd.inch)
           match (s.layers (s.progAddr s.fus.setBase d.prog))[hd.outl]? with
           | none => s
           | some l =>
             let w := l.outDim l.win
             (List.range (l.outDim l.hin * w)).foldl (fun s n =>
               s.placeFeature j.src d closes (n / w) (n % w) ((out.drop (n * l.outCh)).take d.nch)) s
         | _ => s).fexStat

def execFrameJobComplete (t : Nat) (s : State) : Host.Outcome State Fault Refusal := done (s.atTime t).frameJobComplete

/-! The close of an instant (R182–R187). -/

/-- The aggregate of a channel's values (R184): mean, sum, last by stamp, largest. -/
def aggregate (agg : Nat) (cs : List (Nat × Int)) : Int :=
  match agg with
  | 0 => rdiv (cs.map (·.2)).sum cs.length
  | 1 => cs.foldl (fun a c => satS 32 (a + c.2)) 0
  | 2 => (cs.foldl (fun (b : Nat × Int) c => if b.1 ≤ c.1 then c else b) (cs.headD (0, 0))).2
  | _ => cs.foldl (fun a c => max a c.2) ((cs.headD (0, 0)).2)

/-- The scalar source `k` placed in its region for the instant closing now (R180, R184). -/
def State.placeScalar (s : State) (g closes k : Nat) : State :=
  let cs := (s.grid g).contribs.filter (fun c => c.src == k && c.closes == closes)
  match (s.src k).cur with
  | none => s
  | some d =>
    if cs.isEmpty then s
    else
      let vals := (List.range d.nch).map (fun ch => aggregate d.agg (cs.map (fun c => (c.stamp, c.vals.getD ch 0))))
      let cells := (List.range (d.y1 + 1 - d.y0)).flatMap (fun y => (List.range (d.x1 + 1 - d.x0)).map (fun x => (d.y0 + y) * s.gridW g + d.x0 + x))
      cells.foldl (fun s cell => s.placeCell g closes cell d vals) s

/-- The value of a cell channel at the close, and whether its accumulator met poison (R185, R193). -/
def State.cellValue (s : State) (g closes cell ch : Nat) : Int × Bool :=
  let a := s.accAddr g closes cell ch
  let acc := signedOf 32 (s.readN a 4)
  let w := s.readN (a + 4) 2
  let fill := s.getS (F.FUS_GFILL_FILL g)
  let sums := if ch < 32 then wbit (s.word (R.FUS_GSUM_LO g)) ch else wbit (s.word (R.FUS_GSUM_HI g)) (ch - 32)
  if s.poisoned a 8 then (fill, true)
  else if w = 0 then (fill, false)
  else if sums then (satS 16 acc, false)
  else (satS 16 (rdiv acc w), false)

/-- The grid's buffer written and its accumulator set cleared (R185, R186). -/
def State.writeGrid (s : State) (g closes : Nat) : State :=
  let b := closes / 50000 % 2
  let base := s.getAddr (R.FUS_GOUT_LO g) (R.FUS_GOUT_HI g) + b * s.get (F.FUS_GSTR_GSTR g) * 256
  let n := s.gridW g * s.gridH g
  let c := s.gridC g
  (List.range n).foldl (fun s cell =>
    let vals := (List.range c).map (fun ch => s.cellValue g closes cell ch)
    let bad := vals.any (·.2)
    let cov := if bad then 0 else (assoc (closes, cell) (s.grid g).cover).getD 0
    let s := if bad then (s.gridPoison g closes).raise F.FUS_STAT_POISON else s
    let s := if bad then s.poisonFault (fieldBlock 2 2) (s.accAddr g closes cell 0) else s
    let s := (List.range c).foldl (fun s ch => s.writeDram (s.accAddr g closes cell ch) 8 0) s
    let s := (vals.zipIdx).foldl (fun s v => s.writeDram (base + (cell * c + v.2) * 2) 2 (bitsOf 16 v.1.1)) s
    s.writeDram (base + n * c * 2 + cell) 1 cov) s

/-- Bit mask of a list of numbers. -/
def maskOf (l : List Nat) : Nat := l.foldl (fun m k => m ||| 2 ^ k) 0

/-- The flags of head `h` as FUS_HSTAT holds them. -/
def State.headFlags (s : State) (h : Nat) : Nat := s.word (R.FUS_HSTAT h) % 16

/-- Flag `f` of FUS_HSTAT{h} tells of the last run; VALID stays. -/
def State.headMark (s : State) (h : Nat) (f : Fld) : State := (s.setWord (R.FUS_HSTAT h) (s.word (R.FUS_HSTAT h) % 2)).raise f

/-- The record of a head (R188). -/
def State.headRecord (s : State) (j : HeadJob) : State :=
  s.queRecord F.FUS_HQ_EN F.FUS_HQ_QUEUE 0x40
    [j.head + j.grid * 2 ^ 5 + s.headFlags j.head * 2 ^ 8, j.closes / 50000 % 2 ^ 32, j.closes % 2 ^ 32, j.closes / 2 ^ 32,
     s.word (R.FUS_HOUT j.head), j.mask]

/-- Head `h` at its grid's close: an unfinished run is abandoned with OVERRUN, and a new one is queued (R173, R188, R189). -/
def State.headStart (s : State) (g closes mask addr h : Nat) (yt : Option YtJob) : State :=
  if !(s.flag (F.FUS_HCFG_EN h) && s.get (F.FUS_HCFG_GRID h) == g) then s
  else
    let s := match s.fus.heads.find? (fun j => j.head == h) with
      | none => s
      | some j => ((s.withFus { s.fus with heads := s.fus.heads.filter (fun x => x.head != h) }).headMark h (F.FUS_HSTAT_OVERRUN h)).headRecord j
    let p := s.get (F.FUS_HCFG_PROG h)
    let hd := s.prog p
    if !s.fexOn then s.headMark h (F.FUS_HSTAT_OVERRUN h)
    else if !s.flag F.FEX_CFG_EN then (s.countSat F.FEX_JDROP_COUNT).raise F.FEX_STAT_JDROP
    else if s.progValid p && hd.inkind == 4 && (hd.inw, hd.inh, hd.inch) == (s.gridW g, s.gridH g, s.gridC g) then
      s.withFus { s.fus with heads := s.fus.heads ++ [{ head := h, grid := g, closes := closes, mask := mask, addr := addr, prog := p, yt := yt }] }
    else s.headMark h (F.FUS_HSTAT_ERR h)

/-- Grid `g` is the one of YT's head. -/
def State.ytGrid (s : State) (g : Nat) : Bool := s.get (F.FUS_HCFG_GRID (s.get F.YT_CFG_HEAD)) == g

/-- A close at which YT deposits nothing passes: a position committed before it is no longer in time (R190). -/
def State.ytForget (s : State) (g : Nat) : State := if s.ytGrid g then s.withFus { s.fus with ytPos := none } else s

/-- What YT latches at the close of its head's grid (R190); NOPOS without a committed position. -/
def State.ytLatch (s : State) (g closes : Nat) : State × Option YtJob :=
  if !(s.flag F.YT_CFG_EN && s.ytGrid g) then (s.ytForget g, none)
  else
    match s.fus.ytPos with
    | none => ((s.countSat F.YT_SKIP_COUNT).raise F.YT_STAT_NOPOS, none)
    | some (x, y, hdg, wid) =>
      let tiles := (List.range 4).filterMap (fun t =>
        if s.flag (F.YT_TCFG_EN t) then some (s.getS (F.YT_TCFG_TX t), s.getS (F.YT_TCFG_TY t), s.getAddr (R.YT_TBASE_LO t) (R.YT_TBASE_HI t)) else none)
      (s.withFus { s.fus with ytPos := none }, some { closes := closes, x := x, y := y, hdg := hdg, wid := wid, fusp := s.hb.fusp, tiles := tiles })

/-- A source's changes at a close of its grid: removal, and the descriptor that takes effect at the instant that opens (R177). -/
def State.srcTurn (s : State) (g k : Nat) : State :=
  let x := s.src k
  let x := if x.leaving && (match x.cur with | some d => d.grid == g | none => true) then { x with cur := none, leaving := false } else x
  match x.next with
  | some d => s.setSrc k (if d.grid = g then { x with cur := some d, next := none } else x)
  | none => s.setSrc k x

/-- The summary of an instant (R187). -/
def State.summary (s : State) (g closes contributed expected marks : Nat) : State :=
  let x := s.grid g
  s.queRecord (F.FUS_GFILL_SQEN g) (F.FUS_GFILL_SQUEUE g) 0x41
    [g + bit (x.poisons.any (fun c => decide (c ≤ closes))) * 4 + bit x.first * 8, closes / 50000 % 2 ^ 32, closes % 2 ^ 32, closes / 2 ^ 32, (x.seen.filter (fun e => e.1 == closes)).length, x.late, x.mism, x.outside,
     contributed, expected - (expected &&& contributed), marks % 2 ^ 12 + min (x.drops.countP (fun c => decide (c ≤ closes))) 65535 * 2 ^ 16]

/-- Instants of grid `g` before the one that closes at `closes` did not close; what they held is discarded (R196). -/
def State.skipTo (s : State) (g closes : Nat) : State :=
  let x := s.grid g
  if closes = x.opens then s
  else
    let s := s.clearSet g x.set
    let s := if closes = x.opens + s.fusPeriod then s else s.clearSet g (1 - x.set)
    s.setGrid g { x with opens := closes, set := 1 - x.set, contribs := x.contribs.filter (fun c => decide (closes ≤ c.closes)),
                         seen := x.seen.filter (fun e => decide (closes ≤ e.1)), cover := x.cover.filter (fun e => decide (closes ≤ e.1.1)) }

/-- A fusion instant of grid `g` (R74, R182–R190); one in the restart of FUS, PRJ or YT is skipped (R196). LATE is counted up to a summary (R187). -/
def State.instantClose (s : State) (g : Nat) : State :=
  let closes := s.now
  let due := if (s.grid g).run then closes == (s.grid g).opens || (decide ((s.grid g).opens < closes) && closes % s.fusPeriod == 0)
    else closes % s.fusPeriod == 0
  if !(s.timed && s.awake fusPlace && due) then s
  else if s.fusDown || !s.flag (F.FUS_GCFG_EN g) || decide (closes ≤ (s.grid g).closed) then (if closes ≤ (s.grid g).closed then s else s.ytForget g)
  else if !(s.grid g).run then
    let s := (List.range 32).foldl (fun s k => s.srcTurn g k) s
    let s := ((s.clearSet g 0).clearSet g 1).ytForget g
    s.setGrid g { run := true, first := true, closed := closes, opens := (closes / s.fusPeriod + 1) * s.fusPeriod }
  else
    let s := s.skipTo g closes
    -- frequencies are taken at the close (R176)
    let s := (List.range 32).foldl (fun s k =>
      match (s.src k).cur with
      | some d =>
        if d.kind = 6 ∧ d.grid = g then
          let s := s.countAdmit k d (.fused closes) none 0
          s.setGrid g { s.grid g with contribs := (s.grid g).contribs ++ [{ src := k, closes := closes, stamp := closes, vals := [(s.finFreq d.elem : Int)] }] }
        else s
      | none => s) s
    let s := (List.range 32).foldl (fun s k => s.placeScalar g closes k) s
    let s := s.writeGrid g closes
    let id := closes / 50000
    let b := id % 2
    let s := ((s.put (F.FUS_GLAST_BUF g) b).setWord (R.FUS_GINST g) id).setWord R.FUS_INST id
    let now := (s.grid g).seen.filter (fun e => e.1 == closes)
    let contributed := maskOf (now.map (·.2.1)) % 2 ^ 32
    let expected := maskOf ((List.range 32).filter (fun k => match (s.src k).cur with | some d => d.grid == g && !(s.src k).leaving | none => false))
    let marks := now.foldl (fun m e => m ||| e.2.2.2) 0
    let s := (List.range 32).foldl (fun s k =>
      match (s.src k).cur with
      | some d => if d.grid = g then s.put (F.FUS_SMARK_MARKS k) ((now.filter (fun e => e.2.1 == k)).foldl (fun m e => m ||| e.2.2.2) 0) else s
      | none => s) s
    let s := s.summary g closes contributed expected marks
    let addr := s.getAddr (R.FUS_GOUT_LO g) (R.FUS_GOUT_HI g) + b * s.get (F.FUS_GSTR_GSTR g) * 256
    let y := s.ytLatch g closes
    let s := (List.range 32).foldl (fun s h => s.headStart g closes contributed addr h (if s.get F.YT_CFG_HEAD = h then y.2 else none)) y.1
    let s := (List.range 32).foldl (fun s k => s.srcTurn g k) s
    let x := s.grid g
    (s.setGrid g { run := true, closed := closes, late := if s.flag (F.FUS_GFILL_SQEN g) then 0 else x.late, opens := (closes / s.fusPeriod + 1) * s.fusPeriod, set := 1 - x.set, contribs := x.contribs.filter (fun c => decide (closes < c.closes)),
                   seen := x.seen.filter (fun e => decide (closes < e.1)), cover := x.cover.filter (fun e => decide (closes < e.1.1)),
                   drops := x.drops.filter (fun c => decide (closes < c)), poisons := x.poisons.filter (fun c => decide (closes < c)) }).fexStat

def execInstantClose (t : Nat) (g : Fin 4) (s : State) : Host.Outcome State Fault Refusal := done ((s.atTime t).instantClose g)

/-! The yield deposit (R190–R192). -/

/-- The parts of `pi / 4` turn series: sine of `h` / 2^16 turn scaled by 2^60, by its Taylor series on |x| ≤ pi (R190). -/
def sinTurn (h : Int) : Int :=
  let x := h * 7244019458077122842 / 65536        -- 2 * pi * 2^60 * h / 2^16
  let sq := x * x / 2 ^ 60
  (((List.range 16).foldl (fun (st : Int × Int) k =>
    let term := -st.2 * sq / 2 ^ 60 / ((2 * k + 2) * (2 * k + 3) : Nat)
    (st.1 + term, term)) (x, x)).1)

/-- The heading as a signed number of 2^−16 turns. -/
def headingTurn (hdg : Nat) : Int := signedOf 16 hdg

/-- round_nearest(s × cos(HDG)) (`w` = 0) or round_nearest(s × sin(HDG)) (`w` = 1), with an error of at most 1 mm that the spec leaves open. -/
def yieldTrig (w : Nat) (x : Int) (hdg : Nat) : Int :=
  let h := if w = 0 then headingTurn (hdg + 16384) else headingTurn hdg
  rdiv (x * sinTurn h) (2 ^ 60) + clampInt (-1) 1 (Config.trigError w x hdg)

/-- One share of the mass deposited in its cell, or missed; the misses per tile are collected (R190, R192). -/
def State.ytShare (s : State) (j : YtJob) (cm : Nat) (n dm k : Nat) (missed : List ((Int × Int) × Nat)) : State × List ((Int × Int) × Nat) :=
  let off := rdiv ((2 * (k : Int) + 1 - n) * j.wid) (2 * n)
  let px := j.x + yieldTrig 0 off j.hdg
  let py := j.y - yieldTrig 1 off j.hdg
  let share := dm / n + bit (decide (k < dm % n))
  let cx := px / (cm : Int)
  let cy := py / (cm : Int)
  let tx := cx / 4096
  let ty := cy / 4096
  match j.tiles.find? (fun t => t.1 == tx && t.2.1 == ty) with
  | some t =>
    let a := t.2.2 + ((cy - 4096 * ty).toNat * 4096 + (cx - 4096 * tx).toNat) * 4
    let v := s.readN a 4 + share
    let s := if s.inDram a 4 then (s.keepPoison (s.writeN a 4 (min v (2 ^ 32 - 1))) a 4).dmaWrote a 4 else s
    ((s.raiseIf (decide (2 ^ 32 ≤ v)) F.YT_STAT_SAT).count F.YT_TOTAL_KG share, missed)
  | none =>
    let s := (s.countSat F.YT_MISS_KG share).raise F.YT_STAT_MISS
    (s, assocPut (tx, ty) ((assoc (tx, ty) missed).getD 0 + share) missed)

/-- The mass of an instant deposited along the swath (R190, R192). -/
def State.ytDeposit (s : State) (j : YtJob) : State :=
  let f := max 0 (signedOf 32 (s.word (R.FUS_HOUT (s.get F.YT_CFG_HEAD))))
  let dm := (rdiv (f * s.word R.YT_FLOWFS * j.fusp * 50 * 4096) (2 ^ 30 * 10 ^ 9)).toNat
  let cell := s.get F.YT_CFG_CELL
  let cm := (if cell = 0 then 16 else cell) * 250
  let n := max 1 ((2 * j.wid + cm - 1) / cm)
  let r := (List.range n).foldl (fun (r : State × List ((Int × Int) × Nat)) k => r.1.ytShare j cm n dm k r.2) (s, [])
  r.2.foldl (fun s e =>
    s.queRecord F.YT_CFG_QEN F.YT_CFG_QUEUE 0x42
      [bitsOf 12 e.1.1 + bitsOf 12 e.1.2 * 2 ^ 16, j.closes / 50000 % 2 ^ 32, e.2 % 2 ^ 32, j.closes % 2 ^ 32, j.closes / 2 ^ 32]) r.1

/-! Heads (R188, R189). -/

/-- The buffer of grid `g` at address `a` as the input of a head's program (R188). -/
def State.gridInput (s : State) (g a : Nat) : Nat → Nat → Nat → Int :=
  fun y x ch => signedOf 16 (s.readN (a + ((y * s.gridW g + x) * s.gridC g + ch) * 2) 2)

/-- The value of a head: its program's one output, scaled by OUTMUL and OUTSH and saturated (R168, R188). -/
def State.headValue (s : State) (j : HeadJob) : Int :=
  let hd := s.prog j.prog
  satS 32 (rdiv ((s.progOutput s.fus.setBase (s.progAddr s.fus.setBase j.prog) (s.gridInput j.grid j.addr)).headD 0 * hd.outmul) (2 ^ hd.outsh))

/-- The oldest head job finishes and is published, or keeps its value when it read poison, of which the grid's next summary tells (R187–R189, R193). -/
def State.headPublish (s : State) (h : Nat) : State :=
  match s.fus.heads with
  | [] => s
  | j :: r =>
    if j.head != h || !s.fexOn then s
    else
      let sram := s.takeJobBad
      let s := (sram.2.withFus { sram.2.fus with heads := r })
      let n := s.gridW j.grid * s.gridH j.grid * s.gridC j.grid * 2
      let read := s.poisoned j.addr n || s.progPoisoned s.fus.setBase (s.progAddr s.fus.setBase j.prog)
      (if read || sram.1 then
        let s := ((s.headMark h (F.FUS_HSTAT_POISON h)).raise F.FEX_STAT_POISON).headRecord j
        let s := s.gridPoison j.grid (s.grid j.grid).opens
        if read then s.poisonFault fexPlace j.addr else s
      else
        let s := (s.setWord (R.FUS_HOUT h) (bitsOf 32 (s.headValue j))).setWord (R.FUS_HINST h) (j.closes / 50000)
        let s := ((s.setWord (R.FUS_HSTAT h) 1).headRecord j).count F.FEX_JCNT_COUNT
        match j.yt with
        | some y => s.ytDeposit y
        | none => s).fexStat

def execHeadPublish (t : Nat) (h : Fin 32) (s : State) : Host.Outcome State Fault Refusal := done ((s.atTime t).headPublish h)

/-! Commits and clears. -/

/-- A write of YT_COMMIT (R202). -/
def State.wYtCommit (s : State) (v : Nat) : Acc2 :=
  okay (if wbit v 0 then
      s.withFus { s.fus with ytPos := some (signedOf 32 (s.word R.YT_X), signedOf 32 (s.word R.YT_Y), s.get F.YT_HDG_HDG, s.get F.YT_WID_WID) }
    else s)

/-- Writing 1 clears FEX_JDROP (R199). -/
def State.wFexClr (s : State) (v : Nat) : Acc2 := okay (if wbit v 0 then s.setWord R.FEX_JDROP 0 else s)
/-- Writing 1 clears PRJ_OUT (R200). -/
def State.wPrjClr (s : State) (v : Nat) : Acc2 := okay (if wbit v 0 then s.setWord R.PRJ_OUT 0 else s)
/-- Writing 1 clears every FUS_SERR{s} and FUS_SLOSS{s} (R201). -/
def State.wFusClr (s : State) (v : Nat) : Acc2 :=
  okay (if wbit v 0 then (List.range 32).foldl (fun s k => (s.setWord (R.FUS_SERR k) 0).setWord (R.FUS_SLOSS k) 0) s else s)
/-- Writing 1 clears YT_MISS and YT_SKIP (R202). -/
def State.wYtClr (s : State) (v : Nat) : Acc2 := okay (if wbit v 0 then (s.setWord R.YT_MISS 0).setWord R.YT_SKIP 0 else s)

/-! Writes that the chapter refuses (R201, R202). -/

/-- A write of FUS_HCFG{h}: an enabled head needs a valid program with INKIND 4; without one it is refused, and FUS_HSTAT{h}:ERR tells so. -/
def State.wHcfg (s : State) (m : Master) (h v : Nat) : Acc2 :=
  let p := fieldOf (F.FUS_HCFG_PROG h) v
  let good := !wbit v 0 || (s.progValid p && (s.prog p).inkind == 4)
  let r := s.plainWrite m (R.FUS_HCFG h) v (guard := good)
  if s.isOwner m && !good then okay (r.1.raise (F.FUS_HSTAT_ERR h)) else r

/-- A write of YT_TCFG{t}: two enabled tiles with one origin are refused. -/
def State.wTcfg (s : State) (m : Master) (t v : Nat) : Acc2 :=
  let other := (List.range 4).any (fun u => u != t && s.flag (F.YT_TCFG_EN u) && s.word (R.YT_TCFG u) / 16 == v / 16 % 2 ^ 24)
  s.plainWrite m (R.YT_TCFG t) v (guard := !(wbit v 0 && other))

/-- The least FUS_GSTR of grid `g`: its buffer in units of 256 B, rounded up. -/
def State.strideMin (s : State) (g : Nat) : Nat := (s.gridW g * s.gridH g * (2 * s.gridC g + 1) + 255) / 256

/-- A write of another register of grid `g`: refused while EN = 1, but for FUS_GWIN and FUS_GFILL; a stride too short for the grid is refused. -/
def State.wGridReg (s : State) (m : Master) (g a v : Nat) : Acc2 :=
  s.plainWrite m a v (guard := a == R.FUS_GWIN g || a == R.FUS_GFILL g
    || (!s.flag (F.FUS_GCFG_EN g) && (a != R.FUS_GSTR g || decide (s.strideMin g ≤ v % 2 ^ 24))))

/-- The weight set at `base` loaded and checked (R167, R171). -/
def State.fexLoad (s : State) (base : Nat) : State :=
  let s := s.put64 R.FEX_WBASE_LO R.FEX_WBASE_HI base
  let s := s.setWord R.FEX_SETID (s.readN (base + 8) 4)
  if s.setOk base then
    let ok := (List.range 64).filter (fun p => s.progOk base p)
    let s := (s.setWord R.FEX_PVAL_LO (maskOf ok)).setWord R.FEX_PVAL_HI (maskOf ok / 2 ^ 32)
    let bad := (List.range 64).any (fun p => s.readN (base + 132 + 8 * p) 4 != 0 && !ok.contains p)
    let s := (s.raise F.FEX_STAT_SETOK).withFus { s.fus with setBase := base }
    if bad then s.event 0x2201 (fieldBlock 2 0) (p1 := s.word R.FEX_SETID) else s
  else
    let s := ((s.setWord R.FEX_PVAL_LO 0).setWord R.FEX_PVAL_HI 0).put F.FEX_STAT_SETOK 0
    let s := s.withFus { s.fus with setBase := 0 }
    s.event 0x2201 (fieldBlock 2 0) (p1 := s.word R.FEX_SETID)

/-- A weight set with the plaintext `plain` is put into field DRAM at UPD_WBASE and loaded (R564). -/
def State.fexTake (s : State) (plain : List Byte) : State :=
  let base := s.getAddr R.UPD_WBASE_LO R.UPD_WBASE_HI
  (if s.inDram base plain.length then (s.writeBytes base plain).dmaWrote base plain.length else s).fexLoad base

end Sys2Proof.Machine
end

