-- ==== Sys2Proof/Machine/Place.lean ====
section
/-! DEFINITION. Place codes: which exist, what a reach covers, and which addresses belong to a place
(spec/00_scope.md R5–R9; spec/01_harvest_architecture.md R22, R25, R27, R597; spec/15_reset_power_startup.md R507). -/

namespace Sys2Proof.Machine

/-! The fields of a place code (R5). -/

def plDomain (p : Nat) : Nat := bitField p 31 28
def plCluster (p : Nat) : Nat := bitField p 27 24
def plBlock (p : Nat) : Nat := bitField p 23 16
def plElement (p : Nat) : Nat := bitField p 15 0

/-- The place code of the whole module (R7). -/
def plModule : Nat := 0x0FFFFFFF

/-- How many blocks a cluster has (R27); none where the cluster does not exist. -/
def clusterBlocks (d c : Nat) : Nat :=
  match d, c with
  | 0, 0 => 4
  | 1, 0 | 2, 0 => 5
  | 1, 1 | 2, 1 => 10
  | 1, 2 | 2, 2 | 1, 3 | 2, 3 => 1
  | 3, 0 => 9
  | 3, 1 => 7
  | 3, 2 => 4
  | 3, 3 | 3, 5 => 3
  | 4, 4 => 8
  | 3, 6 => 9
  | 3, 7 => 4
  | _, _ => 0

/-- The clusters of a domain. -/
def domainClusters : Nat → List Nat
  | 0 => [0]
  | 1 | 2 => [0, 1, 2, 3]
  | 3 => [0, 1, 2, 3, 5, 6, 7]
  | 4 => [4]
  | _ => []

/-- The ELEMENT values that a block has beside 0xFFFF, as ranges (R597). -/
def blockElements (d c b : Nat) : List (Nat × Nat) :=
  match d, c, b with
  | 1, 1, 0 | 2, 1, 0 => [(0, 255)]
  | 1, 2, 0 | 2, 2, 0 => [(0, 3)]
  | 3, 0, 2 => [(0, 31)]
  | 3, 0, 6 => [(1, 5)]
  | 3, 1, 6 => [(0, 7)]
  | 3, 2, 0 => [(0, 63)]
  | 3, 2, 2 => [(0, 3), (0x100, 0x11F), (0x200, 0x21F)]
  | 3, 2, 3 => [(0, 3)]
  | 3, 3, 0 => [(0, 7)]
  | 3, 3, 1 => [(0, 31), (0x100, 0x103), (0x200, 0x203)]
  | 3, 3, 2 => [(0, 23)]
  | 4, 4, 0 => [(0, 31)]
  | 4, 4, 1 => [(0, 7)]
  | 4, 4, 2 => [(0, 15)]
  | 4, 4, 3 => [(0, 1)]
  | 4, 4, 4 => [(0, 7)]
  | 3, 5, 0 => [(0, 95)]
  | 3, 6, 4 => [(0, 3)]
  | 3, 6, 5 => [(0, 2047)]
  | 3, 6, 6 => [(0, 2)]
  | 3, 7, 0 => [(0, 127)]
  | _, _, _ => []

/-- The place code names a whole domain, or the module (R7). -/
def isDomainPlace (p : Nat) : Bool := p % 2 ^ 28 == 0xFFFFFFF

/-- The place code names a whole cluster. -/
def isClusterPlace (p : Nat) : Bool := p % 2 ^ 24 == 0xFFFFFF && plCluster p != 15

/-- The place code names a whole block. -/
def isBlockPlace (p : Nat) : Bool := plElement p == 0xFFFF && plBlock p != 0xFF

/-- R8 accepts the place code, given in the form of `canonPlace`. -/
def placeExists (p : Nat) : Bool :=
  let d := plDomain p
  if isDomainPlace p then decide (d ≤ 4)
  else if isClusterPlace p then clusterBlocks d (plCluster p) != 0
  else
    decide (plBlock p < clusterBlocks d (plCluster p))
      && (plElement p == 0xFFFF || (blockElements d (plCluster p) (plBlock p)).any (fun r => decide (r.1 ≤ plElement p) && decide (plElement p ≤ r.2)))

/-- The blocks of a cluster, as place codes. -/
def blocksOfCluster (d c : Nat) : List Nat := (List.range (clusterBlocks d c)).map (fun b => place d c b 0xFFFF)

/-- The blocks that a reach covers, in the order of release (R7, R513). -/
def reachBlocks (p : Nat) : List Nat :=
  let d := plDomain p
  if isDomainPlace p then (domainClusters d).flatMap (blocksOfCluster d)
  else if isClusterPlace p then blocksOfCluster d (plCluster p)
  else [p]

/-! Windows (R22, R25). -/

/-- The first address and the size of each window of a block. -/
def blockWindows (p : Nat) : List (Nat × Nat) :=
  let d := plDomain p
  let c := plCluster p
  let b := plBlock p
  match d with
  | 0 => [(0x480000000 + b * 0x10000, 0x10000)]
  | 1 | 2 =>
    let base := 0x400000000 + d * 0x100000000
    let own := (base + c * 0x100000 + b * 0x10000, 0x10000)
    if c = 3 then [own, ((d - 1) * 2 ^ 32, 2 ^ 32)]
    else if c = 1 ∧ 2 ≤ b then [own, (base + 0x1000000 + (b - 2) * 0x20000, 0x20000)]
    else [own]
  | 3 | 4 =>
    let own := (0x400000000 + c * 0x100000 + b * 0x10000, 0x10000)
    if c = 7 ∧ b = 2 then [own, (0x200000000, 2 ^ 32)]
    else if c = 7 ∧ b = 3 then [own, (0x300000000, 0x2000000)]
    else if c = 0 ∧ b = 7 then [own, (0x380000000, 0x1000)]
    else [own]
  | _ => []

/-- The windows that belong to a place: those of every block it names; an element's are its block's. -/
def placeWindows (p : Nat) : List (Nat × Nat) :=
  if p = plModule then [0, 1, 2, 3, 4].flatMap (fun d => (reachBlocks (d * 2 ^ 28 + 0xFFFFFFF)).flatMap blockWindows)
  else if isDomainPlace p || isClusterPlace p then (reachBlocks p).flatMap blockWindows
  else blockWindows p

/-- The `n` bytes from `a` lie in one window of place `p`. -/
def inPlace (p a n : Nat) : Bool := (placeWindows p).any (fun w => decide (w.1 ≤ a) && decide (a + n ≤ w.1 + w.2))

/-- The block whose register window holds address `a`. -/
def windowBlock (a : Nat) : Option Nat :=
  let k := a / 2 ^ 32
  if a / 2 ^ 31 = 8 then
    let c := a % 2 ^ 31 / 0x100000
    let b := a % 0x100000 / 0x10000
    let d := if c = 4 then 4 else 3
    if b < clusterBlocks d c then some (place d c b 0xFFFF) else none
  else if a / 2 ^ 31 = 9 then
    let b := a % 2 ^ 31 / 0x10000
    if b < 4 then some (place 0 0 b 0xFFFF) else none
  else if (k = 5 ∨ k = 6) ∧ a % 2 ^ 32 < 0x1000000 then
    let c := a % 2 ^ 32 / 0x100000
    let b := a % 0x100000 / 0x10000
    if b < clusterBlocks (k - 4) c then some (place (k - 4) c b 0xFFFF) else none
  else if (k = 5 ∨ k = 6) ∧ a % 2 ^ 32 < 0x1100000 then some (place (k - 4) 1 (2 + a % 0x100000 / 0x20000) 0xFFFF)
  else none

end Sys2Proof.Machine
end

