-- ==== Sys2Proof/Machine/Drive.lean ====
section
/-! DEFINITION. The operations of the power die over fingers, palms and reservoirs (spec/08_fingers_palms_solenoid_drive.md
R286–R323, spec/10_brim_energy_limits.md R356–R366): states, grants, turn-on, coil models, current limits. -/

namespace Sys2Proof.Machine

/-- The state with the power die's own part at `d`. -/
def State.withDrv (s : State) (d : Drive) : State := { s with drv := d }

/-- Finger `n`. -/
def State.fng (s : State) (n : Nat) : FngSt := s.drv.fngs.getD n {}

/-- Finger `n` set. -/
def State.setFng (s : State) (n : Nat) (x : FngSt) : State := s.withDrv { s.drv with fngs := s.drv.fngs.set n x }

/-- Palm `p`. -/
def State.palm (s : State) (p : Nat) : PalmSt := s.drv.palms.getD p {}

/-- Palm `p` set. -/
def State.setPalm (s : State) (p : Nat) (x : PalmSt) : State := s.withDrv { s.drv with palms := s.drv.palms.set p x }

/-- Reservoir `r`. -/
def State.res (s : State) (r : Nat) : ResSt := s.drv.ress.getD r {}

/-- Reservoir `r` set. -/
def State.setRes (s : State) (r : Nat) (x : ResSt) : State := s.withDrv { s.drv with ress := s.drv.ress.set r x }

/-- Sensor port `k`. -/
def State.snp (s : State) (k : Nat) : SnpSt := s.drv.ports.getD k {}

/-- Sensor port `k` set. -/
def State.setSnp (s : State) (k : Nat) (x : SnpSt) : State := s.withDrv { s.drv with ports := s.drv.ports.set k x }

/-- Place codes of the power die's elements (R597). -/
def fngPlace (n : Nat) : Nat := place 4 4 0 n
def plmPlace (p : Nat) : Nat := place 4 4 1 p
def brmPlace (r : Nat) : Nat := place 4 4 3 r

/-- The power die supplies nothing: bench mode, a failed clock check, forced off, or Beanie. An over-voltage leaves palms and sensor ports
as they are (R519). -/
def State.supplyOff (s : State) : Bool := s.flag F.PST_STAT_BENCH || s.flag F.PST_STAT_CLKF || s.drv.forced || s.inBeanie

/-- The power die switches nothing: bench mode, a failed clock check, forced off, or Beanie (R516, R519, R520, R522, R326). -/
def State.outputsOff (s : State) : Bool := s.supplyOff || s.drv.ovv

/-! Finger states (R328). -/

def fOff : Nat := 0
def fWait : Nat := 1
def fRun : Nat := 2
def fDecay : Nat := 3
def fHeld : Nat := 4
def fLatch : Nat := 5
def fNosup : Nat := 6

/-- STATE of finger `n`. -/
def State.fst (s : State) (n : Nat) : Nat := s.get (F.FNG_STAT_STATE n)

/-- Finger `n` belongs to a pair (R289). -/
def State.paired (s : State) (n : Nat) : Bool := s.flag (F.FNG_CFG_PAIR (n / 2 * 2))

/-- Finger `n` is the odd finger of a pair: its own configuration has no effect. -/
def State.slave (s : State) (n : Nat) : Bool := n % 2 == 1 && s.paired n

/-- The finger whose configuration governs finger `n`. -/
def State.lead (s : State) (n : Nat) : Nat := if s.slave n then n - 1 else n

/-- Finger `n` is enabled: EN, or the posture profile (R526). -/
def State.fngEn (s : State) (n : Nat) : Bool := (s.fng n).posture || s.flag (F.FNG_CFG_EN n)

/-- The posture profile's FNG_CFG and phases (R526). -/
def postureCfg : Nat := 1 + 20 * 2 ^ 8 + 10 * 2 ^ 14
def posturePhases : List (Nat × Nat) := [(2 ^ 16, 0)]

/-- A field of the working copy of FNG_CFG. -/
def FngSt.cfg (x : FngSt) (f : Fld) : Nat := fieldOf f x.wcfg

/-- The phase that runs, or the one that waits for its grant; PHASE shows the former or the last that ran (R328). -/
def State.phaseNo (s : State) (n : Nat) : Nat := if s.fst n = fWait then (s.fng n).next else s.get (F.FNG_STAT_PHASE n)

/-- The entry of the running or waiting phase. -/
def State.phl (s : State) (n : Nat) : Nat := ((s.fng n).phases.getD (s.phaseNo n) (0, 0)).1
def State.phh (s : State) (n : Nat) : Nat := ((s.fng n).phases.getD (s.phaseNo n) (0, 0)).2

/-- Fields of a phase entry (R292). -/
def phItgt (l : Nat) : Nat := bitField l 15 0
def phTsrc (l : Nat) : Bool := wbit l 16
def phEnd (l : Nat) : Nat := bitField l 18 17
def phDecay (l : Nat) : Nat := bitField l 20 19
def phPsrc (l : Nat) : Nat := bitField l 22 21
def phDith (l : Nat) : Bool := wbit l 23
def phTime (h : Nat) : Nat := bitField h 19 0
def phEsrc (h : Nat) : Nat := bitField h 24 20
def phEsel (h : Nat) : Bool := wbit h 25
def phEdir (h : Nat) : Bool := wbit h 26

/-! The duty window (R318). -/

/-- The length of a slot, ns: 1/64 of DWIN ms. -/
def FngSt.slotLen (x : FngSt) : Nat := max 1 (fieldOf (F.FNG_DUTY_DWIN 0) x.dutyCfg * 15625)

/-- Slots completed up to `now`; `run`: the finger is in RUN. -/
def FngSt.advanceSlots (x : FngSt) (run : Bool) (newCfg now : Nat) : Nat → FngSt
  | 0 => { x with slotRun := x.slotRun + (if run then now - x.markAt else 0), markAt := now }
  | k + 1 =>
    let ends := x.slotAt + x.slotLen
    if ends ≤ now then
      let sum := x.slotRun + (if run then ends - x.markAt else 0)
      ({ x with slots := (sum :: x.slots).take 64, slotAt := ends, slotRun := 0, markAt := ends, dutyCfg := newCfg }).advanceSlots run newCfg now k
    else { x with slotRun := x.slotRun + (if run then now - x.markAt else 0), markAt := now }

/-- The window of finger `n` brought up to the present. -/
def State.dutyMark (s : State) (n : Nat) : State :=
  let x := s.fng n
  s.setFng n (x.advanceSlots (s.fst n == fRun) (s.word (R.FNG_DUTY n)) s.clock ((s.clock - x.slotAt) / x.slotLen + 2))

/-- The windowed duty in per cent, as FNG_MON publishes it (R596). -/
def FngSt.dutyPct (x : FngSt) : Nat := nearest (x.slots.sum * 100) (64 * x.slotLen)

/-- The windowed duty is `num / den` per cent or above; at or below. -/
def FngSt.dutyGe (x : FngSt) (num den : Nat) : Bool := decide (num * (64 * x.slotLen) ≤ den * (x.slots.sum * 100))
def FngSt.dutyLe (x : FngSt) (num den : Nat) : Bool := decide (den * (x.slots.sum * 100) ≤ num * (64 * x.slotLen))

/-! Palms (R311–R316). -/

/-- Palm `p` may supply its fingers. -/
def State.supplies (s : State) (p : Nat) : Bool :=
  (s.get (F.PLM_STAT_CMD p) == 1 || s.get (F.PLM_STAT_CMD p) == 2) && !s.flag (F.PLM_STAT_OC p) && !s.flag (F.PLM_STAT_OTEMP p) && !s.supplyOff

/-- The reservoir of palm `p` is usable for boost (R313, R356). -/
def State.usable (s : State) (p : Nat) : Bool :=
  let r := p / 4
  s.flag (F.BRM_CFG_EN r) && !s.flag (F.BRM_STAT_COPEN r) && decide (24000 ≤ s.get (F.BRM_V_V r))

/-- The fingers of palm `p`. -/
def palmFingers (p : Nat) : List Nat := [4 * p, 4 * p + 1, 4 * p + 2, 4 * p + 3]

/-- The holder of palm `p`'s grant. -/
def State.holder (s : State) (p : Nat) : Option Nat := if s.flag (F.PLM_STAT_HVAL p) then some (4 * p + s.get (F.PLM_STAT_HOLDER p)) else none

/-- SRC and WAITN of palm `p` brought up to date (R312). -/
def State.palmRefresh (s : State) (p : Nat) : State :=
  let src := if !s.supplies p then 0
    else if s.flag (F.PLM_STAT_HVAL p) then 2
    else if (palmFingers p).any (fun n => s.fst n == fRun) then 1 else 0
  (s.put (F.PLM_STAT_SRC p) src).put (F.PLM_STAT_WAITN p) (s.palm p).queue.length

/-- FNG_GFLT brought up to date for finger `n`. -/
def State.gflt (s : State) (n : Nat) : State := s.putB ⟨R.FNG_GFLT, n, n⟩ (s.fst n == fHeld || s.fst n == fLatch)

/-- The inductance and resistance that the regulator uses, in H and ohm (R300). -/
def State.gainsOf (s : State) (n : Nat) : Rat × Rat :=
  let restored := s.flag (F.FNG_LEST_LREST n)
  let l := if s.flag (F.FNG_LEST_LVALID n) || restored then s.get (F.FNG_LEST_LEST n) else s.get (F.FNG_COIL_LDEF n)
  let r : Rat := if s.flag (F.FNG_REST_RVALID n) || restored then (s.fng n).rest / 1000
    else if s.get (F.FNG_COIL_RREF n) ≠ 0 then (s.get (F.FNG_COIL_RREF n) : Nat) / 1000 else 10
  (((l : Nat) : Rat) / 100000, r)

/-- The target of the running phase, in A (R292, R288). -/
def State.phaseTarget (s : State) (n : Nat) : Rat :=
  let l := s.phl n
  if phTsrc l then ((s.fng n).code * (if wbit (s.fng n).wcfg 1 then 6 else 3) : Nat) / 65536 else (phItgt l : Nat) / 1000

/-- The current of finger `n`, or of either finger of its pair, was 10 A or more at the last update (R360, R322). -/
def State.aboveTen (s : State) (n : Nat) : Bool :=
  let cur (k : Nat) : Nat := bitField (s.word (R.FNG_IMEAS k)) 19 0
  decide (218453 ≤ cur n) || (s.paired n && decide (218453 ≤ cur (n + 1)))

/-- The switch stays closed: a boost phase that ends when the current rises to its target (R299). -/
def State.closedRise (s : State) (n : Nat) : Bool := phPsrc (s.phl n) == 1 && phEnd (s.phl n) == 1 && !phEdir (s.phh n)

/-- The switch of finger `n` is closed, or closes in each period. -/
def State.switching (s : State) (n : Nat) : Bool := s.fst n == fRun && (s.closedRise n || decide (0 < (s.fng n).duty))

/-- Finger `n` opens its switch, or has it open: its decay is fast where it carried 10 A or more when the switch opened (R360), or where the decay that
goes on was fast. -/
def State.openFast (s : State) (n : Nat) : Bool := if s.switching n then s.aboveTen n else (s.fng n).fast && s.fst n != fOff

/-- The phase of finger `n` starts (R295); a boost phase keeps the gains in force at its start (R300), and one under a grant may yield a
boost-rise sample, of its target then (R307). -/
def State.startPhase (s : State) (n : Nat) : State :=
  let fast := s.openFast n
  let s := s.dutyMark n
  let x := s.fng n
  let s := (s.put (F.FNG_STAT_PHASE n) x.next).put (F.FNG_STAT_STATE n) fRun
  let boost := phPsrc (s.phl n) == 1
  let g := s.gainsOf n
  let x := { x with
    phaseAt := s.clock, icut := x.icutNew.getD x.icut, icutNew := none, fast := fast, sub := false
    gains := if boost then some g else none
    riseTgt := if boost && s.flag (F.FNG_STAT_BOOST n) then some (s.phaseTarget n, g.2) else x.riseTgt }
  ((s.setFng n x).gflt n).palmRefresh (n / 4)

/-- The grant of palm `p` given to finger `n`, whose phase starts (R313). -/
def State.giveGrant (s : State) (p n : Nat) : State :=
  let s := ((s.raise (F.PLM_STAT_HVAL p)).put (F.PLM_STAT_HOLDER p) (n % 4)).count (F.PLM_GNT_COUNT p)
  ((s.setPalm p { s.palm p with grantAt := s.clock }).raise (F.FNG_STAT_BOOST n)).startPhase n

/-- The grant of palm `p` released: the head of its queue takes it (R313). -/
def State.releaseGrant (s : State) (p : Nat) : State :=
  match s.holder p with
  | none => s
  | some h =>
    let s := (s.put (F.FNG_STAT_BOOST h) 0).put (F.PLM_STAT_HVAL p) 0
    match (s.palm p).queue with
    | [] => s.palmRefresh p
    | n :: r => (s.setPalm p { s.palm p with queue := r }).giveGrant p n

/-- Finger `n` gives up its grant or its request (R297, R314). -/
def State.withdraw (s : State) (n : Nat) : State :=
  let p := n / 4
  let s := s.setPalm p { s.palm p with queue := (s.palm p).queue.filter (· != n) }
  if s.holder p = some n then s.releaseGrant p else s.palmRefresh p

/-- The request of finger `n` deferred: its phase starts from battery (R313). -/
def State.deferBoost (s : State) (n : Nat) : State :=
  let p := n / 4
  let s := s.setPalm p { s.palm p with queue := (s.palm p).queue.filter (· != n) }
  let s := ((s.raise (F.FNG_STAT_DEFERRED n)).countSat (F.PLM_DEF_COUNT p)).countSat (F.FNG_CNT_DEFER n)
  (s.setFng n { s.fng n with deferred := true }).startPhase n

/-- A boost request of finger `n` reaches its palm (R313). -/
def State.requestBoost (s : State) (n : Nat) : State :=
  let p := n / 4
  if s.holder p = some n then s.startPhase n
  else if s.get (F.PLM_STAT_CMD p) = 2 ∨ !s.usable p then s.deferBoost n
  else if (s.holder p).isNone then s.giveGrant p n
  else if (s.fng n).cfg (F.FNG_CFG_DEFER 0) = 0 then s.deferBoost n
  else
    let fast := s.openFast n
    let s := s.dutyMark n
    let s := (s.setPalm p { s.palm p with queue := (s.palm p).queue ++ [n] }).put (F.FNG_STAT_STATE n) fWait
    ((s.setFng n { s.fng n with waitAt := s.clock, duty := 0, satN := 0, openN := 0, fast := fast, sub := false }).gflt n).palmRefresh p

/-- Finger `n` enters phase `k` (R295, R313, R314). A boost phase after the 2 ms limit of its turn-on runs from battery (R328: DEFERRED). -/
def State.enterPhase (s : State) (n k : Nat) : State :=
  let s := s.setFng n { s.fng n with deferred := false, next := k }
  let boost := phPsrc ((s.fng n).phases.getD k (0, 0)).1 == 1
  let s := s.raiseIf (boost && (s.fng n).spent) (F.FNG_STAT_DEFERRED n)
  if boost && !(s.fng n).spent then s.requestBoost n
  else if s.holder (n / 4) = some n then (s.startPhase n).releaseGrant (n / 4)
  else s.startPhase n

/-- Finger `n` leaves its phase for another state: its switch opens and it decays (R297), fast where `fast` says so or it carried 10 A or more
(R360). -/
def State.leaveTo (s : State) (n st : Nat) (fast : Bool := false) : State :=
  let fast := fast || s.openFast n
  let s := s.dutyMark n
  let x := s.fng n
  let s := (s.put (F.FNG_STAT_STATE n) st).setFng n { x with deferred := false, gains := none, duty := 0, satN := 0, openN := 0, fast := fast, sub := false }
  (s.withdraw n).gflt n

/-! The dust-zone current cut (R363–R366). -/

/-- The largest k ≤ bound with k * k ≤ x, by binary digits. -/
def isqrtBits (x : Nat) : Nat → Nat → Nat
  | 0, r => r
  | k + 1, r =>
    let c := r + 2 ^ k
    isqrtBits x k (if c * c ≤ x then c else r)

/-- floor(sqrt x). -/
def isqrt (x : Nat) : Nat := isqrtBits x (x.log2 / 2 + 1) 0

/-- I_CUT in mA for a spark-energy limit in 0.1 mJ and an inductance of `num / den` in 10 µH units (R365). -/
def icutOf (espk num den : Nat) : Nat := isqrt (19208000 * espk * den / num) - 85

/-- I_CUT of finger `n` computed and published (R364, R365), from the working copy of BRM_FDZ (R378). -/
def State.dzCompute (s : State) (n : Nat) : State :=
  let x := s.fng n
  let lmax := bitField x.wfdz 15 0
  let lest := s.get (F.FNG_LEST_LEST n)
  let useLest := !wbit x.wfdz 25 && s.flag (F.FNG_LEST_LVALID n)
  let num := if useLest then 5 * lest else 4 * lmax
  let ovv := useLest && decide (4 * lmax < 5 * lest)
  let cut := if num = 0 then 0 else icutOf (bitField x.wfdz 24 16) num 4
  let s := s.setFng n { x with icutNew := some cut, dzDue := false }
  let s := (s.put (F.BRM_FLIM_ICUT n) cut).putB (F.BRM_FLIM_LSRC n) useLest
  if ovv && !s.flag (F.BRM_FLIM_LOVER n) then (s.raise (F.BRM_FLIM_LOVER n)).event 0x240A (fngPlace n) (p0 := n) (p1 := 2) else s

/-- The dust-zone checks of a profile pass (R363). -/
def State.dzOk (s : State) (n : Nat) : Bool :=
  s.get (F.BRM_FDZ_ESPK n) != 0 && decide (s.get (F.BRM_FDZ_ESPK n) ≤ 500) && s.get (F.BRM_FDZ_LMAX n) != 0 && !s.paired n

/-! Turn-on (R293, R294). -/

/-- A phase entry passes the check of R293. -/
def phaseOk (pair : Bool) (e : Nat × Nat) : Bool :=
  let l := e.1
  let h := e.2
  phEnd l != 3 && phDecay l != 3 && phPsrc l != 3 && l / 2 ^ 24 == 0 && h / 2 ^ 27 == 0
    && decide (phItgt l ≤ if pair then 16000 else 8000) && decide (phTime h ≤ 1000000)
    && (phPsrc l == 1 || phTsrc l || decide (phItgt l ≤ if pair then 6000 else 3000))
    && !(phEsel h && decide (23 < phEsrc h))

/-- The FNG_CFG and phases that finger `n` turns on with. -/
def State.profile (s : State) (n : Nat) : Nat × List (Nat × Nat) :=
  if (s.fng n).posture then (postureCfg, posturePhases)
  else (s.word (R.FNG_CFG n), (List.range (s.get (F.FNG_CFG_NPH n) + 1)).map (fun k => (s.word (R.FNG_PHL (8 * n + k)), s.word (R.FNG_PHH (8 * n + k)))))

/-- A hold is in force on finger `n` (R318, R319, R321). -/
def State.onHold (s : State) (n : Nat) : Bool := s.flag (F.FNG_STAT_OTEMP n) || s.flag (F.FNG_STAT_THERM n) || s.flag (F.FNG_STAT_DUTYLIM n)

/-- Finger `n` turns on (R293, R294, R311, R366). -/
def State.turnOn (s : State) (n : Nat) : State :=
  let x := s.fng n
  if s.slave n || x.ended || s.flag (F.FNG_STAT_OC n) then s
  else if s.outputsOff then s.setFng n { x with wasOn := s.drv.ovv }
  else if s.onHold n then s.leaveTo n fHeld
  else if !s.supplies (n / 4) then s.leaveTo n fNosup
  else
    let pr := s.profile n
    let dz := wbit pr.1 2
    let s := if dz then (s.setFng n { s.fng n with wfdz := s.word (R.BRM_FDZ n) }).dzCompute n else s
    if !(pr.2.all (phaseOk (wbit pr.1 1)) && (!dz || s.dzOk n)) then
      ((s.leaveTo n fOff).raise (F.FNG_STAT_CFGERR n)).event 0x2402 (fngPlace n) (p0 := n) (p1 := 6)
    else if dz && decide (s.get (F.BRM_FLIM_ICUT n) < 50) then
      ((s.leaveTo n fOff).raise (F.BRM_FLIM_DZBLK n)).event 0x240A (fngPlace n) (p0 := n) (p1 := 1)
    else
      let x := { s.fng n with wcfg := pr.1, wdith := if x.posture then 100 else s.word (R.FNG_DITH n), phases := pr.2, spent := false, q := 0 }
      (s.setFng n x).enterPhase n 0

/-- The code in force of finger `n` becomes `c` (R294, R296, R297). -/
def State.applyCode (s : State) (n c : Nat) : State :=
  let old := (s.fng n).code
  let s := s.setFng n { s.fng n with code := c, ended := (s.fng n).ended && c != 0 }
  if s.slave n || !s.fngEn n then s
  else if c = 0 ∧ old ≠ 0 then (if s.fst n = fOff ∨ s.fst n = fLatch ∨ s.fst n = fDecay then s else s.leaveTo n fDecay)
  else if c ≠ 0 ∧ old = 0 ∧ (s.fst n = fOff ∨ s.fst n = fDecay) then s.turnOn n
  else s

/-- A target word reaches the power die (R288, R44, R322). -/
def State.setTarget (s : State) (n w : Nat) (poisoned : Bool) : State :=
  if poisoned then
    ((s.raise (F.FNG_STAT_POISON n)).countSat (F.FNG_CNT_POISON n)).event 0xA403 (fngPlace n) (p0 := n)
  else
    let v := signedOf 32 w
    let c := clampInt 0 65535 v
    (s.raiseIf (c != v) (F.FNG_STAT_TGTSAT n)).applyCode n c.toNat

/-- A hold ends: finger `n` is released from HELD when no other hold stands (R321). -/
def State.unhold (s : State) (n : Nat) : State :=
  if s.onHold n || s.fst n != fHeld then s
  else if (s.fng n).code ≠ 0 ∧ s.fngEn n then (s.put (F.FNG_STAT_STATE n) fDecay).turnOn n |>.gflt n
  else (s.put (F.FNG_STAT_STATE n) fDecay).gflt n

/-- A hold begins on finger `n`, recorded in `f`, with the event of R322; `fast`: it decays fast into HELD (R321). -/
def State.hold (s : State) (n : Nat) (f : Fld) (code : Nat) (fast : Bool := false) : State :=
  if s.flag f then s
  else
    let s := (s.raise f).event 0x2402 (fngPlace n) (p0 := n) (p1 := code)
    if s.fst n = fLatch then s else s.leaveTo n fHeld fast

/-- The identified model of finger `n` lapses (R309); a dust-zone finger in a phase takes LMAX again at its next update (R364). -/
def State.clearModel (s : State) (n : Nat) : State :=
  let s := ((s.put (F.FNG_REST_RVALID n) 0).put (F.FNG_LEST_LVALID n) 0).put (F.FNG_LEST_LREST n) 0
  let x := s.fng n
  let s := s.setFng n { x with va := 0, ia := 0, mN := 0, lSamples := [], dzDue := x.dzDue || wbit x.wcfg 2 }
  s.put (F.FNG_TEMP_TID n) 0x8000

/-! What a change of a palm's supply does to its fingers (R311, R316). -/

/-- Palm `p` stops supplying. -/
def State.palmStop (s : State) (p : Nat) : State :=
  let s := match s.holder p with
    | some h => s.put (F.FNG_STAT_BOOST h) 0
    | none => s
  let s := (s.put (F.PLM_STAT_HVAL p) 0).setPalm p { s.palm p with queue := [] }
  let s := (palmFingers p).foldl (fun s n =>
    if !s.slave n && s.fngEn n && (s.fng n).code != 0 && !(s.fng n).ended && s.fst n != fHeld && s.fst n != fLatch && s.fst n != fNosup then
      s.leaveTo n fNosup
    else s) s
  s.palmRefresh p

/-- Palm `p` supplies again. -/
def State.palmResume (s : State) (p : Nat) : State :=
  ((palmFingers p).foldl (fun s n => if s.fst n == fNosup && (s.fng n).code != 0 && s.fngEn n then s.turnOn n else s) s).palmRefresh p

/-- What follows a change that may have changed whether palm `p` supplies; `was`: it did before. -/
def State.palmTurn (s : State) (p : Nat) (was : Bool) : State :=
  if was && !s.supplies p then s.palmStop p
  else if !was && s.supplies p then s.palmResume p
  else s.palmRefresh p

/-- Every waiting request of palm `p` is deferred at once (R313). -/
def State.deferAll (s : State) (p : Nat) : State := ((s.palm p).queue.foldl State.deferBoost s).palmRefresh p

/-- The command in force of palm `p` becomes `c` (R311, R313). -/
def State.applyPalm (s : State) (p c : Nat) : State :=
  let was := s.supplies p
  let s := (s.put (F.PLM_STAT_CMD p) c).palmTurn p was
  if c = 2 then s.deferAll p else s

/-- A command word reaches palm `p` (R311, R44). -/
def State.setPalmCmd (s : State) (p w : Nat) (poisoned : Bool) : State :=
  if poisoned then (s.raise (F.PLM_STAT_POISON p)).event 0xA403 (powerBlock 1) (p0 := 0x100 + p)
  else if 3 ≤ w then s.raise (F.PLM_STAT_CMDERR p)
  else s.applyPalm p w

/-- Palm `p` latches off on over-current (R316, R322). -/
def State.palmLatch (s : State) (p : Nat) : State :=
  let was := s.supplies p
  let s := ((s.raise (F.PLM_STAT_OC p)).raise ⟨R.PLM_SUM, p, p⟩).event 0xA404 (plmPlace p) (p0 := p)
  s.palmTurn p was

/-- What follows a change of reservoir `r` (R313, R356): requests on an unusable reservoir are deferred at once. -/
def State.resCheck (s : State) (r : Nat) : State :=
  [4 * r, 4 * r + 1, 4 * r + 2, 4 * r + 3].foldl (fun s p => if s.usable p then s else s.deferAll p) s

/-! Phase ends (R295, R296). -/

/-- The phase of finger `n` ends: the next one follows, or the profile's end. -/
def State.phaseEnd (s : State) (n : Nat) : State :=
  let k := s.get (F.FNG_STAT_PHASE n) + 1
  if k < (s.fng n).phases.length then s.enterPhase n k
  else
    let s := (s.raise (F.FNG_STAT_ENDED n)).setFng n { s.fng n with ended := true }
    s.leaveTo n fDecay

/-- The current at which END current reached is met: the target, or I_CUT of a dust-zone finger (R366). -/
def State.phaseReach (s : State) (n : Nat) : Rat :=
  if wbit (s.fng n).wcfg 2 then min (s.phaseTarget n) (((s.fng n).icut : Nat) / 1000) else s.phaseTarget n

/-! Forced off and restored (R519, R520, R522). -/

/-- Every grant ended and every queue emptied, nothing being passed on. -/
def State.grantsEnd (s : State) : State :=
  (List.range 8).foldl (fun s p =>
    let s := match s.holder p with
      | some h => (s.put (F.FNG_STAT_BOOST h) 0).put (F.PLM_STAT_HVAL p) 0
      | none => s
    s.setPalm p { s.palm p with queue := [] }) s

/-- Every finger switch opens with fast decay, and every palm shows whether it supplies; `note`: a finger that was in WAIT or RUN is to turn
on again. -/
def State.fingersOff (s : State) (note : Bool) : State :=
  let s := (List.range 32).foldl (fun s n =>
    let st := s.fst n
    if st = fRun ∨ st = fWait then (s.setFng n { s.fng n with wasOn := note }).leaveTo n fDecay true else s) s.grantsEnd
  (List.range 8).foldl (fun s p => s.palmRefresh p) s

/-- The codes and commands in force are restored: a finger that was in WAIT or RUN turns on again (R519). -/
def State.fingersBack (s : State) : State :=
  let s := (List.range 32).foldl (fun s n =>
    let was := (s.fng n).wasOn
    let s := s.setFng n { s.fng n with wasOn := false }
    if was && (s.fng n).code != 0 && s.fngEn n && (s.fst n == fOff || s.fst n == fDecay || s.fst n == fNosup) then s.turnOn n else s) s
  (List.range 8).foldl (fun s p => s.palmRefresh p) s

end Sys2Proof.Machine
end

