-- ==== Sys2Proof/Machine/Fingers.lean ====
section
/-! DEFINITION. Fingers and palms (spec/08_fingers_palms_solenoid_drive.md R286–R330). Currents come in µA, voltages in mV, times in
ns; the regulator's arithmetic is exact, with pi to 20 decimals (log 17). -/

namespace Sys2Proof.Machine

/-! Regulation (R299–R301). -/

/-- round_nearest of an exact number (R596). -/
def ratRound (x : Rat) : Int := (x + 1 / 2).floor

/-- 2 * pi, to 20 decimals (log 17). -/
def twoPi : Rat := 628318530717958647693 / 100000000000000000000

/-- Lg and Rg in force for finger `n`: those at the start of a boost phase stay until it ends (R300). -/
def State.gainsNow (s : State) (n : Nat) : Rat × Rat :=
  match (s.fng n).gains with
  | some g => g
  | none => s.gainsOf n

/-- The dither factor d at module time `t` (R301). -/
def ditherShape (t : Nat) (w : Nat) : Rat :=
  let x : Rat := ((t * bitField w 8 0 : Nat) : Rat) / 1000000000 + ((bitField w 25 18 : Nat) : Rat) / 256
  let ph := x - x.floor
  if wbit w 17 then 4 * (if ph < 1 / 2 then 1 / 2 - ph else ph - 1 / 2) - 1
  else if ph < 1 / 2 then 1 else -1

/-- The largest duty of finger `n` (R299). -/
def FngSt.dmax (x : FngSt) : Rat := 1 - ((x.cfg (F.FNG_CFG_PWMF 0) : Nat) : Rat) / 1000

/-- |x| of an exact number. -/
def ratAbs (x : Rat) : Rat := if x < 0 then -x else x

/-- The regulator step of finger `n` with mean current `i` A and palm voltage `vs` V (R300, R301, R366, R322). The integral term follows every
update of a phase; the duty stands at 0 with PSRC off and at 1 in a closed rise, and neither counts as full duty. -/
def State.regulate (s : State) (n : Nat) (i vs : Rat) : State :=
  let x := { s.fng n with cut := false, icut := min (s.fng n).icut ((s.fng n).icutNew.getD (s.fng n).icut) }
  let base := s.phaseTarget n
  let it := if phDith (s.phl n) then base + base * ((bitField x.wdith 16 9 : Nat) : Rat) / 1000 * ditherShape s.now x.wdith else base
  let lim : Rat := ((x.icut : Nat) : Rat) / 1000
  let sat := wbit x.wcfg 2 && decide (lim < it)
  let it := if sat then lim else it
  let s := s.raiseIf sat (F.BRM_FLIM_DZSAT n)
  let e := it - i
  let g := s.gainsNow n
  let w := twoPi * ((x.cfg (F.FNG_CFG_RBW 0) : Nat) : Rat) * 50
  let x := { x with q := min (max (x.q + w * g.2 * (1 / 50000) * e) (-vs)) vs }
  let x := { x with fast := s.openFast n }
  if phPsrc (s.phl n) = 2 then s.setFng n { x with duty := 0, satN := 0, openN := 0 }
  else if s.closedRise n then s.setFng n { x with duty := 1, satN := 0, openN := 0 }
  else
    let duty : Rat := if vs = 0 then 0 else min (max ((g.2 * it + w * g.1 * e + x.q) / vs) 0) x.dmax
    let atMax := decide (duty = x.dmax)
    let satN : Nat := if atMax && decide (it / 20 < ratAbs e) then x.satN + 1 else 0
    let openN : Nat := if atMax && decide (1 / 20 ≤ it) && decide (i < it / 10) then x.openN + 1 else 0
    let s := s.setFng n { x with duty := duty, satN := satN, openN := openN }
    let s := s.raiseIf (decide (250 ≤ satN)) (F.FNG_STAT_REGSAT n)
    if openN = 0 then s.put (F.FNG_STAT_OPEN n) 0 else s

/-- One inductance sample in H (R307): every 16 replace LEST by their mean. -/
def State.addL (s : State) (n : Nat) (l : Rat) : State :=
  let ls := (s.fng n).lSamples ++ [l]
  if ls.length < 16 then s.setFng n { s.fng n with lSamples := ls }
  else
    let mean := ratRound (ls.sum / 16 * 100000)
    let s := s.setFng n { s.fng n with lSamples := [] }
    let s := ((s.put (F.FNG_LEST_LEST n) (clampInt 0 65535 mean).toNat).raise (F.FNG_LEST_LVALID n)).put (F.FNG_LEST_LREST n) 0
    if wbit (s.fng n).wcfg 2 then s.dzCompute n else s

/-- An on-interval of a battery phase: `vOn` mV, `tOn` ns, `di` µA (R307). -/
def State.onSample (s : State) (n : Nat) (i : Rat) (vOn tOn di : Nat) : State :=
  if s.fst n = fRun ∧ phPsrc (s.phl n) = 0 ∧ 5000 ≤ di ∧ 2000 ≤ tOn then
    s.addL n ((((vOn : Nat) : Rat) / 1000 - (s.gainsNow n).2 * i) * ((tOn : Nat) : Rat) / 1000 / ((di : Nat) : Rat))
  else s

/-- The resistance sums of R306 take an update in. -/
def State.resistanceAdd (s : State) (n : Nat) (i vc : Rat) : State :=
  let x := s.fng n
  let x := if 1 / 10 ≤ i ∧ ratAbs (i - x.iPrev) < i / 500 then { x with va := x.va + vc, ia := x.ia + i, mN := x.mN + 1 } else x
  s.setFng n { x with iPrev := i }

/-- The time `dt` ns from 20 % to 80 % of its ITGT of the boost rise of finger `n`, as an inductance sample (R307). -/
def State.riseSample (s : State) (n dt : Nat) : State :=
  match (s.fng n).riseTgt with
  | none => s
  | some (tgt, rg) =>
    let s := s.setFng n { s.fng n with riseTgt := none }
    if 2000 ≤ dt ∧ 1 / 200 ≤ tgt * (3 / 5) then
      s.addL n ((((s.get (F.PLM_VP_VP (n / 4)) : Nat) : Rat) / 1000 - rg * (tgt / 2)) * (((dt : Nat) : Rat) / 1000000000) / (tgt * (3 / 5)))
    else s

/-- What an update reports of the past 20 µs: an on-interval or, with `vOn` = 0, the time from 20 % to 80 % of its ITGT of a boost rise (log 61). A rise
that has not been timed by the first update after its boost phase yields none. -/
def State.inductance (s : State) (n : Nat) (i : Rat) (rise : Option (Nat × Nat × Nat)) : State :=
  let boost := s.fst n == fRun && phPsrc (s.phl n) == 1
  let drop (s : State) : State := if boost then s else s.setFng n { s.fng n with riseTgt := none }
  match rise with
  | some (vOn, tOn, di) => if vOn = 0 then drop (s.riseSample n tOn) else drop (s.onSample n i vOn tOn di)
  | none => drop s

/-- The decay code that finger `n` is set to (R287). -/
def State.decayCode (s : State) (n : Nat) : Nat :=
  if s.fst n = fRun ∨ s.fst n = fWait then phDecay (s.phl n) else (s.fng n).cfg (F.FNG_CFG_OFFDEC 0)

/-- Recovery is blocked on palm `p`: it supplies from its reservoir, or that stands less than 2 V above its node (R315). -/
def State.recBlocked (s : State) (p : Nat) : Bool :=
  s.get (F.PLM_STAT_SRC p) == 2 || decide (s.get (F.BRM_V_V (p / 4)) < s.get (F.PLM_VP_VP p) + 2000)

/-- The decay of finger `n` while its switch is open (R287, R315, R321–R323, R360): 0 slow, 1 fast, 2 recovery. -/
def State.decayMode (s : State) (n : Nat) : Nat :=
  let x := s.fng n
  let p := n / 4
  if x.fast || s.fst n == fLatch then 1
  else if s.decayCode n = 2 ∧ (x.sub || s.flag (F.BRM_STAT_DIVNOW (p / 4)) || s.recBlocked p) then 1
  else s.decayCode n

/-- Recovery replaced by fast decay, and taken up again, at an update (R315). -/
def State.recSub (s : State) (n : Nat) : State :=
  let subst := s.decayCode n == 2 && s.fst n != fOff && !(s.fng n).fast && !(s.fst n == fRun && s.closedRise n) && s.recBlocked (n / 4)
  (s.setFng n { s.fng n with sub := subst }).raiseIf subst (F.FNG_STAT_RECSUB n)

/-- Current of finger `n` flows in recovery decay (R287). -/
def State.recoversInto (s : State) (n : Nat) : Bool :=
  decide (0 < bitField (s.word (R.FNG_IMEAS n)) 19 0) && s.fst n != fOff && !(s.fst (s.lead n) == fRun && s.closedRise (s.lead n))
    && s.decayMode (s.lead n) == 2

/-- The measured current word of finger `n` for `i` µA (R290). -/
def State.imeasWord (s : State) (n i : Nat) : Nat :=
  let l := s.lead n
  let x := min (rdiv (i * 65536 : Nat) 3000000).toNat 0xFFFFF
  x + bit (s.flag (F.FNG_STAT_BOOST l)) * 2 ^ 20 + bit ((s.fng l).deferred && s.fst l == fRun) * 2 ^ 21
    + bit (s.fst l == fHeld || s.fst l == fNosup) * 2 ^ 22 + bit (s.fst l == fLatch) * 2 ^ 23

/-- An update of finger `n` (R290, R300, R306, R307, R315, R318): its own mean current `i`, that of its channel `ir`, the palm voltage
less the switch drops `vs`, the palm node `vp`, the coil voltage `vc`, and an on-interval of the past update. -/
def State.fingerUpdate (s : State) (n i ir vs vp : Nat) (vc : Int) (rise : Option (Nat × Nat × Nat)) : State :=
  let s := s.put (F.PLM_VP_VP (n / 4)) (min vp 65535)
  let s := s.setWord (R.FNG_IMEAS n) (s.imeasWord n i)
  if s.slave n then s
  else
    let cur : Rat := ((ir : Nat) : Rat) / 1000000
    let s := s.inductance n cur rise
    let s := if (s.fng n).dzDue then s.dzCompute n else s
    let s := s.resistanceAdd n cur ((vc : Rat) / 1000)
    let s := if s.fst n = fRun then s.regulate n cur (((vs : Nat) : Rat) / 1000) else s
    let s := if 0 < ir then s.recSub n else s
    let s := s.dutyMark n
    s.put (F.FNG_MON_DUTY n) (min (s.fng n).dutyPct 127)

def execRegulatorUpdate (t : Nat) (n : Fin 32) (i ir vs vp : Nat) (vc : Int) (rise : Option (Nat × Nat × Nat)) (s : State) :
    Host.Outcome State Fault Refusal :=
  done ((s.atTime t).fingerUpdate n i ir vs vp vc rise)

/-! Phases and grants (R295–R297, R313, R314). -/

/-- The stamp of the latest edge of a phase's source (R292, R295). -/
def State.edgeStamp (s : State) (h : Nat) : Option Nat :=
  if phEsel h then (s.fin (phEsrc h)).last
  else match (s.line (phEsrc h)).strikes with
    | e :: _ => some e.2
    | [] => none

/-- The end condition of the running phase, with instantaneous current `i` A: (met, timed out) (R295). -/
def State.phaseOver (s : State) (n : Nat) (i : Rat) : Bool × Bool :=
  let l := s.phl n
  let h := s.phh n
  let x := s.fng n
  let out := phTime h != 0 && decide (x.phaseAt + phTime h * 1000 ≤ s.clock)
  match phEnd l with
  | 0 => (out, false)
  | 1 => (if phEdir h then decide (i ≤ s.phaseTarget n) else decide (s.phaseReach n ≤ i), out)
  | _ =>
    let started := x.phaseAt - (s.clock - s.now)
    ((match s.edgeStamp h with
      | some e => decide (started < e)
      | none => false), out)

/-- An end of the phase of finger `n` (R295): `i` µA flows; `rise` is the time from 20 % to 80 % of its ITGT of a boost rise. -/
def State.phaseEndEvent (s : State) (n i : Nat) (rise : Option Nat) : State :=
  if s.slave n || s.fst n != fRun then s
  else
    let o := s.phaseOver n (((i : Nat) : Rat) / 1000000)
    if !(o.1 || o.2) then s
    else
      let s := s.raiseIf (!o.1 && o.2) (F.FNG_STAT_PKTMO n)
      let s := match rise with
        | some dt => s.riseSample n dt
        | none => s
      s.phaseEnd n

def execPhaseEnd (t : Nat) (n : Fin 32) (i : Nat) (rise : Option Nat) (s : State) : Host.Outcome State Fault Refusal :=
  done ((s.atTime t).phaseEndEvent n i rise)

/-- The current of a decaying finger falls below 10 mA (R297). -/
def execDecayComplete (t : Nat) (n : Fin 32) (s : State) : Host.Outcome State Fault Refusal :=
  let s := s.atTime t
  done (if s.fst n = fDecay then (s.put (F.FNG_STAT_STATE n) fOff).gflt n else s)

/-- A waiting request reaches DEFER (R313). -/
def execBoostDefer (t : Nat) (n : Fin 32) (s : State) : Host.Outcome State Fault Refusal :=
  let s := s.atTime t
  let x := s.fng n
  done (if (s.palm (n / 4)).queue.contains n.val && decide (x.waitAt + x.cfg (F.FNG_CFG_DEFER 0) * 20000 ≤ s.clock) then s.deferBoost n else s)

/-- A grant reaches 2 ms (R314). -/
def execBoostTimeout (t : Nat) (p : Fin 8) (s : State) : Host.Outcome State Fault Refusal :=
  let s := s.atTime t
  match s.holder p with
  | none => done s
  | some h =>
    if (s.palm p).grantAt + 2000000 ≤ s.clock then
      done (((s.raise (F.FNG_STAT_BTMO h)).setFng h { s.fng h with spent := true }).phaseEnd h)
    else done s

/-- The instantaneous current of a dust-zone finger reaches I_CUT (R366): its switch opens, and a boost rise beyond it ends. -/
def execDzCurrentCut (t : Nat) (n : Fin 32) (s : State) : Host.Outcome State Fault Refusal :=
  let s := s.atTime t
  let x := s.fng n
  if s.slave n || s.fst n != fRun || !wbit x.wcfg 2 then done s
  else
    let rise := s.closedRise n
    let s := s.setFng n { x with cut := true, duty := 0, fast := s.openFast n }
    done (if rise then s.phaseEnd n else s)

/-! Calibration (R303–R305). -/

/-- The visit of FNG_CALPOS ends with a gain correction in ppm and an offset in 10 µA; the rotation moves on. Eight off-intervals that took more than
10 ms make no visit (R303, R305). -/
def execFingerCalVisit (t : Nat) (gain ofs : Int) (s : State) : Host.Outcome State Fault Refusal :=
  let s := s.atTime t
  let n := s.get F.FNG_CALPOS_POS
  if !(s.flag F.FNG_GCTL_CALEN && decide (s.clock ≤ s.drv.visitAt + 10000000)) then done s
  else
    let s := if gain.natAbs > 5000 ∨ ofs.natAbs > 500 then (s.raise (F.FNG_STAT_CALFAIL n)).event 0x2402 (fngPlace n) (p0 := n) (p1 := 7)
      else ((s.putS (F.FNG_CAL_GCOR n) gain).putS (F.FNG_CAL_OCOR n) ofs).setFng n { s.fng n with calAt := some s.clock }
    done ((s.put F.FNG_CALPOS_POS (n + 1)).withDrv { s.drv with visitAt := s.clock })

/-- A visit that is not complete after 10 ms is abandoned (R305). -/
def execFingerCalSkip (t : Nat) (s : State) : Host.Outcome State Fault Refusal :=
  let s := s.atTime t
  if s.flag F.FNG_GCTL_CALEN && decide (s.drv.visitAt + 10000000 ≤ s.clock) then
    done (((s.countSat F.FNG_CALPOS_CALSKIP).put F.FNG_CALPOS_POS (s.get F.FNG_CALPOS_POS + 1)).withDrv { s.drv with visitAt := s.clock })
  else done s

/-- FNG_MON:CALAGE, in ms. -/
def State.fngCalAge (s : State) (n : Nat) : Nat :=
  match (s.fng n).calAt with
  | none => 0xFFFF
  | some a => min (nearest (s.clock - a) 1000000) 0xFFFF

/-! Coil models (R306–R310, R599). -/

/-- The identified temperature, °C (R308). -/
def State.tid (s : State) (n : Nat) : Rat := 20 + ((s.fng n).rest / ((s.get (F.FNG_COIL_RREF n) : Nat) : Rat) - 1) * 100000 / 393

/-- The 10 ms step of R306, and the temperature of R308. -/
def State.resistanceStep (s : State) (n : Nat) : State :=
  let x := s.fng n
  if s.clock < x.stepAt + 10000000 then s
  else
    let good := decide (100 ≤ x.mN)
    let rn := x.va / x.ia * 1000
    let rest := if !good then x.rest else if s.flag (F.FNG_REST_RVALID n) then x.rest + (rn - x.rest) / 100 else rn
    let s := if good then s.raise (F.FNG_REST_RVALID n) else s
    let s := s.setFng n { x with rest := rest, va := 0, ia := 0, mN := 0, stepAt := s.clock, lastOk := if good then s.clock else x.lastOk }
    let s := s.put (F.FNG_REST_REST n) (clampInt 0 65535 (ratRound rest)).toNat
    let s := if 60000000000 < s.clock - (s.fng n).lastOk then s.put (F.FNG_REST_RVALID n) 0 else s
    if s.flag (F.FNG_REST_RVALID n) && s.get (F.FNG_COIL_RREF n) != 0 then s.putS (F.FNG_TEMP_TID n) (satS 16 (ratRound (s.tid n * 10)))
    else s.put (F.FNG_TEMP_TID n) 0x8000

def execResistanceStep (t : Nat) (n : Fin 32) (s : State) : Host.Outcome State Fault Refusal := done ((s.atTime t).resistanceStep n)

/-- The coil models written to the coil-model range (R310, R599). -/
def State.coilSave (s : State) : State :=
  (List.range 32).foldl (fun s n =>
    (s.writeWords (0x3011F0000 + 16 * n) [s.get (F.FNG_REST_REST n), s.get (F.FNG_LEST_LEST n), s.word (R.FNG_CAL n), 0]).dmaWrote (0x3011F0000 + 16 * n) 16) s

/-- The coil models read back at the power die's boot (R310, R599). -/
def State.coilLoad (s : State) : State :=
  (List.range 32).foldl (fun s n =>
    let a := 0x3011F0000 + 16 * n
    let r := s.readN a 2
    let l := s.readN (a + 4) 2
    let s := if r = 0 then s else (s.put (F.FNG_REST_REST n) r).setFng n { s.fng n with rest := ((r : Nat) : Rat) }
    let s := if l = 0 then s else (s.put (F.FNG_LEST_LEST n) l).raise (F.FNG_LEST_LREST n)
    s.setWord (R.FNG_CAL n) (s.readN (a + 8) 4)) s

def execCoilModelSave (t : Nat) (s : State) : Host.Outcome State Fault Refusal :=
  let s := s.atTime t
  done (if s.drv.savedAt + 60000000000 ≤ s.clock then s.coilSave.withDrv { s.drv with savedAt := s.clock } else s)

/-! Protection (R318–R322). -/

/-- The duty window of finger `n` reaches DLIM, or falls to half of it (R318). -/
def State.dutyLimit (s : State) (n : Nat) : State :=
  let s := s.dutyMark n
  let x := s.fng n
  let lim := fieldOf (F.FNG_DUTY_DLIM 0) x.dutyCfg
  let s := s.put (F.FNG_MON_DUTY n) (min x.dutyPct 127)
  if s.flag (F.FNG_STAT_DUTYLIM n) then
    if x.dutyLe lim 2 then (s.put (F.FNG_STAT_DUTYLIM n) 0).unhold n else s
  else if fieldOf (F.FNG_DUTY_DEN 0) x.dutyCfg = 1 ∧ !s.paired n ∧ x.dutyGe lim 1 then s.hold n (F.FNG_STAT_DUTYLIM n) 4
  else s

def execDutyLimit (t : Nat) (n : Fin 32) (s : State) : Host.Outcome State Fault Refusal := done ((s.atTime t).dutyLimit n)

/-- A step of the two-node model of the pair led by finger `n`, with the rms current in A (R319). -/
def State.thermalStep (s : State) (n : Nat) (irms : Rat) : State :=
  if !(s.flag (F.FNG_TH2_TEN n) && s.paired n) then s
  else
    let x := s.fng n
    let num (f : Fld) : Rat := ((s.get f : Nat) : Rat)
    let amb : Rat := (s.getS (F.FNG_TH2_TAMB n) : Rat)
    let rvalid := s.flag (F.FNG_REST_RVALID n)
    let rc := if rvalid then x.rest / 1000 else num (F.FNG_COIL_RREF n) / 1000 * (1 + 393 / 100000 * (x.tw - 20))
    let p := irms * irms * rc
    let flow := (x.tw - x.tb) / (num (F.FNG_TH0_RWB n) / 100)
    let tw := x.tw + (p - flow) / 1000 / (num (F.FNG_TH1_CW n) / 100)
    let tb := x.tb + ((tw - x.tb) / (num (F.FNG_TH0_RWB n) / 100) - (x.tb - amb) / (num (F.FNG_TH0_RBA n) / 100)) / 1000 / (num (F.FNG_TH1_CB n) / 10)
    let tc := if rvalid then max tw (s.tid n) else tw
    let s := (s.setFng n { x with tw := tw, tb := tb }).putS (F.FNG_TEMP_TMOD n) (satS 16 (ratRound (tw * 10)))
    let s := if num (F.FNG_TH2_TTRIP n) ≤ tc then s.hold n (F.FNG_STAT_THERM n) 5 else s
    if s.flag (F.FNG_STAT_THERM n) && decide (tw ≤ num (F.FNG_TH2_TRST n)) then (s.put (F.FNG_STAT_THERM n) 0).unhold n else s

def execPairThermalStep (t : Nat) (n : Fin 16) (irms : Nat) (s : State) : Host.Outcome State Fault Refusal :=
  done ((s.atTime t).thermalStep (2 * n) (((irms : Nat) : Rat) / 1000000))

/-- A switch at 170 °C (R321): a finger's holds it, a palm's stops the palm. -/
def execSwitchOvertemp (t : Nat) (x : Sum (Fin 32) (Fin 8)) (s : State) : Host.Outcome State Fault Refusal :=
  let s := s.atTime t
  match x with
  | .inl n => done (s.hold (s.lead n) (F.FNG_STAT_OTEMP (s.lead n)) 3 true)
  | .inr p =>
    if s.flag (F.PLM_STAT_OTEMP p) then done s
    else
      let was := s.supplies p
      done (((s.raise (F.PLM_STAT_OTEMP p)).event 0x2410 (plmPlace p) (p0 := p)).palmTurn p was)

/-- A switch below 150 °C (R321). -/
def execSwitchTempRecover (t : Nat) (x : Sum (Fin 32) (Fin 8)) (s : State) : Host.Outcome State Fault Refusal :=
  let s := s.atTime t
  match x with
  | .inl n => done ((s.put (F.FNG_STAT_OTEMP (s.lead n)) 0).unhold (s.lead n))
  | .inr p =>
    let was := s.supplies p
    done ((s.put (F.PLM_STAT_OTEMP p) 0).palmTurn p was)

/-- A finger current above 10 A for 2 µs (R322). -/
def execFingerOvercurrent (t : Nat) (n : Fin 32) (s : State) : Host.Outcome State Fault Refusal :=
  let s := s.atTime t
  let l := s.lead n
  done (((s.raise (F.FNG_STAT_OC l)).leaveTo l fLatch true).event 0xA401 (fngPlace l) (p0 := l))

/-- A write of FNG_CTL{n}: REARM clears OC, and turn-on follows if the code is nonzero (R322). -/
def State.wFngCtl (s : State) (m : Master) (n v : Nat) : Acc2 :=
  if !s.isOwner m then (s, stNotOwner)
  else if wbit v 0 then
    let s := s.put (F.FNG_STAT_OC n) 0
    if s.fst n != fLatch then okay s
    else
      let s := (s.put (F.FNG_STAT_STATE n) fDecay).gflt n
      okay (if (s.fng n).code ≠ 0 ∧ s.fngEn n then s.turnOn n else s)
  else okay s

/-- 5 ms at full duty with the current below 10 % of a target of 50 mA or more (R322, R309). -/
def execOpenLoadDetect (t : Nat) (n : Fin 32) (s : State) : Host.Outcome State Fault Refusal :=
  let s := s.atTime t
  if 250 ≤ (s.fng n).openN ∧ !s.flag (F.FNG_STAT_OPEN n) then
    done (((s.raise (F.FNG_STAT_OPEN n)).event 0x2402 (fngPlace n) (p0 := n) (p1 := 1)).clearModel n)
  else done s

/-- An FNG node below 2 V for 100 µs with its switch open and its palm supplying, or the end of that (R322, R309). -/
def execShortToGround (t : Nat) (n : Fin 32) (present : Bool) (s : State) : Host.Outcome State Fault Refusal :=
  let s := s.atTime t
  let l := s.lead n
  let p := l / 4
  if !present then done (s.put (F.FNG_STAT_SHGND l) 0)
  else if s.get (F.PLM_STAT_SRC p) = 0 ∨ s.flag (F.FNG_STAT_SHGND l) then done s
  else
    let s := ((s.raise (F.FNG_STAT_SHGND l)).raise (F.PLM_STAT_SGND p)).event 0x2402 (fngPlace l) (p0 := l) (p1 := 2)
    let s := s.clearModel l
    done (if s.flag (F.PLM_CFG_SGOFF p) then s.palmLatch p else s)

/-! Palms (R316). -/

/-- The current of palm `p` above ILIM for 2 µs. -/
def execPalmOvercurrent (t : Nat) (p : Fin 8) (s : State) : Host.Outcome State Fault Refusal := done ((s.atTime t).palmLatch p)

/-- A write of PLM_CTL{p}: REARM clears OC and the palm resumes. -/
def State.wPlmCtl (s : State) (m : Master) (p v : Nat) : Acc2 :=
  if !s.isOwner m then (s, stNotOwner)
  else if wbit v 0 then
    let was := s.supplies p
    okay (((s.put (F.PLM_STAT_OC p) 0).put ⟨R.PLM_SUM, p, p⟩ 0).palmTurn p was)
  else okay s

/-- The second's mean current in mA and peak in 10 mA of palm `p`; above 9.0 A it sets OVLD. -/
def execPalmOverload (t : Nat) (p : Fin 8) (iavg ipk : Nat) (s : State) : Host.Outcome State Fault Refusal :=
  let s := s.atTime t
  let s := (s.put (F.PLM_I_IAVG p) (min iavg 65535)).put (F.PLM_I_IPK p) (min ipk 65535)
  done (if 9000 < iavg then ((s.raise (F.PLM_STAT_OVLD p)).raise ⟨R.PLM_SUM, 8 + p, 8 + p⟩).event 0x2405 (plmPlace p) (p0 := p) (p1 := iavg) else s)

/-! Register writes (R289, R294, R320, R372, R526). -/

/-- What follows a write of FNG_CFG{n} over `old` (R294, R297, R309, R526). -/
def State.cfgTurn (s : State) (n old : Nat) : State :=
  let new := s.word (R.FNG_CFG n)
  let s := if wbit old 1 != wbit new 1 then (s.clearModel n).clearModel (n + 1) else s
  let x := s.fng n
  if x.posture then
    let s := s.setFng n { x with posture := false }
    if wbit new 0 ∧ x.code ≠ 0 then s.turnOn n
    else if s.fst n = fOff ∨ s.fst n = fLatch then s else s.leaveTo n fDecay
  else if !wbit old 0 && wbit new 0 && x.code != 0 && (s.fst n == fOff || s.fst n == fDecay) then s.turnOn n
  else if wbit old 0 && !wbit new 0 && s.fst n != fOff && s.fst n != fLatch && s.fst n != fDecay then s.leaveTo n fDecay
  else s

/-- A write of FNG_CFG{n}: PAIR changes only while neither finger of the pair is enabled, its posture profile included. -/
def State.wFngCfg (s : State) (m : Master) (n v : Nat) : Acc2 :=
  let old := s.word (R.FNG_CFG n)
  let pairOk := wbit old 1 == wbit v 1 || (n % 2 == 0 && !s.fngEn n && !s.fngEn (n + 1))
  let dzOk := !(wbit (s.word R.BRM_DZLK) n && !wbit v 2)
  s.writeThen m (R.FNG_CFG n) v (·.cfgTurn n old) (guard := pairOk && !(n % 2 == 1 && wbit v 1) && dzOk)

/-- A write of FNG_GCTL: the rotation begins, or goes on, with a visit of its own (R303). -/
def State.wFngGctl (s : State) (m : Master) (v : Nat) : Acc2 :=
  let was := s.flag F.FNG_GCTL_CALEN
  s.writeThen m R.FNG_GCTL v (fun s => if !was && s.flag F.FNG_GCTL_CALEN then s.withDrv { s.drv with visitAt := s.clock } else s)

/-- A write of FNG_DUTY{n}: DEN only on a finger that is not paired. -/
def State.wFngDuty (s : State) (m : Master) (n v : Nat) : Acc2 := s.plainWrite m (R.FNG_DUTY n) v (guard := !(wbit v 21 && s.paired n))

/-- A write of FNG_TH2{n}: TEN only on a pair with its model complete; Tw and Tb begin at TAMB (R319). -/
def State.wFngTh2 (s : State) (m : Master) (n v : Nat) : Acc2 :=
  let set := n % 2 == 0 && s.paired n && s.get (F.FNG_COIL_RREF n) != 0 && s.get (F.FNG_TH0_RWB n) != 0 && s.get (F.FNG_TH0_RBA n) != 0
    && s.get (F.FNG_TH1_CW n) != 0 && s.get (F.FNG_TH1_CB n) != 0 && decide (bitField v 15 8 < bitField v 7 0)
  let was := s.flag (F.FNG_TH2_TEN n)
  s.writeThen m (R.FNG_TH2 n) v (guard := !wbit v 31 || set) (fun s =>
    if !was && s.flag (F.FNG_TH2_TEN n) then
      let amb : Rat := (s.getS (F.FNG_TH2_TAMB n) : Rat)
      s.setFng n { s.fng n with tw := amb, tb := amb }
    else s)

/-- Writing 1 clears CALSKIP and every FNG_CNT. -/
def State.wFngClr (s : State) (v : Nat) : Acc2 :=
  okay (if wbit v 0 then (List.range 32).foldl (fun s n => s.setWord (R.FNG_CNT n) 0) (s.put F.FNG_CALPOS_CALSKIP 0) else s)

/-- Writing 1 clears every PLM_DEF. -/
def State.wPlmClr (s : State) (v : Nat) : Acc2 :=
  okay (if wbit v 0 then (List.range 8).foldl (fun s p => s.setWord (R.PLM_DEF p) 0) s else s)

/-- What follows a W1C write of PLM_STAT{p}: PLM_SUM follows OVLD. -/
def State.wPlmStat (s : State) (m : Master) (p v : Nat) : Acc2 :=
  s.writeThen m (R.PLM_STAT p) v (fun s => s.put ⟨R.PLM_SUM, 8 + p, 8 + p⟩ (s.get (F.PLM_STAT_OVLD p)))

/-! Posture and resets (R323, R526). -/

/-- The posture code of finger `n`: 0 in the dust-zone mask (R526). -/
def State.postureCode (s : State) (n : Nat) : Nat := if wbit (s.word R.BRM_DZLK) n then 0 else s.get (F.PST_FCODE_CODE n)

/-- The posture made the value in force on finger `n`: the posture profile where the posture code is nonzero (R526). -/
def State.postureFinger (s : State) (n : Nat) : State :=
  let s := if s.fst n = fOff ∨ s.fst n = fLatch ∨ s.fst n = fDecay then s else s.leaveTo n fDecay
  (s.setFng n { s.fng n with posture := s.postureCode n != 0, ended := false, code := 0 }).applyCode n (s.postureCode n)

/-- The posture command of palm `p`. -/
def State.posturePalm (s : State) (p : Nat) : State := s.applyPalm p (s.get F.PST_PCMD_PCMD / 4 ^ p % 4)

/-- A block reset of FNG: every switch opens with fast decay; estimates and corrections stay (R323). -/
def State.fngReset (s : State) : State :=
  let s := (List.range 32).foldl (fun s n => if s.fst n = fOff then s else s.leaveTo n fDecay true) s.grantsEnd
  let kept := (List.range 32).flatMap (fun n => [(R.FNG_REST n, s.word (R.FNG_REST n)), (R.FNG_LEST n, s.word (R.FNG_LEST n)),
    (R.FNG_TEMP n, s.get (F.FNG_TEMP_TID n) + 0x8000 * 2 ^ 16), (R.FNG_CAL n, s.word (R.FNG_CAL n))])
  let states := (List.range 32).map (fun n => s.fst n)
  let s := (s.clearRegs R.FNG_GCTL (R.FNG_GCTL + 0x10000)).withDrv { s.drv with visitAt := s.clock }
  let s := kept.foldl (fun s e => s.setWord e.1 e.2) s
  let s := (List.range 32).foldl (fun s n =>
    let x := s.fng n
    let s := s.put (F.FNG_STAT_STATE n) (if states.getD n 0 = fOff then fOff else fDecay)
    let s := if wbit (s.word R.BRM_DZLK) n then s.raise (F.FNG_CFG_DZ n) else s
    s.setFng n { code := 0, fast := true, rest := x.rest, lastOk := x.lastOk, stepAt := x.stepAt, slotAt := s.clock, markAt := s.clock }) s
  (List.range 32).foldl State.postureFinger s

/-- A block reset of PLM (R323): the holder's phase goes on from battery, each waiting phase starts from battery. -/
def State.plmReset (s : State) : State :=
  let s := (List.range 8).foldl (fun s p =>
    let s := match s.holder p with
      | some h => (s.put (F.FNG_STAT_BOOST h) 0).put (F.PLM_STAT_HVAL p) 0
      | none => s
    s.deferAll p) s
  let s := s.clearRegs R.PLM_SUM (R.PLM_SUM + 0x10000)
  let s := s.withDrv { s.drv with palms := List.replicate 8 {} }
  (List.range 8).foldl (fun s p =>
    let s := s.posturePalm p
    if s.supplies p then s.palmResume p else s.palmStop p) s

end Sys2Proof.Machine
end

