-- ==== Sys2Proof/Machine/Gnss.lean ====
section
/-! DEFINITION. The GNSS baseband GNB and the IMU port (spec/11_gnss_baseband.md R380–R403). What the correlators measure comes with
the commands; ranges are computed exactly, in metres. -/

namespace Sys2Proof.Machine

/-- The state with GNB's own part at `g`. -/
def State.withGnb (s : State) (g : Gnb) : State := { s with gnb := g }

/-- Channel `c`. -/
def State.gch (s : State) (c : Nat) : GnbCh := s.gnb.chans.getD c {}

/-- Channel `c` set. -/
def State.setGch (s : State) (c : Nat) (x : GnbCh) : State := s.withGnb { s.gnb with chans := s.gnb.chans.set c x }

/-! Signals (R384). -/

/-- Chips, chip rate in Hz, code period in ms, band, highest PRN. -/
def sigRow (sig : Nat) : Option (Nat × Nat × Nat × Nat × Nat) :=
  match sig with
  | 1 => some (1023, 1023000, 1, 0, 32)
  | 2 => some (4092, 1023000, 4, 0, 36)
  | 3 => some (10230, 1023000, 10, 0, 63)
  | 4 => some (10230, 10230000, 1, 1, 32)
  | 5 => some (10230, 10230000, 1, 1, 36)
  | 6 => some (10230, 10230000, 1, 1, 63)
  | _ => none

def sigChips (sig : Nat) : Nat := match sigRow sig with | some r => r.1 | none => 0
def sigRate (sig : Nat) : Nat := match sigRow sig with | some r => r.2.1 | none => 1
def sigPeriod (sig : Nat) : Nat := match sigRow sig with | some r => r.2.2.1 | none => 1
def sigBand (sig : Nat) : Nat := match sigRow sig with | some r => r.2.2.2.1 | none => 0

/-- SIG and PRN name a signal. -/
def sigOk (sig prn : Nat) : Bool :=
  match sigRow sig with
  | some r => decide (1 ≤ prn) && decide (prn ≤ r.2.2.2.2)
  | none => false

/-! Channel states (R385). -/

def gIdle : Nat := 0
def gPull : Nat := 1
def gTrack : Nat := 2
def gReacq : Nat := 3
def gLost : Nat := 4

/-- STATE of channel `c`. -/
def State.gst (s : State) (c : Nat) : Nat := s.get (F.GNB_CHST_STATE c)

/-- NTRK brought up to date. -/
def State.gnbCount (s : State) : State := s.put F.GNB_STAT_NTRK ((List.range 96).countP (fun c => s.gst c == gTrack))

/-- What a channel keeps when it enters state `st` at module time `now`: out of TRACK it has no code lock; in IDLE and PULL nothing of what was measured
stands, and a later lock is a new carrier phase. -/
def GnbCh.enters (x : GnbCh) (st now : Nat) : GnbCh :=
  let x := { x with since := now, codeLock := x.codeLock && st == gTrack }
  if st = gIdle ∨ st = gPull then { x with bitSync := false, towSet := false, prevCn0 := none, prevCmc := none } else x

/-- Channel `c` enters a state; the end of a code lock is noted (R394). -/
def State.setGst (s : State) (c st : Nat) : State :=
  let x := s.gch c
  let s := if x.codeLock && st != gTrack then s.withGnb { s.gnb with codeAt := s.now } else s
  ((s.put (F.GNB_CHST_STATE c) st).setGch c (x.enters st s.now)).gnbCount

/-- Channel `c` loses carrier continuity: the code-minus-carrier differences that it enters into start anew. -/
def State.slipCh (s : State) (c : Nat) : State :=
  s.withGnb { s.gnb with chans := s.gnb.chans.mapIdx (fun i x =>
    if i = c then { x with slip := true, slipAt := s.now, prevCmc := none }
    else if x.prevCmc.any (fun p => p.1 == c) then { x with prevCmc := none } else x) }

/-- GNB's place code. -/
def gnbPlace : Nat := fieldBlock 5 0

/-- GNB runs: it is not down for a restart. In Beanie it runs on (R20, R396). -/
def State.gnbUp (s : State) : Bool := !s.restarting gnbPlace

/-- TVALID is set while some channel has CODELOCK and TOWSET (R394). -/
def State.timeValid (s : State) : State := s.raiseIf (s.gnb.chans.any (fun x => x.codeLock && x.towSet)) F.GNB_STAT_TVALID

/-- The predictions of channel `c`, valid at the epoch `k` after the last one: for the PAGE epochs that follow the commit (R393). -/
def State.predAt (s : State) (c k : Nat) : Option (Nat × Int) :=
  match (s.gch c).pred with
  | some (n0, r, d) => if n0 < s.gnb.ticks + k ∧ s.gnb.ticks + k ≤ n0 + s.get F.GNB_ITHR1_PAGE then some (r, d) else none
  | none => none

/-- The drift that the program last committed, ps/s: 0 before the first commit. -/
def State.driftNow (s : State) : Int := match s.gnb.clk with
  | some (_, d, _) => d
  | none => 0

/-- The clock prediction, valid at GNB_EPOCH `e`: for the PAGE epochs after its epoch (R393). -/
def State.clkAt (s : State) (e : Nat) : Option (Int × Int × Nat) :=
  match s.gnb.clk with
  | some (b, d, e0) =>
    let age := (e + 2 ^ 32 - e0) % 2 ^ 32
    if 0 < age ∧ age ≤ s.get F.GNB_ITHR1_PAGE then some (b, d, e0) else none
  | none => none

/-- Channel `c` may start as SIG, PRN: from the acquisition result, or from its predictions. -/
def State.canStart (s : State) (c sig prn : Nat) : Bool :=
  sigOk sig prn && ((s.get F.GNB_AQR0_RES == 2 && s.gnb.found == (sig, prn)) || (s.predAt c 1).isSome)

/-- A write of GNB_CHCFG{c} (R385); SIG and PRN name a signal of R384 whatever EN is (R593). -/
def State.wGnbChcfg (s : State) (m : Master) (c v : Nat) : Acc2 :=
  let sig := bitField v 4 1
  let prn := bitField v 10 5
  let st := s.gst c
  let running := st == gPull || st == gTrack || st == gReacq
  let same := running && sig == s.get (F.GNB_CHCFG_SIG c) && prn == s.get (F.GNB_CHCFG_PRN c)
  s.writeThen m (R.GNB_CHCFG c) v (fun s => if !wbit v 0 then s.setGst c gIdle else if same then s else s.setGst c gPull)
    (guard := sigOk sig prn && (!wbit v 0 || same || s.canStart c sig prn))

/-- Code and carrier lock of a channel in PULL or REACQ, with its band's samples present: the carrier phase starts anew, with SLIP (R385, R389). -/
def execChannelLock (t : Nat) (c : Fin 96) (s : State) : Host.Outcome State Fault Refusal :=
  let s := s.atTime t
  let st := s.gst c
  done (if s.gnbUp && (st == gPull || st == gReacq) && s.flag F.GNB_STAT_FECLK && s.flag (F.GNB_BCFG_EN (sigBand (s.get (F.GNB_CHCFG_SIG c)))) then
    let s := (s.slipCh c).setGst c gTrack
    (s.setGch c { s.gch c with codeLock := true }).timeValid
  else s)

/-- 50 ms without lock. -/
def execChannelLockLoss (t : Nat) (c : Fin 96) (s : State) : Host.Outcome State Fault Refusal :=
  let s := s.atTime t
  done (if s.gnbUp ∧ s.gst c = gTrack then s.setGst c gReacq else s)

/-- 500 ms of PULL or 1 s of REACQ without lock. -/
def execChannelLost (t : Nat) (c : Fin 96) (s : State) : Host.Outcome State Fault Refusal :=
  let s := s.atTime t
  let age := s.now - (s.gch c).since
  done (if s.gnbUp ∧ ((s.gst c = gPull ∧ 500000000 ≤ age) ∨ (s.gst c = gReacq ∧ 1000000000 ≤ age)) then s.setGst c gLost else s)

/-! The front end (R382, R398). -/

/-- A write of GNB_FECMD: a GO while a frame runs is refused. -/
def State.wFecmd (s : State) (m : Master) (v : Nat) : Acc2 :=
  if !s.isOwner m then (s, stNotOwner)
  else if wbit v 31 && s.flag F.GNB_FERD_BUSY then okay (s.raise F.GNB_STAT_FEERR)
  else
    let r := s.plainWrite m R.GNB_FECMD v
    okay (if wbit v 31 then (r.1.raise F.GNB_FERD_BUSY).withGnb { r.1.gnb with feRead := r.1.flag F.GNB_FECMD_RD } else r.1)

def execFeFrameDone (t : Nat) (data : BitVec 16) (s : State) : Host.Outcome State Fault Refusal :=
  let s := s.atTime t
  done (if s.flag F.GNB_FERD_BUSY then
    let s := s.put F.GNB_FERD_BUSY 0
    if s.gnb.feRead then s.put F.GNB_FERD_DATA data.toNat else s
  else s)

def execGclkLoss (t : Nat) (s : State) : Host.Outcome State Fault Refusal :=
  let s := s.atTime t
  let s := (List.range 96).foldl (fun s c => if s.gst c = gTrack then s.setGst c gReacq else s) s
  done ((s.put F.GNB_STAT_FECLK 0).event 0x2501 gnbPlace)

def execGclkReturn (t : Nat) (s : State) : Host.Outcome State Fault Refusal := done ((s.atTime t).raise F.GNB_STAT_FECLK)

/-! Acquisition (R386). -/

/-- TC that a signal admits. -/
def tcOk (sig tc : Nat) : Bool :=
  match sig with
  | 1 => decide (1 ≤ tc) && decide (tc ≤ 10)
  | 2 => tc == 4
  | 3 => tc == 10
  | 4 | 5 | 6 => tc == 1
  | _ => false

/-- Bin number `j` counts from the centre: 0, +1, -1, +2, -2, … -/
def binOf (j : Nat) : Int := if j % 2 = 1 then ((j / 2 + 1 : Nat) : Int) else -((j / 2 : Nat) : Int)

/-- The bins of a search. -/
def Acq.nbin (a : Acq) : Nat := 2 * (a.dhalf * a.tc / 500) + 1

/-- The Doppler of the running step, Hz, rounded. -/
def Acq.doppler (a : Acq) : Int := a.dcen + rdiv (binOf a.bin * 500) a.tc

/-- The phase of correlator `k` of the running step. -/
def Acq.phase (a : Acq) (k : Nat) : Nat := (a.pstart + 1024 * a.blk + k) % (2 * sigChips a.sig)

/-- A write of GNB_AQ0; SIG and PRN name a signal of R384 whatever GO is (R593). -/
def State.wAq0 (s : State) (m : Master) (v : Nat) : Acc2 :=
  let sig := bitField v 3 0
  let prn := bitField v 9 4
  let go := wbit v 31
  let tc := s.get F.GNB_AQ4_TC
  let ok := decide (bitField v 16 10 < 96) && sigOk sig prn && (!go || (!s.flag F.GNB_STAT_ACQBUSY && tcOk sig tc))
  let start (s : State) : State :=
    let nblk := s.get F.GNB_AQ2_NBLK
    let a : Acq := { sig := sig, prn := prn, auto := wbit v 17, chan := bitField v 16 10, dcen := s.getS F.GNB_AQ1_DCEN,
                     dhalf := s.get F.GNB_AQ2_DHALF, pstart := s.get F.GNB_AQ3_PSTART,
                     nb := if nblk = 0 then (2 * sigChips sig + 1023) / 1024 else nblk,
                     thr := s.get F.GNB_AQ4_THR, nnc := s.get F.GNB_AQ4_NNC, tc := tc, stepAt := s.now }
    let s := (s.raise F.GNB_STAT_ACQBUSY).setWord R.GNB_AQR0 1
    s.withGnb { s.gnb with acq := some a, found := (sig, prn) }
  s.writeThen m R.GNB_AQ0 v (fun s => if go then start s else s) (guard := ok)

/-- The search ends with `res` and a report. -/
def State.acqEnd (s : State) (res : Nat) (b : Nat × Nat × Int) : State :=
  let s := (s.put F.GNB_STAT_ACQBUSY 0).withGnb { s.gnb with acq := none }
  let s := (s.put F.GNB_AQR0_RES res).put F.GNB_AQR0_RATIO (min b.1 65535)
  (s.setWord R.GNB_AQR1 b.2.1).setWord R.GNB_AQR2 (bitsOf 32 b.2.2)

/-- AUTO: channel `c` is started as if EN had been written 1; one that is not IDLE is left alone. -/
def State.autoStart (s : State) (c sig prn : Nat) : State :=
  if s.gst c = gIdle then ((s.setWord (R.GNB_CHCFG c) (1 + sig * 2 + prn * 32))).setGst c gPull else s.raise F.GNB_STAT_CFGERR

/-- A step of the search ends with a peak of `ratio` tenths of a dB at correlator `peak`. -/
def State.acqStep (s : State) (ratio peak : Nat) : State :=
  match s.gnb.acq with
  | none => s
  | some a =>
    if s.now < a.stepAt + a.tc * a.nnc * 1000000 || !s.gnbUp then s
    else
      let here := (ratio, a.phase peak, a.doppler)
      if a.thr ≤ ratio then
        let s := s.acqEnd 2 here
        if a.auto then s.autoStart a.chan a.sig a.prn else s
      else
        let best := match a.best with
          | some b => if b.1 < ratio then here else b
          | none => here
        let last := decide (a.nb ≤ a.blk + 1)
        if last && decide (a.nbin ≤ a.bin + 1) then s.acqEnd 3 best
        else
          s.withGnb { s.gnb with acq := some { a with best := some best, stepAt := s.now, bin := if last then a.bin + 1 else a.bin,
                                                      blk := if last then 0 else a.blk + 1 } }

def execAcqStep (t : Nat) (ratio : Nat) (peak : Fin 1024) (s : State) : Host.Outcome State Fault Refusal := done ((s.atTime t).acqStep ratio peak)

/-! The measurement epoch (R387–R389, R392). -/

/-- The speed of light, m/s. -/
def lightSpeed : Rat := 299792458

/-- The wavelength of a band's carrier, m (R381). -/
def wavelength (band : Nat) : Rat := lightSpeed / (if band = 0 then 1575420000 else 1176450000)

/-- The transmit time of a measurement, s (R389). -/
def txTime (sig : Nat) (x : GnssMeas) : Rat :=
  ((x.cpcnt.toNat * sigPeriod sig : Nat) : Rat) / 1000 + ((x.codeph.toNat : Nat) : Rat) / ((65536 * sigRate sig : Nat) : Rat)

/-- The code-minus-carrier range less the common reception time, m. -/
def codeMinusCarrier (sig : Nat) (x : GnssMeas) : Rat := wavelength (sigBand sig) * (x.acp : Rat) / 2048 - lightSpeed * txTime sig x

/-- |x|. -/
def absRat (x : Rat) : Rat := if x < 0 then -x else x

/-- `x` modulo a week, within half a week of 0. -/
def weekWrap (x : Rat) : Rat := x - 604800 * ((x / 604800 + 1 / 2).floor : Rat)

/-- TOWSET of a measurement. -/
def towsetOf (x : GnssMeas) : Bool := x.flags.toNat / 8 % 2 == 1

/-- What channel `c` measured: as the command gives it, or open where the command gives nothing (log 7). -/
def State.measOf (s : State) (meas : List GnssMeas) (c : Fin 96) : GnssMeas × State :=
  match meas.find? (fun x => x.ch == c) with
  | some x => (x, s)
  | none =>
    let f := s.free
    ({ ch := c, codeph := BitVec.ofNat 32 f.1, cpcnt := BitVec.ofNat 32 (f.1 / 2 ^ 32), acp := signedOf 64 (f.1 / 2 ^ 64),
       dopp := signedOf 32 (f.1 / 2 ^ 128), cn0 := BitVec.ofNat 16 (f.1 / 2 ^ 160), flags := BitVec.ofNat 5 (f.1 / 2 ^ 176), bad := false }, f.2)

/-- The measurements of every channel in TRACK, in ascending order. -/
def State.latch (s : State) (meas : List GnssMeas) : List GnssMeas × State :=
  (List.finRange 96).foldl (fun (p : List GnssMeas × State) (c : Fin 96) => if p.2.gst c.val = gTrack then let r := p.2.measOf meas c; (p.1 ++ [r.1], r.2) else p) ([], s)

/-- The partner signal on the other band. -/
def partnerSig (sig : Nat) : Nat := if 1 ≤ sig ∧ sig ≤ 3 then sig + 3 else if 4 ≤ sig ∧ sig ≤ 6 then sig - 3 else 0

/-- The measurement of the same satellite on the other band. -/
def State.partner (s : State) (all : List GnssMeas) (x : GnssMeas) : Option GnssMeas :=
  all.find? (fun y => s.get (F.GNB_CHCFG_SIG y.ch) == partnerSig (s.get (F.GNB_CHCFG_SIG x.ch)) && s.get (F.GNB_CHCFG_PRN y.ch) == s.get (F.GNB_CHCFG_PRN x.ch))

/-- The difference of the two code-minus-carrier ranges of a satellite, band 0 less band 1, keyed by the partner's channel; none
where an input is not valid. `x` is the band-0 measurement. -/
def State.cmcDiff (s : State) (all : List GnssMeas) (x : GnssMeas) : Option (Nat × Rat) :=
  let sig := s.get (F.GNB_CHCFG_SIG x.ch)
  match s.partner all x with
  | some y =>
    if sigBand sig = 0 && towsetOf x && towsetOf y then some (y.ch.val, codeMinusCarrier sig x - codeMinusCarrier (partnerSig sig) y) else none
  | none => none

/-- S_CMC as the band-0 measurement `x` sees it. -/
def State.cmcBad (s : State) (all : List GnssMeas) (x : GnssMeas) : Bool :=
  let thr := s.get F.GNB_ITHR0_CMCTHR
  match s.cmcDiff all x, (s.gch x.ch).prevCmc with
  | some (y, d), some (y0, d0) =>
    thr != 0 && y == y0 && decide (((thr : Nat) : Rat) / 20 < absRat (d - d0))
  | _, _ => false

/-- The suspect flags of measurement `x` at GNB_EPOCH `e`: S_CMC, S_XCOR, S_POWER, S_RESID, S_CLOCK in bits 0 to 4 (R392). -/
def State.suspect (s : State) (all : List GnssMeas) (e : Nat) (x : GnssMeas) : Nat :=
  let c := x.ch
  let sig := s.get (F.GNB_CHCFG_SIG c)
  let cmc := if sigBand sig = 0 then s.cmcBad all x else match s.partner all x with
    | some y => s.cmcBad all y
    | none => false
  let xdb := s.get F.GNB_ITHR0_XDB
  let step : Int := ((1000000 / sigPeriod sig : Nat) : Int)
  let xcor := xdb != 0 && all.any (fun y =>
    let off := (y.dopp - x.dopp) % step
    y.ch != c && sigBand (s.get (F.GNB_CHCFG_SIG y.ch)) == sigBand sig && decide (x.cn0.toNat + 10 * xdb ≤ y.cn0.toNat)
      && (decide (off ≤ 2000) || decide (step - 2000 ≤ off)))
  let cnmax := s.get F.GNB_ITHR0_CNMAX
  let jump := s.get F.GNB_ITHR0_CNJMP
  let jumped := match (s.gch c).prevCn0 with
    | some p => jump != 0 && decide (5 * jump < ((x.cn0.toNat : Int) - (p : Int)).natAbs)
    | none => false
  let power := (cnmax != 0 && decide (10 * cnmax < x.cn0.toNat)) || jumped
  let rr := s.get F.GNB_ITHR1_RRTHR
  let rt := s.get F.GNB_ITHR1_RTHR
  let resid := match s.predAt c 0 with
    | some (_, d) =>
      let rate := -(wavelength (sigBand sig)) * (x.dopp : Rat) / 1000
      rr != 0 && decide (((rr : Nat) : Rat) / 10 < absRat (rate - ((d : Rat) / 1000 + lightSpeed * (s.driftNow : Rat) / 1000000000000)))
    | none => false
  let clock := match s.predAt c 0, s.clkAt e with
    | some (r, _), some (bias, drift, e0) =>
      match s.gnb.epochs.find? (fun p => p.1 == e0) with
      | some p =>
        let range := lightSpeed * weekWrap ((s.gnss : Rat) / 1000000000 - txTime sig x)
        let err := (bias : Rat) / 1000000000 + (drift : Rat) / 1000000000000 * (((s.now - p.2 : Nat) : Rat) / 1000000000)
        rt != 0 && towsetOf x && decide (((rt : Nat) : Rat) < absRat (range - (((r : Nat) : Rat) / 100 + lightSpeed * err)))
      | none => false
    | _, _ => false
  bit cmc + 2 * bit xcor + 4 * bit power + 8 * bit resid + 16 * bit clock

/-- Word 7 of the record of `x` (R389). -/
def State.recordFlags (s : State) (all : List GnssMeas) (e : Nat) (x : GnssMeas) : Nat :=
  x.flags.toNat + bit (s.gch x.ch).slip * 2 ^ 5 + bit (s.predAt x.ch 0).isSome * 2 ^ 6 + s.suspect all e x * 2 ^ 8

/-- The channel record of `x` (R389). -/
def State.chRecord (s : State) (all : List GnssMeas) (e : Nat) (x : GnssMeas) : List Nat :=
  let acp := bitsOf 64 x.acp
  [x.ch.val + s.get (F.GNB_CHCFG_SIG x.ch) * 2 ^ 8 + s.get (F.GNB_CHCFG_PRN x.ch) * 2 ^ 12, x.codeph.toNat, x.cpcnt.toNat, acp % 2 ^ 32,
   acp / 2 ^ 32, bitsOf 32 x.dopp, x.cn0.toNat + min (nearest (s.now - (s.gch x.ch).slipAt) 10000000) 65535 * 2 ^ 16, s.recordFlags all e x]

/-- The block of the latched measurements (R388); `beanie`: a block of a Beanie burst. -/
def State.blockWords (s : State) (all : List GnssMeas) (beanie : Bool) : List Nat :=
  let e := s.word R.GNB_EPOCH
  let g := bitsOf 64 s.gnss
  let flags := s.get F.GNB_STAT_TVALID + s.get F.HB_STAT_STATE * 2 + bit s.hb.stepped * 2 ^ 3 + bit (s.gnb.drops != 0) * 2 ^ 4
    + bit beanie * 2 ^ 5 + bit s.gnb.omitted * 2 ^ 6 + bit s.gnb.poison * 2 ^ 7 + bit (s.clkAt e).isSome * 2 ^ 8
  [e, s.tickCount % 2 ^ 32, s.now % 2 ^ 32, s.now / 2 ^ 32, g % 2 ^ 32, g / 2 ^ 32, flags, all.length, s.get F.HB_TUNC_UNC, s.gnb.drops,
   s.word (R.GNB_AGC 0) % 2 ^ 16 + s.word (R.GNB_AGC 1) % 2 ^ 16 * 2 ^ 16, 0, 0, 0, 0, 0] ++ all.flatMap (s.chRecord all e)

/-- What a latched measurement leaves in its channel's registers. -/
def State.chLatched (s : State) (all : List GnssMeas) (e : Nat) (x : GnssMeas) : State :=
  let c := x.ch.val
  (s.put (F.GNB_CHST_FLAGS c) (s.recordFlags all e x)).put (F.GNB_CN0_CN0 c) x.cn0.toNat

/-- CODELOCK, BITSYNC and TOWSET as measured; the end of a code lock is noted (R394). -/
def State.lockMeasured (s : State) (x : GnssMeas) : State :=
  let c := x.ch.val
  let lock := x.flags.toNat % 2 == 1
  let s := if (s.gch c).codeLock && !lock then s.withGnb { s.gnb with codeAt := s.now } else s
  s.setGch c { s.gch c with codeLock := lock, bitSync := x.flags.toNat / 4 % 2 == 1, towSet := towsetOf x }

/-- `n` samples of band `b` dropped (R398). -/
def State.dropSamples (s : State) (b n : Nat) : State :=
  if n = 0 then s
  else
    let s := ((s.raise F.GNB_STAT_DROP).countSat F.GNB_DCNT_COUNT n).withGnb { s.gnb with drops := min (s.gnb.drops + n) (2 ^ 32 - 1) }
    (List.range 96).foldl (fun s c => if s.gst c == gTrack && sigBand (s.get (F.GNB_CHCFG_SIG c)) == b then s.slipCh c else s) s

/-- What the latched values leave behind for the next epoch (R392): a channel that is not reported leaves none. -/
def State.epochKept (s : State) (all : List GnssMeas) : State :=
  let s := all.foldl (fun s x => s.setGch x.ch { s.gch x.ch with prevCn0 := some x.cn0.toNat, prevCmc := s.cmcDiff all x }) s
  let s := s.withGnb { s.gnb with chans := s.gnb.chans.mapIdx (fun i x =>
    if all.any (fun y => y.ch.val == i) then x else { x with prevCn0 := none, prevCmc := none }) }
  (all.filter (fun x => x.bad)).foldl (fun s x =>
    ((s.setGst x.ch gReacq).raise F.GNB_STAT_POISON).event 0xA701 gnbPlace (p1 := R.GNB_CHCFG x.ch % 2 ^ 32) (p2 := R.GNB_CHCFG x.ch / 2 ^ 32)) s

/-- What "since the previous block" counts goes into a block, and counts anew (R388, R389, R395). -/
def State.sinceTaken (s : State) (words bad : List Nat) (all : List GnssMeas) : GnbBlock × State :=
  let g := s.gnb
  let slips := (all.map (fun x => x.ch.val)).filter (fun c => (s.gch c).slip)
  let b : GnbBlock := { words := words, bad := bad, drops := g.drops, stepped := s.hb.stepped, omitted := g.omitted, poison := g.poison, slips := slips }
  let s := s.withGnb { g with drops := 0, omitted := false, poison := false, chans := g.chans.mapIdx (fun i x => if slips.contains i then { x with slip := false } else x) }
  (b, s.withHb { s.hb with stepped := false })

/-- The block that waits will not be written: what it told counts on, and the next block carries OMIT (R388). -/
def State.blockLost (s : State) : State :=
  match s.gnb.block with
  | none => s
  | some b =>
    let g := s.gnb
    let s := s.withGnb { g with block := none, drops := min (g.drops + b.drops) (2 ^ 32 - 1), omitted := true, poison := g.poison || b.poison,
                                chans := g.chans.mapIdx (fun i x => if b.slips.contains i then { x with slip := true } else x) }
    s.withHb { s.hb with stepped := s.hb.stepped || b.stepped }

/-- Every channel in TRACK latched and checked, and the block of it (R387–R389, R392); `beanie`: the block of a burst. -/
def State.measure (s : State) (meas : List GnssMeas) (agc : BitVec 16 × BitVec 16) (beanie : Bool) : GnbBlock × State :=
  let s := (s.setWord (R.GNB_AGC 0) agc.1.toNat).setWord (R.GNB_AGC 1) agc.2.toNat
  let e := s.word R.GNB_EPOCH
  let l := s.latch meas
  let all := l.1
  let s := all.foldl (fun s x => s.lockMeasured x) l.2
  let s := s.timeValid
  let s := s.withGnb { s.gnb with poison := s.gnb.poison || all.any (fun x => x.bad) }
  let words := s.blockWords all beanie
  let bad := (all.zipIdx.filter (fun p => p.1.bad)).map (fun p => p.2)
  let s := all.foldl (fun s x => s.chLatched all e x) s
  let r := s.sinceTaken words bad all
  (r.1, r.2.epochKept all)

/-- An epoch falls now: GNB_EPOCH counts it, in Beanie and in a restart too (R85, R387, R401). -/
def State.epochCount (s : State) : State :=
  let s := s.count F.GNB_EPOCH_EPOCH
  s.withGnb { s.gnb with ticks := s.gnb.ticks + 1, epochs := ((s.word R.GNB_EPOCH, s.now) :: s.gnb.epochs).take 16 }

/-- A GNSS epoch (R387, R392): every channel in TRACK is latched and checked; the block waits to be written. In Beanie and in a restart no block is
made, and the next one carries OMIT. -/
def State.epoch (s : State) (meas : List GnssMeas) (drops : Nat × Nat) (agc : BitVec 16 × BitVec 16) : State :=
  if !(s.timed && s.flag F.GNB_CFG_EN && s.now % 50000 == 0 && s.tickCount % s.hb.gnsp == 0) then s
  else
    let s := s.epochCount.blockLost
    if s.inBeanie || !s.gnbUp then (s.withGnb { s.gnb with omitted := true }).epochKept []
    else
      let r := ((s.dropSamples 0 drops.1).dropSamples 1 drops.2).measure meas agc false
      r.2.withGnb { r.2.gnb with block := some r.1 }

def execMeasurementEpoch (t : Nat) (meas : List GnssMeas) (drops : Nat × Nat) (agc : BitVec 16 × BitVec 16) (s : State) :
    Host.Outcome State Fault Refusal :=
  done ((s.atTime t).epoch meas drops agc)

/-- The block that waits is written, or omitted when no buffer is free (R388); none is written in Beanie (R396). -/
def State.blockWrite (s : State) : State :=
  match s.gnb.block with
  | none => s
  | some b =>
    let wr := s.get F.GNB_WR_WR
    let nbuf := s.get F.GNB_CFG_NBUF
    if s.inBeanie || !s.gnbUp then s.blockLost
    else if (wr + 2 ^ 16 - s.get F.GNB_REL_REL) % 2 ^ 16 < nbuf then
      let i := wr % nbuf
      let a := s.getAddr R.GNB_MBASE_LO R.GNB_MBASE_HI + i * 0x1000
      let s := if s.inDram a 0x1000 then b.bad.foldl (fun s k => s.markPoison (a + 64 + 32 * k) 32) ((s.writeWords a b.words).dmaWrote a (4 * b.words.length)) else s
      let s := s.put F.GNB_WR_WR (wr + 1)
      let w (k : Nat) := b.words.getD k 0
      let s := s.queRecord F.GNB_CFG_NQEN F.GNB_CFG_NQUEUE 0x50 [i + w 7 * 2 ^ 8 + w 6 % 2 ^ 16 * 2 ^ 16, w 0, w 1, w 2, w 3]
      s.withGnb { s.gnb with lastBlock := w 0, block := none }
    else s.blockLost

def execEpochBlockWrite (t : Nat) (s : State) : Host.Outcome State Fault Refusal := done (s.atTime t).blockWrite

/-- A write of GNB_REL, ignored as in VSC_REL when it would leave more than NBUF buffers unreleased. -/
def State.wGnbRel (s : State) (v : Nat) : Acc2 :=
  okay (if (s.get F.GNB_WR_WR + 2 ^ 16 - v % 2 ^ 16) % 2 ^ 16 ≤ s.get F.GNB_CFG_NBUF then s.put F.GNB_REL_REL v else s)

/-! Symbols (R391). -/

/-- A symbol record of channel `c`: `n` symbols, the first received at module time `at0`. -/
def State.symbolRecord (s : State) (c n syms at0 cpcnt : Nat) : State :=
  if !((s.gch c).bitSync && s.gst c == gTrack && decide (1 ≤ n) && decide (n ≤ 32) && s.gnbUp
      && (if s.inBeanie then s.gnb.burst.isSome else s.flag F.GNB_CFG_SQEN)) then s
  else
    let words := [c + s.get (F.GNB_CHCFG_SIG c) * 2 ^ 8 + n * 2 ^ 16, syms % 2 ^ n, at0 % 2 ^ 32, at0 / 2 ^ 32, cpcnt]
    let s := if s.inBeanie then s else s.queRecord F.GNB_CFG_SQEN F.GNB_CFG_SQUEUE 0x52 words
    let w := s.word R.GNB_SYMW
    (s.writeWords (0x400508000 + w % 1024 * 32) (words ++ [0, 0, 0])).setWord R.GNB_SYMW (w + 1)

def execSymbolRecord (t : Nat) (c : Fin 96) (n : Fin 33) (syms : Word) (at0 : Nat) (cpcnt : Word) (s : State) : Host.Outcome State Fault Refusal :=
  done ((s.atTime t).symbolRecord c n syms.toNat at0 cpcnt.toNat)

/-! Predictions, navigation words, time-valid (R390, R393, R394). -/

/-- A write of GNB_PRD{c}: it commits the pair. -/
def State.wPrd (s : State) (m : Master) (c v : Nat) : Acc2 :=
  s.writeThen m (R.GNB_PRD c) v (fun s =>
    s.setGch c { s.gch c with pred := some (s.gnb.ticks, s.word (R.GNB_PRR c), s.getS (F.GNB_PRD_RATE c)) })

/-- A write of GNB_CLKE: it commits the three. -/
def State.wClke (s : State) (m : Master) (v : Nat) : Acc2 :=
  s.writeThen m R.GNB_CLKE v (fun s => s.withGnb { s.gnb with clk := some (s.getS F.GNB_CLKB_BIAS, s.getS F.GNB_CLKD_DRIFT, s.word R.GNB_CLKE) })

/-- A write of GNB_NAVC: the staged words become visible together. -/
def State.wNavc (s : State) (v : Nat) : Acc2 :=
  okay (if wbit v 0 then s.withGnb { s.gnb with navp := (List.range 32).map (fun k => s.word (R.GNB_NAVP k)) } else s)

/-- TVALID cleared: Hatband leaves LOCKED (R59, R394). -/
def State.invalid (s : State) : State := if s.flag F.GNB_STAT_TVALID then (s.put F.GNB_STAT_TVALID 0).toHoldover else s

/-- 1 s in which no channel had CODELOCK (R394). -/
def execTvalidLoss (t : Nat) (s : State) : Host.Outcome State Fault Refusal :=
  let s := s.atTime t
  done (if s.gnb.codeAt + 1000000000 ≤ s.now ∧ !s.gnb.chans.any (fun x => x.codeLock) then s.invalid else s)

/-- The value of navigation port `p` (R390). -/
def State.navPort (s : State) (p : Nat) : Nat :=
  if p < 0x20 then s.gnb.navp.getD p 0
  else if p < 0x30 then s.word (R.IMU_RX (p - 0x20))
  else match p with
    | 0x30 => s.word R.IMU_SEQ
    | 0x31 => s.gnb.lastBlock
    | 0x32 => s.get F.GNB_STAT_TVALID + s.get F.HB_STAT_STATE * 2 + s.get F.GNB_STAT_NTRK * 2 ^ 8
    | _ => 0

/-- A write of GNB_CFG: EN written 1 sets WR, REL and EPOCH to 0. -/
def State.wGnbCfg (s : State) (m : Master) (v : Nat) : Acc2 :=
  s.writeThen m R.GNB_CFG v (fun s =>
    if wbit v 0 then
      let s := ((s.setWord R.GNB_WR 0).setWord R.GNB_REL 0).setWord R.GNB_EPOCH 0
      s.withGnb { s.gnb with epochs := [] }
    else s)

/-- Writing 1 clears GNB_DCNT. -/
def State.wGnbClr (s : State) (v : Nat) : Acc2 := okay (if wbit v 0 then s.setWord R.GNB_DCNT 0 else s)

/-! Beanie (R396). -/

/-- Channel `c` is in TRACK with TOWSET. -/
def State.keepable (s : State) (c : Nat) : Bool := s.gst c == gTrack && (s.gch c).towSet

/-- On entry: up to BMAX channels of the highest C/N0 are kept, the others return to IDLE; of equals the lower number is kept. -/
def State.gnbBeanie (s : State) : State :=
  let better (c d : Nat) : Bool :=
    s.keepable d && (decide (s.get (F.GNB_CN0_CN0 c) < s.get (F.GNB_CN0_CN0 d)) || (s.get (F.GNB_CN0_CN0 c) == s.get (F.GNB_CN0_CN0 d) && decide (d < c)))
  let s := s.blockLost
  let kept := (List.range 96).filter (fun c => s.keepable c && decide ((List.range 96).countP (better c) < s.get F.GNB_BNC_BMAX))
  (List.range 96).foldl (fun s c => if kept.contains c then s else s.setGst c gIdle) s

/-- The length of a burst, ns. -/
def State.burstLen (s : State) (long : Bool) : Nat := if long then s.get F.GNB_BNC_EPHLEN * 1000000000 else 50000000

/-- The second's burst begins; the first of every EPHINT × 60 is a long one. -/
def execBeanieBurst (t : Nat) (s : State) : Host.Outcome State Fault Refusal :=
  let s := s.atTime t
  done (if s.inBeanie && s.gnbUp && s.timed && s.flag F.GNB_CFG_EN && s.gnb.burst.isNone && s.now % 1000000000 == 0 then
    let every := s.get F.GNB_BNC_EPHINT * 60
    let s := s.withGnb { s.gnb with burst := some (s.now, every != 0 && s.now / 1000000000 % every == 0) }
    (List.range 96).foldl (fun s c => if s.gst c = gTrack then s.slipCh c else s) s
  else s)

/-- The burst ends, with the samples that it dropped of each band (R398): one block, flagged BEANIE, to the Beanie block buffer. -/
def State.burstEnd (s : State) (meas : List GnssMeas) (drops : Nat × Nat) (agc : BitVec 16 × BitVec 16) : State :=
  match s.gnb.burst with
  | none => s
  | some (t0, long) =>
    if s.now < t0 + s.burstLen long || !s.gnbUp then s
    else
      let r := ((s.dropSamples 0 drops.1).dropSamples 1 drops.2).measure meas agc true
      let words := r.1.words
      let s := r.2.writeWords 0x400501000 (words ++ List.replicate (1024 - words.length) 0)
      let s := r.1.bad.foldl (fun s k => s.markPoison (0x400501040 + 32 * k) 32) s
      s.withGnb { s.gnb with burst := none, lastBlock := words.getD 0 0 }

/-- On leaving Beanie the kept channels go on in TRACK; carrier continuity was not kept between bursts (R396). -/
def State.gnbWake (s : State) : State :=
  let s := s.withGnb { s.gnb with burst := none }
  (List.range 96).foldl (fun s c => if s.gst c = gTrack then s.slipCh c else s) s

/-- `bands`: the samples dropped in each band since the last block, and the bands' AGC words. -/
def execBeanieBurstEnd (t : Nat) (meas : List GnssMeas) (bands : (Nat × Nat) × BitVec 16 × BitVec 16) (s : State) : Host.Outcome State Fault Refusal :=
  done ((s.atTime t).burstEnd meas bands.1 bands.2)

/-! The IMU port (R397). -/

/-- The IMU port's place code. -/
def imuPlace : Nat := fieldBlock 5 2

/-- The first `n` bytes of IMU_TX, in the order in which they are shifted out (R397). -/
def State.imuOut (s : State) (n : Nat) : List Byte := (List.range n).map (fun i => BitVec.ofNat 8 (s.word (R.IMU_TX (i / 4)) / 256 ^ (i % 4)))

/-- The oldest strike of the IMU line that has not been taken: a transaction starts, or the strike is omitted while one runs. -/
def State.imuStrike (s : State) : State :=
  let due (p : Nat × Nat) : Bool := decide (p.2 ≤ s.now) && !s.imu.after.any (fun a => decide (p.2 ≤ a))
  if !(s.flag F.IMU_CFG_EN && s.awake imuPlace) then s
  else
    match (s.line (s.get F.IMU_CFG_TLINE)).strikes.reverse.find? due with
    | none => s
    | some (q, t0) =>
      if s.flag F.IMU_STAT_BUSY then { (s.countSat F.IMU_OCNT_COUNT).raise F.IMU_STAT_OMIT with imu := { s.imu with after := some t0 } }
      else
        { s.raise F.IMU_STAT_BUSY with
          imu := { seq := q, time := t0, cfg := s.word R.IMU_CFG, after := some t0, sdo := s.imuOut (s.get F.IMU_CFG_NBYTE), bad := s.poisoned (R.IMU_TX 0) ((s.get F.IMU_CFG_NBYTE + 3) / 4 * 4) } }

def execImuTransaction (t : Nat) (s : State) : Host.Outcome State Fault Refusal := done (s.atTime t).imuStrike

/-- The words that the bytes received make up. -/
def wordsOf : List Byte → List Nat
  | a :: b :: c :: d :: r => (a.toNat + b.toNat * 2 ^ 8 + c.toNat * 2 ^ 16 + d.toNat * 2 ^ 24) :: wordsOf r
  | [] => []
  | [a] => [a.toNat]
  | [a, b] => [a.toNat + b.toNat * 2 ^ 8]
  | [a, b, c] => [a.toNat + b.toNat * 2 ^ 8 + c.toNat * 2 ^ 16]

/-- A transaction completes, as IMU_CFG stood when it began; `bad`: the words of IMU_RX that met poison, delivered so in the registers and in the
record. Poison of IMU_TX is of what was shifted out, and of no word received (R398). -/
def State.imuDone (s : State) (rx : List Byte) (bad : List Nat) : State :=
  if !(s.flag F.IMU_STAT_BUSY && s.awake imuPlace) then s
  else
    let n := fieldOf F.IMU_CFG_NBYTE s.imu.cfg
    let words := wordsOf ((rx ++ List.replicate n 0).take n)
    let bad := bad.filter (fun j => decide (j < words.length))
    let s := (List.range words.length).foldl (fun s j => (s.setWord (R.IMU_RX j) (words.getD j 0)).cleanWord (R.IMU_RX j)) s
    let s := (s.setWord R.IMU_SEQ s.imu.seq).put64 R.IMU_TLO R.IMU_THI s.imu.time
    let s := s.put F.IMU_STAT_BUSY 0
    let s := bad.foldl (fun s j => s.markPoison (R.IMU_RX j) 4) s
    let at0 := match bad with
      | j :: _ => R.IMU_RX j
      | [] => R.IMU_TX 0
    let s := if !bad.isEmpty || s.imu.bad then (s.raise F.IMU_STAT_POISON).event 0xA701 imuPlace (p1 := at0 % 2 ^ 32) (p2 := at0 / 2 ^ 32) else s
    if fieldOf F.IMU_CFG_QEN s.imu.cfg = 0 then s
    else
      let q := fieldOf F.IMU_CFG_QUEUE s.imu.cfg
      let a := s.queEntry q (s.get (F.QUE_PIDX_PIDX q))
      let r := s.quePush q 0x53 ([n, s.imu.seq, s.imu.time % 2 ^ 32, s.imu.time / 2 ^ 32] ++ words)
      if r.get (F.QUE_PIDX_PIDX q) != s.get (F.QUE_PIDX_PIDX q) then bad.foldl (fun s j => s.markPoison (a + 24 + 4 * j) 4) r else r

def execImuTransactionDone (t : Nat) (rx : List Byte) (bad : List (Fin 16)) (s : State) : Host.Outcome State Fault Refusal :=
  done ((s.atTime t).imuDone rx (bad.map Fin.val))

/-- A write of IMU_CFG: while EN = 1 only EN may change (R403). The strikes after the enable are taken. -/
def State.wImuCfg (s : State) (m : Master) (v : Nat) : Acc2 :=
  let old := s.word R.IMU_CFG
  s.writeThen m R.IMU_CFG v (fun s => if wbit v 0 && !wbit old 0 then { s with imu := { s.imu with after := some s.now } } else s)
    (guard := !wbit old 0 || bitField v 28 1 == bitField old 28 1)

/-- Writing 1 clears IMU_OCNT. -/
def State.wImuClr (s : State) (v : Nat) : Acc2 := okay (if wbit v 0 then s.setWord R.IMU_OCNT 0 else s)

/-! Resets (R399, R401). -/

/-- A block reset of GNB: its registers, channels and search; blocks in field DRAM stay. -/
def State.gnbReset (s : State) : State :=
  let clk := s.get F.GNB_STAT_FECLK
  let s := s.invalid.clearRegs R.GNB_CFG (R.GNB_CFG + 0x10000)
  (s.put F.GNB_STAT_FECLK clk).withGnb {}

/-- A restart of GNB ends: registers and channel states stay, every channel reports SLIP, and a block that waited was not written (R401). -/
def State.gnbRestart (s : State) : State := (List.range 96).foldl State.slipCh s.blockLost

/-- A block reset of IMU: its registers; a transaction ends without result. -/
def State.imuReset (s : State) : State := { s.clearRegs R.IMU_CFG (R.IMU_CFG + 0x10000) with imu := { after := some s.now } }

end Sys2Proof.Machine
end

