-- ==== Sys2Proof/Machine/Crypto.lean ====
section
/-! DEFINITION. The cryptography of images (spec/17_update_tally_fuses.md R554–R556): SHA-384 (FIPS 180-4), AES-256 (FIPS 197), GCM
(NIST SP 800-38D), AES key unwrap (RFC 3394) and the verification of ECDSA P-384 (FIPS 186-5). -/

namespace Sys2Proof.Machine

/-- A byte string as blocks of `n` bytes, `k` of them at most. -/
def blocksOf (n : Nat) : Nat → List Byte → List (List Byte)
  | 0, _ => []
  | k + 1, bs => if bs.isEmpty then [] else bs.take n :: blocksOf n k (bs.drop n)

/-- The bytes of two strings, as far as the shorter goes, combined by exclusive or. -/
def xorBytes (a b : List Byte) : List Byte := List.zipWith (· ^^^ ·) a b

/-! SHA-384. -/

/-- The round constants of SHA-512 and SHA-384. -/
def shaK : List (BitVec 64) :=
  [0x428A2F98D728AE22, 0x7137449123EF65CD, 0xB5C0FBCFEC4D3B2F, 0xE9B5DBA58189DBBC, 0x3956C25BF348B538] ++
  [0x59F111F1B605D019, 0x923F82A4AF194F9B, 0xAB1C5ED5DA6D8118, 0xD807AA98A3030242, 0x12835B0145706FBE] ++
  [0x243185BE4EE4B28C, 0x550C7DC3D5FFB4E2, 0x72BE5D74F27B896F, 0x80DEB1FE3B1696B1, 0x9BDC06A725C71235] ++
  [0xC19BF174CF692694, 0xE49B69C19EF14AD2, 0xEFBE4786384F25E3, 0x0FC19DC68B8CD5B5, 0x240CA1CC77AC9C65] ++
  [0x2DE92C6F592B0275, 0x4A7484AA6EA6E483, 0x5CB0A9DCBD41FBD4, 0x76F988DA831153B5, 0x983E5152EE66DFAB] ++
  [0xA831C66D2DB43210, 0xB00327C898FB213F, 0xBF597FC7BEEF0EE4, 0xC6E00BF33DA88FC2, 0xD5A79147930AA725] ++
  [0x06CA6351E003826F, 0x142929670A0E6E70, 0x27B70A8546D22FFC, 0x2E1B21385C26C926, 0x4D2C6DFC5AC42AED] ++
  [0x53380D139D95B3DF, 0x650A73548BAF63DE, 0x766A0ABB3C77B2A8, 0x81C2C92E47EDAEE6, 0x92722C851482353B] ++
  [0xA2BFE8A14CF10364, 0xA81A664BBC423001, 0xC24B8B70D0F89791, 0xC76C51A30654BE30, 0xD192E819D6EF5218] ++
  [0xD69906245565A910, 0xF40E35855771202A, 0x106AA07032BBD1B8, 0x19A4C116B8D2D0C8, 0x1E376C085141AB53] ++
  [0x2748774CDF8EEB99, 0x34B0BCB5E19B48A8, 0x391C0CB3C5C95A63, 0x4ED8AA4AE3418ACB, 0x5B9CCA4F7763E373] ++
  [0x682E6FF3D6B2B8A3, 0x748F82EE5DEFB2FC, 0x78A5636F43172F60, 0x84C87814A1F0AB72, 0x8CC702081A6439EC] ++
  [0x90BEFFFA23631E28, 0xA4506CEBDE82BDE9, 0xBEF9A3F7B2C67915, 0xC67178F2E372532B, 0xCA273ECEEA26619C] ++
  [0xD186B8C721C0C207, 0xEADA7DD6CDE0EB1E, 0xF57D4F7FEE6ED178, 0x06F067AA72176FBA, 0x0A637DC5A2C898A6] ++
  [0x113F9804BEF90DAE, 0x1B710B35131C471B, 0x28DB77F523047D84, 0x32CAAB7B40C72493, 0x3C9EBE0A15C9BEBC] ++
  [0x431D67C49C100D4C, 0x4CC5D4BECB3E42B6, 0x597F299CFC657E2A, 0x5FCB6FAB3AD6FAEC, 0x6C44198C4A475817]

/-- The initial hash value of SHA-384. -/
def shaInit : List (BitVec 64) :=
  [0xCBBB9D5DC1059ED8, 0x629A292A367CD507, 0x9159015A3070DD17, 0x152FECD8F70E5939, 0x67332667FFC00B31] ++
  [0x8EB44A8768581511, 0xDB0C2E0D64F98FA7, 0x47B5481DBEFA4FA4]

/-- One round on the working variables and the window of sixteen schedule words, of which the first is used. -/
def shaRound (x : List (BitVec 64) × List (BitVec 64)) (k : BitVec 64) : List (BitVec 64) × List (BitVec 64) :=
  match x.1 with
  | [a, b, c, d, e, f, g, h] =>
    let w (i : Nat) : BitVec 64 := x.2.getD i 0
    let s0 := (w 1).rotateRight 1 ^^^ (w 1).rotateRight 8 ^^^ w 1 >>> 7
    let s1 := (w 14).rotateRight 19 ^^^ (w 14).rotateRight 61 ^^^ w 14 >>> 6
    let t1 := h + (e.rotateRight 14 ^^^ e.rotateRight 18 ^^^ e.rotateRight 41) + (e &&& f ^^^ ~~~e &&& g) + k + w 0
    let t2 := (a.rotateRight 28 ^^^ a.rotateRight 34 ^^^ a.rotateRight 39) + (a &&& b ^^^ a &&& c ^^^ b &&& c)
    ([t1 + t2, a, b, c, d + t1, e, f, g], x.2.drop 1 ++ [s1 + w 9 + s0 + w 0])
  | _ => x

/-- One block of 128 bytes into the hash value. -/
def shaBlock (v : List (BitVec 64)) (block : List Byte) : List (BitVec 64) :=
  let words := (blocksOf 8 16 block).map (fun b => BitVec.ofNat 64 (beNat b))
  List.zipWith (· + ·) v (shaK.foldl shaRound (v, words)).1

/-- SHA-384 of a byte string: 48 bytes. -/
def sha384 (m : List Byte) : List Byte :=
  let padded := m ++ 0x80 :: List.replicate ((239 - m.length % 128) % 128) 0 ++ beBytes 16 (8 * m.length)
  let v := (blocksOf 128 (padded.length / 128) padded).foldl shaBlock shaInit
  (v.take 6).flatMap (fun w => beBytes 8 w.toNat)

/-! AES-256. -/

/-- Multiplication by x in GF(2^8). -/
def gfDouble (a : Byte) : Byte := if a.msb then a <<< 1 ^^^ 0x1B else a <<< 1

/-- Multiplication in GF(2^8), by the bits of `b` from the least significant. -/
def gfMul (a b : Byte) : Byte := ((List.range 8).foldl (fun x i => (if b.getLsbD i then x.1 ^^^ x.2 else x.1, gfDouble x.2)) ((0 : Byte), a)).1

/-- The inverse in GF(2^8), of 0 the 0: the power 254. -/
def gfInv (a : Byte) : Byte :=
  let x := (List.range 6).foldl (fun x _ => gfMul (gfMul x x) a) a
  gfMul x x

/-- The substitution box. -/
def sbox (a : Byte) : Byte :=
  let b := gfInv a
  b ^^^ b.rotateLeft 1 ^^^ b.rotateLeft 2 ^^^ b.rotateLeft 3 ^^^ b.rotateLeft 4 ^^^ 0x63

/-- The inverse substitution box. -/
def sboxInv (a : Byte) : Byte := gfInv (a.rotateLeft 1 ^^^ a.rotateLeft 3 ^^^ a.rotateLeft 6 ^^^ 0x05)

/-- A word of the key schedule from the words before it, latest first: word `i` of a 256-bit key. -/
def keyWord (ws : List (List Byte)) (i : Nat) : List (List Byte) :=
  let prev := ws.headD []
  let rcon := (List.range (i / 8 - 1)).foldl (fun x _ => gfDouble x) 0x01
  let t := if i % 8 = 0 then xorBytes ((prev.drop 1 ++ prev.take 1).map sbox) [rcon, 0, 0, 0] else if i % 8 = 4 then prev.map sbox else prev
  xorBytes (ws.getD 7 []) t :: ws

/-- The fifteen round keys of a 256-bit key. -/
def roundKeys (key : List Byte) : List (List Byte) :=
  let first := (blocksOf 4 8 key).reverse
  blocksOf 16 15 ((((List.range 52).map (· + 8)).foldl keyWord first).reverse.flatten)

/-- The rows of the state shifted, row `r` by `k` × `r` places to the left. -/
def shiftRows (k : Nat) (b : List Byte) : List Byte := (List.range 16).map (fun i => b.getD ((i + 4 * k * (i % 4)) % 16) 0)

/-- Each column of the state multiplied by the circulant matrix of the coefficients `c`. -/
def mixColumns (c : List Byte) (b : List Byte) : List Byte :=
  (List.range 16).map (fun i => (List.range 4).foldl (fun x j => x ^^^ gfMul (c.getD j 0) (b.getD (i / 4 * 4 + (i + j) % 4) 0)) 0)

/-- AES-256: a block encrypted under the round keys. -/
def aesEncrypt (keys : List (List Byte)) (block : List Byte) : List Byte :=
  let start := xorBytes block (keys.headD [])
  let mid := ((keys.drop 1).take 13).foldl (fun b k => xorBytes (mixColumns [2, 3, 1, 1] (shiftRows 1 (b.map sbox))) k) start
  xorBytes (shiftRows 1 (mid.map sbox)) (keys.getD 14 [])

/-- AES-256: a block decrypted under the round keys. -/
def aesDecrypt (keys : List (List Byte)) (block : List Byte) : List Byte :=
  let start := (shiftRows 3 (xorBytes block (keys.getD 14 []))).map sboxInv
  let mid := ((keys.drop 1).take 13).reverse.foldl (fun b k => (shiftRows 3 (mixColumns [14, 11, 13, 9] (xorBytes b k))).map sboxInv) start
  xorBytes mid (keys.headD [])

/-! GCM. -/

/-- Multiplication in GF(2^128), bit 0 of the standard being the most significant. -/
def ghashMul (x y : BitVec 128) : BitVec 128 :=
  ((List.range 128).foldl (fun (z : BitVec 128 × BitVec 128) i =>
    (if x.getMsbD i then z.1 ^^^ z.2 else z.1, if z.2.getLsbD 0 then z.2 >>> 1 ^^^ (0xE1#128 <<< 120) else z.2 >>> 1)) (0, y)).1

/-- The blocks of a string as numbers, the last one filled with zeros. -/
def ghashWords (bs : List Byte) : List (BitVec 128) :=
  (blocksOf 16 (bs.length / 16 + 1) bs).map (fun b => BitVec.ofNat 128 (beNat b * 256 ^ (16 - b.length)))

/-- The string `data` encrypted or decrypted in counter mode, from counter 2. -/
def gcmCounter (keys : List (List Byte)) (iv data : List Byte) : List Byte :=
  (blocksOf 16 (data.length / 16 + 1) data).zipIdx.flatMap (fun b => xorBytes b.1 (aesEncrypt keys (iv ++ beBytes 4 (2 + b.2))))

/-- The tag of the additional data `aad` and the ciphertext `data`. -/
def gcmTag (keys : List (List Byte)) (iv aad data : List Byte) : List Byte :=
  let h := BitVec.ofNat 128 (beNat (aesEncrypt keys (List.replicate 16 0)))
  let lens := BitVec.ofNat 128 (8 * aad.length * 2 ^ 64 + 8 * data.length)
  let g := (ghashWords aad ++ ghashWords data ++ [lens]).foldl (fun y x => ghashMul (y ^^^ x) h) 0
  xorBytes (beBytes 16 g.toNat) (aesEncrypt keys (iv ++ beBytes 4 1))

/-- The plaintext of `data` under AES-256-GCM; none where the tag does not hold. -/
def gcmOpen (key iv aad data tag : List Byte) : Option (List Byte) :=
  let keys := roundKeys key
  if gcmTag keys iv aad data = tag then some (gcmCounter keys iv data) else none

/-! AES key wrap. -/

/-- A 256-bit key unwrapped; none where its check value does not hold. -/
def keyUnwrap (kek wrapped : List Byte) : Option (List Byte) :=
  let keys := roundKeys kek
  let step (x : List Byte × List (List Byte)) (t : Nat) : List Byte × List (List Byte) :=
    let i := (t - 1) % 4
    let b := aesDecrypt keys (xorBytes x.1 (beBytes 8 t) ++ x.2.getD i [])
    (b.take 8, x.2.set i (b.drop 8))
  let r := ((List.range 24).map (24 - ·)).foldl step (wrapped.take 8, blocksOf 8 4 (wrapped.drop 8))
  if r.1 = List.replicate 8 0xA6 then some r.2.flatten else none

/-! ECDSA on P-384. -/

/-- The prime of the field, the order of the base point, and the coefficient b of the curve. -/
def p384 : Nat := 2 ^ 384 - 2 ^ 128 - 2 ^ 96 + 2 ^ 32 - 1
def p384N : Nat := 0xFFFFFFFFFFFFFFFFFFFFFFFFFFFFFFFFFFFFFFFFFFFFFFFFC7634D81F4372DDF581A0DB248B0A77AECEC196ACCC52973
def p384B : Nat := 0xB3312FA7E23EE7E4988E056BE3F82D19181D9C6EFE8141120314088F5013875AC656398D8A2ED19D2A85C8EDD3EC2AEF

/-- The base point. -/
def p384G : Nat × Nat :=
  (0xAA87CA22BE8B05378EB1C71EF320AD746E1D3B628BA79B9859F741E082542A385502F25DBF55296C3A545E3872760AB7,
   0x3617DE4A96262C6F5D9E98BF9292DC29F8F41DBD289A147CE9DA3113B5F0B8C00A60B1CE1D7E819D7A431D7C90EA0E5F)

/-- `a` to the power `e` modulo `m`, by the lowest `n` bits of `e`. -/
def powMod (m a e n : Nat) : Nat :=
  ((List.range n).foldl (fun x i => (if e.testBit i then x.1 * x.2 % m else x.1, x.2 * x.2 % m)) (1, a % m)).1

/-- The inverse modulo the prime `m` below 2^384. -/
def invMod (m a : Nat) : Nat := powMod m a (m - 2) 384

/-- The sum of two points of the curve; none is the point at infinity. -/
def pointAdd : Option (Nat × Nat) → Option (Nat × Nat) → Option (Nat × Nat)
  | none, q => q
  | p, none => p
  | some (x1, y1), some (x2, y2) =>
    if x1 = x2 ∧ (y1 + y2) % p384 = 0 then none
    else
      let l := if x1 = x2 then (3 * x1 * x1 + (p384 - 3)) * invMod p384 (2 * y1) else (y2 + p384 - y1) * invMod p384 (x2 + p384 - x1)
      let x := (l * l + 2 * p384 - x1 - x2) % p384
      some (x, (l * (x1 + p384 - x) + p384 - y1) % p384)

/-- The point `q` times `k`, below 2^384. -/
def pointMul (k : Nat) (q : Nat × Nat) : Option (Nat × Nat) :=
  ((List.range 384).foldl (fun x i => (if k.testBit i then pointAdd x.1 x.2 else x.1, pointAdd x.2 x.2)) ((none : Option (Nat × Nat)), some q)).1

/-- The signature (r, s) of the message `m` verifies under the public key `q`, a point of the curve. -/
def ecdsaVerify (q : Nat × Nat) (r s : Nat) (m : List Byte) : Bool :=
  let w := invMod p384N s
  let e := beNat (sha384 m)
  decide (q.1 < p384) && decide (q.2 < p384) && q.2 * q.2 % p384 == (q.1 * q.1 * q.1 + (p384 - 3) * q.1 + p384B) % p384
    && decide (1 ≤ r) && decide (r < p384N) && decide (1 ≤ s) && decide (s < p384N)
    && (match pointAdd (pointMul (e * w % p384N) p384G) (pointMul (r * w % p384N) q) with
      | some p => p.1 % p384N == r
      | none => false)

end Sys2Proof.Machine
end

