-- ==== Sys2Proof/Machine/Can.lean ====
section
/-! DEFINITION. CAN channels, their transmit buffers and the object table (spec/12_can_message_stack.md R404–R427, R437–R443). The
frames that MSG makes for sessions and claims follow J1939-21, J1939-81 and ISO 11783-3 (log 20). -/

namespace Sys2Proof.Machine

/-- Channel `n`. -/
def State.can (s : State) (n : Nat) : CanSt := s.cans.getD n {}

/-- Channel `n` set. -/
def State.setCan (s : State) (n : Nat) (x : CanSt) : State := { s with cans := s.cans.set n x }

/-- Object `n`. -/
def State.obj (s : State) (n : Nat) : ObjSt := sparseGet (fun _ => {}) s.objs n

/-- Object `n` set. -/
def State.setObj (s : State) (n : Nat) (x : ObjSt) : State := { s with objs := sparsePut (fun _ => {}) s.objs n x }

/-- The place code of channel `n`, of OBJ and of MSG. -/
def canPlace (n : Nat) : Nat := fieldBlock 6 n
def objPlace : Nat := fieldBlock 6 5
def msgPlace : Nat := fieldBlock 6 4

/-- The bytes that a DLC code means (R420). -/
def dlcLen (c : Nat) : Nat := [0, 1, 2, 3, 4, 5, 6, 7, 8, 12, 16, 20, 24, 32, 48, 64].getD c 64

/-- The smallest DLC code of at least `n` bytes. -/
def lenDlc (n : Nat) : Nat := ((List.range 16).find? (fun c => decide (n ≤ dlcLen c))).getD 15

/-! Bit timing (R411). -/

/-- A bit rate in bit/s from BRP − 1, TSEG1 − 1 and TSEG2 − 1, as a pair: 80 MHz and its divisor. -/
def rateDiv (brp seg1 seg2 : Nat) : Nat := (brp + 1) * (3 + seg1 + seg2)

/-- EN = 1 is admitted by the bit timing. The data rate matters where FD is enabled (log 21). -/
def State.canTimingOk (s : State) (n : Nat) (fd : Bool) : Bool :=
  let nd := rateDiv (s.get (F.CAN_NBT_NBRP n)) (s.get (F.CAN_NBT_NTSEG1 n)) (s.get (F.CAN_NBT_NTSEG2 n))
  let dd := rateDiv (s.get (F.CAN_DBT_DBRP n)) (s.get (F.CAN_DBT_DTSEG1 n)) (s.get (F.CAN_DBT_DTSEG2 n))
  decide (20000 * nd ≤ 80000000) && decide (80000000 ≤ 1000000 * nd)
    && (!fd || (decide (80000000 ≤ 5000000 * dd) && (decide (80000000 ≤ 1000000 * dd) || s.flag (F.CAN_TDC_TDCEN n))))

/-- A write of CAN_CFG. -/
def State.wCanCfg (s : State) (m : Master) (n v : Nat) : Acc2 :=
  s.plainWrite m (R.CAN_CFG n) v (guard := !wbit v 0 || s.canTimingOk n (wbit v 1))

/-- A write of CAN_NBT, CAN_DBT or CAN_TDC at address `a`: refused while EN = 1. -/
def State.wCanTiming (s : State) (m : Master) (n a v : Nat) : Acc2 := s.plainWrite m a v (guard := !s.flag (F.CAN_CFG_EN n))

/-- The controller of channel `n` takes part in the bus. -/
def State.canOn (s : State) (n : Nat) : Bool := s.flag (F.CAN_CFG_EN n) && s.get (F.CAN_TRX_MODE n) != 0 && s.awake (canPlace n)

/-- The controller of channel `n` may send: in normal mode, and not in bus-off (R404, R413). -/
def State.canSends (s : State) (n : Nat) : Bool := s.canOn n && s.get (F.CAN_TRX_MODE n) == 1 && s.get (F.CAN_STAT_ESTATE n) != 2

/-! Error counts and states (R413, ISO 11898-1). -/

/-- The counters set, and ESTATE with them; entry to bus-off records an event. -/
def State.canErrors (s : State) (n tec rec' : Nat) : State :=
  let off := s.get (F.CAN_STAT_ESTATE n) == 2
  if off then s
  else
    let s := (s.put (F.CAN_ERR_TEC n) (min tec 255)).put (F.CAN_ERR_REC n) (min rec' 255)
    if 256 ≤ tec then
      let s := ((s.put (F.CAN_STAT_ESTATE n) 2).raise (F.CAN_STAT_BOFF n)).setCan n { s.can n with boffAt := s.clock, recovering := false }
      s.event 0xA602 (canPlace n) (p0 := n) (p1 := tec)
    else s.put (F.CAN_STAT_ESTATE n) (if 128 ≤ tec ∨ 128 ≤ rec' then 1 else 0)

/-- A frame received without error lowers REC; above 127 it becomes some value of 119 to 127. -/
def State.canGoodRx (s : State) (n : Nat) : State :=
  let r := s.get (F.CAN_ERR_REC n)
  let t := s.get (F.CAN_ERR_TEC n)
  if 127 < r then
    let f := s.free
    f.2.canErrors n t (119 + f.1 % 9)
  else s.canErrors n t (r - 1)

/-! Buffers and the list of frames that wait (R415–R418). -/

/-- Buffer `b` of channel `n`. -/
def State.buf (s : State) (n b : Nat) : Option TxBuf := ((s.can n).bufs.getD b none)

/-- Identifier priority: the lower number wins arbitration (R415). -/
def frameRank (f : CanFrame) : Nat := if f.ide then f.ident / 2 ^ 18 * 2 ^ 19 + 2 ^ 18 + f.ident % 2 ^ 18 else f.ident % 2 ^ 11 * 2 ^ 19

/-- The full buffers of `bufs` whose frames have the highest priority. -/
def topBufs (bufs : List (Option TxBuf)) : List Nat :=
  let rank (i : Nat) : Option Nat := (bufs.getD i none).map (fun x => frameRank x.frame)
  (List.range 3).filter (fun i => match rank i with
    | some r => (List.range 3).all (fun j => match rank j with | some r' => decide (r ≤ r') | none => true)
    | none => false)

/-- Buffer `b` of channel `n` set, and TXB with it. -/
def State.setBuf (s : State) (n b : Nat) (x : Option TxBuf) : State :=
  let bufs := (s.can n).bufs.set b x
  let was := if x.isSome then (s.can n).offered else (s.can n).offered.filter (· != b)
  (s.setCan n { s.can n with bufs := bufs, offered := was ++ (topBufs bufs).filter (fun i => !was.contains i) }).put (F.CAN_STAT_TXB n)
    (((List.range 3).map (fun i => if (bufs.getD i none).isSome then 2 ^ i else 0)).sum)

/-- A frame has ended on the bus of channel `n`: the controller offers the buffer of highest priority from now (R415). -/
def State.busFree (s : State) (n : Nat) : State := s.setCan n { s.can n with offered := topBufs (s.can n).bufs }

/-- A frame joins the list of channel `n`. -/
def State.addItem (s : State) (n : Nat) (i : TxItem) : State := s.setCan n { s.can n with items := (s.can n).items ++ [i] }

/-- A frame comes back to the list of channel `n`, before those that wait. -/
def State.backItem (s : State) (n : Nat) (i : TxItem) : State := s.setCan n { s.can n with items := i :: (s.can n).items }

/-- The frames of `src` leave the list of channel `n`. -/
def State.dropItems (s : State) (n : Nat) (src : TxSrc) : State := s.setCan n { s.can n with items := (s.can n).items.filter (fun i => i.src != src) }

/-- The buffer that holds a frame of `src`. -/
def State.bufOf (s : State) (n : Nat) (src : TxSrc) : Option Nat :=
  (List.range 3).find? (fun b => match s.buf n b with | some x => x.item.src == src | none => false)

/-! Source addresses (R437). -/

/-- MSG_AC STATE of channel `c`. -/
def State.acState (s : State) (c : Nat) : Nat := s.get (F.MSG_AC_STATE c)

/-- The source address of channel `c`; none while it claims or cannot claim. -/
def State.ownAddr (s : State) (c : Nat) : Option Nat :=
  match s.acState c with
  | 0 => some (s.get (F.MSG_AC_PREF c))
  | 2 => some (s.get (F.MSG_AC_ADDR c))
  | _ => none

/-! Objects (R419–R426). -/

/-- The data area of object `n`. -/
def State.objData (s : State) (n : Nat) : Nat := s.getAddr R.OBJ_DBASE_LO R.OBJ_DBASE_HI + 64 * n

/-- Object `n` is an enabled transmit object. -/
def State.objTx (s : State) (n : Nat) : Bool := s.flag (F.OBJ_CTL_EN n) && s.flag (F.OBJ_CTL_DIR n)

/-- TXPEND brought up to date. -/
def State.objRefresh (s : State) (n : Nat) : State :=
  let x := s.obj n
  s.putB (F.OBJ_ESTAT_TXPEND n) (x.pend.isSome || x.wait.isSome || x.inBuf)

/-- The pending request of object `n` withdrawn with TXERR (R431). -/
def State.objDrop (s : State) (n : Nat) : State :=
  let s := (s.dropItems (s.get (F.OBJ_CTL_CH n)) (.obj n)).raise (F.OBJ_ESTAT_TXERR n)
  (s.setObj n { s.obj n with pend := none, deadline := none }).objRefresh n

/-- The deadline of object `n` from now (R430). -/
def State.objDeadline (s : State) (n : Nat) : Option Nat :=
  let d := s.get (F.OBJ_TXP_DEADLINE n)
  if d = 0 then none else some (s.now + d * 100000)

/-- A request becomes pending, with the deadline that it has. -/
def State.objPend (s : State) (n dlc : Nat) (due : Option Nat) : State :=
  let c := s.get (F.OBJ_CTL_CH n)
  let x := s.obj n
  let s := if x.pend.isSome then s else s.addItem c { src := .obj n }
  let s := s.setObj n { x with pend := some dlc, deadline := due, lastDlc := dlc }
  let s := s.objRefresh n
  if s.flag (F.OBJ_CTL_SAS n) && s.acState c == 3 then s.objDrop n else s

/-- The pending request of object `n` withdrawn with TXERR; one that waits becomes pending (R425, R431). -/
def State.objWithdraw (s : State) (n : Nat) : State :=
  let x := s.obj n
  let s := s.objDrop n
  match x.wait with
  | some d => if s.objTx n then (s.setObj n { s.obj n with wait := none, waitDue := none }).objPend n d x.waitDue else s
  | none => s

/-- A request for object `n` (R425); `own`: it comes from a program, so the repeats begin again (R426). -/
def State.objRequest (s : State) (n dlc : Nat) (own : Bool) : State :=
  if !s.objTx n then s
  else
    let x := s.obj n
    let s := if own then s.setObj n { x with rpts := 0 } else s
    let due := s.objDeadline n
    if x.inBuf then (s.setObj n { s.obj n with wait := some dlc, waitDue := due }).objRefresh n
    else (s.setObj n { s.obj n with wait := none, waitDue := none }).objPend n dlc due

/-- The frame of object `n` has left its buffer: a waiting request becomes pending. -/
def State.objLeft (s : State) (n : Nat) : State :=
  let x := s.obj n
  let s := (s.setObj n { x with inBuf := false, wait := none, waitDue := none, deadline := none }).objRefresh n
  match x.wait with
  | some d => if s.objTx n then s.objPend n d x.waitDue else s
  | none => s

/-- A write of OBJ_TXREQ. -/
def State.wTxreq (s : State) (m : Master) (v : Nat) : Acc2 :=
  s.writeThen m R.OBJ_TXREQ v (fun s => if wbit v 31 then s.objRequest (bitField v 10 0) (bitField v 15 12) true else s)

/-- RPT × 10 ms after the last frame, and at each RPT that follows (R426). -/
def State.objRepeat (s : State) (n : Nat) : State :=
  let x := s.obj n
  let rpt := s.get (F.OBJ_TXP_RPT n)
  let max := s.get (F.OBJ_TXP_RPTMAX n)
  match x.rptFrom with
  | some a =>
    let due := a + rpt * 10000000
    if s.awake objPlace && s.objTx n && rpt != 0 && decide (due ≤ s.clock) && (max == 0 || decide (x.rpts < max)) then
      (s.setObj n { x with rpts := x.rpts + 1, rptFrom := some due }).objRequest n x.lastDlc false
    else s
  | none => s

def execObjectRepeat (t : Nat) (n : Fin 2048) (s : State) : Host.Outcome State Fault Refusal := done ((s.atTime t).objRepeat n)

/-- No match within TMO × 10 ms (R424). -/
def execObjectStale (t : Nat) (n : Fin 2048) (s : State) : Host.Outcome State Fault Refusal :=
  let s := s.atTime t
  let tmo := s.get (F.OBJ_CTL_TMO n)
  done (if s.awake objPlace && s.flag (F.OBJ_CTL_EN n) && !s.flag (F.OBJ_CTL_DIR n) && tmo != 0 && decide ((s.obj n).since + tmo * 10000000 ≤ s.clock) then
    s.raise (F.OBJ_ESTAT_STALE n) else s)

/-- A frame record (R432). -/
def State.frameRecord (s : State) (q : Nat) (n : Nat) (f : CanFrame) (unmatched : Bool) (o : Nat) : State :=
  let d (i : Nat) : Nat := (f.data.getD i 0).toNat
  let stamp := s.now - f.sof
  s.quePush q 0x63 [n + bit f.ide * 2 ^ 2 + bit f.fdf * 2 ^ 3 + f.dlc * 2 ^ 4 + bit unmatched * 2 ^ 8 + o * 2 ^ 20, f.ident, stamp % 2 ^ 32, stamp / 2 ^ 32,
    d 0 + d 1 * 2 ^ 8 + d 2 * 2 ^ 16 + d 3 * 2 ^ 24, d 4 + d 5 * 2 ^ 8 + d 6 * 2 ^ 16 + d 7 * 2 ^ 24]

/-- The identifier of object `n`: its low 11 bits when IDE = 0 (R419). -/
def State.objIdent (s : State) (n : Nat) : Nat :=
  if s.flag (F.OBJ_CTL_IDE n) then s.get (F.OBJ_ID_ID n) else s.get (F.OBJ_ID_ID n) % 2 ^ 11

/-- Object `n` accepts the frame (R421). -/
def State.objMatches (s : State) (n c : Nat) (f : CanFrame) : Bool :=
  s.flag (F.OBJ_CTL_EN n) && !s.flag (F.OBJ_CTL_DIR n) && s.get (F.OBJ_CTL_CH n) == c && s.flag (F.OBJ_CTL_IDE n) == f.ide
    && ((s.objIdent n ^^^ f.ident) &&& s.get (F.OBJ_MASK_MASK n)) == 0 && (!f.fdf || s.flag (F.OBJ_CTL_FDF n))

/-- The frame's first eight bytes in DLO and DHI; a shorter frame leaves the other bytes. -/
def State.objWords (s : State) (n : Nat) (data : List Byte) : State :=
  let old := s.get64 (R.OBJ_DLO n) (R.OBJ_DHI n)
  let d (i : Nat) : Nat := (data.getD i (BitVec.ofNat 8 (old / 2 ^ (8 * i)))).toNat
  (s.setWord (R.OBJ_DLO n) (d 0 + d 1 * 2 ^ 8 + d 2 * 2 ^ 16 + d 3 * 2 ^ 24)).setWord (R.OBJ_DHI n) (d 4 + d 5 * 2 ^ 8 + d 6 * 2 ^ 16 + d 7 * 2 ^ 24)

/-- Object `n` takes the frame (R420, R422, R424); `bad`: its data met a parity error (R439). -/
def State.objTake (s : State) (n c : Nat) (f : CanFrame) (bad : Bool) : State :=
  let a := s.objData n
  let s := if s.inDram a 64 then (s.writeBytes a f.data).dmaWrote a f.data.length else s
  let s := s.objWords n f.data
  let s : State := { s with poison := s.poison.filter (fun p => decide (p < R.OBJ_DLO n) || decide (R.OBJ_DLO n + 8 ≤ p)) }
  let s := if bad then (((s.markPoison a f.data.length).markPoison (R.OBJ_DLO n) 8).raise (F.OBJ_ESTAT_POISON n)).event 0xA606 objPlace (p0 := n) (p1 := c) else s
  let s := s.raiseIf (s.flag (F.OBJ_ESTAT_NEW n)) (F.OBJ_ESTAT_LOST n)
  let s := ((s.raise (F.OBJ_ESTAT_NEW n)).put (F.OBJ_ESTAT_STALE n) 0).putB (F.OBJ_ESTAT_FDFR n) f.fdf
  let s := ((s.put (F.OBJ_ESTAT_DLC n) f.dlc).count (F.OBJ_ESTAT_RCNT n)).put64 (R.OBJ_TLO n) (R.OBJ_THI n) (s.now - f.sof)
  let s := s.setObj n { s.obj n with since := s.clock }
  if s.flag (F.OBJ_CTL_QEN n) && s.flag F.MSG_CFG_RXEN then s.frameRecord (s.get (F.OBJ_CTL_QUEUE n)) c f false n else s

/-- A frame that MSG does not consume: to the lowest-numbered object that matches, or counted (R421). -/
def State.objReceive (s : State) (c : Nat) (f : CanFrame) (bad : Bool) : State :=
  match (List.range 2048).find? (fun n => s.objMatches n c f) with
  | some n => s.objTake n c f bad
  | none =>
    let s := s.countSat (F.CAN_RXNM_COUNT c)
    if s.flag F.MSG_CFG2_UNEN && s.flag F.MSG_CFG_RXEN then s.frameRecord (s.get F.MSG_CFG_RXQ) c f true 0 else s

/-! Object words (R419, R423). -/

/-- A write of word `k` (offset 4k) of object `n`. -/
def State.wObj (s : State) (m : Master) (n k v : Nat) : Acc2 :=
  let en := s.flag (F.OBJ_CTL_EN n)
  let tx := s.flag (F.OBJ_CTL_DIR n)
  match k with
  | 0 =>
    let old := s.word (R.OBJ_CTL n)
    s.writeThen m (R.OBJ_CTL n) v (guard := !en || (bitField v 15 1 == bitField old 15 1 && v / 2 ^ 24 == old / 2 ^ 24)) (fun s =>
      let now := s.flag (F.OBJ_CTL_EN n)
      if now && !en then s.setObj n { s.obj n with since := s.clock, rpts := 0, rptFrom := none }
      else if en && !now then
        let s := s.dropItems (s.get (F.OBJ_CTL_CH n)) (.obj n)
        (s.setObj n { s.obj n with pend := none, wait := none, waitDue := none, deadline := none, rptFrom := none }).objRefresh n
      else s)
  | 1 => s.plainWrite m (R.OBJ_ID n) v (guard := !en)
  | 2 =>
    if !s.isOwner m then (s, stNotOwner)
    else if tx then okay (s.setWord (R.OBJ_TXP n) v)
    else if en then kept (s.raise F.OBJ_STAT_CFGERR)
    else okay (s.put (F.OBJ_MASK_MASK n) v)
  | 3 => s.plainWrite m (R.OBJ_ESTAT n) v
  | 6 | 7 =>
    if tx then
      let s := s.setWord (R.OBJ_DLO n + 4 * (k - 6)) v
      let a := s.objData n
      okay (if s.inDram a 64 then (s.writeN (a + 4 * (k - 6)) 4 v).dmaWrote (a + 4 * (k - 6)) 4 else s)
    else okay s
  | _ => okay s

/-- The page that master `m` sees (R419). -/
def State.objPage (s : State) (m : Master) : Nat := ((assoc (m, R.OBJ_PAGE) s.perMaster).getD 0).toNat % 4

/-- Where a master's holding register for word `k` of an object stands: OBJ has one set for each master (R35, R423). -/
def objHold (k : Nat) : Nat := R.OBJ_PAGE + 0x4000 + 4 * k

/-- A read of STAT through the window captures the stamp and the data (R423). -/
def State.objStatRead (s : State) (m : Master) (n : Nat) : State :=
  let held := [(4, R.OBJ_TLO n), (5, R.OBJ_THI n), (6, R.OBJ_DLO n), (7, R.OBJ_DHI n)].foldl (fun h e => assocPut (m, objHold e.1) (s.reg e.2) h) s.held
  { s with held := held }

/-! Lane windows (R427). -/

/-- What a lane reads at port 0x0A00 + 4w + k, and whether it is poisoned; a disabled window reads zero. -/
def State.lanePort (s : State) (w k : Nat) : Nat × Bool :=
  if !s.flag (F.OBJ_LWIN_EN w) then (0, false)
  else
    let n := s.get (F.OBJ_LWIN_OBJ w)
    let a := match k with
      | 0 => R.OBJ_ESTAT n
      | 1 => R.OBJ_DLO n
      | 2 => R.OBJ_DHI n
      | _ => R.OBJ_TLO n
    (s.word a, s.poisoned a 4)

/-- A lane value for window `w`, word `k`, at the boundary (R427, R439). Data comes before commands. -/
def State.laneStage (s : State) (w k v : Nat) (poisoned : Bool) : State :=
  let n := s.get (F.OBJ_LWIN_OBJ w)
  if !s.flag (F.OBJ_LWIN_EN w) || !s.flag (F.OBJ_CTL_DIR n) || k == 3 then s.raise F.OBJ_STAT_LWERR
  else if poisoned then (s.raise F.OBJ_STAT_POISON).event 0xA606 objPlace (p0 := n) (p1 := s.get (F.OBJ_CTL_CH n))
  else if k = 0 ∧ (32 ≤ v ∨ 8 < v / 2 % 16) then s.raise F.OBJ_STAT_LWERR
  else if k = 0 then (if wbit v 0 then s.objRequest n (v / 2 % 16) true else s)
  else
    let d := R.OBJ_DLO n + 4 * (k - 1)
    let s : State := { s.setWord d v with poison := s.poison.filter (fun p => decide (p < d) || decide (d + 4 ≤ p)) }
    let a := s.objData n
    if s.inDram a 64 then (s.writeN (a + 4 * (k - 1)) 4 v).dmaWrote (a + 4 * (k - 1)) 4 else s

/-! Transceivers (R405, R406, R409). -/

/-- Dominant for 1.2 ms without a break; a transmitter in listen mode is recessive. -/
def execDominantTimeout (t : Nat) (n : Fin 4) (s : State) : Host.Outcome State Fault Refusal :=
  let s := s.atTime t
  done (if s.canOn n && s.get (F.CAN_TRX_MODE n) == 1 && !(s.can n).released then
    (((s.raise (F.CAN_STAT_TXDTO n)).setCan n { s.can n with released := true })).event 0x2601 (canPlace n) (p0 := n) else s)

/-- The controller is recessive again: a released transmitter returns. -/
def State.canRecessive (s : State) (n : Nat) : State := s.setCan n { s.can n with released := false }

/-- The transceiver of channel `n` sees activity, or falls asleep on a biased bus: 1 s of silence is counted from now (R406). -/
def State.canHeard (s : State) (n : Nat) : State := s.setCan n { s.can n with biased := true, heard := s.clock }

/-- 1 s of silence on a sleeping bus (R406). -/
def State.canSilent (s : State) (n : Nat) : State := if (s.can n).heard + 1000000000 ≤ s.clock then s.setCan n { s.can n with biased := false } else s

/-- Activity on a sleeping bus (`active`), or silence. -/
def execAutonomousBiasing (t : Nat) (n : Fin 4) (active : Bool) (s : State) : Host.Outcome State Fault Refusal :=
  let s := s.atTime t
  done (if s.get (F.CAN_TRX_MODE n) = 0 then (if active then s.canHeard n else s.canSilent n) else s)

/-- A write of CAN_TRX: a channel that falls asleep has its bus still biased (R406). -/
def State.wCanTrx (s : State) (m : Master) (n v : Nat) : Acc2 :=
  let was := s.get (F.CAN_TRX_MODE n)
  s.writeThen m (R.CAN_TRX n) v (fun s => if was != 0 && s.get (F.CAN_TRX_MODE n) == 0 then s.canHeard n else s)

/-- The bus balls of channel `n` are biased to 2.5 V. -/
def State.canBiased (s : State) (n : Nat) : Bool := s.get (F.CAN_TRX_MODE n) != 0 || (s.can n).biased

/-- CANWAKE is driven low. -/
def State.canWakeLow (s : State) : Bool := (List.range 4).any (fun n => s.flag (F.CAN_WAKE_CANWK n) && s.flag (F.CAN_STAT_WKPEND n))

/-- A frame is a wake frame of channel `n` (R408). -/
def State.wakeFrame (s : State) (n : Nat) (f : CanFrame) : Bool :=
  let wdat := s.get64 (R.CAN_WDAT_LO n) (R.CAN_WDAT_HI n)
  let data := (f.data.zipIdx.map (fun p => p.1.toNat * 2 ^ (8 * p.2))).sum
  !f.fdf && (f.ident ^^^ s.get (F.CAN_WID_ID n)) &&& s.get (F.CAN_WMSK_MASK n) == 0 && f.ide == s.flag (F.CAN_WAKE_IDE n)
    && (!s.flag (F.CAN_WAKE_DLCEN n) || f.dlc == s.get (F.CAN_WAKE_DLC n))
    && (data &&& wdat != 0 || (wdat == 0 && f.dlc == 0))

/-- What a sleeping channel detects: a wake source, or none, and the state with the decoder's error count (R407, R408). -/
def State.wakeSource (s : State) (n : Nat) (w : CanWake) : Option Nat × State :=
  let mode := s.get (F.CAN_WAKE_WMODE n)
  if s.get (F.CAN_TRX_MODE n) != 0 then (none, s)
  else
    match w with
    | .dominant => (if mode = 1 then some 1 else none, s)
    | .wup => (if mode = 2 then some 2 else none, s)
    | .frame f =>
      if mode != 3 || f.fdf then (none, s)
      else
        let s1 := s.setCan n { s.can n with wakeErr := (s.can n).wakeErr - 1 }
        (if s.wakeFrame n f then some 3 else none, s1)
    | .badFrame =>
      if mode != 3 then (none, s)
      else
        let e := (s.can n).wakeErr + 1
        (if 32 ≤ e then some 4 else none, s.setCan n { s.can n with wakeErr := e })

/-- A wake of channel `n` recorded (R407). -/
def State.canWake (s : State) (n src : Nat) : State :=
  ((s.raise (F.CAN_STAT_WKPEND n)).put (F.CAN_STAT_WKSRC n) src).event 0x2604 (canPlace n) (p0 := n) (p1 := src)

/-! Bus-off recovery (R413). -/

def execBusOffRecoveryStart (t : Nat) (n : Fin 4) (s : State) : Host.Outcome State Fault Refusal :=
  let s := s.atTime t
  done (if s.canOn n && s.get (F.CAN_STAT_ESTATE n) == 2 && s.flag (F.CAN_CFG_BOREC n) && decide ((s.can n).boffAt + s.get (F.CAN_CFG_BODLY n) * 10000000 ≤ s.clock) then
    s.setCan n { s.can n with recovering := true } else s)

/-- A write of CAN_CTL. -/
def State.wCanCtl (s : State) (m : Master) (n v : Nat) : Acc2 :=
  if !s.isOwner m then (s, stNotOwner)
  else okay (if wbit v 0 && s.get (F.CAN_STAT_ESTATE n) == 2 then s.setCan n { s.can n with recovering := true } else s)

/-- 128 occurrences of 11 recessive bits. -/
def execBusOffRejoin (t : Nat) (n : Fin 4) (s : State) : Host.Outcome State Fault Refusal :=
  let s := s.atTime t
  done (if s.canOn n && s.get (F.CAN_STAT_ESTATE n) == 2 && (s.can n).recovering then
    let s := ((s.put (F.CAN_STAT_ESTATE n) 0).put (F.CAN_ERR_TEC n) 0).put (F.CAN_ERR_REC n) 0
    (s.setCan n { s.can n with recovering := false }).event 0x2603 (canPlace n) (p0 := n)
  else s)

/-- A bus error while receiving (R413): REC rises by 1, and by 8 more where the unit saw a dominant bit `first` after its own error flag. -/
def execErrorFrame (t : Nat) (n : Fin 4) (lec : Fin 7) (first : Bool) (s : State) : Host.Outcome State Fault Refusal :=
  let s := s.atTime t
  done (if s.canOn n && s.get (F.CAN_STAT_ESTATE n) != 2 then
    let s := ((s.countSat (F.CAN_CNT_ERRF n)).put (F.CAN_ERR_LEC n) lec).canRecessive n
    s.canErrors n (s.get (F.CAN_ERR_TEC n)) (s.get (F.CAN_ERR_REC n) + (if first then 9 else 1))
  else s)

/-- Writing 1 clears CAN_RXNM and CAN_CNT. -/
def State.wCanClr (s : State) (n v : Nat) : Acc2 := okay (if wbit v 0 then (s.setWord (R.CAN_RXNM n) 0).setWord (R.CAN_CNT n) 0 else s)

end Sys2Proof.Machine
end

