-- ==== Sys2Proof/Machine/Switch.lean ====
section
/-! DEFINITION. The ports of the Ethernet switch: frames, the learning table, egress queues (spec/13_lamip_ownership_ethernet.md R446–R452). Frames
are byte strings without preamble and check sequence. The layouts of Ethernet, ARP, IPv4, IPv6, UDP and PTP headers are those of the standards that
the spec names (log 20). -/

namespace Sys2Proof

/-- Queue `q` of port `p` is full. -/
def EthLoad.isFull (e : EthLoad) (p q : Nat) : Bool := e.full.any (fun f => f.1.val == p && f.2.val == q)

/-- Port `p` sends an earlier frame. -/
def EthLoad.isBusy (e : EthLoad) (p : Nat) : Bool := e.busy.any (fun f => f.val == p)

/-- The cuff by which an external port's frames come in is full (R33). -/
def EthLoad.cuffFull (e : EthLoad) : Bool := e.full.any (fun f => f.1 == 5)

end Sys2Proof

namespace Sys2Proof.Machine

def ethPlace : Nat := fieldBlock 6 6
def lmpPlace : Nat := fieldBlock 6 7

/-- The state with the part of LMP, OWN, ETH and USB at `x`. -/
def State.withNet (s : State) (x : Net) : State := { s with net := x }

/-- ETH runs: it is powered, and neither in reset nor restarting (R470). -/
def State.ethUp (s : State) : Bool := !s.down && s.awake ethPlace && !s.blockHeld ethPlace

/-- LMP runs: it is powered, and neither in reset nor restarting (R470). -/
def State.lampUp (s : State) : Bool := !s.down && s.awake lmpPlace && !s.blockHeld lmpPlace

/-! Fields of a frame. -/

/-- The frame carries an IEEE 802.1Q tag. -/
def ethTagged (b : List Byte) : Bool := beAt b 12 2 == 0x8100

/-- Offset of the EtherType, and the EtherType. -/
def ethTypeAt (b : List Byte) : Nat := if ethTagged b then 16 else 12
def ethType (b : List Byte) : Nat := beAt b (ethTypeAt b) 2

/-- Offset of what follows the EtherType. -/
def ethBody (b : List Byte) : Nat := ethTypeAt b + 2

/-- A group address. -/
def isGroup (mac : Nat) : Bool := mac / 2 ^ 40 % 2 == 1

/-- An IP packet in a frame: IPv6; source and destination; transport protocol; fragmented, with its offset (0 in the first fragment), whether more
follow, and its identification; where its payload begins. -/
structure IpPkt where
  v6 : Bool := false
  src : Nat := 0
  dst : Nat := 0
  proto : Nat := 0
  frag : Bool := false
  off : Nat := 0
  more : Bool := false
  ident : Nat := 0
  body : Nat := 0
  deriving DecidableEq, Repr

/-- The extension headers of an IPv6 packet passed by: hop-by-hop 0, routing 43, fragment 44, authentication 51, destination options 60. -/
def ipv6Walk (b : List Byte) (x : IpPkt) : Nat → IpPkt
  | 0 => x
  | n + 1 =>
    let next := beAt b x.body 1
    if x.proto = 44 then
      let w := beAt b (x.body + 2) 2
      let y : IpPkt := { x with proto := next, frag := true, off := w / 8, more := w % 2 == 1, ident := beAt b (x.body + 4) 4, body := x.body + 8 }
      if y.off = 0 then ipv6Walk b y n else y
    else if x.proto = 0 ∨ x.proto = 43 ∨ x.proto = 60 then ipv6Walk b { x with proto := next, body := x.body + (beAt b (x.body + 1) 1 + 1) * 8 } n
    else if x.proto = 51 then ipv6Walk b { x with proto := next, body := x.body + (beAt b (x.body + 1) 1 + 2) * 4 } n
    else x

/-- The IP packet in a frame. -/
def ipAt (b : List Byte) : Option IpPkt :=
  let p := ethBody b
  if ethType b = 0x0800 then
    let w := beAt b (p + 6) 2
    some { src := beAt b (p + 12) 4, dst := beAt b (p + 16) 4, proto := beAt b (p + 9) 1, frag := decide (w % 2 ^ 14 ≠ 0), off := w % 2 ^ 13, more := wbit w 13
           ident := beAt b (p + 4) 2, body := p + beAt b p 1 % 16 * 4 }
  else if ethType b = 0x86DD then
    some (ipv6Walk b { v6 := true, src := beAt b (p + 8) 16, dst := beAt b (p + 24) 16, proto := beAt b (p + 6) 1, body := p + 40 } b.length)
  else none

/-- The packet with the UDP header of a frame; a fragment but the first has none. -/
def udpAt (b : List Byte) : Option IpPkt := (ipAt b).filter (fun x => x.proto == 17 && x.off == 0)

/-- The PTP event message in a frame: its offset (R450). -/
def ptpAt (b : List Byte) : Option Nat :=
  let o := if ethType b = 0x88F7 then some (ethBody b) else
    match udpAt b with
    | some x => if beAt b (x.body + 2) 2 = 319 then some (x.body + 8) else none
    | none => none
  match o with
  | some o => if beAt b o 1 % 16 < 4 then some o else none
  | none => none

/-! Ports. -/

/-- The MAC address of the module. -/
def State.ethMac (s : State) : Nat := s.word R.ETH_MAC_LO + s.get F.ETH_MAC_HI_MAC * 2 ^ 32

/-- Port `p` passes frames: an external one that is enabled and has its link, or the active half's (R448). -/
def State.portUp (s : State) (p : Nat) : Bool :=
  if p < 3 then s.flag (F.ETH_PCFG_EN p) && s.flag (F.ETH_PSTAT_LINK p) else s.net.port3.isSome

/-- The stamp of a PTP event message on port `p`, recorded; a received one at module time now within the accuracy of R450, a transmitted one at
a later moment that is open. -/
def State.ptpStamp (s : State) (p : Nat) (tx : Bool) (b : List Byte) : State :=
  match ptpAt b with
  | some o =>
    let f := s.free
    let w := if p < 2 ∧ s.get (F.ETH_PCFG_SPEED p) = 0 then 16 else 8
    let stamp := if tx then s.now + f.1 else s.now + f.1 % (2 * w + 1) - w
    let word := p % 4 + bit tx * 2 ^ 8 + beAt b o 1 % 16 * 2 ^ 16 + beAt b (o + 4) 1 * 2 ^ 24
    f.2.queRecord F.ETH_TSQ_EN F.ETH_TSQ_QUEUE 0x70 [word, beAt b (o + 30) 2, stamp % 2 ^ 32, stamp / 2 ^ 32 % 2 ^ 32]
  | none => s

/-! Egress queues (R447). -/

/-- The queue that a frame takes, by its PCP: 3 goes first; a frame without a tag has PCP 0 (log 76). -/
def ethQueue (b : List Byte) : Nat := if ethTagged b then beAt b 14 1 / 2 ^ 6 else 0

/-- A frame leaves by port `p`. -/
def State.portOut (s : State) (b : List Byte) (p : Nat) : State :=
  let s := s.withNet { s.net with ethOut := s.net.ethOut ++ [(p, b)] }
  if p < 3 then (s.count (F.ETH_PTX_COUNT p)).ptpStamp p true b else s

/-- The queued frame that port `p` sends next: of the highest queue, the earliest. -/
def nextEgress (p : Nat) : List EgressFrame → Option EgressFrame
  | [] => none
  | e :: r =>
    match nextEgress p r with
    | some f => some (if e.port = p ∧ f.queue ≤ e.queue then e else f)
    | none => if e.port = p then some e else none

/-- Port `p` sends a queued frame. -/
def State.egressSend (s : State) (p : Nat) : State :=
  match nextEgress p s.net.egress with
  | some e => if s.portUp p then (s.withNet { s.net with egress := s.net.egress.erase e }).portOut e.bytes p else s
  | none => s

/-- Port `p` sends what it has queued. -/
def State.egressDrain (s : State) (p : Nat) : State := (s.net.egress.filter (fun e => e.port == p)).foldl (fun s _ => s.egressSend p) s

/-- A frame to port `p`: dropped and counted where its egress queue is full, queued while the port sends another, else sent. -/
def State.ethSend (s : State) (e : EthLoad) (b : List Byte) (p : Nat) : State :=
  if e.isFull p (ethQueue b) then s.countSat F.ETH_DROP_COUNT
  else if e.isBusy p then s.withNet { s.net with egress := s.net.egress ++ [{ port := p, queue := ethQueue b, bytes := b }] }
  else s.portOut b p

/-- The switch learns where a station is; a full table takes no new one (R447). -/
def State.ethLearn (s : State) (mac p : Nat) : State :=
  let others := s.net.macs.filter (fun e => e.1 != mac)
  if isGroup mac ∨ (others.length = s.net.macs.length ∧ 1024 ≤ others.length) then s
  else (s.withNet { s.net with macs := others ++ [(mac, p, s.clock)] }).put F.ETH_LRN_USED (others.length + 1)

/-- The ports that a frame from port `p` to address `mac` goes to (R447). -/
def State.ethPorts (s : State) (mac p : Nat) : List Nat :=
  let other (k : Nat) : Bool := k != p && s.portUp k
  match (if isGroup mac then none else s.net.macs.find? (fun e => e.1 == mac)) with
  | some e => [e.2.1].filter other
  | none => (List.range 4).filter other

/-- No half is active: switch port 3 leads nowhere, and the frames queued toward the failed half are dropped (R448). -/
def State.portGone (s : State) : State :=
  let toHalf (e : EgressFrame) : Bool := e.port == 3
  (s.withNet { s.net with port3 := none, egress := s.net.egress.filter (fun e => !toHalf e) }).countSat F.ETH_DROP_COUNT (s.net.egress.countP toHalf)

/-! Datagrams of LMP (R452). -/

/-- The ones' complement sum of the 16-bit words of `b`, complemented. -/
def ipSum (b : List Byte) : Nat :=
  let n := ((List.range ((b.length + 1) / 2)).map (fun i => beAt (b ++ [0]) (2 * i) 2)).sum
  let n := n % 2 ^ 16 + n / 2 ^ 16
  2 ^ 16 - 1 - (n % 2 ^ 16 + n / 2 ^ 16)

/-- An IPv4 datagram of LMP to a station. What the spec does not state comes from `f`: service class, identification, don't fragment, time to live, and
whether a UDP checksum is given. -/
def State.lampDatagram (s : State) (f mac ip port : Nat) (tag data : List Byte) : List Byte :=
  let addr := beBytes 4 (s.word R.ETH_IP) ++ beBytes 4 ip
  let len := 8 + data.length
  let ports := beBytes 2 41954 ++ beBytes 2 port ++ beBytes 2 len
  let sum := ipSum (addr ++ beBytes 2 17 ++ beBytes 2 len ++ ports ++ [0, 0] ++ data)
  let sum := if f % 2 = 0 then 0 else if sum = 0 then 2 ^ 16 - 1 else sum
  let h0 := [0x45, BitVec.ofNat 8 (f / 2)] ++ beBytes 2 (20 + len) ++ beBytes 2 (f / 2 ^ 9) ++ beBytes 2 (f / 2 ^ 25 % 2 * 2 ^ 14) ++ [BitVec.ofNat 8 (f / 2 ^ 26), 17]
  beBytes 6 mac ++ beBytes 6 s.ethMac ++ tag ++ [8, 0] ++ h0 ++ beBytes 2 (ipSum (h0 ++ [0, 0] ++ addr)) ++ addr ++ ports ++ beBytes 2 sum ++ data

/-- A response of LMP goes to `ip` and `port`, by the station that its requests have come from. -/
def State.udpOut (s : State) (ip port : Nat) (data : List Byte) : State :=
  match assoc ip s.net.hosts with
  | some (mac, tag) =>
    if s.ethUp then
      let f := s.free
      let b := f.2.lampDatagram f.1 mac ip port tag data
      (f.2.ethPorts mac 4).foldl (fun s p => s.ethSend { busy := (List.finRange 4).filter (fun k => s.net.egress.any (fun e => e.port == k.val)) } b p) f.2
    else s
  | none => s

end Sys2Proof.Machine
end

