-- ==== Sys2Proof/Machine/Message.lean ====
section
/-! DEFINITION. The message layer MSG and the frames it puts in transmit buffers (spec/12_can_message_stack.md R414–R418,
R428–R442, R445). -/

namespace Sys2Proof.Machine

/-- Session `k` = 16 c + j. -/
def State.ses (s : State) (k : Nat) : Sess := s.sess.getD k {}

/-- Session `k` set. -/
def State.setSes (s : State) (k : Nat) (x : Sess) : State := { s with sess := s.sess.set k x }

/-- KIND and STATE of session `k`. -/
def State.sesKind (s : State) (k : Nat) : Nat := s.get (F.MSG_SES_KIND k)
def State.sesState (s : State) (k : Nat) : Nat := s.get (F.MSG_SES_STATE k)

def mWaitCts : Nat := 1
def mSendDt : Nat := 2
def mWaitEoma : Nat := 3
def mRxDt : Nat := 4
def mBamTx : Nat := 5
def mBamRx : Nat := 6

/-- The sessions of channel `c`. -/
def sesOf (c : Nat) : List Nat := (List.range 16).map (16 * c + ·)

/-! Status codes (R431). -/

def mSent : Nat := 0
def mTooLate : Nat := 1
def mCancelled : Nat := 2
def mDeadline : Nat := 3
def mAborted : Nat := 4
def mTimeout : Nat := 5
def mNoaddr : Nat := 6
def mBadreq : Nat := 7
def mPoison : Nat := 8

/-- A message of channel `c` ends: its completion record (R431). -/
def State.msgEnd (s : State) (c tag status : Nat) (reason : Nat := 0) (dl : Bool := false) : State :=
  s.queRecord F.MSG_CFG_EVEN F.MSG_CFG_EVQ 0x61 [c + status * 2 ^ 4 + reason * 2 ^ 8 + bit dl * 2 ^ 16, tag, s.now % 2 ^ 32, s.now / 2 ^ 32]

/-- MSG_PEND brought up to date for channel `c`. -/
def State.msgPend (s : State) (c : Nat) : State := s.put ⟨R.MSG_PEND, 8 * c + 7, 8 * c⟩ (s.can c).msgs.length

/-- The transport that a message takes, or none where the request is refused (R429): false a single frame, true a session. -/
def carriage (raw fdf : Bool) (pgn da len : Nat) : Option Bool :=
  let single := decide (len ≤ 8) || (fdf && decide (len ≤ 64))
  let pdu2 := decide (0xF0 ≤ bitField pgn 15 8)
  if raw then (if single then some false else none)
  else if pdu2 && da != 0xFF then none
  else if single then some false
  else if len ≤ 1785 then some true
  else if da != 0xFF && decide (len ≤ 117440505) then some true
  else none

/-- A message of channel `c` joins its pending list, one of a single frame the list of frames too; the list has room (R428). -/
def State.addMsg (s : State) (c : Nat) (x : Msg) : State :=
  let s : State := { s with msgNext := x.id + 1 }
  let s := (s.setCan c { s.can c with msgs := (s.can c).msgs ++ [x] }).msgPend c
  if x.transport then s else s.addItem c { src := .msg x.id }

/-- The pending list of channel `c` is full (R428). -/
def State.listFull (s : State) (c : Nat) : Bool := decide (64 ≤ (s.can c).msgs.length)

/-- A response of LMP joins the pending list of channel `c`, as a message of PGN 0xEF00 and priority 6 to address `da` (R452); its TAG is a free
value. A channel that cannot claim withdraws it (R437). -/
def State.addResponse (s : State) (c da : Nat) (bytes : List Byte) : State :=
  match carriage false false 0xEF00 da bytes.length with
  | none => s
  | some tp =>
    let f := s.free
    if s.acState c = 3 then f.2.msgEnd c (f.1 % 2 ^ 32) mNoaddr
    else f.2.addMsg c { id := f.2.msgNext, tag := f.1 % 2 ^ 32, prio := 6, da := da, pgn := 0xEF00, len := bytes.length, transport := tp, own := bytes }

/-- A response that waited for room in the pending list of channel `c` takes it. -/
def State.roomFor (s : State) (c : Nat) : State :=
  match s.lmpRes.find? (fun e => e.1 == c) with
  | some e => ({ s with lmpRes := s.lmpRes.erase e } : State).addResponse c e.2.1 e.2.2
  | none => s

/-- The message with identity `id` on channel `c`. -/
def State.msgOf (s : State) (c id : Nat) : Option Msg := (s.can c).msgs.find? (fun x => x.id == id)

/-- That message leaves the pending list. -/
def State.dropMsg (s : State) (c id : Nat) : State :=
  let s := s.dropItems c (.msg id)
  ((s.setCan c { s.can c with msgs := (s.can c).msgs.filter (fun x => x.id != id) }).msgPend c).roomFor c

/-- That message ends with a status. -/
def State.finishMsg (s : State) (c id status : Nat) (dl : Bool := false) : State :=
  match s.msgOf c id with
  | some x => (s.dropMsg c id).msgEnd c x.tag status 0 dl
  | none => s

/-! Frames of MSG's own (J1939-21, J1939-81, ISO 11783-3; log 20). -/

/-- A PDU1 identifier. -/
def pduIdent (prio pf da sa : Nat) : Nat := prio * 2 ^ 26 + pf * 2 ^ 16 + da * 2 ^ 8 + sa

/-- PF of connection management and of data transfer. -/
def cmPf (etp : Bool) : Nat := if etp then 0xC8 else 0xEC
def dtPf (etp : Bool) : Nat := if etp then 0xC7 else 0xEB

/-- A frame of MSG's own joins the list of channel `c`. -/
def State.sendCtl (s : State) (c ident : Nat) (data : List Byte) (src : TxSrc := .ctl) : State :=
  s.addItem c { src := src, ident := ident, data := data }

/-- A connection-management frame with its leading bytes and its PGN. -/
def State.sendCm (s : State) (c : Nat) (etp : Bool) (da sa : Nat) (body : List Byte) (pgn : Nat) : State :=
  s.sendCtl c (pduIdent 7 (cmPf etp) da sa) (body ++ leBytes 3 pgn)

/-- An abort with its reason. -/
def State.sendAbort (s : State) (c : Nat) (etp : Bool) (da sa reason pgn : Nat) : State :=
  s.sendCm c etp da sa ([255, BitVec.ofNat 8 reason, 255, 255, 255]) pgn

/-! Sessions (R433). -/

/-- The transport of session `k` is ETP. -/
def State.sesEtp (s : State) (k : Nat) : Bool := decide (5 ≤ s.sesKind k)

/-- Session `k` transmits. -/
def State.sesTx (s : State) (k : Nat) : Bool := s.sesKind k == 1 || s.sesKind k == 3 || s.sesKind k == 5

/-- USED brought up to date. -/
def State.sesUsed (s : State) (c : Nat) : State := s.put (F.MSG_SCNT_USED c) ((sesOf c).countP (fun k => s.sesKind k != 0))

/-- Session `k` set up. -/
def State.openSes (s : State) (k kind st peer pgn len : Nat) (x : Sess) : State :=
  let s := s.setWord (R.MSG_SES k) (kind + st * 2 ^ 3 + peer * 2 ^ 8)
  let s := ((s.setWord (R.MSG_SESP k) pgn).setWord (R.MSG_SESB k) 0).setWord (R.MSG_SESL k) len
  (s.setSes k x).sesUsed (k / 16)

/-- Session `k` in a state, with its timer. -/
def State.sesGo (s : State) (k st : Nat) (timer : Option Nat) : State :=
  (s.put (F.MSG_SES_STATE k) st).setSes k { s.ses k with timer := timer }

/-- A timer of `ms` from now. -/
def State.timerIn (s : State) (ms : Nat) : Option Nat := some (s.now + ms * 1000000)

/-- A pool block returned. -/
def State.freeBlock (s : State) (b : Nat) : State := { s with blocks := s.blocks.filter (· != b) }

/-- The data of session `k` lies in a pool block. -/
def State.sesBlock (s : State) (k : Nat) : Bool := s.sesKind k == 2 || s.sesKind k == 4

/-- The frames of `src` on channel `c` are given up, in the list and in a buffer. -/
def State.dropSrc (s : State) (c : Nat) (src : TxSrc) : State :=
  let s := s.dropItems c src
  match s.bufOf c src with
  | some b => s.setBuf c b none
  | none => s

/-- Session `k` closes; its packets and its DPO are not sent. -/
def State.closeSes (s : State) (k : Nat) : State :=
  let c := k / 16
  let s := (s.dropSrc c (.pkt k)).dropSrc c (.dpo k)
  let s := s.setWord (R.MSG_SES k) 0
  (s.setSes k {}).sesUsed c

/-- A session counted as aborted or discarded. -/
def State.sesAborted (s : State) (c : Nat) : State := s.countSat (F.MSG_SCNT_ABORT c)

/-- A transmit session ends with a status. -/
def State.endTx (s : State) (k status : Nat) (reason : Nat := 0) (dl : Bool := false) : State :=
  let tag := (s.ses k).tag
  (s.closeSes k).msgEnd (k / 16) tag status reason dl

/-- A receive session is given up: its block is free again. -/
def State.endRx (s : State) (k : Nat) : State :=
  let s := if s.sesBlock k then s.freeBlock (s.ses k).block else s
  (s.closeSes k).sesAborted (k / 16)

/-- The abort that session `k` sends. -/
def State.abortSes (s : State) (k reason : Nat) : State :=
  let x := s.ses k
  if s.sesKind k = 3 ∨ s.sesKind k = 4 then s
  else s.sendAbort (k / 16) (s.sesEtp k) (s.get (F.MSG_SES_PEER k)) x.sa reason (s.word (R.MSG_SESP k))

/-- A connection of a direction with this peer and this address of ours is open. -/
def State.connOpen (s : State) (c peer own : Nat) (tx : Bool) : Bool :=
  (sesOf c).any (fun k => s.sesKind k != 0 && s.sesTx k == tx && s.sesKind k != 3 && s.sesKind k != 4
    && s.get (F.MSG_SES_PEER k) == peer && (s.ses k).sa == own)

/-- A free session of channel `c`. -/
def State.freeSes (s : State) (c : Nat) : Option Nat := (sesOf c).find? (fun k => s.sesKind k == 0)

/-- A pending transport message opens its session, when it may (R433). -/
def State.openMsg (s : State) (c : Nat) (x : Msg) : State :=
  match s.ownAddr c, s.freeSes c with
  | some sa, some k =>
    let bam := x.da == 0xFF
    let etp := decide (1785 < x.len)
    let busy := if bam then (sesOf c).any (fun j => s.sesKind j == 3 && (s.ses j).sa == sa) else s.connOpen c x.da sa true
    if busy then s
    else
      let s := s.dropMsg c x.id
      let n := (x.len + 6) / 7
      let y : Sess := { sa := sa, da := x.da, prio := x.prio, tag := x.tag, addr := x.addr, deadline := x.deadline, packets := n, own := x.own }
      if bam then
        let s := s.openSes k 3 mBamTx 0xFF x.pgn x.len { y with setEnd := n, timer := some (s.now + s.get F.MSG_CFG2_BAMGAP * 1000000) }
        s.sendCm c false 0xFF sa ([32] ++ leBytes 2 x.len ++ [BitVec.ofNat 8 n, 255]) x.pgn
      else
        let s := s.openSes k (if etp then 5 else 1) mWaitCts x.da x.pgn x.len { y with timer := s.timerIn 1250 }
        if etp then s.sendCm c true x.da sa ([20] ++ leBytes 4 x.len) x.pgn
        else s.sendCm c false x.da sa ([16] ++ leBytes 2 x.len ++ [BitVec.ofNat 8 n, 255]) x.pgn
  | _, _ => s

/-- Every pending transport message of channel `c` that may open does, in order. -/
def State.openAll (s : State) (c : Nat) : State := ((s.can c).msgs.filter (fun x => x.transport)).foldl (fun s x => s.openMsg c x) s

/-- Pending transport messages open where they may, and so do the responses that this makes room for. -/
def State.tryOpen (s : State) (c : Nat) : State := (s.openAll c).openAll c

/-- Packet `next` of session `k` joins the list; its data is read when a buffer is filled. -/
def State.queuePacket (s : State) (k : Nat) : State := s.addItem (k / 16) { src := .pkt k }

/-- The packet set that a CTS asks for: `n` packets from `first`; that of ETP follows its DPO (table of R433). -/
def State.ctsSet (s : State) (k n first : Nat) : State :=
  let x := s.ses k
  let c := k / 16
  let last := min (first + n - 1) x.packets
  let s := (s.put (F.MSG_SES_STATE k) mSendDt).setSes k { x with next := first, setEnd := last, base := if s.sesEtp k then first - 1 else 0, timer := none }
  if s.sesEtp k then
    s.sendCtl c (pduIdent 7 (cmPf true) x.da x.sa) ([22, BitVec.ofNat 8 (last + 1 - first)] ++ leBytes 3 (first - 1) ++ leBytes 3 (s.word (R.MSG_SESP k))) (.dpo k)
  else s.queuePacket k

/-- A CTS for session `k`. -/
def State.onCts (s : State) (k n first : Nat) : State :=
  if s.sesState k = mSendDt then ((s.abortSes k 4).sesAborted (k / 16)).endTx k mTimeout
  else if s.sesState k = mWaitCts then
    if n = 0 then s.sesGo k mWaitCts (s.timerIn 1050)
    else if 1 ≤ first ∧ first ≤ (s.ses k).packets then s.ctsSet k n first
    else s
  else s

/-- A CTS sent by receive session `k` for its next packets. -/
def State.sendCts (s : State) (k : Nat) : State :=
  let x := s.ses k
  let c := k / 16
  let n := min (s.get F.MSG_CFG_CTSN) (x.packets + 1 - x.next)
  let s := (s.setSes k { x with setEnd := x.next + n - 1, timer := s.timerIn 1250 }).put (F.MSG_SES_STATE k) mRxDt
  if s.sesEtp k then s.sendCm c true x.da x.sa ([21, BitVec.ofNat 8 n] ++ leBytes 3 x.next) (s.word (R.MSG_SESP k))
  else s.sendCm c false x.da x.sa [17, BitVec.ofNat 8 n, BitVec.ofNat 8 x.next, 255, 255] (s.word (R.MSG_SESP k))

/-- A free pool block (R432). -/
def State.poolBlock (s : State) : Option Nat := (List.range (s.get F.MSG_PCFG_NBLK)).find? (fun b => !s.blocks.contains b)

/-- Where the received data of session `k` lies. -/
def State.sesAddr (s : State) (k : Nat) : Nat :=
  if s.sesEtp k then s.getAddr (R.MSG_ETPB_LO (k / 16)) (R.MSG_ETPB_HI (k / 16))
  else s.getAddr R.MSG_POOL_LO R.MSG_POOL_HI + 2048 * (s.ses k).block

/-- An RTS from `peer` to our address `own` (R433). -/
def State.onRts (s : State) (c peer own : Nat) (etp : Bool) (len pgn prio : Nat) : State :=
  let refuse (s : State) (reason : Nat) : State := (s.sendAbort c etp peer own reason pgn).sesAborted c
  if s.connOpen c peer own false then refuse s 1
  else if !etp && decide (1785 < len) then refuse s 2
  else
    match s.freeSes c with
    | none => refuse s 2
    | some k =>
      let x : Sess := { sa := own, da := peer, prio := prio, packets := (len + 6) / 7 }
      if etp then
        if s.flag (F.MSG_ETPC_EN c) && s.get (F.MSG_ETPC_PGN c) == pgn && decide (len ≤ s.word (R.MSG_ETPL c)) && !(sesOf c).any (fun j => s.sesKind j == 6) then
          (s.openSes k 6 mRxDt peer pgn len x).sendCts k
        else refuse s 2
      else
        match s.poolBlock with
        | none => refuse (s.raise F.MSG_STAT_POOLOUT) 2
        | some b => (({ s with blocks := s.blocks ++ [b] }).openSes k 2 mRxDt peer pgn len { x with block := b }).sendCts k

/-- A BAM from `peer`: one that is running from it is replaced. -/
def State.onBam (s : State) (c peer len pgn prio : Nat) : State :=
  let s := match (sesOf c).find? (fun k => s.sesKind k == 4 && s.get (F.MSG_SES_PEER k) == peer) with
    | some k => s.endRx k
    | none => s
  if 1785 < len then s
  else match s.freeSes c, s.poolBlock with
  | some k, some b =>
    ({ s with blocks := s.blocks ++ [b] }).openSes k 4 mBamRx peer pgn len
      { sa := 0xFF, da := peer, prio := prio, packets := (len + 6) / 7, block := b, timer := s.timerIn 750 }
  | _, none => s.raise F.MSG_STAT_POOLOUT
  | _, _ => s

/-- A message received by transport is complete, its last packet stamped `stamp`: to Lamip (R436), where it is lost during a restart (R470), or recorded (R432). -/
def State.sesComplete (s : State) (k stamp : Nat) : State :=
  let c := k / 16
  let x := s.ses k
  let pgn := s.word (R.MSG_SESP k)
  let len := s.word (R.MSG_SESL k)
  let bam := s.sesKind k == 4
  let etp := s.sesEtp k
  let peer := s.get (F.MSG_SES_PEER k)
  if pgn = 0xEF00 && !bam && s.flag (F.MSG_AC_LMP c) && s.acState c == 2 then
    let bytes := s.readBytes (s.sesAddr k) len
    let s := if etp then s.put (F.MSG_ETPC_EN c) 0 else s.freeBlock x.block
    { s.closeSes k with lmpCan := if s.lampUp then s.lmpCan ++ [(c, peer, bytes)] else s.lmpCan }
  else
    let w0 := c + bit bam * 2 ^ 2 + bit etp * 2 ^ 3 + peer * 2 ^ 8 + x.sa * 2 ^ 16 + x.prio * 2 ^ 24
    let s := s.queRecord F.MSG_CFG_RXEN F.MSG_CFG_RXQ 0x62 [w0, pgn, len, if etp then 0x3FF else x.block, stamp % 2 ^ 32, stamp / 2 ^ 32]
    let s := if etp then s.put (F.MSG_ETPC_EN c) 0 else s
    s.closeSes k

/-- A data packet for receive session `k` (tables of R433). -/
def State.onDt (s : State) (k seq : Nat) (data : List Byte) (stamp : Nat) : State :=
  let x := s.ses k
  let c := k / 16
  let bam := s.sesKind k == 4
  if x.base + seq = x.next then
    let len := s.word (R.MSG_SESL k)
    let at' := (x.next - 1) * 7
    let bytes := data.take (len - at')
    let a := s.sesAddr k + at'
    let s := if s.inDram a 8 then (s.writeBytes a bytes).dmaWrote a bytes.length else s
    let s := s.setWord (R.MSG_SESB k) (min (at' + 7) len)
    if x.next = x.packets then
      let s := if bam then s
        else if s.sesEtp k then s.sendCm c true x.da x.sa ([23] ++ leBytes 4 len) (s.word (R.MSG_SESP k))
        else s.sendCm c false x.da x.sa ([19] ++ leBytes 2 len ++ [BitVec.ofNat 8 x.packets, 255]) (s.word (R.MSG_SESP k))
      s.sesComplete k stamp
    else
      let s := s.setSes k { x with next := x.next + 1, misses := 0, timer := s.timerIn 750 }
      if !bam && x.next == x.setEnd then s.sendCts k else s
  else if bam then s.endRx k
  else if 2 ≤ x.misses then (s.abortSes k 5).endRx k
  else (s.setSes k { x with misses := x.misses + 1 }).sendCts k

/-! Address claim (R434, R435, R437). -/

/-- NAME of channel `c`. -/
def State.nameOf (s : State) (c : Nat) : Nat := s.get64 (R.MSG_NAME_LO c) (R.MSG_NAME_HI c)

/-- A claim, or a cannot-claim from address 254. -/
def State.sendClaim (s : State) (c sa : Nat) : State := s.sendCtl c (pduIdent 6 0xEE 0xFF sa) (leBytes 8 (s.nameOf c)) .claim

/-- A claim of `a` begins on channel `c`. -/
def State.claim (s : State) (c a : Nat) : State :=
  let s := (s.put (F.MSG_AC_STATE c) 1).put (F.MSG_AC_ADDR c) 0xFE
  (s.setCan c { s.can c with cand := a, claimAt := none }).sendClaim c a

/-- Whether an object of channel `c` with a pending request takes the claimed address. -/
def State.sasPending (s : State) (c n : Nat) : Bool := s.get (F.OBJ_CTL_CH n) == c && s.flag (F.OBJ_CTL_SAS n)

/-- What needs a source address on channel `c` is withdrawn with NOADDR (R437). -/
def State.noAddress (s : State) (c : Nat) : State :=
  let s := ((s.can c).msgs.filter (fun x => !x.raw)).foldl (fun s x => s.finishMsg c x.id mNoaddr) s
  (s.can c).items.foldl (fun s i => match i.src with
    | .obj n => if s.sasPending c n then s.objWithdraw n else s
    | _ => s) s

/-- Channel `c` cannot claim: an event, and nothing that needs an address is sent. -/
def State.cannotClaim (s : State) (c lost : Nat) : State :=
  let s := (s.put (F.MSG_AC_STATE c) 3).put (F.MSG_AC_ADDR c) 0xFE
  let s := s.setCan c { s.can c with claimAt := none }
  (s.noAddress c).event 0x2605 msgPlace (p0 := c) (p1 := lost)

/-- What comes back from a buffer to the list: the frame of an object is pending again, unless the object has been disabled. -/
def State.requeue (s : State) (c : Nat) (x : TxBuf) : State :=
  match x.item.src with
  | .obj n =>
    let o := s.obj n
    if s.objTx n then ((s.setObj n { o with inBuf := false, pend := some o.lastDlc }).backItem c x.item).objRefresh n
    else (s.setObj n { o with inBuf := false }).objRefresh n
  | _ => s.backItem c x.item

/-- An item's frame carries the claimed address. -/
def State.usesAddr (s : State) (c : Nat) (i : TxItem) : Bool :=
  match i.src with
  | .obj n => s.flag (F.OBJ_CTL_SAS n)
  | .msg id => match s.msgOf c id with | some x => !x.raw | none => false
  | .pkt _ | .dpo _ | .ctl => true
  | .claim => false

/-- Frames in buffers that carry a lost address go back to the list; none is being sent while a claim is received. -/
def State.unaddress (s : State) (c : Nat) : State :=
  (List.range 3).foldl (fun s b => match s.buf c b with
    | some x => if s.usesAddr c x.item then (s.setBuf c b none).requeue c x else s
    | none => s) s

/-- The sessions that use a lost address end with NOADDR, without abort frames. -/
def State.loseAddress (s : State) (c a : Nat) : State :=
  (sesOf c).foldl (fun s k =>
    if s.sesKind k != 0 && s.sesKind k != 4 && (s.ses k).sa == a then (if s.sesTx k then s.endTx k mNoaddr else s.endRx k) else s) s

/-- Connection-management frames from a lost address that wait on channel `c` are not sent (R437). -/
def State.dropCtl (s : State) (c a : Nat) : State :=
  s.setCan c { s.can c with items := (s.can c).items.filter (fun i => !(i.src == .ctl && i.ident % 2 ^ 8 == a)) }

/-- The address that a self-configurable NAME takes next (R435). -/
def State.nextAddress (s : State) (c lost : Nat) : Option Nat :=
  let all := (List.range 120).map (· + 128)
  (all.filter (fun a => decide (lost < a)) ++ all.filter (fun a => decide (a ≤ lost))).find? (fun a => !(s.can c).names.any (fun e => e.2 == a))

/-- Channel `c` yields its address (R435, R437). -/
def State.yieldAddress (s : State) (c a : Nat) : State :=
  let s := (((s.unaddress c).loseAddress c a).dropCtl c a).dropItems c .claim
  match if s.nameOf c / 2 ^ 63 % 2 = 1 then s.nextAddress c a else none with
  | some b => s.claim c b
  | none => (s.cannotClaim c a).sendClaim c 254

/-- An address claim received on channel `c` (R435). -/
def State.onClaim (s : State) (c sa name : Nat) : State :=
  let names := if sa = 254 then assocErase name (s.can c).names else assocPut name sa (s.can c).names
  let s := s.setCan c { s.can c with names := names }
  let st := s.acState c
  let mine := if st = 1 then (s.can c).cand else s.get (F.MSG_AC_ADDR c)
  if (st = 1 ∨ st = 2) ∧ sa = mine then
    if name < s.nameOf c then s.yieldAddress c mine
    else if s.nameOf c < name then (s.setCan c { s.can c with claimAt := none }).sendClaim c mine
    else (((s.unaddress c).loseAddress c mine).dropCtl c mine).cannotClaim c mine
  else s

/-- A request for PGN 60928 (R434). -/
def State.onClaimRequest (s : State) (c da : Nat) : State :=
  match s.acState c with
  | 1 => if da = 0xFF ∨ da = (s.can c).cand then s.sendClaim c (s.can c).cand else s
  | 2 => if da = 0xFF ∨ da = s.get (F.MSG_AC_ADDR c) then s.sendClaim c (s.get (F.MSG_AC_ADDR c)) else s
  | 3 => if da = 0xFF then s.setCan c { s.can c with cannotDue := true } else s
  | _ => s

/-- The frames in the buffers of channel `c` that use the address now claimed are cancelled and wait in the list; one that has won arbitration
completes (R416, R418, R434). -/
def State.holdBufs (s : State) (c : Nat) (won : Option Nat) : State :=
  (List.range 3).foldl (fun s b => match s.buf c b with
    | some x =>
      if !s.usesAddr c x.item then s
      else if won = some b then (if x.cancel.isSome then s else s.setBuf c b (some { x with cancel := some none }))
      else (s.setBuf c b none).requeue c x
    | none => s) s

/-- A claim begins on channel `c`: what waits in buffers is held back. Which frame is being sent is a free value. -/
def State.claimStart (s : State) (c : Nat) : State :=
  let s := s.claim c (s.get (F.MSG_AC_PREF c))
  if (List.range 3).any (fun b => match s.buf c b with | some x => s.usesAddr c x.item | none => false) then
    let f := s.free
    f.2.holdBufs c (if f.1 % 4 = 3 then none else some (f.1 % 4))
  else s

/-- A write of MSG_AC{c} (R434). -/
def State.wMsgAc (s : State) (m : Master) (c v : Nat) : Acc2 :=
  let was := s.flag (F.MSG_AC_EN c)
  s.writeThen m (R.MSG_AC c) v (fun s =>
    let en := s.flag (F.MSG_AC_EN c)
    if en && !was then s.claimStart c
    else if was && !en then
      let s := (s.put (F.MSG_AC_STATE c) 0).put (F.MSG_AC_ADDR c) 0xFE
      (s.setCan c { s.can c with claimAt := none, cannotDue := false }).tryOpen c
    else s)

/-- 250 ms after the claim was sent, without contention. -/
def execClaimSettled (t : Nat) (n : Fin 4) (s : State) : Host.Outcome State Fault Refusal :=
  let s := s.atTime t
  match (s.can n).claimAt with
  | some a =>
    if s.acState n = 1 ∧ a + 250000000 ≤ s.now ∧ s.awake msgPlace then
      let s := (s.put (F.MSG_AC_STATE n) 2).put (F.MSG_AC_ADDR n) (s.can n).cand
      done ((s.setCan n { s.can n with claimAt := none }).tryOpen n)
    else done s
  | none => done s

/-- The cannot-claim that answers a request, after its pseudo-random delay. -/
def execCannotClaimSend (t : Nat) (n : Fin 4) (s : State) : Host.Outcome State Fault Refusal :=
  let s := s.atTime t
  done (if (s.can n).cannotDue && s.acState n == 3 && s.awake msgPlace then (s.setCan n { s.can n with cannotDue := false }).sendClaim n 254 else s)

/-! Reception (R421, R433–R436). -/

/-- The session of channel `c` with this peer, own address and PGN. -/
def State.findSes (s : State) (c peer own pgn : Nat) (kinds : List Nat) : Option Nat :=
  (sesOf c).find? (fun k => kinds.contains (s.sesKind k) && s.get (F.MSG_SES_PEER k) == peer && (s.ses k).sa == own && s.word (R.MSG_SESP k) == pgn)

/-- A connection-management frame (table of R433; log 20). -/
def State.onCm (s : State) (c peer da : Nat) (etp : Bool) (prio : Nat) (d : List Byte) : State :=
  let b (i : Nat) : Nat := (d.getD i 0).toNat
  let pgn := leNat ((d.drop 5).take 3) % 2 ^ 18
  let own := s.ownAddr c
  let toUs := own == some da
  let txKind := if etp then 5 else 1
  let rxKind := if etp then 6 else 2
  let cts (s : State) (n k0 : Nat) : State := match s.findSes c peer da pgn [txKind] with | some k => s.onCts k n k0 | none => s
  let eoma (s : State) : State := match s.findSes c peer da pgn [txKind] with
    | some k => if s.sesState k = mWaitEoma then (s.endTx k mSent).tryOpen c else s
    | none => s
  if b 0 = 32 ∧ !etp ∧ da = 0xFF then s.onBam c peer (leNat ((d.drop 1).take 2)) pgn prio
  else if !toUs then s
  else if b 0 = 255 then
    match s.findSes c peer da pgn [txKind, rxKind] with
    | some k => if s.sesTx k then ((s.endTx k mAborted (b 1)).sesAborted c).tryOpen c else s.endRx k
    | none => s
  else if !etp ∧ b 0 = 16 then s.onRts c peer da false (leNat ((d.drop 1).take 2)) pgn prio
  else if etp ∧ b 0 = 20 then s.onRts c peer da true (leNat ((d.drop 1).take 4)) pgn prio
  else if !etp ∧ b 0 = 17 then cts s (b 1) (b 2)
  else if etp ∧ b 0 = 21 then cts s (b 1) (leNat ((d.drop 2).take 3))
  else if (!etp ∧ b 0 = 19) ∨ (etp ∧ b 0 = 23) then eoma s
  else if etp ∧ b 0 = 22 then
    match s.findSes c peer da pgn [6] with
    | some k => s.setSes k { s.ses k with base := leNat ((d.drop 2).take 3) }
    | none => s
  else s

/-- A data-transfer frame. -/
def State.onDtFrame (s : State) (c peer da : Nat) (etp : Bool) (d : List Byte) (stamp : Nat) : State :=
  let kinds := if etp then [6] else if da = 0xFF then [4] else [2]
  match (sesOf c).find? (fun k => kinds.contains (s.sesKind k) && s.get (F.MSG_SES_PEER k) == peer && (s.ses k).sa == da) with
  | some k => s.onDt k (d.headD 0).toNat (d.drop 1) stamp
  | none => s

/-- What MSG does with a 29-bit frame, and whether it consumes it (R421, R434–R436). -/
def State.msgFrame (s : State) (c : Nat) (f : CanFrame) : State × Bool :=
  let sa := f.ident % 2 ^ 8
  let ps := bitField f.ident 15 8
  let pf := bitField f.ident 23 16
  let prio := bitField f.ident 28 26
  if !f.ide || bitField f.ident 25 24 != 0 then (s, false)
  else if pf = 0xEE then (s.onClaim c sa (leNat (f.data.take 8)), true)
  else if pf = 0xEF ∧ s.flag (F.MSG_AC_LMP c) ∧ s.acState c = 2 ∧ ps = s.get (F.MSG_AC_ADDR c) then
    (if s.lampUp then { s with lmpCan := s.lmpCan ++ [(c, sa, f.data)] } else s, true)
  else if pf = 0xEA then (if leNat (f.data.take 3) = 0xEE00 then s.onClaimRequest c ps else s, false)
  else if pf = 0xEC ∨ pf = 0xC8 then (s.onCm c sa ps (pf == 0xC8) prio f.data, false)
  else if pf = 0xEB ∨ pf = 0xC7 then (s.onDtFrame c sa ps (pf == 0xC7) f.data (s.now - f.sof), false)
  else (s, false)

/-- A frame received on channel `n` (R410, R413, R421); `bad`: its data met a parity error in OBJ SRAM. While MSG or OBJ restarts it passes that
block by (R442). -/
def State.frameIn (s : State) (n : Nat) (f : CanFrame) (bad : Bool) : State :=
  if !s.canOn n || s.get (F.CAN_STAT_ESTATE n) == 2 || (f.fdf && !s.flag (F.CAN_CFG_FDEN n)) then s
  else
    let s := (((s.count (F.CAN_RXCNT_COUNT n)).canGoodRx n).canRecessive n).busFree n
    if f.rtr then s.countSat (F.CAN_RXNM_COUNT n)
    else
      let r := if s.awake msgPlace then s.msgFrame n f else (s, false)
      let s := if f.ide && s.awake msgPlace then r.1.tryOpen n else r.1
      if r.2 || !s.awake objPlace then s else s.objReceive n f bad

def execFrameReceived (t : Nat) (n : Fin 4) (f : CanFrame) (bad : Bool) (s : State) : Host.Outcome State Fault Refusal :=
  done ((s.atTime t).frameIn n f bad)

/-! Filling buffers (R415–R418, R437, R439). -/

/-- Data for a frame: its bytes, or none where they are poisoned. -/
def State.cleanBytes (s : State) (a n : Nat) : Option (List Byte) := if s.poisoned a n then none else some (s.readBytes a n)

/-- `n` bytes of a message from offset `o`: LMP's own, or from the address `a` of its data. -/
def State.msgBytes (s : State) (own : List Byte) (a o n : Nat) : Option (List Byte) :=
  if own.isEmpty then s.cleanBytes (a + o) n else some ((own.drop o).take n)

/-- The frame that an item of channel `c` would be sent as, without its data. -/
def State.itemHead (s : State) (c : Nat) (i : TxItem) : CanFrame :=
  let sa := (s.ownAddr c).getD 0xFE
  match i.src with
  | .claim | .ctl | .dpo _ => { ident := i.ident, ide := true, dlc := lenDlc i.data.length }
  | .pkt k => { ident := pduIdent 7 (dtPf (s.sesEtp k)) (s.ses k).da (s.ses k).sa, ide := true, dlc := 8 }
  | .obj n =>
    let fdf := s.flag (F.OBJ_CTL_FDF n)
    let id := s.objIdent n
    { ident := if s.flag (F.OBJ_CTL_SAS n) then id / 2 ^ 8 * 2 ^ 8 + sa else id
      ide := s.flag (F.OBJ_CTL_IDE n), fdf := fdf, brs := fdf && s.flag (F.OBJ_CTL_BRS n), dlc := (s.obj n).pend.getD 0 }
  | .msg id =>
    match s.msgOf c id with
    | none => {}
    | some x =>
      let pf := bitField x.pgn 15 8
      { ident := if x.raw then x.pgn % (if wbit x.pgn 29 then 2 ^ 29 else 2 ^ 11)
          else x.prio * 2 ^ 26 + (if pf < 0xF0 then x.pgn / 2 ^ 8 * 2 ^ 8 + x.da else x.pgn) * 2 ^ 8 + sa
        ide := !x.raw || wbit x.pgn 29, fdf := x.fdf, brs := x.fdf && x.brs, dlc := lenDlc x.len }

/-- The data that an item of channel `c` would be sent with; none where it is poisoned. -/
def State.itemData (s : State) (c : Nat) (i : TxItem) : Option (List Byte) :=
  match i.src with
  | .claim | .ctl | .dpo _ => some i.data
  | .pkt k =>
    let x := s.ses k
    let at' := (x.next - 1) * 7
    let n := min 7 (s.word (R.MSG_SESL k) - at')
    (s.msgBytes x.own x.addr at' n).map (fun d => BitVec.ofNat 8 (x.next - x.base) :: (d ++ List.replicate (7 - n) 255))
  | .obj n =>
    let dlc := (s.obj n).pend.getD 0
    s.cleanBytes (s.objData n) (if s.flag (F.OBJ_CTL_FDF n) then dlcLen dlc else min (dlcLen dlc) 8)
  | .msg id =>
    match s.msgOf c id with
    | none => none
    | some x => (s.msgBytes x.own x.addr 0 x.len).map (fun d => d ++ (List.range (dlcLen (lenDlc x.len) - x.len)).map Config.canPad)

/-- The frame that an item of channel `c` would be sent as; none where its data is poisoned. -/
def State.itemFrame (s : State) (c : Nat) (i : TxItem) : Option CanFrame := (s.itemData c i).map (fun d => { s.itemHead c i with data := d })

/-- The item needs a source address that channel `c` does not have yet (R437). -/
def State.waitsForAddr (s : State) (c : Nat) (i : TxItem) : Bool :=
  s.acState c == 1 && s.usesAddr c i

/-- An item of channel `c` whose data is poisoned is withdrawn (R439). -/
def State.poisonItem (s : State) (c : Nat) (i : TxItem) : State :=
  match i.src with
  | .obj n => ((s.raise (F.OBJ_ESTAT_POISON n)).objWithdraw n).event 0xA606 objPlace (p0 := n) (p1 := c)
  | .msg id => ((((s.raise (F.CAN_STAT_POISON c)).raise F.MSG_STAT_POISON).finishMsg c id mPoison)).event 0xA606 (canPlace c) (p0 := 0xFFFF) (p1 := c)
  | .pkt k =>
    let s := ((s.raise (F.CAN_STAT_POISON c)).raise F.MSG_STAT_POISON).event 0xA606 (canPlace c) (p0 := 0xFFFF) (p1 := c)
    (((s.abortSes k 2).sesAborted c).endTx k mPoison).tryOpen c
  | .ctl | .claim | .dpo _ => s

/-- The rank of an item: that of its identifier. -/
def State.itemRank (s : State) (c : Nat) (i : TxItem) : Nat := frameRank (s.itemHead c i)

/-- The item of the lowest rank, the earliest of equals. -/
def State.bestItem (s : State) (c : Nat) : List TxItem → Option TxItem
  | [] => none
  | i :: r =>
    match s.bestItem c r with
    | some j => if s.itemRank c i ≤ s.itemRank c j then some i else some j
    | none => some i

/-- The item that channel `c` would put in a buffer next (R415). -/
def State.nextItem (s : State) (c : Nat) : Option TxItem :=
  let ready := (s.can c).items.filter (fun i => !s.waitsForAddr c i)
  if s.flag (F.CAN_CFG_TXORD c) then ready.head? else s.bestItem c ready

/-- The full buffer of the lowest priority. -/
def State.worstBuf (s : State) (c : Nat) : Option (Nat × Nat) :=
  (List.range 3).foldl (fun (best : Option (Nat × Nat)) b =>
    match s.buf c b, best with
    | some x, some (_, r) => if r < frameRank x.frame then some (b, frameRank x.frame) else best
    | some x, none => some (b, frameRank x.frame)
    | none, _ => best) none

/-- Item `i` put in buffer `b`. -/
def State.putInBuf (s : State) (c b : Nat) (i : TxItem) : State :=
  match s.itemFrame c i with
  | none => s.poisonItem c i
  | some f =>
    let s := s.setCan c { s.can c with items := (s.can c).items.erase i, nextBuf := (b + 1) % 3 }
    let s := s.setBuf c b (some { item := i, frame := f })
    match i.src with
    | .obj n => (s.setObj n { s.obj n with pend := none, inBuf := true }).objRefresh n
    | _ => s

/-- MSG fills a buffer of channel `c` (R415, R416); `won`: the buffer whose frame has won arbitration. -/
def State.fill (s : State) (c : Nat) (won : Option Nat) : State :=
  match s.nextItem c with
  | none => s
  | some i =>
    if s.flag (F.CAN_CFG_TXORD c) then
      let b := (s.can c).nextBuf
      if (s.buf c b).isNone then s.putInBuf c b i else s
    else
      match (List.range 3).find? (fun b => (s.buf c b).isNone) with
      | some b => s.putInBuf c b i
      | none =>
        match s.worstBuf c with
        | some (b, r) =>
          match s.buf c b with
          | some x =>
            if s.itemRank c i < r then
              if won = some b then (if x.cancel.isSome then s else s.setBuf c b (some { x with cancel := some none }))
              else ((s.setBuf c b none).requeue c x).putInBuf c b i
            else s
          | none => s
        | none => s

def execTxBufferFill (t : Nat) (n : Fin 4) (won : Option (Fin 3)) (s : State) : Host.Outcome State Fault Refusal :=
  let s := s.atTime t
  done (if s.awake msgPlace && s.awake (canPlace n) then s.fill n (won.map (·.val)) else s)

/-! Frames sent and failed (R413, R414, R417, R418). -/

/-- Session `k` is given up, with an abort of `reason` (R430, R431). -/
def State.giveUp (s : State) (k reason status : Nat) (dl : Bool := false) : State := ((s.abortSes k reason).sesAborted (k / 16)).endTx k status 0 dl

/-- The abort reason of a withdrawal: that of a deadline (`dl`) or of a cancel (R430, R431). -/
def dropReason (dl : Bool) : Nat := if dl then 3 else 2

/-- Session `k` after its packet was sent; `late`: a withdrawal with this DL met that packet after it had won arbitration, so the session ends TOO_LATE,
with an abort where packets are left (R418, R430). -/
def State.packetSent (s : State) (k : Nat) (late : Option Bool := none) : State :=
  let x := s.ses k
  let len := s.word (R.MSG_SESL k)
  let s := s.setWord (R.MSG_SESB k) (min (7 * x.next) len)
  let s := s.setSes k { x with next := x.next + 1 }
  match late with
  | some dl => (if x.next = x.packets then s.endTx k mTooLate 0 dl else s.giveUp k (dropReason dl) mTooLate dl).tryOpen (k / 16)
  | none =>
  if s.sesKind k = 3 then
    if x.next = x.packets then (s.endTx k mSent).tryOpen (k / 16)
    else s.setSes k { s.ses k with timer := some (s.now + s.get F.MSG_CFG2_BAMGAP * 1000000) }
  else if x.next = x.packets then s.sesGo k mWaitEoma (s.timerIn 1250)
  else if x.next = x.setEnd then s.sesGo k mWaitCts (s.timerIn 1250)
  else s.queuePacket k

/-- The end-of-frame of the frame in buffer `b` (R414). -/
def State.frameOut (s : State) (c b : Nat) : State :=
  match s.buf c b with
  | none => s
  | some x =>
    let s := (((s.setBuf c b none).busFree c).count (F.CAN_TXCNT_COUNT c)).canRecessive c
    let s := (s.put (F.CAN_ERR_LEC c) 0).canErrors c (s.get (F.CAN_ERR_TEC c) - 1) (s.get (F.CAN_ERR_REC c))
    match x.item.src with
    | .obj n =>
      let s := ((s.count (F.OBJ_ESTAT_RCNT n)).put (F.OBJ_ESTAT_DLC n) x.frame.dlc).putB (F.OBJ_ESTAT_FDFR n) x.frame.fdf
      let s := s.put64 (R.OBJ_TLO n) (R.OBJ_THI n) s.now
      (s.setObj n { s.obj n with rptFrom := some s.clock }).objLeft n
    | .msg id =>
      match x.cancel with
      | some (some (_, dl)) => s.finishMsg c id mTooLate dl
      | _ => s.finishMsg c id mSent
    | .pkt k => s.packetSent k (x.cancel.bind (fun y => y.map (·.2)))
    | .dpo k =>
      match x.cancel with
      | some (some (_, dl)) => (s.giveUp k (dropReason dl) mTooLate dl).tryOpen c
      | _ => if s.sesState k = mSendDt then s.queuePacket k else s
    | .claim => if s.acState c = 1 ∧ (s.can c).claimAt = none ∧ x.frame.ident % 2 ^ 8 = (s.can c).cand then s.setCan c { s.can c with claimAt := some s.now } else s
    | .ctl => s

/-- The controller of channel `c` may be sending the frame in buffer `b`: with TXORD = 1 it offers the buffers in the order in which they were
filled, else that of the highest priority, where a frame under transmission goes on though a higher one has come (R404, R413, R415). -/
def State.offers (s : State) (c b : Nat) : Bool :=
  s.canSends c && (if s.flag (F.CAN_CFG_TXORD c) then ([0, 1, 2].map (fun i => ((s.can c).nextBuf + i) % 3)).find? (fun i => (s.buf c i).isSome) == some b
    else (topBufs (s.can c).bufs).contains b || (s.can c).offered.contains b)

def execFrameSent (t : Nat) (n : Fin 4) (b : Fin 3) (s : State) : Host.Outcome State Fault Refusal :=
  let s := s.atTime t
  done (if s.offers n b then s.frameOut n b else s)

/-- An error of a transmitter that leaves TEC as it is (ISO 11898-1): a stuff error in arbitration on a bit sent recessive, or an ACK error in error
passive with no dominant bit in the passive error flag; `spared` says that it was so. -/
def tecSpared (passive : Bool) (e : Nat) (spared : Bool) : Bool := spared && (e == 1 || (passive && e == 3))

/-- The frame in buffer `b` loses arbitration (no error code) or meets an error; a held cancel takes effect on an error (R418). -/
def State.frameFail (s : State) (c b : Nat) (lec : Option (Nat × Bool)) : State :=
  match s.buf c b with
  | none => s
  | some x =>
    let s := (s.canRecessive c).busFree c
    match lec with
    | none => s.countSat (F.CAN_CNT_ALOST c)
    | some (e, spared) =>
      let s := (s.countSat (F.CAN_CNT_ERRF c)).put (F.CAN_ERR_LEC c) e
      let s := if tecSpared (s.get (F.CAN_STAT_ESTATE c) == 1) e spared then s else s.canErrors c (s.get (F.CAN_ERR_TEC c) + 8) (s.get (F.CAN_ERR_REC c))
      match x.cancel with
      | none => s
      | some none => (s.setBuf c b none).requeue c x
      | some (some (status, dl)) =>
        let s := s.setBuf c b none
        match x.item.src with
        | .obj n => (s.raise (F.OBJ_ESTAT_TXERR n)).objLeft n
        | .msg id => s.finishMsg c id status
        | .pkt k | .dpo k => (s.giveUp k (dropReason dl) status).tryOpen c
        | .claim | .ctl => s

def execFrameTxError (t : Nat) (n : Fin 4) (b : Fin 3) (lec : Option (Fin 7 × Bool)) (s : State) : Host.Outcome State Fault Refusal :=
  let s := s.atTime t
  done (if s.offers n b then s.frameFail n b (lec.map (fun e => (e.1.val, e.2))) else s)

/-! Requests (R428–R431). -/

/-- A request record taken in. -/
def State.takeRequest (s : State) (w : List Nat) : State :=
  let g (i : Nat) : Nat := w.getD i 0
  let c := g 0 % 4
  let raw := wbit (g 0) 7
  let fdf := wbit (g 0) 5
  let da := bitField (g 0) 15 8
  let pgn := if raw then g 1 % 2 ^ 30 else g 1 % 2 ^ 18
  match carriage raw fdf pgn da (g 2) with
  | none => (s.raise F.MSG_STAT_BADREQ).msgEnd c (g 6) mBadreq
  | some tp =>
    if !raw && s.acState c == 3 then s.msgEnd c (g 6) mNoaddr
    else
      let id := s.msgNext
      let x : Msg := { id := id, tag := g 6, raw := raw, prio := bitField (g 0) 4 2, fdf := fdf, brs := wbit (g 0) 6, da := da, pgn := pgn, len := g 2,
                       addr := g 3 + g 4 % 2 ^ 16 * 2 ^ 32, deadline := if g 5 = 0 then none else some (s.now + g 5 * 1000), transport := tp }
      let s := s.addMsg c x
      if tp then s.tryOpen c else s

/-- A response of LMP to address `da` of channel `c`; it waits while the pending list is full (R428). -/
def State.sendResponse (s : State) (c da : Nat) (bytes : List Byte) : State :=
  if s.listFull c then { s with lmpRes := s.lmpRes ++ [(c, da, bytes)] }
  else (s.addResponse c da bytes).tryOpen c

/-- The oldest entry of queue `q` is a transmit request: KIND 0x60 and LEN 7, in an entry of at least 64 B (R428). -/
def State.isRequest (s : State) (q : Nat) : Bool :=
  let h := s.readN (s.queEntry q (s.get (F.QUE_CIDX_CIDX q))) 4
  h / 2 ^ 16 % 2 ^ 8 == 0x60 && h / 2 ^ 24 == 7 && decide (64 ≤ s.queEsize q)

/-- MSG takes the oldest entry of TXQ: a stale one is discarded; while any channel has 64 pending messages, or MSG is in a block reset, nothing is taken (R428, R511). A record that is no
transmit request is a bad request. -/
def State.consume (s : State) : State :=
  let q := s.get F.MSG_CFG_TXQ
  if !(s.flag F.MSG_CFG_TXEN && s.awake msgPlace && !s.blockHeld msgPlace) || (List.range 4).any s.listFull then s
  else
    match s.queHead q with
    | none => s
    | some (current, w, bad) =>
      if !current then s.quePop q true
      else if bad then (((s.quePop q false).raise F.MSG_STAT_POISON).event 0xA606 msgPlace (p0 := 0xFFFF) (p1 := w.getD 0 0 % 4)).msgEnd (w.getD 0 0 % 4) (w.getD 6 0) mPoison
      else if !s.isRequest q then ((s.quePop q false).raise F.MSG_STAT_BADREQ).msgEnd (w.getD 0 0 % 4) (w.getD 6 0) mBadreq
      else (s.quePop q false).takeRequest w

def execTxRequestConsume (t : Nat) (s : State) : Host.Outcome State Fault Refusal := done (s.atTime t).consume

/-- A message with a frame in the list or in a buffer is withdrawn (R418, R430, R431). -/
def State.withdrawMsg (s : State) (c id status : Nat) (dl : Bool) (won : Option Nat) : State :=
  match s.bufOf c (.msg id) with
  | some b =>
    match s.buf c b with
    | some x => if won = some b then s.setBuf c b (some { x with cancel := some (some (status, dl)) }) else (s.setBuf c b none).finishMsg c id status
    | none => s
  | none => s.finishMsg c id status

/-- A transmit session is withdrawn, by its deadline (`dl`) or a cancel; where its packet or DPO has won arbitration, that is held until the frame ends
(R418, R430, R431). -/
def State.withdrawSes (s : State) (c k status : Nat) (dl : Bool) (won : Option Nat) : State :=
  match won.bind (fun b => if s.bufOf c (.pkt k) = some b ∨ s.bufOf c (.dpo k) = some b then (s.buf c b).map (fun x => (b, x)) else none) with
  | some (b, x) => s.setBuf c b (some { x with cancel := some (some (status, dl)) })
  | none => s.giveUp k (dropReason dl) status

/-- An object's request is withdrawn (R430). -/
def State.withdrawObj (s : State) (c n : Nat) (won : Option Nat) : State :=
  match s.bufOf c (.obj n) with
  | some b =>
    match s.buf c b with
    | some x =>
      if won = some b then s.setBuf c b (some { x with cancel := some (some (mDeadline, true)) })
      else ((s.setBuf c b none).raise (F.OBJ_ESTAT_TXERR n)).objLeft n
    | none => s
  | none => s.objWithdraw n

/-- An object's waiting request is withdrawn (R430). -/
def State.withdrawWait (s : State) (n : Nat) : State :=
  ((s.setObj n { s.obj n with wait := none, waitDue := none }).raise (F.OBJ_ESTAT_TXERR n)).objRefresh n

/-- Every deadline of channel `c` that has passed takes effect (R430). -/
def State.deadlines (s : State) (c : Nat) (won : Option Nat) : State :=
  let ovv (d : Option Nat) : Bool := match d with | some x => decide (x ≤ s.now) | none => false
  let s := ((s.can c).msgs.filter (fun x => ovv x.deadline)).foldl (fun s x => s.withdrawMsg c x.id mDeadline true won) s
  let s := (sesOf c).foldl (fun s k => if s.sesTx k && ovv (s.ses k).deadline then s.withdrawSes c k mDeadline true won else s) s
  let s := (s.objs.filter (fun e => s.get (F.OBJ_CTL_CH e.1) == c && ovv e.2.waitDue)).foldl (fun s e => s.withdrawWait e.1) s
  let s := (s.objs.filter (fun e => s.get (F.OBJ_CTL_CH e.1) == c && ovv e.2.deadline)).foldl (fun s e => s.withdrawObj c e.1 won) s
  s.tryOpen c

def execMessageDeadline (t : Nat) (n : Fin 4) (won : Option (Fin 3)) (s : State) : Host.Outcome State Fault Refusal :=
  let s := s.atTime t
  done (if s.awake msgPlace then s.deadlines n (won.map (·.val)) else s)

/-- A write of MSG_CANCEL (R431). -/
def State.wMsgCancel (s : State) (m : Master) (v : Nat) (won : Option Nat) : Acc2 :=
  s.writeThen m R.MSG_CANCEL v (fun s =>
    let c := v % 4
    let tag := s.word R.MSG_CTAG
    if !wbit v 31 then s
    else match (s.can c).msgs.find? (fun x => x.tag == tag) with
    | some x => s.withdrawMsg c x.id mCancelled false won
    | none =>
      match (sesOf c).find? (fun k => s.sesTx k && (s.ses k).tag == tag) with
      | some k => (s.withdrawSes c k mCancelled false won).tryOpen c
      | none => s)

/-! Timers, pool, counters (R432, R433). -/

/-- A timer of session `k` expires. -/
def State.sesTimeout (s : State) (k : Nat) : State :=
  match (s.ses k).timer with
  | some due =>
    if s.now < due ∨ !s.awake msgPlace then s
    else
      match s.sesKind k with
      | 1 | 5 => (((s.abortSes k 3).sesAborted (k / 16)).endTx k mTimeout).tryOpen (k / 16)
      | 2 | 6 => ((s.abortSes k 3).endRx k).tryOpen (k / 16)
      | 4 => (s.endRx k).tryOpen (k / 16)
      | _ => s
  | none => s

def execTransportTimeout (t : Nat) (k : Fin 64) (s : State) : Host.Outcome State Fault Refusal := done ((s.atTime t).sesTimeout k)

/-- The next packet of a BAM is due. -/
def execBamPacketSend (t : Nat) (k : Fin 64) (s : State) : Host.Outcome State Fault Refusal :=
  let s := s.atTime t
  match (s.ses k).timer with
  | some due => done (if s.sesKind k = 3 ∧ due ≤ s.now ∧ s.awake msgPlace then (s.setSes k { s.ses k with timer := none }).queuePacket k else s)
  | none => done s

/-- A write of MSG_PREL. -/
def State.wPrel (s : State) (v : Nat) : Acc2 := okay (s.freeBlock (v % 2 ^ 10))

/-- Writing 1 clears every ABORT count. -/
def State.wMsgClr (s : State) (v : Nat) : Acc2 := okay (if wbit v 0 then (List.range 4).foldl (fun s c => s.put (F.MSG_SCNT_ABORT c) 0) s else s)

/-! Resets and restarts (R440, R442). -/

/-- The frames in the buffers of channel `n` return to the list, in the order in which the buffers were filled. -/
def State.emptyBufs (s : State) (n : Nat) : State :=
  [2, 1, 0].foldl (fun s i =>
    let b := ((s.can n).nextBuf + i) % 3
    match s.buf n b with
    | some x => (s.setBuf n b none).requeue n x
    | none => s) s

/-- The words that belong to the always-on wake logic (R409). -/
def wakeWords (n : Nat) : List Nat := [R.CAN_TRX n, R.CAN_WAKE n, R.CAN_WID n, R.CAN_WMSK n, R.CAN_WDAT_LO n, R.CAN_WDAT_HI n]

/-- CAN0's bit rate follows the strap code (R443, R515): `fast` is its bit 1. -/
def State.canStrap (s : State) (fast : Bool) : State := if fast then s.put (F.CAN_NBT_NBRP 0) 1 else s

/-- A block reset of CANn. -/
def State.canReset (s : State) (n : Nat) : State :=
  let kept := (wakeWords n).map (fun a => (a, s.word a))
  let s := s.emptyBufs n
  let s := s.clearRegs (R.CAN_CFG n) (R.CAN_CFG n + 0x10000)
  let s := kept.foldl (fun s e => s.setWord e.1 e.2) s
  let s := if n = 0 then s.canStrap (wbit (s.get F.RST_STRAP_CODE) 1) else s
  let x := s.can n
  s.setCan n { x with nextBuf := 0, boffAt := 0, recovering := false, released := false }

/-- The frames in the buffers of every channel whose item `drop` names are given up (R417). -/
def State.dropBufs (s : State) (drop : TxSrc → Bool) : State :=
  (List.range 12).foldl (fun s i => match s.buf (i / 3) (i % 3) with
    | some x => if drop x.item.src then s.setBuf (i / 3) (i % 3) none else s
    | none => s) s

/-- The item is an object's frame. -/
def TxSrc.isObj : TxSrc → Bool
  | .obj _ => true
  | .msg _ => false
  | .pkt _ => false
  | .dpo _ => false
  | .claim => false
  | .ctl => false

/-- A block reset of OBJ. -/
def State.objReset (s : State) : State :=
  let s := s.dropBufs TxSrc.isObj
  let s := (s.clearRegs R.OBJ_PAGE (R.OBJ_PAGE + 0x10000)).clearRegs (R.OBJ_CTL 0) (R.OBJ_CTL 4096)
  let s : State := { s with objs := [], perMaster := s.perMaster.filter (fun e => e.1.2 != R.OBJ_PAGE),
                            held := s.held.filter (fun e => !(decide (R.OBJ_PAGE ≤ e.1.2) && decide (e.1.2 < R.OBJ_PAGE + 0x10000))) }
  { s with cans := s.cans.map (fun x => { x with items := x.items.filter (fun i => !i.src.isObj) }) }

/-- A block reset of MSG: pending messages and sessions go without records. -/
def State.msgReset (s : State) : State :=
  let s := (s.dropBufs (fun i => !i.isObj)).clearRegs R.MSG_CFG (R.MSG_CFG + 0x10000)
  { s with sess := List.replicate 64 {}, blocks := [], lmpCan := [], lmpRes := [],
           cans := s.cans.map (fun x => { x with msgs := [], names := [], cand := 0, claimAt := none, cannotDue := false, items := x.items.filter (fun i => i.src.isObj) }) }

/-- A restart of CANn. -/
def State.canRestart (s : State) (n : Nat) : State := s.emptyBufs n

/-- A restart of MSG: open sessions end as under a cancel, ABORTED with reason 2. -/
def State.msgRestart (s : State) : State :=
  (List.range 64).foldl (fun s k =>
    if s.sesKind k = 0 then s
    else if s.sesTx k then ((s.abortSes k 2).sesAborted (k / 16)).endTx k mAborted 2
    else (s.abortSes k 2).endRx k) s

end Sys2Proof.Machine
end

