-- ==== Sys2Proof/Machine/Trap.lean ====
section
/-! DEFINITION. The Jarug units and the exception mechanism (spec/06_jarug_instruction_set.md R204, R205, R234–R243). -/

namespace Sys2Proof.Machine

/-! Units. -/

/-- The half of a unit. -/
def procHalf : Proc → Nat
  | .a c => c.half
  | .l l => l.half

/-- The number of a unit in `aCores` or in `lanes`. -/
def procIndex : Proc → Nat
  | .a c => c.half * 4 + c.core
  | .l l => l.half * 8 + l.lane

/-- The unit is a lane. -/
def procIsLane : Proc → Bool
  | .a _ => false
  | .l _ => true

/-- The place code of a unit, which ID reads (R234). -/
def procPlace : Proc → Nat
  | .a c => halfBlock c.half 0 c.core
  | .l l => halfBlock l.half 1 (l.lane + 2)

/-- A unit's own state. -/
def State.cpu (s : State) : Proc → Cpu
  | .a c => s.aCores.getD (procIndex (.a c)) {}
  | .l l => s.lanes.getD (procIndex (.l l)) {}

/-- A unit's own state changed by `f`. -/
def State.modCpu (s : State) (u : Proc) (f : Cpu → Cpu) : State :=
  match u with
  | .a _ => s.modACore (procIndex u) f
  | .l _ => s.modLane (procIndex u) f

/-- A lane beside its unit. -/
def State.ln (s : State) (h l : Nat) : LaneSt := s.lns.getD (h * 8 + l) {}

/-- A lane's own part set. -/
def State.setLn (s : State) (h l : Nat) (x : LaneSt) : State := { s with lns := s.lns.set (h * 8 + l) x }

/-- A control engine beside its registers. -/
def State.ce (s : State) (h : Nat) : CeSt := s.ces.getD h {}

/-- A control engine's own part set. -/
def State.setCe (s : State) (h : Nat) (x : CeSt) : State := { s with ces := s.ces.set h x }

/-! Lane states (R281). -/

def lnIdle : Nat := 0
def lnPending : Nat := 1
def lnRunning : Nat := 2
def lnWaiting : Nat := 3
def lnHalted : Nat := 4
def lnWdog : Nat := 5
def lnMigrated : Nat := 6

/-- The state of lane `l`. -/
def State.lnst (s : State) (h l : Nat) : Nat := s.get (F.LAN_STAT_STATE h l)

/-- Bits HALT and RUN of CE_STAT brought up to date (R280). -/
def State.ceRefresh (s : State) (h : Nat) : State :=
  let bits (p : Nat → Bool) : Nat := ((List.range 8).map (fun l => bit (p (s.lnst h l)) * 2 ^ l)).sum
  (s.put (F.CE_STAT_HALT h) (bits (fun x => x == lnHalted || x == lnWdog))).put (F.CE_STAT_RUN h) (bits (fun x => x == lnRunning || x == lnWaiting))

/-- Lane `l` enters state `x`. -/
def State.setLnst (s : State) (h l x : Nat) : State := (s.put (F.LAN_STAT_STATE h l) x).ceRefresh h

/-- Unit `u` executes instructions now: its half is powered and no flush is over, it is started and neither stopped nor waiting. -/
def State.executes (s : State) (u : Proc) : Bool :=
  match u with
  | .a c => s.halfPowered c.half && !s.flushOver && s.isActive c.half && (s.cpu u).started && !(s.cpu u).stopped && !(s.cpu u).waiting
  | .l l => s.isActive l.half && !s.flushOver && s.lnst l.half l.lane == lnRunning

/-! Exceptions. -/

/-- The value of ECAUSE (R235). -/
def causeWord (cause sub : Nat) (imprecise : Bool := false) : Nat := cause + sub * 16 + bit imprecise * 256

/-- A unit in a handler: IEN:EXL (R234). -/
def Cpu.exl (c : Cpu) : Bool := c.ien.getLsbD 1

/-- Exception entry (R238): `epc` is the faulting instruction, or the next one not started; the reservation ends (R228). -/
def Cpu.enter (c : Cpu) (epc : DWord) (ecause : Nat) (addr : DWord) : Cpu :=
  let target := (c.vbase &&& ~~~(0x3FF : DWord)) + BitVec.ofNat 64 (ecause % 16 * 0x40)
  { c with
    epc := epc
    estat := c.st.setWidth 64
    ecause := BitVec.ofNat 64 ecause
    eaddr := addr
    ien := BitVec.ofNat 3 (2 + 4 * (c.ien.toNat % 2))
    pc := target
    resv := none
    cycles := c.cycles + 6 }

/-- Return from exception (R239). -/
def Cpu.eret (c : Cpu) : Cpu :=
  { c with pc := c.epc, st := c.estat.setWidth 5, ien := BitVec.ofNat 3 (c.ien.toNat / 4 % 2 + c.ien.toNat / 4 * 4), resv := none }

/-- The registers of a unit at their reset values (R246); the unit does not run. -/
def Cpu.fresh : Cpu := {}

end Sys2Proof.Machine
end

