-- ==== Sys2Proof/Machine/Sources.lean ====
section
/-! DEFINITION. Role states and failover sources (spec/14_halves_failover.md R475, R485). -/

namespace Sys2Proof.Machine

/-! ROLE_STAT:STATE. -/

def rNormal : Nat := 0
def rTakeover : Nat := 1
def rSwap : Nat := 2
def rSingle : Nat := 3
def rRestart : Nat := 4
def rNohalf : Nat := 5

/-- The role state. -/
def State.roleState (s : State) : Nat := s.get F.ROLE_STAT_STATE

/-- The role state set; FOOK shows NORMAL, and a change sets IPEND bit 6 (R243). -/
def State.setRole (s : State) (x : Nat) : State :=
  let t := (s.put F.ROLE_STAT_STATE x).putB F.ROLE_STAT_FOOK (x == rNormal)
  if s.roleState = x then t else t.irq 6

/-- The state with the role arbiter's own part at `x`. -/
def State.withRole (s : State) (x : RoleSt) : State := { s with role := x }

/-- Bit OK of half `h`'s health word; its register is ROLE_HEALTH{h + 1}. -/
def State.halfOk (s : State) (h : Nat) : Bool := s.flag (F.ROLE_HEALTH_OK (h + 1))

/-- NORMAL or SINGLE, as the standby's OK, FAILEN and JEN say (R475); the other states stand. -/
def State.roleSettle (s : State) : State :=
  match s.active with
  | some h =>
    if s.roleState = rNormal ∨ s.roleState = rSingle then
      s.setRole (if s.halfOk (1 - h) && s.flag F.ROLE_CFG_FAILEN && s.flag F.ROLE_JCFG_EN then rNormal else rSingle)
    else s
  | none => s

/-- ROLE recovers from a failure, or a swap has isolated the old half: no half is active. -/
def State.recovering (s : State) : Bool := s.role.booting.isSome

/-- ROLE_HEALTH of half `h` as an event's P1 shows it (R549). -/
def State.healthWord (s : State) (h : Nat) : Nat :=
  let age := match s.role.tested.getD h none with
    | some a => min (nearest (s.clock - a) 1000000000) 0xFFFF
    | none => 0xFFFF
  withField (F.ROLE_HEALTH_AGE (h + 1)) (s.word (R.ROLE_HEALTH (h + 1))) age

/-- An event of half `h` that is failover source `code`: taken from the active half or from one that boots to become it; from the isolated
half it shows in ROLE_SRCS only (R501); in the standby it clears OK and is recorded (R485, R508). -/
def State.halfFails (s : State) (h code p : Nat) : State :=
  if s.isActive h || s.role.booting == some h then s.addSource code p
  else if s.recovering then s.put F.ROLE_SRCS_MASK (s.get F.ROLE_SRCS_MASK ||| 2 ^ (code - 1))
  else if s.roleState = rNohalf then s
  else
    let s := s.put (F.ROLE_HEALTH_OK (h + 1)) 0
    (s.event 0x2008 (fieldBlock 0 3) (p0 := h + 1) (p1 := s.healthWord h)).roleSettle

end Sys2Proof.Machine
end

