-- ==== Sys2Proof/Machine/Owner.lean ====
section
/-! DEFINITION. Ownership OWN and what the Lamip engine LMP sends and holds back (spec/13_lamip_ownership_ethernet.md R452–R467, R471). -/

namespace Sys2Proof.Machine

def ownPlace : Nat := fieldBlock 0 8

/-! Masters (R463). -/

/-- MID<63..56>: 0 internal, 1 UDP, 2 CAN, 3 USB. -/
def midKind (m : Master) : Nat := m / 2 ^ 56

/-! Responses (R453, R459, R460). -/

/-- The frame as it is sent: header, payload, CRC. -/
def LampFrame.bytes (f : LampFrame) : List Byte :=
  let body := [1, BitVec.ofNat 8 f.type, BitVec.ofNat 8 (1 + 2 * bit f.push), BitVec.ofNat 8 f.status] ++ leBytes 4 f.tid ++ leBytes 4 f.place
    ++ leBytes 8 f.addr ++ leBytes 4 (f.payload.length * 4) ++ f.payload.flatMap (leBytes 4)
  body ++ leBytes 4 (crc32c body).toNat

/-- A frame leaves LMP: over CAN as a message of the requester's channel, over UDP as a datagram through the switch (R452). -/
def State.lampOut (s : State) (f : LampFrame) : State :=
  let s := s.withNet { s.net with sent := s.net.sent ++ [f] }
  if midKind f.mid = 2 then s.sendResponse (bitField f.mid 9 8) (f.mid % 2 ^ 8) f.bytes
  else if midKind f.mid = 1 then s.udpOut (bitField f.mid 47 16) (f.mid % 2 ^ 16) f.bytes
  else s

/-- What a response's status counts as (R469). -/
def State.lampCount (s : State) (status : Nat) : State :=
  if 1 ≤ status ∧ status ≤ 5 then s.countSat F.LMP_REFCNT_COUNT
  else if status = stBusy then s.raise F.LMP_STAT_BUSY
  else s

/-- A response is sent: its cache entry keeps it for 10 s (R460), and a RESET takes effect 1 ms later (R457). -/
def State.lampSend (s : State) (f : LampFrame) : State :=
  let cache := if f.tid = 0 then s.net.cache
    else s.net.cache.map (fun e => if e.mid = f.mid ∧ e.tid = f.tid then { e with answer := some f, at1 := s.clock } else e)
  let resets := if f.type = 7 ∧ f.status = stOk then s.net.resets ++ [(canonPlace f.place, s.clock + 1000000)] else s.net.resets
  ((s.withNet { s.net with cache := cache, resets := resets }).lampCount f.status).lampOut f

/-- No epoch runs: in the golden recovery path and in NOHALF (R493, R565; log 74). -/
def State.epochless (s : State) : Bool := s.rst.golden || s.roleState == rNohalf

/-- A response held until the epoch that runs now has committed (R459); where none can run it is sent at once. -/
def State.lampHold (s : State) (f : LampFrame) : State :=
  if s.epochless then s.lampSend f
  else s.withNet { s.net with heldResps := s.net.heldResps ++ [{ frame := f, epoch := s.jnl.next }] }

/-- The responses held for epochs up to `k` are sent, in order (R459, R491). -/
def State.lampRelease (s : State) (k : Nat) : State :=
  let due := s.net.heldResps.filter (fun x => decide (x.epoch ≤ k))
  let s := s.withNet { s.net with heldResps := s.net.heldResps.filter (fun x => decide (k < x.epoch)) }
  due.foldl (fun s x => s.lampSend x.frame) s

/-- The responses still held are discarded, and their cache entries removed (R461). -/
def State.lampDiscard (s : State) : State :=
  let lost (e : CacheEntry) : Bool := s.net.heldResps.any (fun x => x.frame.mid == e.mid && x.frame.tid == e.tid)
  s.withNet { s.net with heldResps := [], cache := s.net.cache.filter (fun e => !lost e) }

/-! Changes of owner (R464, R467). -/

/-- OWN_STAT:STATE. -/
def oFree : Nat := 0
def oSettle : Nat := 1
def oOwned : Nat := 2

/-- The state of OWN. -/
def State.ownState (s : State) : Nat := s.get F.OWN_STAT_STATE

/-- The MID in OWN_MID. -/
def State.ownMid (s : State) : Nat := s.get64 R.OWN_MID_LO R.OWN_MID_HI

/-- The owner is internal. -/
def State.ownInternal (s : State) : Bool := s.ownState == oOwned && midKind s.ownMid == 0

/-- A fresh lease (R465). -/
def State.ownLease (s : State) : State := s.withNet { s.net with leaseAt := some s.clock }

/-- What every change of owner does: CHG, OWN_CCNT, OWN_LAST, the event, a staged image that is not complete, an armed burn (R464, R467, R570). -/
def State.ownChanged (s : State) (why mid : Nat) : State :=
  let s := ((s.raise F.OWN_STAT_CHG).count F.OWN_CCNT_COUNT).put F.OWN_LAST_WHY why
  let s := (s.event 0x200A ownPlace (p1 := why) (p2 := mid % 2 ^ 32) (p3 := mid / 2 ^ 32)).put F.TLY_STAT_ARMED 0
  [1, 2, 3, 4, 5].foldl (fun s k => if s.get (F.UPD_KSTAT_STG k) = 1 ∨ s.get (F.UPD_KSTAT_STG k) = 5 then s.put (F.UPD_KSTAT_STG k) 4 else s) s

/-- The registers name master `m` with class `cls` as the owner. -/
def State.ownNamed (s : State) (m : Master) (cls : Nat) : State :=
  (((s.put64 R.OWN_MID_LO R.OWN_MID_HI m).put F.OWN_STAT_CLASS cls).putB F.OWN_STAT_INT (midKind m == 0)).put F.OWN_STAT_STATE oOwned

/-- Master `m` owns, with a fresh lease. -/
def State.ownSet (s : State) (m : Master) (cls why : Nat) : State := ((s.ownNamed m cls).ownChanged why m).ownLease

/-- OWN enters FREE; OWN_MID and CLASS then hold free values (log 7). -/
def State.ownFree (s : State) (why : Nat) : State :=
  let a := s.free
  let b := a.2.free
  let s := ((b.2.put64 R.OWN_MID_LO R.OWN_MID_HI (a.1 % 2 ^ 64)).put F.OWN_STAT_CLASS b.1).put F.OWN_STAT_INT 0
  let s := (s.put F.OWN_STAT_STATE oFree).withNet { s.net with leaseAt := none }
  s.ownChanged why (a.1 % 2 ^ 64)

/-- The claims that wait, in OWN_STAT:NCLAIM. -/
def State.ownClaims (s : State) (l : List Claim) : State := (s.withNet { s.net with claims := l }).put F.OWN_STAT_NCLAIM l.length

/-- A waiting claim is answered. -/
def State.claimAnswer (s : State) (c : Claim) (status : Nat) : State :=
  match c.frame with
  | some f => s.lampSend { f with status := status }
  | none => s

/-- Every waiting claim is answered LOST. -/
def State.claimsLost (s : State) : State :=
  let l := s.net.claims
  l.foldl (fun s c => s.claimAnswer c stLost) (s.ownClaims [])

/-- The internal MID of half `h` owns, whoever owned, with class 0 after a reset and a free value after a takeover. -/
def State.ownInternalTakes (s : State) (h why cls : Nat) : State :=
  let s := s.claimsLost
  if s.ownState = oOwned ∧ s.ownMid = halfMid h then s.ownLease else s.ownSet (halfMid h) cls why

/-- A takeover, or a restart in place, by half `h` (R464, R467): an internal owner's place is taken. -/
def State.ownTakeover (s : State) (h : Nat) : State :=
  if s.ownInternal then let f := s.free; f.2.ownInternalTakes h 5 f.1 else s

/-- The half whose internal MID owns after a reset of OWN: the active one, else the one that OWN_MID last named. -/
def State.ownHalf (s : State) : Nat := s.active.getD (if s.ownMid = 2 then 1 else 0)

/-- A block reset of OWN (R464, R471). -/
def State.ownReset (s : State) : State :=
  let h := s.ownHalf
  let named := s.ownState = oOwned ∧ s.ownMid = halfMid h
  let s := (s.claimsLost).clearRegs 0x400080000 0x400090000
  let s := s.ownNamed (halfMid h) 0
  if named then s.ownLease else (s.ownChanged 6 (halfMid h)).ownLease

/-! Claims, renewal, release, handover (R464–R466). -/

/-- A CLAIM of master `m`; `f` is the response to fill in, none on the register path. The status is none while the claim waits. -/
def State.ownClaim (s : State) (m : Master) (cls : Nat) (f : Option LampFrame) : State × Option Nat :=
  if s.ownState = oOwned then
    if s.isOwner m then (s.ownLease, some stOk) else (s, some stHeld)
  else
    let old := s.net.claims.filter (fun c => c.mid == m)
    let s := old.foldl (fun s c => s.claimAnswer c stLost) (s.ownClaims (s.net.claims.filter (fun c => c.mid != m)))
    if 32 ≤ s.net.claims.length then (s, some stBusy)
    else
      let s := s.ownClaims (s.net.claims ++ [{ mid := m, cls := cls, frame := f, at1 := s.clock }])
      let s := if s.ownState = oFree then (s.put F.OWN_STAT_STATE oSettle).withNet { s.net with settleAt := s.clock + 50000000 } else s
      (s, none)

/-- RENEW by master `m`. -/
def State.ownRenew (s : State) (m : Master) : Acc2 := if s.isOwner m then okay s.ownLease else (s, stNotOwner)

/-- RELEASE by master `m`. -/
def State.ownRelease (s : State) (m : Master) : Acc2 := if s.isOwner m then okay (s.ownFree 2) else (s, stNotOwner)

/-- HANDOVER by master `m` to `succ`; the successor's class is a free value (log 7). -/
def State.ownHandover (s : State) (m succ : Master) : Acc2 :=
  if !s.isOwner m then (s, stNotOwner)
  else if 3 < midKind succ then (s, stBadLen)
  else let f := s.free; okay (f.2.ownSet succ f.1 3)

/-- A write of OWN_CTL (R471, R595). -/
def State.wOwnCtl (s : State) (m : Master) (v : Nat) : Acc2 :=
  if !s.isActiveCore m then (s, stNotOwner)
  else if 1 < actionCount [0, 1, 2, 3] v then okay s
  else if wbit v 0 then okay (s.ownRenew m).1
  else if wbit v 1 then okay (s.ownRelease m).1
  else if wbit v 2 then okay (s.ownClaim m (fieldOf F.OWN_CTL_CLASS v) none).1
  else if wbit v 3 then okay (s.ownHandover m (s.get64 R.OWN_HSUCC_LO R.OWN_HSUCC_HI)).1
  else okay s

/-- Claim `a` wins over `b`: by class, then by arrival, then by MID (R464). -/
def Claim.beats (a b : Claim) : Bool :=
  decide (b.cls < a.cls) || (a.cls == b.cls && (decide (a.at1 < b.at1) || (a.at1 == b.at1 && decide (a.mid < b.mid))))

/-- The winner among the waiting claims. -/
def bestClaim : List Claim → Option Claim
  | [] => none
  | c :: r => match bestClaim r with
    | some b => some (if b.beats c then b else c)
    | none => some c

/-- The settle window ends (R464). -/
def State.ownSettle (s : State) : State :=
  match bestClaim s.net.claims with
  | none => s.put F.OWN_STAT_STATE oFree
  | some w =>
    let others := s.net.claims.filter (fun c => c.mid != w.mid)
    let s := ((s.ownClaims []).ownSet w.mid w.cls 1).claimAnswer w stOk
    others.foldl (fun s c => s.claimAnswer c stLost) s

/-- OWN runs: it is powered, and neither in reset nor restarting (R470). -/
def State.ownUp (s : State) : Bool := s.rst.hold.isNone && s.awake ownPlace && !s.blockHeld ownPlace

def execSettleWindowEnd (t : Nat) (s : State) : Host.Outcome State Fault Refusal :=
  let s := s.atTime t
  done (if s.ownUp && s.ownState == oSettle && decide (s.net.settleAt ≤ s.clock) then s.ownSettle else s)

/-- The lease has run for 3,000 ms, and the millisecond in which it ends is over: a renewal in that millisecond prevails (R465). -/
def State.leaseDue (s : State) : Bool :=
  match s.net.leaseAt with
  | some a => s.ownState == oOwned && decide ((a + 3000000000) / 1000000 < s.clock / 1000000)
  | none => false

def execLeaseExpire (t : Nat) (s : State) : Host.Outcome State Fault Refusal :=
  let s := s.atTime t
  done (if s.ownUp && s.leaseDue then s.ownFree 4 else s)

/-- OWN_LEASE:MS (R471, R596). -/
def State.leaseLeft (s : State) : Nat :=
  if s.ownState = oOwned then
    match s.net.leaseAt with
    | some a => ((a + 3000000000 - s.clock) * 2 + 1000000) / 2000000
    | none => 3000
  else 0

/-- The boot of the active half is complete: an internal owner's lease starts (R465, R518). -/
def State.leaseStart (s : State) : State := if s.ownInternal then s.ownLease else s

end Sys2Proof.Machine
end

