-- ==== Sys2Proof/Machine/Image.lean ====
section
/-! DEFINITION. Image kinds, slots, verification, trial and fallback (spec/17_update_tally_fuses.md R552–R563). The layout of the boot
selector's record is the model's (log 46). -/

namespace Sys2Proof.Machine

def updPlace : Nat := fieldBlock 0 6

/-- The state with UPD's own part at `x`. -/
def State.withUpd (s : State) (x : UpdSt) : State := { s with upd := x }

/-- UPD's own part of kind `k` set. -/
def State.setImg (s : State) (k : Nat) (x : ImgKind) : State := s.withUpd { s.upd with kinds := s.upd.kinds.set k x }

/-! STG (R572). -/

def stgEmpty : Nat := 0
def stgOpen : Nat := 1
def stgComplete : Nat := 2
def stgTrial : Nat := 3
def stgAbandoned : Nat := 4
def stgIncomplete : Nat := 5

/-- STG of kind `k`. -/
def State.stg (s : State) (k : Nat) : Nat := s.get (F.UPD_KSTAT_STG k)

/-! Slots (R553). -/

/-- The largest TOTAL of a kind (R552). -/
def imageLimit : Nat → Nat
  | 1 => 0x400000
  | 2 => 0x200000
  | 3 => 0x80000
  | 4 => 0x2000000
  | _ => 0x80000

/-- The key of byte 0 of a NAND slot. -/
def nandBase (k slot : Nat) : Nat := k * 2 ^ 27 + slot * 2 ^ 26

/-- The staged slot of kind `k`. -/
def State.stagedSlot (s : State) (k : Nat) : Nat := 1 - s.get (F.UPD_KSTAT_CUR k)

/-- `n` bytes of a NAND slot. -/
def State.nandBytes (s : State) (k slot o n : Nat) : List Byte :=
  (List.range n).map (fun i => sparseGet (fun _ => (0 : Byte)) s.upd.nand (nandBase k slot + o + i))

/-- The program-store slots (R553). -/
def psBase (p : Nat) : Nat := 0x301200000 + p * 0x400000

/-- The program-store slot of the current A-image, and the one of a staged A-image. -/
def State.psSlot (s : State) (staged : Bool) : Nat := if staged then 1 - s.get (F.UPD_KSTAT_PSCUR 1) else s.get (F.UPD_KSTAT_PSCUR 1)

/-- The first `n` bytes of an image: of a half's image from the program store, else from NAND. -/
def State.imageBytes (s : State) (k : Nat) (staged : Bool) (n : Nat) : List Byte :=
  if k = 1 then s.readBytes (psBase (s.psSlot staged)) n
  else s.nandBytes k (if staged then s.stagedSlot k else s.get (F.UPD_KSTAT_CUR k)) 0 n

/-- The 512 header bytes of an image. -/
def State.imageHeader (s : State) (k : Nat) (staged : Bool) : List Byte := s.imageBytes k staged 512

/-- The bytes of an image stand in the state; those of an image that the factory stored do not (log 47). -/
def State.imageKnown (s : State) (k : Nat) (staged : Bool) : Bool := (s.imageHeader k staged).any (fun b => b != 0)

/-! Verification (R554, R556). -/

/-- Reason 0x1: the header check of kind `k`. -/
def headerOk (k : Nat) (h : List Byte) : Bool :=
  leAt h 0 4 == 0x4B494D47 && leAt h 4 2 == 1 && leAt h 6 2 == k && leAt h 8 4 % 4 == 0 && decide (512 ≤ leAt h 8 4) && decide (leAt h 8 4 ≤ imageLimit k)
    && leAt h 24 4 % 2 == 1 && leAt h 100 28 == 0 && leAt h 320 192 == 0

/-- The anti-rollback counter: byte 0 of the last burned row of tally setting 0x6 (R568). -/
def State.rollback (s : State) : Nat :=
  ((List.range 8).foldl (fun v r =>
    let a := 0x380000500 + r * 32
    if s.readN a 4 % 4 = 1 then s.readN (a + 8) 1 else v) 0)

/-- The root-key hash: the value of the last burned row of tally setting 0x7, of which row 0 is the chip's own (R568, R570; log 6). -/
def State.rootKey (s : State) : List Byte :=
  (List.range 8).foldl (fun v r =>
    let a := 0x380000600 + r * 64
    if s.readN a 4 % 4 = 1 then (if r = 0 then (List.range 48).map (fun i => BitVec.ofNat 8 (Config.factoryKey i)) else s.readBytes (a + 8) 48) else v) []

/-- `n` bytes from offset `o` of an image. -/
def part (img : List Byte) (o n : Nat) : List Byte := (img.drop o).take n

/-- Reason 0x3: SIG is a signature of header bytes 0 to 223 and of the payload under PUBKEY (R554, R555). -/
def signedOk (img : List Byte) : Bool :=
  ecdsaVerify (beNat (part img 128 48), beNat (part img 176 48)) (beNat (part img 224 48)) (beNat (part img 272 48)) (img.take 224 ++ img.drop 512)

/-- Reason 0x5: the plaintext of an image, PLEN bytes; none where WKEY does not unwrap or the tag does not hold (R554, R556). -/
def imageOpen (img : List Byte) : Option (List Byte) :=
  let n := leAt img 28 4
  let fleet := (List.range 32).map (fun i => BitVec.ofNat 8 (Config.fleetKey i))
  if img.length < 512 + n then none
  else (keyUnwrap fleet (part img 60 40)).bind (fun key => gcmOpen key (part img 32 12) (img.take 32) (part img 512 n) (part img 44 16))

/-- Reason 0x7: the format check of kind `k` on the plaintext (R171, R556). -/
def formatOk (k : Nat) (plain : List Byte) : Bool := if k = 4 then setBytesOk plain else Config.formatOk k plain

/-- Reason 0x6: the staged slot is not complete. -/
def State.slotPartial (s : State) (k : Nat) (staged : Bool) : Bool := staged && s.stg k != stgTrial && s.stg k != stgComplete

/-- The first check of R556 that a known image of kind `k` fails; `bad`: NAND failed at a read of it. -/
def State.imageFails (s : State) (k : Nat) (staged bad : Bool) : Option Nat :=
  let h := s.imageHeader k staged
  let img := s.imageBytes k staged (leAt h 8 4)
  if !headerOk k h then some 1
  else if sha384 (part img 128 96) ≠ s.rootKey then some 2
  else if !signedOk img then some 3
  else if leAt h 12 4 < s.rollback then some 4
  else
    match imageOpen img with
    | none => some 5
    | some plain =>
      if s.slotPartial k staged then some 6
      else if !formatOk k plain then some 7
      else if bad || (k == 1 && s.poisoned (psBase (s.psSlot staged)) img.length) then some 8
      else none

/-- The reason for which the staged or the current image of kind `k` fails; none: it verifies. Of an image that the factory stored the command says
what is found (log 47). -/
def State.verify (s : State) (k : Nat) (staged : Bool) (found : List Nat) : Option Nat :=
  if s.imageKnown k staged then s.imageFails k staged (found.contains 8)
  else (found.filter (fun r => 1 ≤ r && r ≤ 8 && r != 6) ++ (if s.slotPartial k staged then [6] else [])).min?

/-- The plaintext of an image that has verified; of one that the factory stored it comes with the command. -/
def State.imagePlain (s : State) (k : Nat) (staged : Bool) (given : List Byte) : List Byte :=
  if s.imageKnown k staged then (imageOpen (s.imageBytes k staged (leAt (s.imageHeader k staged) 8 4))).getD [] else given

/-- The lane bundle of the A-image that a half boots. -/
def State.laneBundle (s : State) (trial : Bool) (found : BootImages) : List LaneImage :=
  if s.imageKnown 1 trial then Config.laneBundle (s.imagePlain 1 trial []) else if trial then found.trialLanes else found.lanes

/-! Trial and fallback (R561). -/

/-- The two locations of the boot selector's record, at the start of the image directory region (log 46). -/
def selBase (i : Nat) : Nat := 0x301000000 + i % 2 * 256

/-- The fields of every kind that the selector holds, as in UPD_KSTAT. -/
def selFields (k : Nat) : List Fld := [F.UPD_KSTAT_CUR k, F.UPD_KSTAT_PSCUR k, F.UPD_KSTAT_TRY k, F.UPD_KSTAT_TRIES k]

/-- The record of the selector with number `n`: the number, a word for each kind, and the CRC-32C of what precedes it (R560; log 46). -/
def State.selRecord (s : State) (n : Nat) : List Byte :=
  let kinds := [1, 2, 3, 4, 5].flatMap (fun k => leBytes 4 ((selFields k).foldl (fun w f => w + s.get f * 2 ^ f.lo) 0))
  let body := leBytes 4 n ++ kinds ++ List.replicate 228 0
  body ++ leBytes 4 (crc32c body).toNat

/-- A record of the boot selector written, to the one location and the other in turn (R560). -/
def State.selWrite (s : State) : State :=
  let n := (s.word R.UPD_BSEQ + 1) % 2 ^ 32
  let s := s.setWord R.UPD_BSEQ n
  (s.writeBytes (selBase n) (s.selRecord n)).dmaWrote (selBase n) 256

/-- The number of the record at location `i`, where it is valid. -/
def State.selNumber (s : State) (i : Nat) : Option Nat :=
  let a := selBase i
  if !s.poisoned a 256 && s.readN (a + 252) 4 == (crc32c (s.readBytes a 252)).toNat then some (s.readN a 4) else none

/-- The record in force is read: the valid one with the higher number; where none is valid the fields stay as the factory left them (R560). -/
def State.selLoad (s : State) : State :=
  let load (i n : Nat) : State :=
    [1, 2, 3, 4, 5].foldl (fun s k => (selFields k).foldl (fun s f => s.put f (s.readN (selBase i + 4 * k) 4 / 2 ^ f.lo)) s) (s.setWord R.UPD_BSEQ n)
  match s.selNumber 0, s.selNumber 1 with
  | some n, some m => if m < n then load 0 n else load 1 m
  | some n, none => load 0 n
  | none, some m => load 1 m
  | none, none => s

/-- An image of kind `k` is rejected. -/
def State.imgReject (s : State) (k r : Nat) : State :=
  ((s.raise (F.UPD_KSTAT_REJ k)).put (F.UPD_KSTAT_REASON k) r).event 0x2010 updPlace (p1 := k) (p2 := r)

/-- The kind falls back: TRY clears in the selector; the staged image stays, COMPLETE. -/
def State.imgFallback (s : State) (k : Nat) : State :=
  let s := ((s.put (F.UPD_KSTAT_TRY k) 0).selWrite).raise (F.UPD_KSTAT_FALLBK k)
  let s := if s.stg k = stgTrial then s.put (F.UPD_KSTAT_STG k) stgComplete else s
  s.event 0x2011 updPlace (p1 := k)

/-- RUNTRY set, and UPD_RUNT counts from the moment it was first set; or cleared. -/
def State.imgRuns (s : State) (k : Nat) (trial : Bool) : State :=
  (s.putB (F.UPD_KSTAT_RUNTRY k) trial).setImg k { s.img k with runAt := if trial then some ((s.img k).runAt.getD s.now) else none }

/-- The image is verified, and rejected where it fails: the state after it, and whether it passed. A NAND read that failed sets NANDERR; an A-image is
read from MRAM. -/
def State.verified (s : State) (k : Nat) (staged : Bool) (found : List Nat) : State × Bool :=
  let r := s.verify k staged found
  let s := if k = 1 then s.dmaRead (psBase (s.psSlot staged)) else s.raiseIf (found.contains 8) F.UPD_STAT_NANDERR
  match r with
  | some x => (s.imgReject k x, false)
  | none => (s, true)

/-- The component of kind `k` boots or restarts: some true where it runs the staged image, some false where it runs the current one,
none where that fails verification (R561). -/
def State.imgBoot (s : State) (k : Nat) (found : BootImages) : State × Option Bool :=
  let current (s : State) : State × Option Bool :=
    let r := s.verified k false found.current
    (r.1.imgRuns k false, if r.2 then some false else none)
  if s.flag (F.UPD_KSTAT_TRY k) then
    if s.get (F.UPD_KSTAT_TRIES k) = 3 then current (s.imgFallback k)
    else
      let r := s.verified k true found.staged
      if r.2 then (((r.1.count (F.UPD_KSTAT_TRIES k)).selWrite).imgRuns k true, some true) else current (r.1.imgFallback k)
  else current s

/-- UPD_RUNT{k}:S (R562, R572). -/
def State.runTime (s : State) (k : Nat) : Nat :=
  match (s.img k).runAt with
  | some a => min 600 ((s.now - a) / 1000000000)
  | none => 0

end Sys2Proof.Machine
end

