-- ==== Sys2Proof/Machine/Loops.lean ====
section
/-! DEFINITION. Loop hardware LPH (spec/07_control_lanes_loops.md R264–R272, R276, R280, R282, R283). A loop is half `h`, number `n`. -/

namespace Sys2Proof.Machine

/-- A register as a signed 32-bit number. -/
def State.sword (s : State) (a : Nat) : Int := signedOf 32 (s.word a)

/-- A register set to a signed 32-bit number. -/
def State.setSword (s : State) (a : Nat) (v : Int) : State := s.setWord a (bitsOf 32 v)

/-- sat32 (R222). -/
def sat32 (x : Int) : Int := satS 32 x

/-- Bit `b` of the status word (R268). -/
def loopBit (h n b : Nat) : Fld := ⟨R.LPD_STAT h n, b, b⟩

/-- The copies of CTL in the status word brought up to date. -/
def State.loopStat (s : State) (h n : Nat) : State :=
  s.put ⟨R.LPD_STAT h n, 2, 0⟩ (s.get (F.LPD_CTL_EN h n) + 2 * s.get (F.LPD_CTL_MODE h n) + 4 * s.get (F.LPD_CTL_BANK h n))

/-- An error of loop `n` recorded in LPH_STAT (R280). -/
def State.loopErr (s : State) (h n : Nat) (f : Fld) : State := (s.raise f).put (F.LPH_STAT_LAST h) n

/-- Bank `k` is valid (R265). -/
def State.bankValid (s : State) (h n k : Nat) : Bool :=
  decide (s.sword (R.LPD_IMIN h n k) ≤ s.sword (R.LPD_IMAX h n k)) && decide (s.sword (R.LPD_UMIN h n k) ≤ s.sword (R.LPD_UMAX h n k))
    && decide (s.word (R.LPD_ALPHA h n k) < 2 ^ 31)

/-- The setpoint of a cascade (R267, R271). -/
def State.cascade (s : State) (h n : Nat) : State :=
  if s.flag (F.LPD_CTL_CASC h n) then
    let u := s.sword (R.LPD_U h (s.get (F.LPD_CTL_CSRC h n)))
    s.setSword (R.LPD_SP h n) (sat32 (rdiv (s.sword (R.LPD_CSCL h n) * u) (2 ^ 24) + s.sword (R.LPD_COFS h n)))
  else s

/-- P of bank `k` on sat32(SP − X). -/
def State.loopP (s : State) (h n k : Nat) : Int :=
  sat32 (rdiv (s.sword (R.LPD_KP h n k) * sat32 (s.sword (R.LPD_SP h n) - s.sword (R.LPD_X h n))) (2 ^ 24))

/-- min(max(x, UMIN), UMAX) of bank `k`. -/
def State.clampU (s : State) (h n k : Nat) (x : Int) : Int := min (max x (s.sword (R.LPD_UMIN h n k))) (s.sword (R.LPD_UMAX h n k))

/-- min(max(x, IMIN), IMAX) of bank `k`. -/
def State.clampI (s : State) (h n k : Nat) (x : Int) : Int := min (max x (s.sword (R.LPD_IMIN h n k))) (s.sword (R.LPD_IMAX h n k))

/-- The integrator preset so that P + I + D equals `m` in bank `k` (R269, R270, R276). -/
def State.presetI (s : State) (h n k : Nat) (m : Int) : State :=
  s.setSword (R.LPD_I h n) (s.clampI h n k (sat32 (m - s.loopP h n k - s.sword (R.LPD_D h n))))

/-- LEVAL (R267, R268). -/
def State.loopEval (s : State) (h n : Nat) : State :=
  let k := s.get (F.LPD_CTL_BANK h n)
  let s := s.cascade h n
  let sp := s.sword (R.LPD_SP h n)
  let x := s.sword (R.LPD_X h n)
  let e := sat32 (sp - x)
  let xd := if s.flag (F.LPD_CTL_DSEL h n) then sat32 (x - sp) else x
  let xprev := if s.flag (loopBit h n 4) then xd else s.sword (R.LPD_XPREV h n)
  let p0 := rdiv (s.sword (R.LPD_KP h n k) * e) (2 ^ 24)
  let dd0 := rdiv (s.sword (R.LPD_KD h n k) * (xprev - xd)) (2 ^ 24)
  let alpha : Int := s.sword (R.LPD_ALPHA h n k)
  let d0 := rdiv (alpha * s.sword (R.LPD_D h n)) (2 ^ 31) + rdiv ((2 ^ 31 - alpha) * sat32 dd0) (2 ^ 31)
  let i0 := s.sword (R.LPD_I h n) + rdiv (s.sword (R.LPD_KITS h n k) * e) (2 ^ 30)
  let auto := s.flag (F.LPD_CTL_MODE h n)
  let i := if auto then s.clampI h n k (sat32 i0) else s.sword (R.LPD_I h n)
  let raw := if auto then sat32 p0 + i + sat32 d0 else s.sword (R.LPD_M h n)
  let u := s.clampU h n k raw
  let psat := e != sp - x || sat32 p0 != p0 || sat32 dd0 != dd0 || sat32 d0 != d0 || (auto && sat32 i0 != i0)
  let s := (((s.setSword (R.LPD_I h n) i).setSword (R.LPD_D h n) (sat32 d0)).setSword (R.LPD_XPREV h n) xd).setSword (R.LPD_PLAST h n) (sat32 p0)
  let s := ((s.setSword (R.LPD_U h n) u).count (F.LPD_EVCNT_COUNT h n)).count (F.LPH_EVAL_COUNT h)
  let s := ((s.put (loopBit h n 4) 0).put (loopBit h n 9) 0).put (loopBit h n 10) 0
  let due := (s.ce h).isatDue.contains n
  let s := s.setCe h { s.ce h with isatDue := (s.ce h).isatDue.filter (fun x => x != n) }
  ((s.putB (loopBit h n 5) (due || (auto && i != sat32 i0))).putB (loopBit h n 6) (u != raw)).putB (loopBit h n 7) psat

/-- LMAN (R269). -/
def State.loopMan (s : State) (h n : Nat) (v : Int) : State :=
  ((s.setSword (R.LPD_M h n) v).put (F.LPD_CTL_MODE h n) 0).loopStat h n

/-- LAUTO (R269). -/
def State.loopAuto (s : State) (h n : Nat) : State :=
  if s.flag (F.LPD_CTL_MODE h n) then s
  else
    let k := s.get (F.LPD_CTL_BANK h n)
    let s := s.cascade h n
    let m := s.clampU h n k (s.sword (R.LPD_M h n))
    let i := sat32 (m - s.loopP h n k - s.sword (R.LPD_D h n))
    let s := s.setCe h { s.ce h with isatDue := (s.ce h).isatDue.filter (fun x => x != n) ++ (if s.clampI h n k i = i then [] else [n]) }
    let s := (s.presetI h n k m).setSword (R.LPD_U h n) m
    ((s.put (F.LPD_CTL_MODE h n) 1).raise (loopBit h n 4)).loopStat h n

/-- A swap to bank `b` requested (R270). -/
def State.swapRequest (s : State) (h n b : Nat) : State :=
  s.putB (loopBit h n 3) (s.flag (F.LPD_CTL_EN h n) && s.get (F.LPD_CTL_BANK h n) != b)

/-- The pending swap of loop `n` applied at the owner's boundary (R270). -/
def State.swapApply (s : State) (h n : Nat) : State :=
  if !s.flag (loopBit h n 3) then s
  else
    let s := s.put (loopBit h n 3) 0
    let k := 1 - s.get (F.LPD_CTL_BANK h n)
    if !s.bankValid h n k then (s.raise (loopBit h n 8)).loopErr h n (F.LPH_STAT_SWFAIL h)
    else
      let s := ((s.put (loopBit h n 8) 0).put (F.LPD_CTL_BANK h n) k).loopStat h n
      if s.flag (F.LPD_CTL_SWB h n) then s.presetI h n k (s.sword (R.LPD_U h n)) else s

/-- The preset of a loop from its tracking port at a takeover, `v` the value latched there (R276). -/
def State.loopTrack (s : State) (h n v : Nat) : State :=
  let k := s.get (F.LPD_CTL_BANK h n)
  let t := sat32 (rdiv (s.sword (R.LPD_TRKG h n) * signedOf 32 v * (2 ^ s.get (F.LPD_TRKP_TLS h n) : Nat)) (2 ^ 24) + s.sword (R.LPD_TRKO h n))
  let m := s.clampU h n k t
  ((s.presetI h n k m).setSword (R.LPD_U h n) m).raise (loopBit h n 10)

/-- A lane's operation is refused (R266). -/
def State.loopRefuse (s : State) (h n : Nat) : State := s.loopErr h n (F.LPH_STAT_OWNERR h)

/-- Lane `l` owns loop `n`, and the loop is enabled (R266). -/
def State.loopOwned (s : State) (h l n : Nat) : Bool := s.flag (F.LPD_CTL_EN h n) && s.get (F.LPD_CTL_OWNER h n) == l

/-- A descriptor word of loop `n` is poisoned (R45). -/
def State.loopPoisoned (s : State) (h n : Nat) : Bool := s.poisoned (R.LPD_CTL h n) 0x80

/-- The words that a cascade reads. -/
def State.cascadeReads (s : State) (h n : Nat) : List Nat :=
  if s.flag (F.LPD_CTL_CASC h n) then [R.LPD_CSCL h n, R.LPD_COFS h n, R.LPD_U h (s.get (F.LPD_CTL_CSRC h n))] else [R.LPD_SP h n]

/-- The descriptor words that LEVAL reads (R267): in automatic the integrator and its constants, in manual M. -/
def State.evalReads (s : State) (h n : Nat) : List Nat :=
  let k := s.get (F.LPD_CTL_BANK h n)
  [R.LPD_CTL h n, R.LPD_STAT h n, R.LPD_X h n, R.LPD_D h n, R.LPD_EVCNT h n] ++ s.cascadeReads h n
    ++ (if s.flag (loopBit h n 4) then [] else [R.LPD_XPREV h n])
    ++ (if s.flag (F.LPD_CTL_MODE h n) then [R.LPD_I h n, R.LPD_KITS h n k, R.LPD_IMIN h n k, R.LPD_IMAX h n k] else [R.LPD_M h n])
    ++ [R.LPD_KP h n k, R.LPD_KD h n k, R.LPD_ALPHA h n k, R.LPD_UMIN h n k, R.LPD_UMAX h n k]

/-- The descriptor words that LEVAL writes with data of its own. -/
def State.evalWrites (s : State) (h n : Nat) : List Nat :=
  [R.LPD_U h n, R.LPD_PLAST h n, R.LPD_XPREV h n] ++ (if s.flag (F.LPD_CTL_CASC h n) then [R.LPD_SP h n] else [])

/-- The descriptor words that LAUTO writes with data of its own; none where it has no effect. -/
def State.autoWrites (s : State) (h n : Nat) : List Nat :=
  if s.flag (F.LPD_CTL_MODE h n) then [] else [R.LPD_U h n, R.LPD_I h n] ++ (if s.flag (F.LPD_CTL_CASC h n) then [R.LPD_SP h n] else [])

/-- The descriptor words that LAUTO reads (R269). -/
def State.autoReads (s : State) (h n : Nat) : List Nat :=
  let k := s.get (F.LPD_CTL_BANK h n)
  if s.flag (F.LPD_CTL_MODE h n) then [R.LPD_CTL h n]
  else
    [R.LPD_CTL h n, R.LPD_M h n, R.LPD_X h n, R.LPD_D h n] ++ s.cascadeReads h n
      ++ [R.LPD_KP h n k, R.LPD_IMIN h n k, R.LPD_IMAX h n k, R.LPD_UMIN h n k, R.LPD_UMAX h n k]

/-! Descriptor writes (R264, R265). -/

/-- A write of the CTL word of loop `n`: while EN = 1 only EN may change; setting EN checks the loop. -/
def State.wLoopCtl (s : State) (m : Master) (h n v : Nat) : Acc2 :=
  let a := R.LPD_CTL h n
  let old := s.word a
  let was := wbit old 0
  if !s.isOwner m then (s, stNotOwner)
  else if was && regWritten a old v / 2 != old / 2 then kept (s.loopErr h n (F.LPH_STAT_CFGERR h))
  else
    let s := (s.plainWrite m a v).1
    let on := s.flag (F.LPD_CTL_EN h n)
    if on && !was then
      let k := s.get (F.LPD_CTL_BANK h n)
      if s.bankValid h n k && !(s.flag (F.LPD_CTL_CASC h n) && s.get (F.LPD_CTL_CSRC h n) == n) then okay ((s.raise (loopBit h n 4)).loopStat h n)
      else okay (((s.put (F.LPD_CTL_EN h n) 0).loopErr h n (F.LPH_STAT_CFGERR h)).loopStat h n)
    else okay ((if was && !on then s.put (loopBit h n 3) 0 else s).loopStat h n)

/-- A write of another word of loop `n`, at offset `o`: while EN = 1 only the inactive bank and CSCL to TRKO take writes, and a write of any other
word, reserved or RO, is refused too; PORT takes a SAMP port of R29 only (R593). -/
def State.wLoopWord (s : State) (m : Master) (h n o v : Nat) : Acc2 :=
  let a := R.LPD_CTL h n + o
  let inactive := decide (0x40 ≤ o) && decide (o < 0x80) && (o - 0x40) / 0x20 != s.get (F.LPD_CTL_BANK h n)
  let free := decide (0x28 ≤ o) && decide (o < 0x3C)
  let owned := match regDescAt a with
    | some (_, d) => s.mayWrite m d
    | none => true
  if !owned then (s, stNotOwner)
  else if s.flag (F.LPD_CTL_EN h n) && !inactive && !free || o == 0x30 && !sampPort (fieldOf (F.LPD_TRKP_PORT h n) v) then
    kept (s.loopErr h n (F.LPH_STAT_CFGERR h))
  else okay (s.plainWrite m a v).1

/-- A write of LPH_SWAP (R270). -/
def State.wSwap (s : State) (m : Master) (h v : Nat) : Acc2 :=
  let r := s.plainWrite m (R.LPH_SWAP h) v
  if r.2 == stOk && wbit v 9 then okay (r.1.swapRequest h (r.1.get (F.LPH_SWAP_LOOP h)) (r.1.get (F.LPH_SWAP_BANK h))) else r

/-- The LPH control registers at their reset values, and every pending swap dropped (R283). -/
def State.lphControls (s : State) (h : Nat) : State :=
  let s := ((s.setWord (R.LPH_STAT h) 0).setWord (R.LPH_SWAP h) 0).setWord (R.LPH_EVAL h) 0
  (List.range 256).foldl (fun s n => if s.flag (loopBit h n 3) then s.put (loopBit h n 3) 0 else s) s

/-- A block reset of LPH (R283). -/
def State.lphReset (s : State) (h : Nat) : State :=
  (List.range 256).foldl (fun s n => if s.flag (F.LPD_CTL_EN h n) then (s.put (F.LPD_CTL_EN h n) 0).loopStat h n else s) (s.lphControls h)

end Sys2Proof.Machine
end

