-- ==== Sys2Proof/Machine/Inputs.lean ====
section
/-! DEFINITION. High-rate inputs HRA and general inputs GPA (spec/04_cropflow_analog_inputs.md R122–R149, R157–R163). -/

namespace Sys2Proof.Machine

/-- Place code of HRIN channel `n` (R597). -/
def hraPlace (n : Nat) : Nat := place 3 3 0 n

/-- Sensor port `k` is off, in foldback, or below 80 % of its set voltage, which it can be only in its current limit (R128). -/
def State.excLow (s : State) (k : Nat) : Bool :=
  let set := if s.flag (F.SNP_CFG_V10 k) then 10000 else 5000
  let st := s.get (F.SNP_STAT_STATE k)
  st == 0 || st == 3 || (st == 2 && decide (s.get (F.SNP_MEAS_V k) * 10 < set * 8))

/-- The oldest strike of line `n` with sequence number `seq` that its consumer has not done with, which is so up to module time `after` (R122). -/
def State.strikeOf (s : State) (n seq : Nat) (after : Option Nat) : Option Nat :=
  ((s.line n).strikes.reverse.find? (fun e => e.1 == seq && !after.any (fun a => decide (e.2 ≤ a)))).map (·.2)

/-- The period of the schedule that line `n` struck at `stamp` under. -/
def State.strikePer (s : State) (n stamp : Nat) : Nat :=
  match ((s.line n).strikes.zip (s.line n).pers).find? (fun e => e.1.2 == stamp) with
  | some e => e.2
  | none => s.linePer n

/-! Calibration (R127, R129–R132). A channel's own calibration, out of turn, runs beside the rotation's: R127 starts it at its moment (log 94). -/

/-- CALACT brought up to date. -/
def State.calStat (s : State) : State := s.putB F.HRA_STAT_CALACT (s.inp.hrin.any (fun x => x.calFrom.isSome))

/-- Channel `n` begins a calibration now; one of its own that runs gives way to it. -/
def State.calBegin (s : State) (n : Nat) : State :=
  ((s.setHrin n { s.hrin n with calMade := 0, calFrom := some s.now }).raise F.HRA_STAT_CALACT).put F.HRA_STAT_CALCH n

/-- The rotation goes on to the first enabled channel of `q`, which begins its calibration unless one of its own runs. -/
def State.calVisit (s : State) (q : List Nat) : State :=
  let q := q.dropWhile (fun n => !s.flag (F.HRA_CFG_EN n))
  let s := s.withInp { s.inp with calQueue := q }
  match q with
  | c :: _ => if (s.hrin c).calFrom.isSome then s.calStat else s.calBegin c
  | [] => s.calStat

/-- Channel `n` is calibrated at once, or next where a rotation runs (R131). -/
def State.calNext (s : State) (n : Nat) : State :=
  match s.inp.calQueue with
  | [] => if (s.hrin n).calFrom.isSome then s else s.calVisit [n]
  | c :: r => if c = n then s else s.withInp { s.inp with calQueue := c :: n :: r.filter (· != n) }

/-- A rotation over the enabled channels starts, or waits for the one that runs (R129). PER seconds are counted from the instant at which a rotation
was last due or asked for by NOW (log 94). -/
def State.startRotation (s : State) : State :=
  if s.inp.calQueue.isEmpty then
    let s := s.withInp { s.inp with rotAt := s.now, rotWaits := false }
    s.calVisit ((List.range 8).filter (fun n => s.flag (F.HRA_CFG_EN n)))
  else s.withInp { s.inp with rotAt := s.now, rotWaits := true }

/-- A write of HRA_CAL; NOW starts a rotation. -/
def State.wHraCal (s : State) (m : Master) (v : Nat) : Acc2 :=
  s.writeThen m R.HRA_CAL v (fun s => if wbit v 0 then s.startRotation else s)

/-- A channel whose die temperature moved more than 10 K (R131). -/
def execHrinTempCal (t : Nat) (n : Fin 8) (s : State) : Host.Outcome State Fault Refusal :=
  let s := s.atTime t
  done (if s.awake hraBlock && s.flag F.HRA_CAL_TEMP && s.flag (F.HRA_CFG_EN n) then s.calNext n else s)

/-- How long the steps of a calibration of channel `n` last (R129). -/
def State.calTime (s : State) (n : Nat) : Nat := 136 * s.linePer (s.get (F.HRA_CFG_TLINE n)) + 20000000

/-- The calibration of channel `n` ends with a correction of `gain` ppm from the factory value and `ofs` ppm of full scale (R127, R129, R132). -/
def State.calComplete (s : State) (n : Nat) (gain ofs : Int) : State :=
  match (s.hrin n).calFrom with
  | none => s
  | some a =>
    if !s.awake hraBlock || decide (s.now < a + s.calTime n) then s
    else
      let x := { s.hrin n with calAt := some s.now, calFrom := none }
      let x := if x.settle && decide (8 ≤ x.made) then { x with settle := false } else x
      let s := if gain.natAbs > 5000 ∨ ofs.natAbs > 1000 then
          (((s.setHrin n x).raise F.HRA_STAT_CALFAIL).raise (F.HRA_CSTAT_CALFAIL n)).event 0x2301 (hraPlace n)
        else s.setHrin n { x with corr := (gain, ofs) }
      if s.inp.calQueue.head? == some n then
        let s := s.calVisit (s.inp.calQueue.drop 1)
        if s.inp.calQueue.isEmpty && s.inp.rotWaits then s.startRotation else s
      else s.calStat

def execHrinCalComplete (t : Nat) (n : Fin 8) (gain ofs : Int) (s : State) : Host.Outcome State Fault Refusal :=
  done ((s.atTime t).calComplete n gain ofs)

/-- HRA_CALAGE{n} (R129), rounded as R596 of spec/00_scope.md lays down. -/
def State.calAge (s : State) (n : Nat) : Nat :=
  match (s.hrin n).calAt with
  | none => 0xFFFF
  | some a => min (nearest (s.now - a) 1000000000) 0xFFFF

/-! Impact bins (R134–R138). -/

/-- The bin's contents cleared. -/
def Hrin.clearBin (x : Hrin) : Hrin := { x with flags := 0, count := 0, kcount := 0, esum := 0, hist := List.replicate 16 0 }

/-- The detector's settings taken from the registers at once. -/
def State.loadImp (s : State) (n : Nat) : State :=
  s.setHrin n { s.hrin n with imp := s.word (R.HRA_IMP n), thr := s.word (R.HRA_ITHR n), hld := s.word (R.HRA_IHLD n), sets := [] }

/-- The registers as they are now are in force from the next bin boundary on (R138). -/
def State.stageImp (s : State) (n : Nat) : State :=
  let x := s.hrin n
  let j := s.now / 1000000 + 1
  s.setHrin n { x with sets := x.sets.filter (fun e => e.1 != j) ++ [(j, s.word (R.HRA_IMP n), s.word (R.HRA_ITHR n), s.word (R.HRA_IHLD n))] }

/-- Bin `j` opens: the settings written before it are in force (R138). -/
def Hrin.openBin (x : Hrin) (j : Nat) : Hrin :=
  let x := { x with bin := some j }
  match (x.sets.filter (fun e => decide (e.1 ≤ j))).getLast? with
  | some e => { x with imp := e.2.1, thr := e.2.2.1, hld := e.2.2.2, sets := x.sets.filter (fun e => decide (j < e.1)) }
  | none => x

/-- The open bin `j` of channel `n` closes (R135–R137). -/
def State.closeBin (s : State) (n j : Nat) : State :=
  let x := s.hrin n
  let start := j * 1000000
  let x := if x.omits.any (omitIn start (start + 1000000)) then { x with flags := x.flags ||| 4 } else x
  let s := s.queRecord (F.HRA_Q_IQEN n) (F.HRA_Q_IQUEUE n) 0x20
    ([n + x.flags * 2 ^ 8, x.count + x.kcount * 2 ^ 16, start % 2 ^ 32, start / 2 ^ 32, x.esum]
      ++ (List.range 8).map (fun i => x.hist.getD (2 * i) 0 + x.hist.getD (2 * i + 1) 0 * 2 ^ 16))
  let s := s.feed 2 n start none [x.count, x.kcount, x.esum]
  let x := { x with lastBin := x.count + x.kcount * 2 ^ 16 }
  s.setHrin n (x.clearBin.openBin (j + 1))

/-- Bins of channel `n` closed up to bin `j`; those without a sample close too (R135). The first bin is that of the first sample after IEN is set (log 94). -/
def State.closeBins (s : State) (n j : Nat) : State :=
  match (s.hrin n).bin with
  | none => s.setHrin n ((s.hrin n).openBin j)
  | some i => (List.range (j - i)).foldl (fun s k => s.closeBin n (i + k)) s

/-- floor(log2 E), for E > 0. -/
def floorLog2 (e : Nat) : Nat := e.log2

/-- One sample `v` of channel `n` through the impact detector (R134). -/
def State.detect (s : State) (n : Nat) (v : Int) : State :=
  let x := s.hrin n
  let bsh := bitField x.imp 14 11
  let eshift := bitField x.imp 10 5
  let kbin := bitField x.imp 4 1
  let thr := bitField x.thr 22 0
  let maxlen := bitField x.hld 31 16
  let hold := bitField x.hld 15 0
  let b := if bsh = 0 then 0 else if x.pulse then x.base else x.base + (v - x.base) / (2 ^ bsh : Nat)
  let y := v - b
  let x := { x with base := b }
  let x := if !x.pulse && decide (thr ≤ y.natAbs) then { x with pulse := true, energy := 0, run := 0, quiet := 0 } else x
  if !x.pulse then s.setHrin n x
  else
    let z := y / 256
    let e := min (x.energy + (z * z).toNat) (2 ^ 48 - 1)
    let run := x.run + 1
    let quiet := if y.natAbs < thr then x.quiet + 1 else 0
    let x := { x with energy := e, run := run, quiet := quiet }
    if quiet < hold ∧ run < maxlen then s.setHrin n x
    else
      let forced := decide (maxlen ≤ run)
      let k := if e = 0 then 0 else min 15 (floorLog2 e - eshift)
      let x := { x with
        count := min (x.count + 1) 0xFFFF, hist := x.hist.modify k (fun c => min (c + 1) 0xFFFF),
        kcount := if kbin ≤ k then min (x.kcount + 1) 0xFFFF else x.kcount,
        esum := min (x.esum + e / 2 ^ eshift) (2 ^ 32 - 1), pulse := false,
        flags := if forced then x.flags ||| 8 else x.flags }
      let s := if forced then s.countSat (F.HRA_XCNT_FORCED n) else s
      (s.setHrin n x).count (F.HRA_ICNT_COUNT n)

/-! Samples (R122–R128, R139). -/

/-- A sample joins the open record of channel `n`, which holds consecutive strikes (R139). A record's flags are those that any of its samples has, and
clearing SQEN drops the samples of the open record (log 94). -/
def State.recordSample (s : State) (n seq stamp : Nat) (v : Int) (flags : Nat) : State :=
  if !s.flag (F.HRA_Q_SQEN n) then s.setHrin n { s.hrin n with samples := [] }
  else
    let s := if ((s.hrin n).recSeq + (s.hrin n).samples.length) % 2 ^ 32 = seq then s else s.closeSamples n
    let x := s.hrin n
    let x := if x.samples.isEmpty then { x with recSeq := seq, recTime := stamp, recFlags := 0 } else x
    let s := s.setHrin n { x with samples := x.samples ++ [v], recFlags := x.recFlags ||| flags }
    if 16 ≤ (s.hrin n).samples.length || s.recordEnds n stamp then s.closeSamples n else s

/-- Channel `n` begins to settle (R127). -/
def State.settleHrin (s : State) (n : Nat) : State := s.setHrin n { s.hrin n with settle := true, made := 0, brief := false }

/-- `a / b` of a full scale of `full` units, rounded. A ratio to no reference is beyond full scale, and that of zero to zero is not stated: a free value. -/
def State.fraction (s : State) (full : Nat) (a : Int) (b : Nat) : Int × State :=
  if b ≠ 0 then (rdiv (a * full) b, s)
  else if a = 0 then (((s.free.1 % (2 * full) : Nat) : Int) - full, s.free.2)
  else (if a < 0 then -full - 1 else full, s)

/-- The fraction of full scale that channel `n` converts from an input of `vin` pV, with `vsp` µV at its sensor port (R123, R128). -/
def State.hrinFraction (s : State) (n : Nat) (vin : Int) (vsp : Nat) : Int × State :=
  let g := 2 ^ s.get (F.HRA_CFG_GAIN n)
  if s.flag (F.HRA_CFG_RAT n) then s.fraction (2 ^ 23) (vin * ((if s.flag (F.SNP_CFG_V10 (s.get (F.HRA_CFG_RSP n))) then 4 else 2) * g : Nat)) (vsp * 1000000)
  else s.fraction (2 ^ 23) (vin * (g : Nat)) 2500000000000

/-- The sample of the strike `seq` of channel `n`'s line (R122–R128): there is one for each strike since the channel was enabled, and readers have it
3 × PERIOD + 2 µs after the strike. -/
def State.hrinSample (s : State) (n seq : Nat) (a : Analog) : State :=
  let line := s.get (F.HRA_CFG_TLINE n)
  let per := s.linePer line
  if !(s.flag (F.HRA_CFG_EN n) && s.awake hraBlock) then s
  else
    match s.strikeOf line seq (s.hrin n).after with
    | none => s
    | some stamp =>
      if per < 3907 ∨ 125000 < per then s.raise F.HRA_STAT_CFGERR
      else if s.now < stamp + 3 * s.strikePer line stamp + 2000 then s
      else
        let renumbered := (s.hrin n).per != per || (s.hrin n).phs != s.linePhs line
        let s := if (s.hrin n).lastSeq.isSome && renumbered then s.settleHrin n else s
        let f := s.hrinFraction n a.vin a.vsp
        let s := f.2
        let v := clampInt (-(2 ^ 23 - 1)) (2 ^ 23 - 1) f.1
        let ovr := v != f.1
        let x := s.hrin n
        let shadow := x.calFrom.isSome && decide (64 ≤ x.calMade)
        let low := s.flag (F.HRA_CFG_RAT n) && s.excLow (s.get (F.HRA_CFG_RSP n))
        let s := s.setHrin n
          { s.hrin n with per := per, phs := s.linePhs line, lastSeq := some seq, after := some stamp, made := x.made + 1, calMade := x.calMade + 1 }
        let s := s.setWord (R.HRA_DATA n) (bitsOf 24 v + bit shadow * 2 ^ 24 + bit x.settle * 2 ^ 25 + bit ovr * 2 ^ 26)
        let s := (s.raiseIf ovr (F.HRA_CSTAT_OVR n)).raiseIf low (F.HRA_CSTAT_EXCLOW n)
        let s := s.recordSample n seq stamp v (bit shadow + bit ovr * 2 + bit x.settle * 4 + bit low * 32)
        let s := s.feed 3 n stamp (some seq) [v]
        let s := if s.flag (F.HRA_IMP_IEN n) then
            let s := s.closeBins n (stamp / 1000000)
            let y := s.hrin n
            let flags := bit shadow + bit ovr * 2 + bit x.settle * 16 + bit low * 32
            (s.setHrin n { y with flags := y.flags ||| flags }).detect n v
          else s
        let y := s.hrin n
        let keep := if s.flag (F.HRA_IMP_IEN n) then min stamp (stamp / 1000000 * 1000000) else stamp
        let s := s.setHrin n { y with omits := y.omits.filter (fun e => decide (keep ≤ e.1 + e.2.1 * e.2.2)) }
        if !(x.settle && x.made + 1 == 8) then s
        else if x.brief then s.setHrin n { s.hrin n with settle := false, brief := false }
        else s.calBegin n

/-- `input`: the differential input in pV at the strike, as the converter sees it with its correction (log 94). -/
def execHrinSample (t : Nat) (n : Fin 8) (seq : Nat) (input : Analog) (s : State) : Host.Outcome State Fault Refusal :=
  done ((s.atTime t).hrinSample n seq input)

/-- A write of HRA_STAT: CFGERR cannot be cleared while a PERIOD is out of range (R124). -/
def State.wHraStat (s : State) (m : Master) (v : Nat) : Acc2 := s.writeThen m R.HRA_STAT v State.hraCheck

/-- A write of HRA_CFG{n} (R124, R126, R127). Setting EN starts the channel anew, HRA_DATA{n} as after a reset (log 94); its detector goes on as it
stands (R134). -/
def State.wHraCfg (s : State) (m : Master) (n v : Nat) : Acc2 :=
  let old := s.word (R.HRA_CFG n)
  s.writeThen m (R.HRA_CFG n) v (fun s =>
    let new := s.word (R.HRA_CFG n)
    if !wbit new 0 then s
    else
      let s := s.hraPeriod (s.get (F.HRA_CFG_TLINE n)) n
      if !wbit old 0 then
        let own := if s.inp.calQueue.head? == some n then some s.now else none
        let x := { s.hrin n with settle := true, made := 0, brief := false, lastSeq := none, after := some s.now, calMade := 0, calFrom := own }
        (s.setHrin n x).calStat.setWord (R.HRA_DATA n) (2 ^ 25)
      else if old % 256 != new % 256 then s.settleHrin n
      else s)

/-- A write of HRA_IMP{n} (R134, R138): setting IEN starts the detector from zero, and clearing it abandons the open bin. -/
def State.wHraImp (s : State) (m : Master) (n v : Nat) : Acc2 :=
  let was := s.flag (F.HRA_IMP_IEN n)
  s.writeThen m (R.HRA_IMP n) v (fun s =>
    let x := s.hrin n
    if s.flag (F.HRA_IMP_IEN n) then
      if was then s.stageImp n
      else (s.setHrin n { x.clearBin with base := 0, pulse := false, energy := 0, run := 0, quiet := 0, bin := none, lastBin := 0 }).loadImp n
    else s.setHrin n { x.clearBin with bin := none, sets := [] })

/-- A write of HRA_ITHR{n} or HRA_IHLD{n} (R138). -/
def State.wHraThr (s : State) (m : Master) (n a v : Nat) : Acc2 :=
  s.writeThen m a v (fun s => if s.flag (F.HRA_IMP_IEN n) then s.stageImp n else s.loadImp n)

/-- Writing 1 clears every HRA_XCNT. -/
def State.wHraClr (s : State) (v : Nat) : Acc2 :=
  okay (if wbit v 0 then (List.range 8).foldl (fun s n => s.setWord (R.HRA_XCNT n) 0) s else s)

/-! General inputs (R140–R145). -/

/-- Scan list `l`. -/
def State.scan (s : State) (l : Nat) : ScanList := s.inp.lists.getD l {}

/-- Scan list `l` set. -/
def State.setScan (s : State) (l : Nat) (x : ScanList) : State := s.withInp { s.inp with lists := s.inp.lists.set l x }

/-- A strike of list `l`'s line requests one run (R141, R142). -/
def State.listStrike (s : State) (l seq : Nat) : State :=
  if !(s.flag (F.GPA_LCFG_EN l) && s.awake gpaBlock) then s
  else
    match s.strikeOf (s.get (F.GPA_LCFG_TLINE l)) seq (s.scan l).after with
    | none => s
    | some stamp =>
      let x := s.scan l
      if x.waiting.isSome || x.running.isSome then (s.setScan l { x with after := some stamp }).gpaOmit l
      else s.setScan l { x with waiting := some (seq, stamp), after := some stamp }

def execGpaListStrike (t : Nat) (n : Fin 4) (seq : Nat) (s : State) : Host.Outcome State Fault Refusal := done ((s.atTime t).listStrike n seq)

/-- Entry `j` of list `l`. -/
def State.listEntry (s : State) (l j : Nat) : Nat := s.word (R.GPA_SLOT l (j / 4)) / 2 ^ (8 * (j % 4)) % 32

/-- Channel `c` belongs to a pair in capacitance mode. -/
def State.inCap (s : State) (c : Nat) : Bool := decide (24 ≤ c) && s.flag (F.GPA_CAPCFG_EN ((c - 24) / 2))

/-- The channels that a run of list `l` converts, in order (R141). -/
def State.listChannels (s : State) (l : Nat) : List Nat :=
  ((List.range (s.get (F.GPA_LCFG_LEN l))).map (s.listEntry l)).filter (fun c => !s.inCap c)

/-- The converter runs: a list, or the background calibration (R142, R145). -/
def State.converting (s : State) : Bool := s.flag F.GPA_STAT_BUSY || decide (s.now < s.inp.gcalEnds)

/-- The waiting run of lowest list number starts when the converter is free (R142), over the entries as they stand then. -/
def State.runStart (s : State) : State :=
  if s.converting || !s.awake gpaBlock then s
  else
    match (List.range 4).find? (fun l => (s.scan l).waiting.isSome) with
    | none => s
    | some l =>
      let x := s.scan l
      let stamp := (x.waiting.getD (0, 0)).2
      let chans := s.listChannels l
      let s := s.setScan l { x with waiting := none, running := x.waiting, wait := nearest (s.now - stamp) 1000, began := s.now, chans := chans }
      (s.raise F.GPA_STAT_BUSY).raiseIf (chans.length != s.get (F.GPA_LCFG_LEN l)) F.GPA_STAT_CFGERR

def execGpaRunStart (t : Nat) (s : State) : Host.Outcome State Fault Refusal := done (s.atTime t).runStart

/-- The unclamped fraction that a conversion of channel `c` gives: input `vin` in nV, its sensor port's output `vsp` in µV (R140). -/
def State.ainFraction (s : State) (c : Nat) (vin : Int) (vsp : Nat) : Int × State :=
  if s.flag (F.GPA_CCFG_RAT c) then s.fraction (2 ^ 18) vin (vsp * 1000)
  else s.fraction (2 ^ 18) vin (2500000000 * 2 ^ s.get (F.GPA_CCFG_RANGE c))

/-- One conversion of channel `c` published (R140). -/
def State.publishAin (s : State) (c : Nat) (vin : Int) (vsp seq stamp : Nat) : State × Nat :=
  let f := s.ainFraction c vin vsp
  let s := f.2
  let w := clampInt 0 0x3FFFF f.1
  let ovr := w != f.1
  let low := s.flag (F.GPA_CCFG_RAT c) && s.excLow (s.get (F.GPA_CCFG_RSP c))
  let s := s.setWord (R.GPA_CDATA c) (w.toNat + bit ovr * 2 ^ 29 + bit low * 2 ^ 30 + 2 ^ 31)
  (s.feed 4 c stamp (some seq) [w], w.toNat + c * 2 ^ 18 + bit ovr * 2 ^ 29 + bit low * 2 ^ 30)

/-- The run of list `l` completes with what its channels met, `vals`, 1 µs a conversion after it began (R141, R144). The values of a run are published
together at its end, and of a wait of more than 255 µs the record holds the low eight bits (log 94). -/
def State.runComplete (s : State) (l : Nat) (vals : List Analog) : State :=
  let x := s.scan l
  match x.running with
  | none => s
  | some (seq, stamp) =>
    if s.now < x.began + x.chans.length * 1000 ∨ vals.length < x.chans.length ∨ !s.awake gpaBlock then s
    else
      let r := (x.chans.zip vals).foldl (fun (r : State × List Nat) cv =>
        let p := r.1.publishAin cv.1 cv.2.vin cv.2.vsp seq stamp
        (p.1, r.2 ++ [p.2])) (s, [])
      let s := (r.1.setScan l { r.1.scan l with running := none }).put F.GPA_STAT_BUSY 0
      s.queRecord (F.GPA_LCFG_QEN l) (F.GPA_LCFG_QUEUE l) 0x22
        ([l + r.2.length * 2 ^ 8 + x.wait % 256 * 2 ^ 16, seq, stamp % 2 ^ 32, stamp / 2 ^ 32] ++ r.2)

/-- `vals`: for each conversion the input, in nV. -/
def execGpaRunComplete (t : Nat) (n : Fin 4) (vals : List Analog) (s : State) : Host.Outcome State Fault Refusal :=
  done ((s.atTime t).runComplete n vals)

/-- A background calibration (R145): made on an idle slot when it is due or asked for, for 2 µs; late after 10 × PER. -/
def State.backgroundCal (s : State) : State :=
  let per := s.get F.GPA_CAL_PER * 1000000000
  let due := s.inp.gcalNow || (per != 0 && decide (s.inp.gcalAt + per ≤ s.now))
  let idle := !s.converting && s.inp.lists.all (fun x => x.waiting.isNone)
  if !due || !s.awake gpaBlock then s
  else if idle then s.withInp { s.inp with gcalAt := s.now, gcalNow := false, gcalLate := false, gcalEnds := s.now + 2000 }
  else if per ≠ 0 ∧ s.inp.gcalAt + 11 * per < s.now ∧ !s.inp.gcalLate then
    ((s.raise F.GPA_STAT_CALLATE).event 0x2302 (fieldBlock 3 1)).withInp { s.inp with gcalLate := true }
  else s

def execGpaBackgroundCal (t : Nat) (s : State) : Host.Outcome State Fault Refusal := done (s.atTime t).backgroundCal

/-- A write of GPA_CAL; NOW requests a calibration (R163). -/
def State.wGpaCal (s : State) (m : Master) (v : Nat) : Acc2 :=
  s.writeThen m R.GPA_CAL v (fun s => if wbit v 0 then s.withInp { s.inp with gcalNow := true } else s)

/-- Writing 1 clears GPA_LOMIT. -/
def State.wGpaClr (s : State) (v : Nat) : Acc2 :=
  okay (if wbit v 0 then (List.range 4).foldl (fun s n => s.setWord (R.GPA_LOMIT n) 0) s else s)

/-- A write of GPA_LCFG{l}: two of the first LEN entries that name one channel fewer than 5 positions apart are refused (R143). -/
def State.wGpaLcfg (s : State) (m : Master) (l v : Nat) : Acc2 :=
  let len := fieldOf (F.GPA_LCFG_LEN l) v
  let clash := (List.range len).any (fun j => (List.range j).any (fun i => decide (j < i + 5) && s.listEntry l i == s.listEntry l j))
  let was := s.flag (F.GPA_LCFG_EN l)
  s.writeThen m (R.GPA_LCFG l) v (guard := !clash) (fun s =>
    if !was && s.flag (F.GPA_LCFG_EN l) then
      let s := s.setScan l { s.scan l with after := some s.now }
      (List.range len).foldl (fun s j => s.put (F.GPA_CDATA_VALID (s.listEntry l j)) 0) s
    else s)

/-! Capacitance pairs (R146–R148). -/

/-- Pair `p`. -/
def State.pair (s : State) (p : Nat) : CapPair := s.inp.pairs.getD p {}

/-- Pair `p` set. -/
def State.setPair (s : State) (p : Nat) (x : CapPair) : State := s.withInp { s.inp with pairs := s.inp.pairs.set p x }

/-- A strike of pair `p`'s line (R146, R148): at enable and every 60 s the measurement is made on the reference; the 60 s are counted from the strike of
the last one made on it (log 94). -/
def State.capStart (s : State) (p seq : Nat) : State :=
  if !(s.flag (F.GPA_CAPCFG_EN p) && s.awake gpaBlock) then s
  else
    match s.strikeOf (s.get (F.GPA_CAPCFG_TLINE p)) seq (s.pair p).after with
    | none => s
    | some stamp =>
      let x := s.pair p
      if x.busy.isSome then (s.setPair p { x with after := some stamp }).gpaOmit p
      else
        let ref := match x.refAt with
          | none => true
          | some a => decide (a + 60000000000 ≤ stamp)
        s.setPair p { x with busy := some (seq, stamp), onRef := ref, refAt := if ref then some stamp else x.refAt, after := some stamp }

def execCapMeasureStart (t : Nat) (n : Fin 4) (seq : Nat) (s : State) : Host.Outcome State Fault Refusal := done ((s.atTime t).capStart n seq)

/-- The measurement of pair `p` is available (R146): capacitance `c` in 0.01 pF, conductance `g` in nS. On the internal reference it becomes the correction
and gives no value (R148); the results of other measurements are the corrected ones (log 94). -/
def State.capDone (s : State) (p : Nat) (c g : Int) : State :=
  let x := s.pair p
  match x.busy with
  | none => s
  | some (seq, stamp) =>
    if s.now < stamp + s.get (F.GPA_CAPCFG_NCYC p) * 1000000 / s.get (F.GPA_CAPCFG_FREQ p) + 10000 ∨ !s.awake gpaBlock then s
    else
      let s := s.setPair p { x with busy := none, onRef := false }
      if x.onRef then s.setPair p { x with busy := none, onRef := false, corr := some (c, g) }
      else
        let cs := clampInt 0 100000 c
        let gs := clampInt 0 100000 g
        let s := s.setWord (R.GPA_CAPC p) (cs.toNat + bit (cs != c) * 2 ^ 31)
        (s.setWord (R.GPA_CAPG p) (gs.toNat + bit (gs != g) * 2 ^ 31)).feed 5 p stamp (some seq) [cs, gs]

def execCapMeasureDone (t : Nat) (n : Fin 4) (c g : Int) (s : State) : Host.Outcome State Fault Refusal := done ((s.atTime t).capDone n c g)

/-- A write of GPA_CAPCFG{p}: enabling begins with the reference (R148). -/
def State.wGpaCap (s : State) (m : Master) (p v : Nat) : Acc2 :=
  let was := s.flag (F.GPA_CAPCFG_EN p)
  s.writeThen m (R.GPA_CAPCFG p) v (fun s => if was != s.flag (F.GPA_CAPCFG_EN p) then s.setPair p { after := some s.now } else s)

/-! Resets and restarts (R158, R160). -/

/-- A block reset of HRA. -/
def State.hraReset (s : State) : State :=
  (s.withInp { s.inp with hrin := List.replicate 8 {}, calQueue := [], rotWaits := false, rotAt := s.now }).clearRegs R.HRA_CAL (R.HRA_CAL + 0x1000)

/-- A block reset of GPA. -/
def State.gpaReset (s : State) : State :=
  (s.withInp { s.inp with lists := List.replicate 4 {}, pairs := List.replicate 4 {}, gcalAt := s.now, gcalNow := false, gcalLate := false, gcalEnds := 0 }).clearRegs
    R.GPA_CAL (R.GPA_CAL + 0x1000)

/-- A restart of HRA ends: SETTLE for the first 8 samples, OMIT in the bin that spans it. -/
def State.hraRestart (s : State) : State :=
  s.withInp { s.inp with
    hrin := s.inp.hrin.map (fun x =>
      { x with settle := true, made := 0, brief := x.brief || !x.settle, flags := if x.bin.isSome then x.flags ||| 4 else x.flags }) }

/-- A restart of GPA ends: runs and measurements that it cut off gave no output (log 87). -/
def State.gpaRestart (s : State) : State :=
  (s.withInp { s.inp with
    lists := s.inp.lists.map (fun x => { after := x.after }), pairs := s.inp.pairs.map (fun x => { x with busy := none, onRef := false }), gcalEnds := 0 }).put
    F.GPA_STAT_BUSY 0

end Sys2Proof.Machine
end

