-- ==== Sys2Proof/Machine/Brim.lean ====
section
/-! DEFINITION. Reservoirs, energy limits, sensor ports and rails (spec/10_brim_energy_limits.md R356–R379). Voltages come in mV,
capacitances in 0.1 µF, currents in µA, energies in µJ. -/

namespace Sys2Proof.Machine

/-! Energy (R358–R360), in units of 0.5 × 10⁻²¹ J, where every value is exact. -/

/-- Cu in nF: 1.03 × CMEAS, or CDECL (R358). -/
def State.cuNf (s : State) (r : Nat) : Nat :=
  if s.flag (F.BRM_C_CVALID r) then 103 * s.get (F.BRM_C_CMEAS r) else 100 * s.get (F.BRM_CDECL_CDECL r)

/-- E at a voltage of `mv`: Cu × (1.005 V)². -/
def State.energyAt (s : State) (r mv : Nat) : Nat := s.cuNf r * mv * mv * 1010025

/-- A number of µJ in the unit of `energyAt`. -/
def ofMicroJ (uj : Nat) : Nat := uj * (2 * 10 ^ 15)

/-- ED in µJ, less `permil` thousandths of CEIL (R359). -/
def State.levelUj (s : State) (r permil : Nat) : Nat :=
  let ceil := s.get (F.BRM_CEIL_CEIL r)
  1000 * ceil - max (150 * ceil) 450 - permil * ceil

/-- V and E published (R358): E rounded upward to 10 µJ. -/
def State.publishV (s : State) (r mv : Nat) : State :=
  (s.put (F.BRM_V_V r) (min mv 65535)).put (F.BRM_E_E r) (min ((s.energyAt r mv + (ofMicroJ 10 - 1)) / ofMicroJ 10) 65535)

/-- The charger of reservoir `r` may run. -/
def State.chargerOn (s : State) (r : Nat) : Bool :=
  s.flag (F.BRM_CFG_EN r) && !s.flag (F.BRM_STAT_COPEN r) && !s.flag (F.BRM_STAT_BLEED r) && !s.outputsOff

/-- CHG and FULL at a voltage of `mv` (R359): it stops at its level or at VSET, and resumes below both. -/
def State.chargeStep (s : State) (r mv : Nat) : State :=
  let e := s.energyAt r mv
  let vset := 1000 * s.get (F.BRM_CFG_VSET r)
  if !s.chargerOn r then (s.put (F.BRM_STAT_CHG r) 0).put (F.BRM_STAT_FULL r) 0
  else if decide (ofMicroJ (s.levelUj r 50) ≤ e) || decide (vset ≤ mv) then (s.put (F.BRM_STAT_CHG r) 0).raise (F.BRM_STAT_FULL r)
  else if s.flag (F.BRM_STAT_FULL r) && !(decide (e < ofMicroJ (s.levelUj r 60)) && decide (mv + 500 < vset)) then s
  else (s.raise (F.BRM_STAT_CHG r)).put (F.BRM_STAT_FULL r) 0

def execEnergyUpdate (t : Nat) (r : Fin 2) (mv : Nat) (s : State) : Host.Outcome State Fault Refusal :=
  done ((((s.atTime t).publishV r mv).chargeStep r mv).resCheck r)

/-- The diversion comparator at `mv` (R360): V at VD, which is E at ED, or at 65 V. -/
def State.diverts (s : State) (r mv : Nat) : Bool := decide (ofMicroJ (s.levelUj r 0) ≤ s.energyAt r mv) || decide (65000 ≤ mv)

/-- V reaches VD or 65 V (R360). -/
def execDiversionStart (t : Nat) (r : Fin 2) (mv : Nat) (s : State) : Host.Outcome State Fault Refusal :=
  let s := ((s.atTime t).publishV r mv).resCheck r
  done (if s.diverts r mv && !s.flag (F.BRM_STAT_DIVNOW r) then
    ((s.raise (F.BRM_STAT_DIVNOW r)).raise (F.BRM_STAT_DIV r)).countSat (F.BRM_DIVCNT_COUNT r) else s)

/-- V falls below the release level and below 64 V (R360); `uj` went to the clamps during the diversion. -/
def execDiversionEnd (t : Nat) (r : Fin 2) (mv uj : Nat) (s : State) : Host.Outcome State Fault Refusal :=
  let s := ((s.atTime t).publishV r mv).resCheck r
  done (if s.flag (F.BRM_STAT_DIVNOW r) && decide (s.energyAt r mv < ofMicroJ (s.levelUj r 20)) && decide (mv < 64000) then
    (s.put (F.BRM_STAT_DIVNOW r) 0).count (F.BRM_DIVE_UJ r) uj else s)

/-! Capacitance (R357, R375). -/

/-- A boost grant is held on the palms of reservoir `r`, or one of their fingers recovers into it. -/
def State.resUsed (s : State) (r : Nat) : Bool :=
  [4 * r, 4 * r + 1, 4 * r + 2, 4 * r + 3].any (fun p => s.flag (F.PLM_STAT_HVAL p) || (palmFingers p).any s.recoversInto)

/-- The mean of capacitance samples in 0.1 µF, rounded once (R596). -/
def capMean (l : List (Nat × Nat)) : Nat := (ratRound ((l.map (fun e => ((10 * e.1 : Nat) : Rat) / ((e.2 : Nat) : Rat))).sum / ((l.length : Nat) : Rat))).toNat

/-- A charging interval that brought `q` nC to the reservoir and raised it by `dv` mV: the sample `q / dv`. -/
def State.capSample (s : State) (r q dv : Nat) : State :=
  if !s.chargerOn r || s.resUsed r || decide (dv < 500) then s
  else
    let x := s.res r
    let cdecl := s.get (F.BRM_CDECL_CDECL r)
    if 100 * q < cdecl * dv then
      let s := ((s.setRes r { x with sampleAt := s.clock }).put (F.BRM_STAT_CHG r) 0).put (F.BRM_STAT_FULL r) 0
      ((s.raise (F.BRM_STAT_COPEN r)).event 0x2409 (brmPlace r) (p0 := r) (p1 := 1)).resCheck r
    else
      let samples := ((q, dv) :: x.samples).take 8
      let s := s.setRes r { x with samples := samples, sampleAt := s.clock }
      let mean := capMean samples
      let s := (s.put (F.BRM_C_CMEAS r) (min mean 65535)).raiseIf (samples.length == 8) (F.BRM_C_CVALID r)
      let s := s.publishV r (s.get (F.BRM_V_V r))
      if cdecl < mean && !s.flag (F.BRM_STAT_CHI r) then (s.raise (F.BRM_STAT_CHI r)).event 0x2409 (brmPlace r) (p0 := r) (p1 := 2) else s

def execCapacitanceSample (t : Nat) (r : Fin 2) (c : Nat × Nat) (s : State) : Host.Outcome State Fault Refusal :=
  done ((s.atTime t).capSample r c.1 c.2)

/-- 60 s without a sample (R357): the reservoir is bled by 2 V. -/
def execCapSampleBleed (t : Nat) (r : Fin 2) (s : State) : Host.Outcome State Fault Refusal :=
  let s := s.atTime t
  let x := s.res r
  done (if s.chargerOn r && decide (x.sampleAt + 60000000000 ≤ s.clock) then
    let s := s.setRes r { x with bleedTo := some (s.get (F.BRM_V_V r) - 2000), sampleAt := s.clock }
    ((s.raise (F.BRM_STAT_BLEED r)).put (F.BRM_STAT_CHG r) 0).put (F.BRM_STAT_FULL r) 0 else s)

/-! Bleeds (R362, R376). -/

/-- The bleed in force on reservoir `r` has reached its end at `mv`. -/
def State.bleedDone (s : State) (r mv : Nat) : Bool :=
  match (s.res r).bleedTo with
  | some v => decide (mv ≤ v)
  | none => decide (s.energyAt r mv ≤ ofMicroJ (s.levelUj r 50))

def execBleedEnd (t : Nat) (r : Fin 2) (mv : Nat) (s : State) : Host.Outcome State Fault Refusal :=
  let s := ((s.atTime t).publishV r mv).resCheck r
  done (if s.flag (F.BRM_STAT_BLEED r) && s.bleedDone r mv then
    ((s.put (F.BRM_STAT_BLEED r) 0).setRes r { s.res r with bleedTo := none }).chargeStep r mv else s)

/-- A bleed of reservoir `r` to just below 5 V (R376, R377). -/
def State.drain (s : State) (r : Nat) : State :=
  let s := ((s.raise (F.BRM_STAT_BLEED r)).put (F.BRM_STAT_CHG r) 0).put (F.BRM_STAT_FULL r) 0
  (s.setRes r { s.res r with bleedTo := some 4999 }).resCheck r

/-- A ceiling takes effect (R362): the excess is bled. -/
def State.ceilingSet (s : State) (r : Nat) : State :=
  let draining := match (s.res r).bleedTo with
    | some v => decide (v < 5000)
    | none => false
  let mv := s.get (F.BRM_V_V r)
  if ofMicroJ (s.levelUj r 50) < s.energyAt r mv && !draining then
    ((s.setRes r { s.res r with bleedTo := none }).raise (F.BRM_STAT_BLEED r)).chargeStep r mv
  else s

/-- A write of BRM_CEIL{r} (R362). -/
def State.wBrmCeil (s : State) (m : Master) (r v : Nat) : Acc2 :=
  let lock := s.get (F.BRM_LOCK_LOCK r)
  s.writeThen m (R.BRM_CEIL r) v (·.ceilingSet r) (guard := lock == 0 || decide (v % 256 ≤ lock))

/-- A lock burned by Tally (R371): a ceiling above it becomes the lock. -/
def State.brimLock (s : State) (r lock : Nat) : State :=
  let s := s.put (F.BRM_LOCK_LOCK r) lock
  if lock ≠ 0 ∧ lock < s.get (F.BRM_CEIL_CEIL r) then (s.put (F.BRM_CEIL_CEIL r) lock).ceilingSet r else s

/-- A write of BRM_CFG{r} (R356, R375): EN written 0 then 1 clears COPEN. -/
def State.wBrmCfg (s : State) (m : Master) (r v : Nat) : Acc2 :=
  let was := s.flag (F.BRM_CFG_EN r)
  s.writeThen m (R.BRM_CFG r) v (fun s =>
    let en := s.flag (F.BRM_CFG_EN r)
    if en && !was then (s.put (F.BRM_STAT_COPEN r) 0).setRes r { s.res r with sampleAt := s.clock }
    else if was && !en then (s.chargeStep r (s.get (F.BRM_V_V r))).resCheck r
    else s)

/-- A write of BRM_FDZ{n}: ESPK above ESPKMAX is refused (R372). -/
def State.wFdz (s : State) (m : Master) (n v : Nat) : Acc2 :=
  s.plainWrite m (R.BRM_FDZ n) v (guard := decide (bitField v 24 16 ≤ s.get F.BRM_DZL2_ESPKMAX))

/-- Writing 1 clears every DIVCNT and DIVE. -/
def State.wBrmClr (s : State) (v : Nat) : Acc2 :=
  okay (if wbit v 0 then [0, 1].foldl (fun s r => (s.setWord (R.BRM_DIVCNT r) 0).setWord (R.BRM_DIVE r) 0) s else s)

/-- A block reset of BRM (R376, R378): the tally mirrors stay, and both reservoirs are bled. -/
def State.brmReset (s : State) : State :=
  let kept := [R.BRM_DZLK, R.BRM_DZL2, R.BRM_LOCK 0, R.BRM_LOCK 1].map (fun a => (a, s.word a))
  let s := s.clearRegs R.BRM_DZLK (R.BRM_DZLK + 0x10000)
  let s := kept.foldl (fun s e => s.setWord e.1 e.2) s
  let s := s.withDrv { s.drv with ress := List.replicate 2 {} }
  [0, 1].foldl (fun s r =>
    let lock := s.get (F.BRM_LOCK_LOCK r)
    let s := if lock = 0 then s else s.put (F.BRM_CEIL_CEIL r) (min 50 lock)
    s.drain r) s

/-! Sensor ports and rails (R368–R370). -/

def pOff : Nat := 0
def pReg : Nat := 1
def pLimit : Nat := 2
def pFold : Nat := 3

/-- The set voltage of port `k`, mV. -/
def State.portSet (s : State) (k : Nat) : Nat := if s.flag (F.SNP_CFG_V10 k) then 10000 else 5000

/-- Port `k` turned on or off by its EN. -/
def State.portTurn (s : State) (k : Nat) : State :=
  let st := s.get (F.SNP_STAT_STATE k)
  if s.flag (F.SNP_CFG_EN k) && !s.supplyOff then (if st = pOff then s.put (F.SNP_STAT_STATE k) pReg else s)
  else s.put (F.SNP_STAT_STATE k) pOff

/-- V and I of port `k` published. -/
def State.portMeas (s : State) (k mv ua : Nat) : State :=
  (s.put (F.SNP_MEAS_V k) (min mv 65535)).put (F.SNP_MEAS_I k) (min (rdiv (ua : Nat) 10).toNat 65535)

/-- The current limit in force on port `k`, µA: ILIM, folded to max(2 mA, ILIM / 10) in FOLD (R368). -/
def State.portLimit (s : State) (k : Nat) : Nat :=
  let ilim := s.get (F.SNP_CFG_ILIM k)
  if s.get (F.SNP_STAT_STATE k) = pFold then max 2000 (100 * ilim) else 1000 * ilim

/-- A declared parameter: `a` on KH7-M484-A; the unit's tested value, none above it, on KH7-M484-D (R369; log 68). -/
def State.declared (s : State) (k which a : Nat) : Nat :=
  if s.get F.UPD_ID_ORDER = 1 then min a (Config.snpTested k (s.word (R.SNP_CFG k)) which) else a

/-- The declared parameters of port `k` for its configuration (R369). -/
def State.portDeclare (s : State) (k : Nat) : State :=
  let uo := if s.flag (F.SNP_CFG_V10 k) then 10500 else 5250
  let io := 110 * s.get (F.SNP_CFG_ILIM k) + 100
  let d0 := (s.put (F.SNP_DECL0_UO k) (s.declared k 0 uo)).put (F.SNP_DECL0_IO k) (s.declared k 1 io)
  let d1 := d0.put (F.SNP_DECL1_PO k) (s.declared k 2 ((uo * io + 99999) / 100000))
  (d1.put (F.SNP_DECL1_CI k) (s.declared k 3 22)).put (F.SNP_DECL1_LI k) (s.declared k 4 10)

/-- A write of SNP_CFG{k}: a port in the mask refuses ILIM above 40 mA (R372). -/
def State.wSnpCfg (s : State) (m : Master) (k v : Nat) : Acc2 :=
  s.writeThen m (R.SNP_CFG k) v (fun s => (s.portDeclare k).portTurn k)
    (guard := !(s.flag (F.SNP_STAT_LOCKED k) && decide (40 < bitField v 9 2)))

/-- The load of port `k` exceeds ILIM (R368 step 1). -/
def execPortLimit (t : Nat) (k : Fin 8) (mv ua : Nat) (s : State) : Host.Outcome State Fault Refusal :=
  let s := (s.atTime t).portMeas k mv ua
  done (if s.get (F.SNP_STAT_STATE k) = pReg then (s.put (F.SNP_STAT_STATE k) pLimit).setSnp k { s.snp k with limAt := s.clock } else s)

/-- The load of a limiting port falls back below ILIM. -/
def execPortLimitEnd (t : Nat) (k : Fin 8) (mv ua : Nat) (s : State) : Host.Outcome State Fault Refusal :=
  let s := (s.atTime t).portMeas k mv ua
  done (if s.get (F.SNP_STAT_STATE k) = pLimit then s.put (F.SNP_STAT_STATE k) pReg else s)

/-- 1 ms below 80 % of the set voltage (R368 step 3): the port has been limiting at least as long. -/
def execPortFold (t : Nat) (k : Fin 8) (mv ua : Nat) (s : State) : Host.Outcome State Fault Refusal :=
  let s := (s.atTime t).portMeas k mv ua
  done (if s.get (F.SNP_STAT_STATE k) = pLimit ∧ 10 * mv < 8 * s.portSet k ∧ (s.snp k).limAt + 1000000 ≤ s.clock then
    ((((s.put (F.SNP_STAT_STATE k) pFold).setSnp k { s.snp k with foldAt := s.clock }).raise (F.SNP_STAT_FOLDED k)).countSat
      (F.SNP_STAT_FOLDCNT k)).event 0x240B (place 4 4 4 k) (p0 := k) else s)

/-- 10 ms above 90 % of the set voltage with the load below the folded limit (R368 step 5): the port has been in FOLD at least as long. -/
def execPortUnfold (t : Nat) (k : Fin 8) (mv ua : Nat) (s : State) : Host.Outcome State Fault Refusal :=
  let s := (s.atTime t).portMeas k mv ua
  done (if s.get (F.SNP_STAT_STATE k) = pFold ∧ 9 * s.portSet k < 10 * mv ∧ ua < s.portLimit k ∧ (s.snp k).foldAt + 10000000 ≤ s.clock then
    s.put (F.SNP_STAT_STATE k) pReg else s)

/-- Rail `k` goes into or out of its current limit (R370). -/
def execRailOvercurrent (t : Nat) (k : Fin 4) (present : Bool) (s : State) : Host.Outcome State Fault Refusal :=
  let s := s.atTime t
  let roc : Fld := ⟨R.SNP_RAIL, 4 + k, 4 + k⟩
  let was := s.flag roc
  let s := (s.putB roc present).putB ⟨R.SNP_RAIL, k, k⟩ !present
  done (if present && !was then s.event 0x240B (powerBlock 4) (p0 := 8 + k) else s)

/-- Writing 1 clears every FOLDCNT. -/
def State.wSnpClr (s : State) (v : Nat) : Acc2 :=
  okay (if wbit v 0 then (List.range 8).foldl (fun s k => s.put (F.SNP_STAT_FOLDCNT k) 0) s else s)

/-- A block reset of SNP turns every port off (R376); the rails' state stays. -/
def State.snpReset (s : State) : State :=
  let rail := s.word R.SNP_RAIL
  let s := (s.clearRegs R.SNP_RAIL (R.SNP_RAIL + 0x10000)).setWord R.SNP_RAIL rail
  let s := s.withDrv { s.drv with ports := List.replicate 8 {} }
  (List.range 8).foldl (fun s k => (s.putB (F.SNP_STAT_LOCKED k) (wbit (s.get F.BRM_DZL2_PMASK) k)).portDeclare k) s

/-- Every port brought to what its EN and the power die allow. -/
def State.portsTurn (s : State) : State := (List.range 8).foldl State.portTurn s

/-- Both chargers brought to what the power die allows (R519, R520, R522). -/
def State.chargersTurn (s : State) : State := [0, 1].foldl (fun s r => (s.chargeStep r (s.get (F.BRM_V_V r))).resCheck r) s

end Sys2Proof.Machine
end

