-- ==== Sys2Proof/Machine/Loads.lean ====
section
/-! DEFINITION. Load channels (spec/09_load_channels.md R331–R355). Currents come in µA, supplies in mV. -/

namespace Sys2Proof.Machine

/-- Load channel `n`. -/
def State.ld (s : State) (n : Nat) : LdsSt := s.lds.getD n {}

/-- Load channel `n` set. -/
def State.setLd (s : State) (n : Nat) (x : LdsSt) : State := { s with lds := s.lds.set n x }

/-- The place code of load channel `n` (R597). -/
def ldPlace (n : Nat) : Nat := place 4 4 2 n

/-! States (R355). -/

def lOff : Nat := 0
def lInrush : Nat := 1
def lOn : Nat := 2
def lRetry : Nat := 3
def lUvoff : Nat := 4
def lTherm : Nat := 5
def lLatch : Nat := 6

/-- STATE of channel `n`. -/
def State.lst (s : State) (n : Nat) : Nat := s.get (F.LDS_STAT_STATE n)

/-- The switch of channel `n` is closed. -/
def State.closed (s : State) (n : Nat) : Bool := s.lst n == lInrush || s.lst n == lOn

/-- What stands of the millisecond before `k` when millisecond `k` has begun in state `st` (R345). -/
def LdsSt.roll (x : LdsSt) (k st : Nat) : LdsSt :=
  if x.ms < k then { x with ms := k, rush := st == lInrush, rushPrev := (x.ms + 1 == k && x.rush) || st == lInrush, endSt := st } else x

/-- STATE of channel `n` set, and LDS_SUM with it. -/
def State.setLst (s : State) (n st : Nat) : State :=
  let x := (s.ld n).roll (s.now / 1000000) (s.lst n)
  let s := s.setLd n { x with rush := x.rush || st == lInrush }
  let s := s.put (F.LDS_STAT_STATE n) st
  (s.putB ⟨R.LDS_SUM, 16 + n, 16 + n⟩ (st == lRetry || st == lTherm || st == lLatch)).putB ⟨R.LDS_SUM, n, n⟩ (st == lInrush || st == lOn)

/-- The group of channel `n` (R332). -/
def groupOf (n : Nat) : Nat := n / 8

/-- The group of channel `n` is in under-voltage (R339). -/
def State.uvnow (s : State) (n : Nat) : Bool := s.flag (F.LDS_GV_UVNOW (groupOf n))

/-- Channel `n` closes its switch (R335): INRUSH, with a fresh window and working copy. -/
def State.closeLd (s : State) (n : Nat) : State :=
  (s.setLd n { s.ld n with wcfg := s.word (R.LDS_CFG n), startAt := s.clock }).setLst n lInrush

/-- The state that a waiting channel shows (R335, R341). -/
def State.waitLd (s : State) (n : Nat) : State :=
  if s.flag (F.LDS_STAT_THL n) then s.setLst n lTherm
  else if s.uvnow n && !(s.ld n).counted then s.setLst n lUvoff
  else s.setLst n lRetry

/-- Channel `n` turns on, or waits without consuming a retry (R335); it notes the wish in an over-voltage (R519). -/
def State.turnOnLd (s : State) (n : Nat) : State :=
  if s.outputsOff then s.setLd n { s.ld n with wasOn := s.drv.ovv }
  else if s.flag (F.LDS_STAT_THL n) || s.uvnow n then (s.setLd n { s.ld n with counted := false }).waitLd n
  else s.closeLd n

/-- The inrush window ends (R336). -/
def execInrushEnd (t : Nat) (n : Fin 16) (s : State) : Host.Outcome State Fault Refusal :=
  let s := s.atTime t
  let x := s.ld n
  done (if s.lst n = lInrush ∧ x.startAt + fieldOf (F.LDS_CFG_INRW 0) x.wcfg * 1000000 ≤ s.clock then
    (s.setLd n { x with onAt := s.clock, test := none }).setLst n lOn else s)

/-- The active threshold of channel `n`, µA (R336). -/
def State.threshold (s : State) (n : Nat) : Nat :=
  let x := s.ld n
  100000 * (if s.lst n = lInrush then fieldOf (F.LDS_CUR_IINR 0) x.wcur else fieldOf (F.LDS_CUR_ILAT 0) x.wcur)

/-- The hard short ceiling of channel `n`, µA (R331). -/
def ceilingOf (n : Nat) : Nat := if n < 8 then 40000000 else 20000000

/-- A switch opened by a fault of its own waits for a counted restart, or latches (R338, R341). -/
def State.tripLd (s : State) (n : Nat) (byOc : Bool) : State :=
  let x := s.ld n
  let s := s.setLd n { x with counted := true, byOc := byOc, latchAt := s.clock, lowN := 0 }
  if fieldOf (F.LDS_CFG_ARST 0) x.wcfg = 1 then s.waitLd n else s.setLst n lLatch

/-- The channels of group `g`. -/
def groupLds (g : Nat) : List Nat := (List.range 8).map (8 * g + ·)

/-- Group `g` beside its registers. -/
def State.ldGroup (s : State) (g : Nat) : LdGroup := s.ldGroups.getD g {}

/-- The supply of group `g` measures `mv`. -/
def State.groupMeas (s : State) (g mv : Nat) : State :=
  let x := s.ldGroup g
  let s : State := { s with ldGroups := s.ldGroups.set g (if mv ≤ 7500 then { low := true, lowAt := some s.clock } else { x with low := false }) }
  s.put (F.LDS_GV_MV g) (min mv 65535)

/-- The supply of group `g` has stood above 7.5 V for 10 ms, as far as it has been measured (R339, R342). -/
def State.groupOk (s : State) (g : Nat) : Bool :=
  !(s.ldGroup g).low && match (s.ldGroup g).lowAt with
    | some a => decide (a + 10000000 ≤ s.clock)
    | none => true

/-! The order of the conditions of one 10 µs test (R344). -/

/-- The 10 µs test that the present time falls in. -/
def State.ldTest (s : State) : Nat := s.clock / 10000

/-- Command 0: the switch opens from any state (R337). -/
def State.offLd (s : State) (n : Nat) : State :=
  let s := (s.setLst n lOff).put (F.LDS_STAT_RTUSED n) 0
  s.setLd n { s.ld n with counted := false, byOc := false, wasOn := false, lowN := 0 }

/-- A current of `i` trips channel `n`: above the active threshold for 1 µs, or above the hard short ceiling (R338). -/
def State.ocTrips (s : State) (n i : Nat) : Bool := s.closed n && (decide (ceilingOf n < i) || decide (s.threshold n < i))

/-- An over-current (R338); `ev`: it is recorded. -/
def State.ocLd (s : State) (n i : Nat) (ev : Bool) : State :=
  let hard := decide (ceilingOf n < i)
  if s.ocTrips n i then
    let s := (((s.raise (F.LDS_STAT_OC n)).raiseIf hard (F.LDS_STAT_HWSC n)).countSat (F.LDS_CNT_OCCNT n)).tripLd n true
    if ev then s.event 0xA406 (ldPlace n) (p0 := n) (p1 := if hard then 2 else 1) else s
  else s

/-- A thermal trip (R341). -/
def State.tripTherm (s : State) (n : Nat) (ev : Bool) : State :=
  let s := if ev then s.event 0x2407 (ldPlace n) (p0 := n) (p1 := 2) else s
  let closed := s.closed n
  let s := (s.raise (F.LDS_STAT_THL n)).raise (F.LDS_STAT_THTRIP n)
  if closed then s.tripLd n false
  else if s.lst n = lRetry ∨ s.lst n = lUvoff then s.setLst n lTherm else s

/-- An under-voltage of the group (R339). -/
def State.tripUv (s : State) (n : Nat) : State :=
  if s.closed n then
    let s := s.raise (F.LDS_STAT_UV n)
    (s.setLd n { s.ld n with counted := false, lowN := 0 }).setLst n lUvoff
  else s

/-- A restart of channel `n` is due (R342). -/
def State.restartReady (s : State) (n : Nat) : Bool :=
  let x := s.ld n
  let st := s.lst n
  let waiting := s.flag (F.LDS_STAT_CMD n) && (st == lRetry || st == lUvoff || st == lTherm)
  let delayed := x.counted && x.byOc && decide (s.clock < x.latchAt + fieldOf (F.LDS_CFG_RTDLY 0) x.wcfg * 10000000)
  waiting && (!s.flag (F.LDS_STAT_THL n) && !s.uvnow n && s.groupOk (groupOf n) && !delayed && !s.outputsOff)

/-- A restart, where one is due. -/
def State.restartLd (s : State) (n : Nat) (ev : Bool) : State :=
  let x := s.ld n
  let used := s.get (F.LDS_STAT_RTUSED n)
  let budget := fieldOf (F.LDS_CFG_RETRY 0) x.wcfg
  if !s.restartReady n then s
  else if !x.counted then (s.countSat (F.LDS_CNT_RSTCNT n)).closeLd n
  else if budget = 0 ∨ used < budget then ((s.countSat (F.LDS_STAT_RTUSED n)).countSat (F.LDS_CNT_RSTCNT n)).closeLd n
  else
    let s := (s.setLst n lLatch).raise (F.LDS_STAT_RTEXH n)
    if ev then s.event 0x2407 (ldPlace n) (p0 := n) (p1 := 1) else s

/-- Channel `n` as the first condition of the present test found it, and the conditions met since. -/
def State.ldMeets (s : State) (n : Nat) : State × LdTest :=
  let x := s.ld n
  let fresh : LdTest := { k := s.ldTest, stat := s.word (R.LDS_STAT n), cnt := s.word (R.LDS_CNT n), wcfg := x.wcfg, startAt := x.startAt, latchAt := x.latchAt,
                          lowN := x.lowN, counted := x.counted, byOc := x.byOc }
  match x.test with
  | none => (s, fresh)
  | some y =>
    if y.k = s.ldTest then
      let s := s.setLst n (fieldOf (F.LDS_STAT_STATE n) y.stat)
      let s := [F.LDS_STAT_UV n, F.LDS_STAT_OC n, F.LDS_STAT_HWSC n, F.LDS_STAT_THL n, F.LDS_STAT_THTRIP n, F.LDS_STAT_RTEXH n, F.LDS_STAT_RTUSED n].foldl
        (fun s f => s.put f (fieldOf f y.stat)) (s.setWord (R.LDS_CNT n) y.cnt)
      (s.setLd n { s.ld n with wcfg := y.wcfg, startAt := y.startAt, latchAt := y.latchAt, lowN := y.lowN, counted := y.counted, byOc := y.byOc }, y)
    else (s, fresh)

/-- The conditions of a test in the order of R344; `ev` is the one that arrives now, whose event is recorded. An over-current after a restart of its
own test is of the switch that this restart closed. -/
def State.ldReplay (s : State) (n : Nat) (y : LdTest) (ev : Nat) : State :=
  let oc (s : State) (late : Bool) : State := match y.oc with
    | some i => if y.late = late then s.ocLd n i (ev == 1) else s
    | none => s
  let s := oc (if y.off then s.offLd n else s) false
  let s := if y.therm then s.tripTherm n (ev == 2) else s
  let s := if y.uv then s.tripUv n else s
  oc (if y.restart then s.restartLd n (ev == 4) else s) true

/-- A condition of the present test arrives: command 0, over-current (`ev` = 1), thermal trip (2), under-voltage, restart (4). -/
def State.ldCond (s : State) (n : Nat) (f : LdTest → LdTest) (ev : Nat := 0) : State :=
  let b := s.ldMeets n
  let y := f b.2
  let s := b.1.ldReplay n y ev
  s.setLd n { s.ld n with test := some y }

/-- Channel `n` as an over-current of the present test finds it. -/
def State.ocFinds (s : State) (n : Nat) : State :=
  let b := s.ldMeets n
  if b.2.restart then s else if b.2.off then b.1.offLd n else b.1

/-- A current of `i` reported as over-current. -/
def State.overLd (s : State) (n i : Nat) : State :=
  if (s.ocFinds n).ocTrips n i then s.ldCond n (fun y => if y.oc.isSome then y else { y with oc := some i, late := y.restart }) 1 else s

/-- The command in force of channel `n` becomes `on` (R335, R337). -/
def State.applyLoad (s : State) (n : Nat) (on : Bool) : State :=
  let was := s.flag (F.LDS_STAT_CMD n)
  let s := s.putB (F.LDS_STAT_CMD n) on
  if on && !was then (s.setLd n { s.ld n with test := none }).turnOnLd n
  else if was && !on then s.ldCond n (fun y => { y with off := true })
  else s

/-- A command word reaches channel `n` (R334, R44). -/
def State.setLoadCmd (s : State) (n w : Nat) (poisoned : Bool) : State :=
  if poisoned then (s.raise (F.LDS_STAT_POISON n)).event 0xA403 (powerBlock 2) (p0 := 0x200 + n)
  else if 2 ≤ w then s.raise (F.LDS_STAT_CMDERR n)
  else s.applyLoad n (w == 1)

def execLoadOvercurrent (t : Nat) (n : Fin 16) (i : Nat) (s : State) : Host.Outcome State Fault Refusal := done ((s.atTime t).overLd n i)

/-- The supply of group `g` stays below 7.0 V for 10 µs (R339). -/
def State.groupUv (s : State) (g mv : Nat) : State :=
  let s := s.groupMeas g mv
  if s.flag (F.LDS_GV_UVNOW g) || decide (7000 ≤ mv) then s
  else
    let s := (s.raise (F.LDS_GV_UVNOW g)).event 0x2408 (place 4 4 2 0xFFFF) (p1 := g)
    (groupLds g).foldl (fun s n =>
      if s.closed n then s.ldCond n (fun y => { y with uv := true }) else s) s

def execGroupUndervoltage (t : Nat) (g : Fin 2) (mv : Nat) (s : State) : Host.Outcome State Fault Refusal := done ((s.atTime t).groupUv g mv)

/-- The supply of group `g` has stood above 7.5 V for 10 ms (R339). -/
def execGroupUvRecover (t : Nat) (g : Fin 2) (mv : Nat) (s : State) : Host.Outcome State Fault Refusal :=
  let s := (s.atTime t).groupMeas g mv
  done (if s.groupOk g then s.put (F.LDS_GV_UVNOW g) 0 else s)

/-- 1 s in ON without a break (R340). -/
def execRetryBudgetRefill (t : Nat) (n : Fin 16) (s : State) : Host.Outcome State Fault Refusal :=
  let s := s.atTime t
  done (if s.lst n = lOn ∧ (s.ld n).onAt + 1000000000 ≤ s.clock then s.put (F.LDS_STAT_RTUSED n) 0 else s)

/-- A switch at 170 °C (R341). -/
def State.thermLd (s : State) (n : Nat) : State :=
  if s.flag (F.LDS_STAT_THL n) then s else s.ldCond n (fun y => { y with therm := true }) 2

def execLoadThermalTrip (t : Nat) (n : Fin 16) (s : State) : Host.Outcome State Fault Refusal := done ((s.atTime t).thermLd n)

/-- A switch below 150 °C (R341). -/
def execThermalLatchClear (t : Nat) (n : Fin 16) (s : State) : Host.Outcome State Fault Refusal :=
  let s := (s.atTime t).put (F.LDS_STAT_THL n) 0
  let s := s.setLd n { s.ld n with test := none }
  done (if s.lst n = lTherm then s.waitLd n else s)

/-- The 10 µs test of one channel (R342). -/
def State.restartTest (s : State) (n : Nat) : State :=
  if s.restartReady n then s.ldCond n (fun y => { y with restart := true }) 4 else s

def execRestartTest (t : Nat) (s : State) : Host.Outcome State Fault Refusal := done ((List.range 16).foldl State.restartTest (s.atTime t))

/-- REARM of channel `n` (R343). -/
def State.rearmLd (s : State) (n : Nat) : State :=
  let s := (((((s.setLd n { s.ld n with test := none }).put (F.LDS_STAT_RTUSED n) 0).put (F.LDS_STAT_OC n) 0)).put (F.LDS_STAT_HWSC n) 0).put (F.LDS_STAT_RTEXH n) 0
  if s.flag (F.LDS_STAT_CMD n) && (s.lst n == lLatch || s.lst n == lRetry) then (s.setLd n { s.ld n with counted := false, byOc := false }).waitLd n
  else s

/-- A write of LDS_CTL{n}. -/
def State.wLdsCtl (s : State) (m : Master) (n v : Nat) : Acc2 :=
  if !s.isOwner m then (s, stNotOwner) else okay (if wbit v 0 then s.rearmLd n else s)

/-- A write of LDS_CUR{n}: IINR below ILAT is refused (R336). -/
def State.wLdsCur (s : State) (m : Master) (n v : Nat) : Acc2 :=
  s.plainWrite m (R.LDS_CUR n) v (guard := decide (bitField v 7 0 ≤ bitField v 23 16))

/-- A write of LDS_CFG{n}: LOWR written 0 then 1 begins a new low range (R346). -/
def State.wLdsCfg (s : State) (m : Master) (n v : Nat) : Acc2 :=
  let was := s.flag (F.LDS_CFG_LOWR n)
  s.writeThen m (R.LDS_CFG n) v (fun s => if s.flag (F.LDS_CFG_LOWR n) && !was then s.setWord (R.LDS_ILOW n) 0 else s)

/-- The load current word for a mean of `i` µA over the millisecond just ended (R345); `x`: the channel in the millisecond after it. -/
def LdsSt.loadWord (x : LdsSt) (i : Nat) : Nat :=
  min (rdiv (i : Nat) 5000).toNat 4095 + bit (decide (20475000 ≤ i)) * 2 ^ 12 + bit x.rushPrev * 2 ^ 13
    + bit (x.endSt == lRetry || x.endSt == lTherm || x.endSt == lLatch) * 2 ^ 14

/-- The low range of channel `n` with a mean of `i` µA (R346, R347). -/
def State.lowRange (s : State) (n i : Nat) : State :=
  let x := s.ld n
  if !x.wlow then s.setLd n { x with lowN := 0 }
  else
    let v := if 50000 < i then 1000 else (rdiv (i : Nat) 50).toNat
    let s := ((s.put (F.LDS_ILOW_ILOW n) v).putB (F.LDS_ILOW_ABOVE n) (decide (50000 < i))).raise (F.LDS_ILOW_VALID n)
    let under := decide (i < fieldOf (F.LDS_OL_OLTHR 0) x.wol * 50)
    let below := under && s.lst n == lOn
    let k := if below then x.lowN + 1 else 0
    let hit := decide (x.lowN ≠ 0) && x.olHit
    let due := below && decide (fieldOf (F.LDS_OL_OLT 0) x.wol ≤ k)
    let s := s.setLd n { x with lowN := k, olHit := hit || due }
    if below then
      if due && !hit then
        ((s.raise (F.LDS_STAT_OLNOW n)).raise (F.LDS_STAT_OPEN n)).event 0x2407 (ldPlace n) (p0 := n) (p1 := 3)
      else s
    else if !under then s.put (F.LDS_STAT_OLNOW n) 0 else s

/-- The report of the millisecond of module time just ended (R345–R347), received within 20 µs of its end and once: mean `i` of the main range
and `low` of the low range, supply `mv` of the group; writes of LDS_CUR, LDS_OL and LOWR take effect after it (R355). -/
def State.loadReport (s : State) (n i low mv : Nat) : State :=
  let k := s.now / 1000000
  let x := (s.ld n).roll k (s.lst n)
  if 20000 < s.now % 1000000 ∨ k ≤ x.repMs then s
  else
    let s := (s.setLd n { x with repMs := k, prevWord := s.word (R.LDS_IMEAS n) }).groupMeas (groupOf n) mv
    let s := if n < 8 then s.setWord (R.LDS_IMEAS n) (x.loadWord i) else s
    let s := s.lowRange n low
    s.setLd n { s.ld n with wcur := s.word (R.LDS_CUR n), wol := s.word (R.LDS_OL n), wlow := s.flag (F.LDS_CFG_LOWR n) }

/-- The load current word that a boundary latches (R345): a report received in the first 20 µs of the present millisecond is not yet shown there. -/
def State.loadPort (s : State) (n : Nat) : Nat :=
  let x := s.ld n
  if s.now % 1000000 < 20000 ∧ x.repMs = s.now / 1000000 then x.prevWord else s.word (R.LDS_IMEAS n)

def execLoadCurrentReport (t : Nat) (n : Fin 16) (i low mv : Nat) (s : State) : Host.Outcome State Fault Refusal :=
  done ((s.atTime t).loadReport n i low mv)

/-- The ISEL balls change (R348, R349). -/
def execIselChange (t : Nat) (isel : BitVec 3) (s : State) : Host.Outcome State Fault Refusal :=
  done ((s.atTime t).put F.LDS_ISEL_ISEL isel.toNat)

/-- The current that IS_A (`b` = 0) or IS_B (1) sources, nA, for load current `i` µA and switch temperature `c` °C (R348, R354). -/
def State.mirror (s : State) (b i : Nat) (c : Int) : Nat :=
  let isel := s.get F.LDS_ISEL_ISEL
  let st := s.lst (8 + 4 * b + isel % 4)
  if s.inBeanie then 0
  else if st = lRetry ∨ st = lTherm ∨ st = lLatch then 3600000
  else if 4 ≤ isel then (10000 * (c + 60)).toNat
  else min (i * 1000 / 2500) 3000000

/-- Writing 1 clears every LDS_CNT. -/
def State.wLdsClr (s : State) (v : Nat) : Acc2 :=
  okay (if wbit v 0 then (List.range 16).foldl (fun s n => s.setWord (R.LDS_CNT n) 0) s else s)

/-! Posture, forced off, reset (R352, R519, R526). -/

/-- The posture command of channel `n` is applied (R352, R520, R526): a channel whose switch was forced open under a command 1 turns on again. -/
def State.postureLoad (s : State) (n : Nat) : State :=
  let on := wbit (s.get F.PST_LCMD_LCMD) n
  let s := s.applyLoad n on
  if on && s.lst n == lOff then s.turnOnLd n else s

/-- Every load switch opens (R519, R520, R522). -/
def State.loadsOff (s : State) (note : Bool) : State :=
  (List.range 16).foldl (fun s n => if s.closed n then (s.setLd n { s.ld n with wasOn := note, lowN := 0 }).setLst n lOff else s) s

/-- A channel that was in INRUSH or ON restarts with a fresh window (R519). -/
def State.loadsBack (s : State) : State :=
  (List.range 16).foldl (fun s n =>
    let was := (s.ld n).wasOn
    let s := s.setLd n { s.ld n with wasOn := false }
    if was && s.flag (F.LDS_STAT_CMD n) && s.lst n == lOff then s.turnOnLd n else s) s

/-- A block reset of LDS (R352): it keeps THL, and LDS_ISEL reads the balls; the posture's commands are applied. -/
def State.ldsReset (s : State) : State :=
  let thl := (List.range 16).map (fun n => s.get (F.LDS_STAT_THL n))
  let isel := s.word R.LDS_ISEL
  let s := (s.clearRegs R.LDS_SUM (R.LDS_SUM + 0x10000)).setWord R.LDS_ISEL isel
  let s : State := { s with lds := ({} : State).lds }
  let s := (List.range 16).foldl (fun s n => s.put (F.LDS_STAT_THL n) (thl.getD n 0)) s
  (List.range 16).foldl State.postureLoad s

end Sys2Proof.Machine
end

