-- ==== Sys2Proof/Machine/Mitten.lean ====
section
/-! DEFINITION. Mitten MIT (spec/14_halves_failover.md R495–R497, R502, R504) and the posture holds of PST
(spec/15_reset_power_startup.md R526, R527). -/

namespace Sys2Proof.Machine

def mitPlace : Nat := powerBlock 5
def pstPlace : Nat := powerBlock 6

/-- The state with Mitten's own part at `x`. -/
def State.withMit (s : State) (x : MitSt) : State := { s with mit := x }

/-! Mitten's states (R504). -/

def mIdle : Nat := 0
def mHold : Nat := 1
def mRamp : Nat := 2

/-- The power die takes no value from lanes or Mitten: SAFE_N is asserted (R527). -/
def State.safeOn (s : State) : Bool := s.flag F.PST_STAT_SAFE

/-- PST_STAT:HOLDS brought up to date. -/
def State.pstHolds (s : State) : State := s.putB F.PST_STAT_HOLDS (s.word R.PST_FHELD != 0 || s.word R.PST_OHELD != 0)

/-- Mitten is IDLE again when nothing is held and no finger ramps (R495). -/
def State.mitSettle (s : State) : State :=
  if s.word R.MIT_FHELD = 0 ∧ s.word R.MIT_OHELD = 0 ∧ s.mit.fingers = [] then s.put F.MIT_STAT_STATE mIdle else s

/-- A SETP took effect on finger `n`: no hold keeps it (R495, R496, R527). -/
def State.freeFinger (s : State) (n : Nat) : State :=
  let s := (s.put ⟨R.MIT_FHELD, n, n⟩ 0).put ⟨R.PST_FHELD, n, n⟩ 0
  ((s.withMit { s.mit with fingers := s.mit.fingers.filter (fun e => e.1 != n) }).mitSettle).pstHolds

/-- A SETP took effect on the palm or load port with bit `b` of the OHELD masks. -/
def State.freeOther (s : State) (b : Nat) : State := (((s.put ⟨R.MIT_OHELD, b, b⟩ 0).put ⟨R.PST_OHELD, b, b⟩ 0).mitSettle).pstHolds

/-- Mitten engages: every finger code, palm command and load command in force is held (R495). -/
def State.mitEngage (s : State) : State :=
  let s := (s.setWord R.MIT_FHELD 0xFFFFFFFF).setWord R.MIT_OHELD 0x00FFFFFF
  ((s.put F.MIT_STAT_STATE mHold).countSat F.MIT_CNT_ENG).withMit { engagedAt := some s.clock }

/-- The values of Mitten reach finger `n`: SAFE_N and the holds after it keep them off (R527). -/
def State.mitReaches (s : State) (held : Fld) : Bool := !s.safeOn && !s.flag held

/-- The ramp's code of finger `n` after step `k` of `r`, from `c` (R496). -/
def State.rampCode (s : State) (n c k r : Nat) : Nat :=
  let p := s.postureCode n
  if r ≤ k then p else ((c : Int) + rdiv (((p : Int) - c) * k) r).toNat

/-- Step `k` of the ramp made on every finger that ramps. -/
def State.rampTo (s : State) (k : Nat) : State :=
  let r := s.mit.ramp
  let s := s.mit.fingers.foldl (fun s e =>
    if s.mitReaches ⟨R.PST_FHELD, e.1, e.1⟩ then s.applyCode e.1 (s.rampCode e.1 e.2 k r) else s) s
  (s.withMit { s.mit with step := k, fingers := if r ≤ k then [] else s.mit.fingers }).mitSettle

/-- HOLD ms after engagement (R496). -/
def State.mitExpire (s : State) : State :=
  let fingers := s.word R.MIT_FHELD
  let others := s.word R.MIT_OHELD
  let s := ((s.raise F.MIT_STAT_EXP).countSat F.MIT_CNT_EXP).event 0x240C mitPlace (p1 := fingers) (p2 := others)
  let s := (List.range 8).foldl (fun s p => if wbit others (16 + p) && s.mitReaches ⟨R.PST_OHELD, 16 + p, 16 + p⟩ then s.posturePalm p else s) s
  let s := (List.range 16).foldl (fun s n => if wbit others n && s.mitReaches ⟨R.PST_OHELD, n, n⟩ then s.postureLoad n else s) s
  let from1 := ((List.range 32).filter (fun n => wbit fingers n)).map (fun n => (n, (s.fng n).code))
  let s := ((s.setWord R.MIT_FHELD 0).setWord R.MIT_OHELD 0).put F.MIT_STAT_STATE mRamp
  let r := s.get F.MIT_CFG_RAMP
  let s := s.withMit { s.mit with expiredAt := s.clock, ramp := r, step := 0, fingers := from1 }
  if r = 0 then s.rampTo 0 else s.mitSettle

/-- The hold has run for HOLD ms. -/
def State.mitDue (s : State) : Bool :=
  match s.mit.engagedAt with
  | some a => s.get F.MIT_STAT_STATE == mHold && decide (a + s.get F.MIT_CFG_HOLD * 1000000 ≤ s.clock)
  | none => false

def execMittenExpire (t : Nat) (s : State) : Host.Outcome State Fault Refusal :=
  let s := s.atTime t
  done (if s.mitDue then s.mitExpire else s)

/-- A millisecond of the ramp (R496). -/
def execMittenRampStep (t : Nat) (s : State) : Host.Outcome State Fault Refusal :=
  let s := s.atTime t
  done (if s.get F.MIT_STAT_STATE == mRamp && decide (s.mit.expiredAt + (s.mit.step + 1) * 1000000 ≤ s.clock) then s.rampTo (s.mit.step + 1) else s)

/-- MIT_STAT:ELAPSED (R504): whole milliseconds, as the worked example of the chapter reads them (96 after 96.5 ms; log 80). -/
def State.mitElapsed (s : State) : Nat :=
  match s.mit.engagedAt with
  | some a => min ((s.clock - a) / 1000000) 0xFFFF
  | none => 0

/-- A write of MIT_CFG (R497). -/
def State.wMitCfg (s : State) (m : Master) (v : Nat) : Acc2 :=
  let hold := fieldOf F.MIT_CFG_HOLD v
  s.plainWrite m R.MIT_CFG v (guard := decide (10 ≤ hold) && decide (hold ≤ min 1000 (s.get F.MIT_LOCK_CEIL)))

/-- MIT_LOCK mirrors the tally, and HOLD takes its reset value (R497, R504). -/
def State.mitLoad (s : State) (ceil : Nat) : State :=
  (s.put F.MIT_LOCK_CEIL ceil).put F.MIT_CFG_HOLD (min 250 ceil)

/-- A block reset of MIT: every hold ends, the values in force stay (R502). -/
def State.mitReset (s : State) : State :=
  let ceil := s.get F.MIT_LOCK_CEIL
  ((s.clearRegs R.MIT_CFG (R.MIT_CFG + 0x10000)).withMit {}).mitLoad ceil

/-! Posture (R526, R527). -/

/-- The posture made the value in force on every finger, palm and load channel. -/
def State.postureAll (s : State) : State :=
  let s := (List.range 32).foldl State.postureFinger s
  let s := (List.range 8).foldl State.posturePalm s
  (List.range 16).foldl State.postureLoad s

/-- SAFE_N is taken as asserted: posture, and every port held (R527). -/
def State.safeTake (s : State) : State :=
  let s := (((s.raise F.PST_STAT_SAFE).raise F.PST_STAT_SAFEL).raise F.RST_STAT_SAFE).postureAll
  ((s.setWord R.PST_FHELD 0xFFFFFFFF).setWord R.PST_OHELD 0x00FFFFFF).pstHolds

end Sys2Proof.Machine
end

