-- ==== Sys2Proof/Machine/Ports.lean ====
section
/-! DEFINITION. The lane I/O ports (spec/01_harvest_architecture.md R29): what SAMP latches and where staged values go
(spec/07_control_lanes_loops.md R251–R255). -/

namespace Sys2Proof.Machine

/-- The value on a port for half `h` at a boundary (R251), and whether it is poisoned. -/
def State.portValue (s : State) (h p : Nat) : Nat × Bool :=
  if p < 0x40 then ((s.fng p).code, false)
  else if p < 0x100 then (s.word (R.FNG_IMEAS (p - 0x40)), false)
  else if p < 0x200 then (s.word (R.PLM_STAT (p - 0x100)), false)
  else if p < 0x240 then (s.get (F.LDS_STAT_CMD (p - 0x200)), false)
  else if p < 0x400 then (s.loadPort (p - 0x240), false)
  else if p < 0x480 then (bitsOf 32 (s.getS (F.HRA_DATA_SAMPLE (p - 0x400)) * 128), false)
  else if p < 0x500 then ((s.hrin (p - 0x480)).lastBin, false)
  else if p < 0x600 then
    let c := p - 0x500
    ((if !s.inCap c then s.get (F.GPA_CDATA_VALUE c) * 4096
      else if c % 2 = 0 then s.get (F.GPA_CAPC_C ((c - 24) / 2)) else s.get (F.GPA_CAPG_G ((c - 24) / 2))), false)
  else if p < 0x800 then (s.finFreq (p - 0x600), false)
  else if p < 0xA00 then (s.word (R.FUS_HOUT (p - 0x800)), false)
  else if p < 0xC00 then s.lanePort ((p - 0xA00) / 4) (p % 4)
  else if p < 0xE00 then (s.navPort (p - 0xC00), decide (0xC20 ≤ p) && decide (p < 0xC30) && s.poisoned (R.IMU_RX (p - 0xC20)) 4)
  else (s.ce h).mail.getD (p - 0xE00) (0, false)

/-- The values latched at a boundary (R251); the ports of `bad` meet a parity error on the way (R282). -/
def State.latchAll (s : State) (h : Nat) (bad : List Nat) : List (Nat × Nat × Bool) :=
  sampPorts.map (fun p => let v := s.portValue h p; (p, v.1, v.2 || bad.contains p))

/-- The power die ignores port values: SAFE_N (R527), a flush (R522). -/
def State.portsIgnored (s : State) : Bool := s.safeOn || s.flag F.RST_STAT_FLUSH

/-- The block that a SETP port leads to. -/
def portBlock (h p : Nat) : Nat :=
  if p < 0x40 then powerBlock 0 else if p < 0x200 then powerBlock 1 else if p < 0x400 then powerBlock 2 else if p < 0xC00 then objPlace
  else halfBlock h 1 1

/-- A staged value takes effect at port `p` of half `h` (R252–R255, R495, R511, R527). A value that is rejected ends no hold. -/
def State.portDeliver (s : State) (h p v : Nat) (poisoned : Bool) : State :=
  if s.blockHeld (portBlock h p) then s
  else if p < 0x40 then
    if s.portsIgnored then s
    else if poisoned then s.setTarget p v true
    else (s.freeFinger p).setTarget p v false
  else if p < 0x200 then
    if s.portsIgnored then s
    else
      let k := p - 0x100
      if poisoned || decide (3 ≤ v) then s.setPalmCmd k v poisoned else (s.freeOther (16 + k)).setPalmCmd k v false
  else if p < 0x400 then
    if s.portsIgnored then s
    else
      let n := p - 0x200
      if poisoned || decide (2 ≤ v) then s.setLoadCmd n v poisoned else (s.freeOther n).setLoadCmd n v false
  else if p < 0xC00 then s.laneStage ((p - 0xA00) / 4) (p % 4) v poisoned
  else s.setCe h { s.ce h with mail := (s.ce h).mail.set (p - 0xE00) (v, poisoned) }

end Sys2Proof.Machine
end

