-- ==== Sys2Proof/Machine/Lanes.lean ====
section
/-! DEFINITION. The control engine CE and the lanes (spec/07_control_lanes_loops.md R248–R263, R273, R277–R283). A lane is half `h`,
number `l`. -/

namespace Sys2Proof.Machine

def cePlace (h : Nat) : Nat := halfBlock h 1 1
def lanePlace (h l : Nat) : Nat := halfBlock h 1 (l + 2)

/-! TCMs (R25, R248, R257). -/

/-- The base of half `h`'s local windows. -/
def halfBase (h : Nat) : Nat := 0x500000000 + h * 0x100000000

/-- The instruction TCM and the data TCM of a lane. -/
def instTcm (h l : Nat) : Nat := halfBase h + 0x1000000 + l * 0x20000
def dataTcm (h l : Nat) : Nat := halfBase h + 0x1010000 + l * 0x20000

/-- A store of `n` bytes into a data TCM, mirrored into the destination of an armed migration (R277). -/
def State.tcmStore (s : State) (h l o n v : Nat) : State :=
  let s := s.writeN (dataTcm h l + o) n v
  match (s.ce h).mig with
  | some (src, dst) => if src = l then s.writeN (dataTcm h dst + o) n v else s
  | none => s

/-- A word written into a data TCM by the control engine. -/
def State.tcmWord (s : State) (h l o v : Nat) : State := s.tcmStore h l o 4 (v % 2 ^ 32)

/-- Words written into a data TCM from offset `o` on. -/
def State.tcmWords (s : State) (h l o : Nat) : List Nat → State
  | [] => s
  | v :: r => (s.tcmWord h l o v).tcmWords h l (o + 4) r

/-! Classes (R249). -/

/-- Base ticks between two boundaries of a class. -/
def classTicks : Nat → Nat
  | 0 => 1
  | 1 => 4
  | 2 => 20
  | _ => 200

/-- The class of lane `l`. -/
def State.laneClass (s : State) (h l : Nat) : Nat := s.get (F.LAN_CFG_CLASS h l)

/-- The lanes whose class has a boundary at full tick count `tick`. -/
def State.dueLanes (s : State) (h tick : Nat) : List Nat := (List.range 8).filter (fun l => tick % classTicks (s.laneClass h l) == 0)

/-- The loops that lane `l` owns. -/
def State.ownedLoops (s : State) (h l : Nat) : List Nat := (List.range 256).filter (fun n => s.get (F.LPD_CTL_OWNER h n) == l)

/-! Migration (R277–R279). -/

/-- An armed migration ends without the switch (R278). -/
def State.migEnd (s : State) (h : Nat) : State :=
  match (s.ce h).mig with
  | some (_, dst) =>
    let s := s.setCe h { s.ce h with mig := none }
    (((s.put (F.CE_STAT_MIGPEND h) 0).put (F.CE_STAT_MIGRDY h) 0).raise (F.CE_STAT_MIGFAIL h)).setLnst h dst lnIdle
  | none => s

/-- Lane `l` leaves RUNNING and WAITING: a migration of its program ends. -/
def State.migLeave (s : State) (h l : Nat) : State :=
  match (s.ce h).mig with
  | some (src, _) => if src = l then s.migEnd h else s
  | none => s

/-- CLASS, DUR and QOUT of lane `src` given to lane `dst`. -/
def State.migConfig (s : State) (h src dst : Nat) : State :=
  ((s.put (F.LAN_CFG_CLASS h dst) (s.laneClass h src)).setWord (R.LAN_DUR h dst) (s.word (R.LAN_DUR h src))).setWord (R.LAN_QOUT h dst) (s.word (R.LAN_QOUT h src))

/-- OWNER of every loop of lane `src` becomes `dst`, and the tag of its queue advances (R41). -/
def State.migOwn (s : State) (h src dst : Nat) : State :=
  let s := (s.ownedLoops h src).foldl (fun s n => s.put (F.LPD_CTL_OWNER h n) dst) s
  if s.flag (F.LAN_QOUT_EN h src) then s.queTagAdvance (s.get (F.LAN_QOUT_QUEUE h src)) else s

/-- Both TCMs of lane `src` copied to lane `dst`. -/
def State.migCopy (s : State) (h src dst : Nat) : State := s.copyMem (instTcm h src) (instTcm h dst) 0x20000

/-- A write of CE_MIG (R277, R278, R595). -/
def State.wCeMig (s : State) (m : Master) (h v : Nat) : Acc2 :=
  let src := fieldOf (F.CE_MIG_SRC h) v
  let dst := fieldOf (F.CE_MIG_DST h) v
  if !s.isOwner m then (s, stNotOwner)
  else if wbit v 8 && wbit v 9 then okay (s.raise (F.CE_STAT_CFGERR h))
  else if wbit v 8 then
    let runs := s.lnst h src == lnRunning || s.lnst h src == lnWaiting
    if runs && s.lnst h dst == lnIdle && src != dst && (s.ce h).mig.isNone then
      let s := (s.plainWrite m (R.CE_MIG h) v).1
      let s := (s.migConfig h src dst).setCe h { s.ce h with mig := some (src, dst) }
      okay ((s.raise (F.CE_STAT_MIGPEND h)).put (F.CE_STAT_MIGRDY h) 0)
    else okay (s.raise (F.CE_STAT_MIGFAIL h))
  else
    let r := s.plainWrite m (R.CE_MIG h) v
    if wbit v 9 then (r.1.migEnd h, r.2) else r

/-- Both TCMs have been copied (R277). -/
def execMigrationCopyDone (t : Nat) (h : Fin 2) (s : State) : Host.Outcome State Fault Refusal :=
  let s := s.atTime t
  match (s.ce h).mig with
  | some (src, dst) => done (if s.flag (F.CE_STAT_MIGRDY h) then s else (s.migCopy h src dst).raise (F.CE_STAT_MIGRDY h))
  | none => done s

/-! Start, stop, watchdog (R260, R261, R279). -/

/-- Lane `l` may be configured: it is IDLE, HALTED, WDOG or MIGRATED (R281). -/
def State.laneFree (s : State) (h l : Nat) : Bool := !(s.lnst h l == lnPending || s.lnst h l == lnRunning || s.lnst h l == lnWaiting)

/-- Lane `l` is put in PENDING. -/
def State.lanePend (s : State) (h l : Nat) (restored migrated : Bool) : State :=
  (s.setLn h l { s.ln h l with staged := [], restored := restored, migrated := migrated, missed := 0, startAt := s.now }).setLnst h l lnPending

/-- Lane `l` stops in state `x`: its staged values are discarded, its ports keep the values in force, and RUNS stands until the next release (R259).
A lane that was to run or ran sets IPEND bit 7 (R243). -/
def State.laneStop (s : State) (h l x : Nat) : State :=
  let s := if s.laneFree h l then s else s.irqHalf h 7
  (((s.setLn h l { s.ln h l with staged := [] }).migLeave h l).setLnst h l x)

/-- The watchdog's move of the program to lane SPARE (R279). -/
def State.laneSpare (s : State) (h l : Nat) : State :=
  let spare := s.get (F.LAN_CFG_SPARE h l)
  let taken := match (s.ce h).mig with
    | some (_, dst) => dst == spare
    | none => false
  if s.lnst h spare == lnIdle && !taken then ((((s.migCopy h l spare).migConfig h l spare).migOwn h l spare).lanePend h spare false true)
  else s.raise (F.CE_STAT_MIGFAIL h)

/-- The lane watchdog expires: at OVLIM overruns, or when the lane stops under R240 (R260). -/
def State.laneExpire (s : State) (h l : Nat) (halted : Bool) : State :=
  let act := s.get (F.LAN_CFG_WDACT h l)
  let s := s.laneStop h l (if halted then lnHalted else lnWdog)
  let s := (s.event 0x9002 (lanePlace h l) (p0 := l) (p1 := act) (p2 := s.now / 50000 % 2 ^ 32)).irqHalf h 7
  match act with
  | 1 => s.halfFails h 2 (lanePlace h l)
  | 2 => s.laneSpare h l
  | _ => s

/-- A write of LAN_CTL (R261, R595). -/
def State.wLanCtl (s : State) (m : Master) (h l v : Nat) : Acc2 :=
  let st := s.lnst h l
  let refused := okay (s.raise (F.CE_STAT_CFGERR h))
  if !s.isOwner m then (s, stNotOwner)
  else if wbit v 0 && wbit v 1 then refused
  else if wbit v 0 then
    if st = lnPending ∨ st = lnRunning ∨ st = lnWaiting then refused else okay (s.lanePend h l false false)
  else if wbit v 1 then okay (s.laneStop h l lnIdle)
  else okay s

/-- A write of LAN_CFG (R281). -/
def State.wLanCfg (s : State) (m : Master) (h l v : Nat) : Acc2 :=
  s.plainWrite m (R.LAN_CFG h l) v (guard := s.laneFree h l || fieldOf (F.LAN_CFG_CLASS h l) v == s.laneClass h l)

/-- A write of LAN_DUR (R274, R281). -/
def State.wLanDur (s : State) (m : Master) (h l v : Nat) : Acc2 :=
  let len := fieldOf (F.LAN_DUR_DLEN h l) v
  s.plainWrite m (R.LAN_DUR h l) v (guard := s.laneFree h l && decide (len ≤ 128) && decide (fieldOf (F.LAN_DUR_DOFS h l) v + len ≤ 1004))

/-- A write of LAN_QOUT (R281). -/
def State.wLanQout (s : State) (m : Master) (h l v : Nat) : Acc2 := s.plainWrite m (R.LAN_QOUT h l) v (guard := s.laneFree h l)

/-- A write of CE_CLR (R280). -/
def State.wCeClr (s : State) (h v : Nat) : Acc2 :=
  if wbit v 0 then
    let s := (s.setWord (R.CE_PCONF h) 0).setWord (R.CE_OVCNT h) 0
    okay ((List.range 8).foldl (fun s l => (s.setWord (R.LAN_OVCNT h l) 0).setWord (R.LAN_MAXC h l) 0) s)
  else okay s

/-! Posting (R262, R263). -/

/-- Slots `j` on of the post area at `a`: how many entries stand, and whether all `n` slots up to NPOST are valid. -/
def State.postSlots (s : State) (q : Nat) (en : Bool) (a j : Nat) : Nat → State × Bool
  | 0 => (s, true)
  | n + 1 =>
    let w := s.readN (a + 32 * j) 4
    let len := bitField w 10 8
    if s.poisoned (a + 32 * j) 32 || decide (6 < len) then (s, false)
    else
      let s := if en then s.quePush q (w % 256) (s.readWords (a + 32 * j + 4) len) else s
      s.postSlots q en a (j + 1) n

/-- The post area of the pass just ended is drained, and its word 0 written zero (R263). -/
def State.postDrain (s : State) (h l : Nat) : State :=
  let o := 0xFB00 + (s.ln h l).parea * 0x200
  let a := dataTcm h l + o
  let count := s.readN a 4 % 32
  let r := if s.poisoned a 4 || decide (15 < count) then (s, false)
    else s.postSlots (s.get (F.LAN_QOUT_QUEUE h l)) (s.flag (F.LAN_QOUT_EN h l)) a 1 count
  let s := (r.1.raiseIf (!r.2) (F.LAN_STAT_POSTERR h l)).tcmWord h l o 0
  s.setLn h l { s.ln h l with posterr := !r.2 }

/-! The boundary block (R256). -/

/-- Its words: FLAGS is `flags`. -/
def State.boundaryWords (s : State) (flags missed : Nat) : List Nat :=
  [s.now / 50000, flags, s.now, s.now / 2 ^ 32, s.word R.FQI_STALE, s.word R.FQI_OVR, missed] ++ List.replicate 25 0
    ++ (List.range 32).map (fun k => s.word (R.FUS_HINST k))

/-- Lane `l` was captured at the boundary of this instant (R273). -/
def State.captured (s : State) (h l : Nat) : Bool := s.timed && (s.ce h).capAt == some s.now && wbit (s.ce h).capMask l

/-- The instant is an epoch boundary, so every lane's boundary now is a capture boundary (R273). -/
def State.atCapture (s : State) (h : Nat) : Bool := s.timed && (s.ce h).capAt == some s.now

/-- FLAGS of lane `l`. -/
def State.laneFlags (s : State) (h l : Nat) (first restored migrated : Bool) : Nat :=
  let x := s.ln h l
  bit first + bit restored * 2 + bit migrated * 4 + bit (x.missed != 0) * 8 + bit (s.captured h l) * 16 + x.parea % 2 * 32 + bit x.posterr * 64

/-- The boundary block written for lane `l`. -/
def State.writeBoundary (s : State) (h l : Nat) (first restored migrated : Bool) : State :=
  s.tcmWords h l 0xFF00 (s.boundaryWords (s.laneFlags h l first restored migrated) (s.ln h l).missed)

/-! Boundaries (R250–R259). -/

/-- Unit clock cycles of 4 ns that `d` nanoseconds of module time may be, for a free value `f` (R249, R250): the lane clock does not follow
HB_FADJ, and a boundary reaches the lane within one cycle. -/
def cyclesOf (d f : Nat) : Nat :=
  let slack := 1 + d / 20000
  d / 4 - slack + f % (2 * slack + 1)

/-- Cycles between a boundary and the release that it makes (R250). -/
def State.releaseDelay (s : State) (h l : Nat) : Nat := 32 + (if s.atCapture h then 4 * s.get (F.LAN_DUR_DLEN h l) else 0)

/-- Lane `l` is released: its cycle count is brought to the release, and it runs. -/
def State.laneGo (s : State) (h l : Nat) (latched : List (Nat × Nat × Bool)) : State :=
  let c := s.lanes.getD (h * 8 + l) {}
  let f := s.free
  let s := f.2
  let boundary := max c.cycles ((s.ln h l).bndCycle + cyclesOf (s.now - c.cycBase) f.1)
  let release := boundary + s.releaseDelay h l
  let s := s.modLane (h * 8 + l) (fun c => { c with cycles := release, cycBase := s.now })
  let s := s.setLn h l { s.ln h l with latched := latched, relCycle := release, bndCycle := boundary, missed := 0, restored := false, migrated := false, prev := [] }
  (s.put (F.LAN_STAT_RUNS h l) 0).setLnst h l lnRunning

/-- Lane `l`, in PENDING, starts at the boundary (R261, R276). -/
def State.laneFirst (s : State) (h l : Nat) (latched : List (Nat × Nat × Bool)) : State :=
  let s := s.modLane (h * 8 + l) (fun _ => { Cpu.fresh with cycBase := s.now, started := true })
  let s := (s.tcmWord h l 0xFB00 0).tcmWord h l 0xFD00 0
  let s := s.setLn h l { s.ln h l with parea := 0, posterr := false, bndCycle := 0, missed := 0, ovPend := false, trapAt := none }
  let x := s.ln h l
  let mine := (s.ce h).trackDue.filter (fun n => s.get (F.LPD_CTL_OWNER h n) == l)
  let s := if s.laneClass h l != 3 then
      mine.foldl (fun s n =>
        if s.flag (F.LPD_CTL_EN h n) && s.flag (F.LPD_CTL_MODE h n) && s.flag (F.LPD_CTL_TRK h n) then
          s.loopTrack h n ((assoc (s.get (F.LPD_TRKP_PORT h n)) latched).getD (0, false)).1
        else s) s
    else s
  let s := s.setCe h { s.ce h with trackDue := (s.ce h).trackDue.filter (fun n => !mine.contains n) }
  (s.writeBoundary h l true x.restored x.migrated).laneGo h l latched

/-- Lane `l`, in WAITING, is released at the boundary (R250, R262, R263). -/
def State.laneAgain (s : State) (h l : Nat) (migrated : Bool) (latched : List (Nat × Nat × Bool)) : State :=
  let s := s.postDrain h l
  let s := s.setLn h l { s.ln h l with parea := 1 - (s.ln h l).parea }
  (s.writeBoundary h l false false migrated).laneGo h l latched

/-- Steps 3 and 4 of a migration: the program of `src` goes on in `dst` (R277). -/
def State.migSwitch (s : State) (h src dst : Nat) (latched : List (Nat × Nat × Bool)) : State :=
  let from1 := s.lanes.getD (h * 8 + src) {}
  let s := s.modLane (h * 8 + dst) (fun c => { from1 with cycles := c.cycles, cycBase := c.cycBase })
  let s := s.setLn h dst { s.ln h src with bndCycle := (s.ln h dst).bndCycle, staged := [] }
  let s := s.migOwn h src dst
  let s := s.setCe h { s.ce h with mig := none, capMask := if wbit (s.ce h).capMask src then (s.ce h).capMask ||| 2 ^ dst else (s.ce h).capMask }
  let s := (s.put (F.CE_STAT_MIGPEND h) 0).put (F.CE_STAT_MIGRDY h) 0
  let s := (s.setLnst h src lnMigrated).tcmWord h src (0xFB00 + (s.ln h src).parea * 0x200) 0
  s.laneAgain h dst true latched

/-- Lane `l` takes the lane overrun exception (R241). -/
def State.laneOverrunTrap (s : State) (h l : Nat) : State :=
  let s := s.setLn h l { s.ln h l with ovPend := false }
  ((s.modLane (h * 8 + l) (fun c => c.enter c.pc (causeWord 6 0) 0)).raise (F.LAN_STAT_EXC h l)).irqHalf h 7

/-- Between two instructions of unit `u`: an overrun exception that stayed pending is taken once EXL is 0 (R237, R241). -/
def State.overrunDue (s : State) (u : Proc) : State :=
  match u with
  | .a _ => s
  | .l l => if (s.ln l.half l.lane).ovPend && !(s.cpu u).exl then s.laneOverrunTrap l.half l.lane else s

/-- Lane `l` has not executed BWT at its boundary (R258, R260, R241). Where a synchronous exception of this very instant came first, the overrun
exception stays pending (R237). -/
def State.laneOverrun (s : State) (h l : Nat) : State :=
  let s := s.setLn h l { s.ln h l with missed := (s.ln h l).missed + 1 }
  if s.now < (s.ln h l).startAt + 1000000 then s
  else
    let s := ((s.countSat (F.LAN_STAT_RUNS h l)).countSat (F.LAN_OVCNT_COUNT h l)).countSat (F.CE_OVCNT_COUNT h)
    let s := ((s.raise (F.LAN_STAT_OVR h l)).event 0x1001 (lanePlace h l) (p0 := l) (p1 := s.now / 50000 % 2 ^ 32)).irqHalf h 7
    let c := s.lanes.getD (h * 8 + l) {}
    let s :=
      if !s.flag (F.LAN_CFG_OVX h l) then s
      else if !c.exl then s.laneOverrunTrap h l
      else if (s.ln h l).trapAt == some s.now then s.setLn h l { s.ln h l with ovPend := true }
      else s
    if s.get (F.LAN_CFG_OVLIM h l) ≤ s.get (F.LAN_STAT_RUNS h l) then s.laneExpire h l false else s

/-- Staged values merged in the order given: a later write of a port prevails, and the overwritten ones are counted (R31). -/
def mergeStaged : List (Nat × Nat × Bool) → List (Nat × Nat × Bool) × Nat
  | [] => ([], 0)
  | e :: r => let m := mergeStaged r; if m.1.any (fun x => x.1 == e.1) then (m.1, m.2 + 1) else (e :: m.1, m.2)

/-- A port that carries the command word of a lane window: its data comes first (R427). -/
def windowCommand (p : Nat) : Bool := decide (0xA00 ≤ p) && decide (p < 0xC00) && p % 4 == 0

/-- The command of a lane window whose data of the same boundary reaches OBJ poisoned is ignored (R439). -/
def sendIgnored (bad : List Nat) (all : List (Nat × Nat × Bool)) (e : Nat × Nat × Bool) : Bool :=
  windowCommand e.1 && all.any (fun x => decide (e.1 < x.1) && decide (x.1 < e.1 + 3) && (x.2.2 || bad.contains x.1))

/-- Staged values in ascending order of their ports. -/
def insertPort (e : Nat × Nat × Bool) : List (Nat × Nat × Bool) → List (Nat × Nat × Bool)
  | [] => [e]
  | x :: r => if e.1 ≤ x.1 then e :: x :: r else x :: insertPort e r

/-- The staged values of the lanes `rel` take effect together (R252, R254, R31), in ascending order of their ports, so that
boost requests of one cycle join in that of their fingers (R313); the ports of `bad` reach their block poisoned. -/
def State.applyStaged (s : State) (h : Nat) (rel bad : List Nat) : State :=
  let m := mergeStaged (rel.flatMap (fun l => (s.ln h l).staged))
  let s := rel.foldl (fun s l => s.setLn h l { s.ln h l with staged := [] }) s
  let s := s.countSat (F.CE_PCONF_COUNT h) m.2
  let up := m.1.foldr insertPort []
  let order := up.filter (fun e => !windowCommand e.1) ++ up.filter (fun e => windowCommand e.1 && !sendIgnored bad up e)
  order.foldl (fun s e => s.portDeliver h e.1 e.2.1 (e.2.2 || bad.contains e.1)) s

/-- Pending bank swaps of the loops whose owner has a boundary now and is not in a pass (R270). -/
def State.applySwaps (s : State) (h : Nat) (due : List Nat) : State :=
  (List.range 256).foldl (fun s n =>
    if s.flag (loopBit h n 3) && due.contains (s.get (F.LPD_CTL_OWNER h n)) && s.lnst h (s.get (F.LPD_CTL_OWNER h n)) != lnRunning then s.swapApply h n
    else s) s

/-- Lanes in the order in which R31 ranks their port writes: that of `src` counts as lane `dst` at a migration's switch. -/
def rankLanes (sw : Option (Nat × Nat)) (rel : List Nat) : List Nat :=
  match sw with
  | some (src, dst) =>
    let others := rel.filter (fun l => l != src)
    others.filter (fun l => decide (l < dst)) ++ [src] ++ others.filter (fun l => decide (dst ≤ l))
  | none => rel

/-- Lane `l` passes a boundary of its class without release: counted when it has been released since its reset, where `counted` does not say that its
overrun was (R258), and the boundary block written; a pass still running may read a word of the block from either boundary (R256). -/
def State.lanePasses (s : State) (h l : Nat) (counted : Bool) : State :=
  let x := s.ln h l
  let released := (s.lanes.getD (h * 8 + l) {}).started
  let running := s.lnst h l == lnRunning
  let s := s.setLn h l { x with
    missed := if released && !counted then x.missed + 1 else x.missed
    prev := if running then s.readWords (dataTcm h l + 0xFF00) 64 else x.prev }
  s.writeBoundary h l false false false

/-- A boundary of half `h` at the module time now (R250–R259, R263, R270, R276, R277). A lane put in PENDING here by the watchdog starts at the next
boundary of the class it was given (R261, R279). The staged values of the ports `rejected` reach their block poisoned (R253), and the latched ones of the
ports `bad` meet a parity error on the way (R282). -/
def State.laneBoundary (s : State) (h : Nat) (rejected bad : List Nat) : State :=
  let s := s.setCe h { s.ce h with boundAt := some s.now }
  let due := s.dueLanes h (s.now / 50000)
  let held := (s.ce h).held
  let pending := if held then [] else due.filter (fun l => s.lnst h l == lnPending)
  let running := due.filter (fun l => s.lnst h l == lnRunning)
  let s := running.foldl (fun s l => s.laneOverrun h l) s
  let waiting := if held then [] else due.filter (fun l => s.lnst h l == lnWaiting)
  let sw := match (s.ce h).mig with
    | some (src, dst) => if s.flag (F.CE_STAT_MIGRDY h) && waiting.contains src then some (src, dst) else none
    | none => none
  let s := s.applyStaged h (rankLanes sw waiting) rejected
  let s := s.applySwaps h due
  let latched := s.latchAll h bad
  let s := waiting.foldl (fun s l =>
    match sw with
    | some (src, dst) => if l = src then s.migSwitch h src dst latched else s.laneAgain h l false latched
    | none => s.laneAgain h l false latched) s
  let s := pending.foldl (fun s l => s.laneFirst h l latched) s
  -- at a migration's switch the block of DST is that of its release, and SRC passes the boundary
  let passes := due.filter (fun l => match sw with
    | some (src, dst) => l == src || (l != dst && !waiting.contains l && !pending.contains l)
    | none => !waiting.contains l && !pending.contains l)
  passes.foldl (fun s l => s.lanePasses h l (running.contains l)) s

def execLaneBoundary (t : Nat) (h : Fin 2) (bad : List (BitVec 16 × Bool)) (s : State) : Host.Outcome State Fault Refusal :=
  let s := s.atTime t
  let fresh := match (s.ce h).boundAt with
    | some b => decide (b < s.now)
    | none => true
  done (if s.timed && s.now % 50000 == 0 && s.isActive h && !s.flushOver && fresh then s.laneBoundary h ((bad.filter (·.2)).map (·.1.toNat)) ((bad.filter (!·.2)).map (·.1.toNat))
    else s)

/-! Resets (R246, R283) and a half's power (R275, R488, R600). -/

/-- A block reset of LANl. -/
def State.lanReset (s : State) (h l : Nat) : State :=
  let s := s.laneStop h l lnIdle
  let s := s.modLane (h * 8 + l) (fun _ => { Cpu.fresh with cycBase := s.now })
  let s := (s.tcmWord h l 0xFB00 0).tcmWord h l 0xFD00 0
  ((s.setLn h l {}).clearRegs (R.LAN_CFG h l) (R.LAN_CFG h l + 0x10000)).ceRefresh h

/-- A block reset of CE. -/
def State.ceReset (s : State) (h : Nat) : State :=
  let s := (List.range 8).foldl (fun s l => s.lanReset h l) s
  let s := s.lphControls h
  (s.clearRegs (R.CE_STAT h) (R.CE_STAT h + 0x20)).setCe h { s.ce h with mig := none }

/-- Everything in half `h` at its reset values, its cores and lanes stopped and its DRAM and TCMs lost (R246, R275, R484). -/
def State.halfClear (s : State) (h : Nat) : State :=
  let s := s.clearRegs (halfBase h) (halfBase h + 0x1000000)
  let s := (s.blit (h * 2 ^ 32) (2 ^ 32) []).blit (halfBase h + 0x1000000) 0x1000000 []
  let s := (List.range 8).foldl (fun s l => (s.modLane (h * 8 + l) (fun _ => { Cpu.fresh with cycBase := s.now })).setLn h l {}) s
  let s := (List.range 4).foldl (fun s c => s.modACore (h * 4 + c) (fun _ => { Cpu.fresh with cycBase := s.clock })) s
  s.setCe h {}

/-- Bytes as a table from offset 0, those that are zero left out. -/
def bytesFrom (o : Nat) : List Byte → List (Nat × Byte)
  | [] => []
  | b :: r => if b = 0 then bytesFrom (o + 1) r else (o, b) :: bytesFrom (o + 1) r

/-- Both TCMs of every lane of half `h` loaded from the lane bundle; lanes that it does not name are zero (R600). -/
def State.bundleLoad (s : State) (h : Nat) (bundle : List LaneImage) : State :=
  bundle.foldl (fun s i =>
    (s.blit (instTcm h i.lane) 0x10000 (bytesFrom 0 i.inst)).blit (dataTcm h i.lane) 0x10000 (bytesFrom 0 i.data)) (s.blit (halfBase h + 0x1000000) 0x100000 [])

end Sys2Proof.Machine
end

