-- ==== Sys2Proof/Machine/Journal.lean ====
section
/-! DEFINITION. Epochs, the checkpoint journal and the restore (spec/14_halves_failover.md R476–R484, R490, R491,
spec/07_control_lanes_loops.md R273–R276). -/

namespace Sys2Proof.Machine

/-- The state with the journal's own part at `x`. -/
def State.withJnl (s : State) (x : Journal) : State := { s with jnl := x }

/-! Slots (R478). -/

/-- The address of journal slot `i`, its size up to the commit record. -/
def slotBase (i : Nat) : Nat := 0x300000000 + i * 0x30000
def slotBody : Nat := 0x2FFC0

/-- The part of a slot image from offset `o`, `n` bytes. -/
def imagePart (o n : Nat) (img : List (Nat × Byte)) : List (Nat × Byte) := img.filter (fun e => decide (o ≤ e.1) && decide (e.1 < o + n))

/-- `n` bytes of memory from `a` as a part of a slot image at offset `o`. -/
def State.memPart (s : State) (a n o : Nat) : List (Nat × Byte) := (sparseCut a n s.mem).map (fun e => (e.1 + o, e.2))

/-- The A-core durable regions: offset in half DRAM and bytes of each (R482). -/
def State.regions (s : State) : List (Nat × Nat) := (List.range 8).map (fun k => (s.get (F.ROLE_DRB_OFS k) * 64, s.get (F.ROLE_DRL_LEN k) * 64))

/-- The regions with their place in the packed section: (offset in DRAM, bytes, slot offset). -/
def packRegions (o : Nat) : List (Nat × Nat) → List (Nat × Nat × Nat)
  | [] => []
  | (a, n) :: r => (a, n, o) :: packRegions (o + n) r

/-- LAN_DUR of a lane: offset and bytes of its durable region. -/
def State.durable (s : State) (h l : Nat) : Nat × Nat := (s.get (F.LAN_DUR_DOFS h l) * 64, s.get (F.LAN_DUR_DLEN h l) * 64)

/-- The 128 bytes of a loop descriptor. -/
def State.loopBytes (s : State) (h n : Nat) : List Byte := (List.range 32).flatMap (fun k => leBytes 4 (s.word (R.LPD_CTL h n + k * 4)))

/-- An entry of the held-response list (R479). -/
def HeldResp.bytes (x : HeldResp) : List Byte :=
  leBytes 8 x.frame.mid ++ leBytes 4 x.frame.tid ++ leBytes 4 x.frame.type ++ leBytes 8 x.epoch ++ leBytes 8 0

/-- The outputs in force (R478). -/
def State.outputBytes (s : State) : List Byte :=
  (List.range 32).flatMap (fun n => leBytes 4 (s.fng n).code) ++ (List.range 8).flatMap (fun p => leBytes 4 (s.get (F.PLM_STAT_CMD p)))
    ++ (List.range 16).flatMap (fun n => leBytes 4 (s.get (F.LDS_STAT_CMD n)))

/-- The queue positions (R478). -/
def State.queueBytes (s : State) : List Byte :=
  (List.range 128).flatMap (fun q => leBytes 2 (s.get (F.QUE_PIDX_PIDX q)) ++ leBytes 2 (s.get (F.QUE_CIDX_CIDX q)) ++ leBytes 4 (s.get (F.QUE_TAG_CUR q)))

/-- The word at offset `o` of a slot image. -/
def imageWord (o : Nat) (img : List (Nat × Byte)) : Nat := ((imagePart o 4 img).map (fun e => e.2.toNat * 256 ^ (e.1 - o))).sum

/-- A lane record (R478), `dur` its LAN_DUR: that of the capture whose region the slot holds (R273). -/
def State.laneRecord (s : State) (h l dur : Nat) : List Byte :=
  leBytes 4 (s.word (R.LAN_CFG h l)) ++ leBytes 4 dur ++ leBytes 4 (s.word (R.LAN_QOUT h l)) ++ leBytes 4 (s.lnst h l)
    ++ leBytes 4 (s.word (R.CE_MIG h)) ++ leBytes 12 0

/-- SETID of the A-image in the program store that the half runs. -/
def State.setId (s : State) (h : Nat) : Nat := s.readN (psBase (s.psSlot (s.role.trial.getD h false)) + 20) 4

/-- The descriptor of loop `n` is copied at a capture of the lanes `caps` (R273). -/
def State.loopCopied (s : State) (h : Nat) (caps : List Nat) (n : Nat) : Bool := !s.flag (F.LPD_CTL_EN h n) || caps.contains (s.get (F.LPD_CTL_OWNER h n))

/-- The slot image of epoch `k` at the boundary of now: `caps` the lanes copied, `skips` those with CAPSKIP (R273, R477, R478). -/
def State.slotImage (s : State) (h k : Nat) (pfail : Bool) (caps skips : List Nat) : List (Nat × Byte) :=
  let mask (l : List Nat) : Nat := (l.map (fun x => 2 ^ x)).sum
  let packed := packRegions 0x1C700 s.regions
  let old := s.jnl.image
  let header := leBytes 4 0x4B484A53 ++ leBytes 4 0 ++ leBytes 8 k ++ leBytes 8 s.now ++ leBytes 4 (s.now / 50000) ++ leBytes 4 s.jnl.ems
    ++ leBytes 4 (h + 1 + bit pfail * 2 ^ 8) ++ leBytes 4 (mask caps) ++ leBytes 4 (mask skips) ++ leBytes 4 ((s.regions.map (·.2)).sum) ++ leBytes 4 (s.setId h)
  let loops := (List.range 256).flatMap (fun n =>
    if s.loopCopied h caps n then bytesFrom (0x100 + n * 0x80) (s.loopBytes h n)
    else imagePart (0x100 + n * 0x80) 0x80 old)
  let lanes := (List.range 8).flatMap (fun l =>
    if caps.contains l then s.memPart (dataTcm h l + (s.durable h l).1) (s.durable h l).2 (0x8100 + l * 0x2000)
    else imagePart (0x8100 + l * 0x2000) 0x2000 old)
  let records := bytesFrom 0x18100 ((List.range 8).flatMap (fun l =>
    s.laneRecord h l (if caps.contains l then s.word (R.LAN_DUR h l) else imageWord (0x18104 + l * 0x20) old)))
  let held := ((s.net.heldResps.filter (fun x => decide (x.epoch ≤ k))).take 512).flatMap HeldResp.bytes
  bytesFrom 0 header ++ loops ++ lanes ++ records ++ bytesFrom 0x18200 s.outputBytes ++ bytesFrom 0x18300 s.queueBytes ++ bytesFrom 0x18700 held
    ++ packed.flatMap (fun r => s.memPart (h * 2 ^ 32 + r.1) r.2.1 r.2.2)

/-- The parts of the checkpoint that hold poison after a capture of the lanes `caps`: those copied now that meet it, and earlier ones not copied anew
(R45, R481). -/
def State.badAfter (s : State) (h : Nat) (caps : List Nat) : List Nat :=
  let lanes := (List.range 8).filter (fun l =>
    if caps.contains l then s.poisoned (dataTcm h l + (s.durable h l).1) (s.durable h l).2 else s.jnl.badParts.contains l)
  let loops := (List.range 256).filter (fun n => if s.loopCopied h caps n then s.loopPoisoned h n else s.jnl.badParts.contains (8 + n))
  let regions := s.regions.zipIdx.filter (fun r => s.poisoned (h * 2 ^ 32 + r.1.1) r.1.2)
  lanes ++ loops.map (8 + ·) ++ regions.map (264 + ·.2)

/-! Boundaries and commits (R476, R477, R480, R481). -/

/-- Epochs are captured: the journal is enabled, the active half has booted and module time runs. -/
def State.journalRuns (s : State) : Bool := s.timed && s.flag F.ROLE_JCFG_EN && s.role.bootAt.isSome

/-- The open epoch gets no commit record. -/
def State.noCommit (s : State) : State :=
  match s.jnl.pend with
  | none => s
  | some _ => (((s.raise F.ROLE_JSTAT_NOCOMMIT).countSat F.ROLE_JSTAT_SKIP).put F.ROLE_JSTAT_BUSY 0).withJnl { s.jnl with pend := none, bad := false }

/-- The lanes of half `h` with a boundary now. -/
def State.dueNow (s : State) (h : Nat) : List Nat := s.dueLanes h (s.now / 50000)

/-- Epoch `k` is captured at the boundary of now, and its slot written without a commit record. -/
def State.capture (s : State) (h : Nat) (pfail swap : Bool) : State :=
  let s := s.noCommit
  let k := s.jnl.next
  let caps := (s.dueNow h).filter (fun l => s.lnst h l == lnWaiting)
  let skips := (s.dueNow h).filter (fun l => s.lnst h l != lnWaiting)
  let bad := s.badAfter h caps
  let img := s.slotImage h k pfail caps skips
  let s := skips.foldl (fun s l => s.raise (F.LAN_STAT_CAPSKIP h l)) s
  let s := s.setCe h { s.ce h with capAt := some s.now, capMask := (caps.map (fun l => 2 ^ l)).sum }
  let s := ((s.blit (slotBase (k % 64)) 0x30000 img).dmaWrote (slotBase (k % 64)) 16).raise F.ROLE_JSTAT_BUSY
  s.withJnl { s.jnl with next := k + 1, ems := s.get F.ROLE_JCFG_EMS, bound := some s.now, pend := some (k, s.now, pfail, swap), bad := !bad.isEmpty, badParts := bad, image := img, final := pfail }

/-- The 64 bytes of a commit record (R480). -/
def commitRecord (scrc k bound half : Nat) (pfail swap : Bool) : List Byte :=
  let body := leBytes 4 0x434D5431 ++ leBytes 4 scrc ++ leBytes 8 k ++ leBytes 8 bound ++ leBytes 4 (half + bit pfail * 2 ^ 8 + bit swap * 2 ^ 9) ++ leBytes 32 0
  body ++ leBytes 4 (crc32c body).toNat

/-- The open epoch can commit: no poison, and a heartbeat later than its boundary (R481). -/
def State.commitReady (s : State) : Bool :=
  match s.jnl.pend, s.role.hbAt with
  | some (_, b, _, _), some x => !s.jnl.bad && decide (b < x)
  | _, _ => false

/-- The commit record of the open epoch is written, and LMP sends what it held for it (R459, R480, R481). -/
def State.commit (s : State) (h : Nat) : State :=
  match s.jnl.pend with
  | none => s
  | some (k, b, pfail, swap) =>
    let a := slotBase (k % 64)
    let s := (s.writeBytes (a + slotBody) (commitRecord (crc32c (s.readBytes a slotBody)).toNat k b (h + 1) pfail swap)).dmaWrote (a + slotBody) 64
    let s := ((s.put64 R.ROLE_CEP_LO R.ROLE_CEP_HI k).put F.ROLE_JSTAT_BUSY 0).withJnl { s.jnl with pend := none }
    s.lampRelease k

/-- ROLE_JSTAT:ACOPY: the copy of the A-core regions takes up to 10 µs from the boundary (R477); the flag is a free value meanwhile. -/
def State.acopy (s : State) (f : Nat) : Nat :=
  match s.jnl.pend with
  | some (_, b, _, _) => if s.now < b + 10000 then f % 2 else 0
  | none => 0

/-! The epoch to restore (R480, R490). -/

/-- The epoch of slot `i`, when its commit record is valid and no part of it is poisoned. -/
def State.slotEpoch (s : State) (i : Nat) : Option Nat :=
  let a := slotBase i
  let r := a + slotBody
  let k := s.readN (r + 8) 8
  if s.readN r 4 == 0x434D5431 && k % 64 == i && s.readN (a + 8) 8 == k && s.readN (a + 16) 8 == s.readN (r + 16) 8 && !s.poisoned a 0x30000
      && s.readN (r + 60) 4 == (crc32c (s.readBytes r 60)).toNat && s.readN (r + 4) 4 == (crc32c (s.readBytes a slotBody)).toNat then some k
  else none

/-- The slot with the highest valid epoch, and that epoch. -/
def State.bestSlot (s : State) : Option (Nat × Nat) :=
  (List.range 64).foldl (fun b i =>
    match s.slotEpoch i, b with
    | some k, some (j, m) => if m < k then some (i, k) else some (j, m)
    | some k, none => some (i, k)
    | none, b => b) none

/-- The number of the first epoch after the highest committed one (R476, R483). -/
def State.nextEpoch (s : State) : Nat :=
  match s.bestSlot with
  | some (_, k) => k + 1
  | none => 1

/-- A write of ROLE_JCFG (R476). -/
def State.wRoleJcfg (s : State) (m : Master) (v : Nat) : Acc2 :=
  let was := s.flag F.ROLE_JCFG_EN
  let r := s.plainWrite m R.ROLE_JCFG v (guard := decide (1 ≤ fieldOf F.ROLE_JCFG_EMS v) && decide (fieldOf F.ROLE_JCFG_EMS v ≤ 100))
  let s := r.1
  let on := s.flag F.ROLE_JCFG_EN
  let s :=
    if on && !was then s.withJnl { s.jnl with next := s.nextEpoch, ems := s.get F.ROLE_JCFG_EMS, bound := none, image := [], badParts := [] }
    else if was && !on then (s.put F.ROLE_JSTAT_BUSY 0).withJnl { s.jnl with pend := none, bad := false, bound := none }
    else s
  (s, r.2)

/-- A write of ROLE_DRL{k} (R482). -/
def State.wRoleDrl (s : State) (m : Master) (k v : Nat) : Acc2 :=
  let others := (((List.range 8).filter (· != k)).map (fun j => s.get (F.ROLE_DRL_LEN j))).sum
  s.plainWrite m (R.ROLE_DRL k) v (guard := decide (others + fieldOf (F.ROLE_DRL_LEN k) v ≤ 1216))

/-! The restore (R491). -/

/-- The queues that field blocks produce into now: each enable bit with its queue. -/
def State.fieldQueues (s : State) : List Nat :=
  let named : List (Fld × Fld) :=
    [(F.HB_CAPQ_EN, F.HB_CAPQ_QUEUE), (F.FUS_HQ_EN, F.FUS_HQ_QUEUE), (F.YT_CFG_QEN, F.YT_CFG_QUEUE), (F.GNB_CFG_SQEN, F.GNB_CFG_SQUEUE),
     (F.GNB_CFG_NQEN, F.GNB_CFG_NQUEUE), (F.IMU_CFG_QEN, F.IMU_CFG_QUEUE), (F.MSG_CFG_RXEN, F.MSG_CFG_RXQ), (F.MSG_CFG_EVEN, F.MSG_CFG_EVQ),
     (F.ETH_TSQ_EN, F.ETH_TSQ_QUEUE)]
    ++ (List.range 8).map (fun c => (F.VSC_NQ_EN c, F.VSC_NQ_QUEUE c)) ++ (List.range 8).map (fun n => (F.HRA_Q_SQEN n, F.HRA_Q_SQUEUE n))
    ++ (List.range 8).map (fun n => (F.HRA_Q_IQEN n, F.HRA_Q_IQUEUE n)) ++ (List.range 4).map (fun n => (F.GPA_LCFG_QEN n, F.GPA_LCFG_QUEUE n))
    ++ (List.range 24).map (fun n => (F.FQI_CFG_EQEN n, F.FQI_CFG_EQUEUE n)) ++ (List.range 4).map (fun g => (F.FUS_GFILL_SQEN g, F.FUS_GFILL_SQUEUE g))
    ++ (List.range 2048).map (fun n => (F.OBJ_CTL_QEN n, F.OBJ_CTL_QUEUE n))
  (named.filter (fun e => s.flag e.1)).map (fun e => s.get e.2)

/-- Queue `q` is consumed by a field block: MSG's request queue. -/
def State.fieldConsumes (s : State) (q : Nat) : Bool := s.flag F.MSG_CFG_TXEN && s.get F.MSG_CFG_TXQ == q

/-- Step 3 for a queue that a half produces: PIDX goes back to `p`, unless CIDX lies beyond it; the tag advances (R41, R491). -/
def State.queProducer (s : State) (q p : Nat) : State :=
  let c := s.get (F.QUE_CIDX_CIDX q)
  let d := (c + 2 ^ 16 - p) % 2 ^ 16
  let s := s.queTagAdvance q
  (s.put (F.QUE_PIDX_PIDX q) (if d ≠ 0 ∧ d ≤ s.queN q then c else p)).queRefresh q

/-- The tag of every queue whose producer is in a half advances: a takeover that restores nothing (R41, R490). -/
def State.halfTags (s : State) : State :=
  let field := s.fieldQueues
  (List.range 128).foldl (fun s q => if field.contains q then s else s.queTagAdvance q) s

/-- Step 3 for a queue that a half consumes: CIDX goes back to `c`, unless the ring has passed it (R491). -/
def State.queConsumer (s : State) (q c : Nat) : State :=
  let p := s.get (F.QUE_PIDX_PIDX q)
  let d := (p + 2 ^ 16 - c) % 2 ^ 16
  if d ≤ s.queN q then (s.put (F.QUE_CIDX_CIDX q) c).queRefresh q
  else ((s.put (F.QUE_CIDX_CIDX q) (p + 2 ^ 16 - s.queN q)).queDrop q (d - s.queN q)).queRefresh q

/-- Every queue at a restore, `slot` the address of the slot: the consumer's position first, as R491 writes them (log 43). -/
def State.restoreQueues (s : State) (slot : Nat) : State :=
  let field := s.fieldQueues
  (List.range 128).foldl (fun s q =>
    let a := slot + 0x18300 + q * 8
    let p := s.readN a 2
    let c := s.readN (a + 2) 2
    let s := if s.fieldConsumes q then s else s.queConsumer q c
    if field.contains q then s else s.queProducer q p) s

/-- Step 1: lane records and durable regions of half `h`. -/
def State.restoreLane (s : State) (h slot l : Nat) : State :=
  let a := slot + 0x18100 + l * 0x20
  let s := ((s.setWord (R.LAN_CFG h l) (s.readN a 4)).setWord (R.LAN_DUR h l) (s.readN (a + 4) 4)).setWord (R.LAN_QOUT h l) (s.readN (a + 8) 4)
  let s := s.setWord (R.CE_MIG h) (s.readN (a + 16) 4)
  s.copyMem (slot + 0x8100 + l * 0x2000) (dataTcm h l + (s.durable h l).1) (s.durable h l).2

/-- Step 2: a descriptor, with RESTORED and FIRST set (R276). -/
def State.restoreLoop (s : State) (h slot n : Nat) : State :=
  let a := slot + 0x100 + n * 0x80
  let s := (List.range 32).foldl (fun s k => s.setWord (R.LPD_CTL h n + k * 4) (s.readN (a + k * 4) 4)) s
  (s.raise (loopBit h n 9)).raise (loopBit h n 4)

/-- The restore of epoch `k` from the slot at address `slot` into half `h` (R491); the presets of R276 are then due at each lane's first release. -/
def State.restore (s : State) (h slot k : Nat) : State :=
  let s := s.dmaRead slot
  let s := (List.range 8).foldl (fun s l => s.restoreLane h slot l) s
  let s := (List.range 256).foldl (fun s n => s.restoreLoop h slot n) s
  let s := s.setCe h { s.ce h with
    trackDue := (List.range 256).filter (fun n => s.flag (F.LPD_CTL_EN h n) && s.flag (F.LPD_CTL_MODE h n) && s.flag (F.LPD_CTL_TRK h n)) }
  let s := (packRegions 0x1C700 s.regions).foldl (fun s r => s.copyMem (slot + r.2.2) (h * 2 ^ 32 + r.1) r.2.1) s
  let s := ((s.restoreQueues slot).lampRelease k).lampDiscard
  s.withJnl { s.jnl with next := k + 1, bound := none, pend := none, image := s.memPart slot slotBody 0, badParts := [] }

/-- The lanes that the slot records as RUNNING or WAITING (R276). -/
def State.slotLanes (s : State) (slot : Nat) : List Nat :=
  (List.range 8).filter (fun l => s.readN (slot + 0x18100 + l * 0x20 + 12) 4 == lnRunning || s.readN (slot + 0x18100 + l * 0x20 + 12) 4 == lnWaiting)

end Sys2Proof.Machine
end

