-- ==== Sys2Proof/Machine/Beanie.lean ====
section
/-! DEFINITION. The entry to Beanie (spec/15_reset_power_startup.md R530; spec/01_harvest_architecture.md R20;
spec/14_halves_failover.md R502). -/

namespace Sys2Proof.Machine

/-- The power die opens every switch, turns the ports off and stops the chargers, as its flags now say (R519, R520, R522). -/
def State.powerOff (s : State) (note : Bool) : State := ((((s.fingersOff note).loadsOff note).portsTurn).chargersTurn)

/-- Steps 4 and 5 of a flush: the event buffer to the MRAM log, and but in Beanie the coil models (R522, R524). -/
def State.flushSaves (s : State) : State :=
  let s := s.flushLog
  if s.inBeanie then s else s.coilSave

/-- Beanie begins, the final commit made: the event buffer flushed and the coil models kept, every output off, both halves and all but the
blocks of R20 powered down (R20, R326, R354, R377, R396, R530). -/
def State.beanieIn (s : State) : State :=
  let s := s.coilSave
  let s := if s.flag F.EVR_STAT_FROZEN then s else s.flushLog
  let s : State := { s with inBeanie := true, evr := { s.evr with running := false }, rst := { s.rst with entering := false, faultN := false } }
  let s := ((s.powerOff false).drain 0).drain 1
  let s := (((s.halfClear 0).halfClear 1).portGone.put F.ROLE_STAT_ACTIVE 0).put F.ROLE_STAT_SBST 0
  let s := s.withRole { s.role with booting := none, bootAt := none, hbAt := none, beatAt := none, srcs := [], swapB := none }
  (s.withJnl { s.jnl with pend := none, bad := false, image := [], badParts := [] }).gnbBeanie

end Sys2Proof.Machine
end

