-- ==== Sys2Proof/Machine/Role.lean ====
section
/-! DEFINITION. The role arbiter ROLE and the health monitors HMN: detection, takeover, restart, self-test, swap
(spec/14_halves_failover.md R474–R476, R481, R485–R494, R498–R501, R503, R505). -/

namespace Sys2Proof.Machine

def rolePlace : Nat := fieldBlock 0 3

/-- HMN of half `h`. -/
def hmnPlace (h : Nat) : Nat := halfBlock h 2 0

/-! The standby's state (ROLE_STAT:SBST). -/

def sbOff : Nat := 0
def sbTest : Nat := 1
def sbBoot : Nat := 2
def sbReady : Nat := 3

/-- ROLE_STAT:SBST. -/
def State.sbst (s : State) : Nat := s.get F.ROLE_STAT_SBST

/-- ROLE_STAT:SBST set. -/
def State.setSbst (s : State) (x : Nat) : State := s.put F.ROLE_STAT_SBST x

/-- FAULT_N driven low, or released (R475, R529). -/
def State.setFaultN (s : State) (low : Bool) : State := { s with rst := { s.rst with faultN := low } }

/-- Half `h` runs the trial A-image, or not. -/
def State.setTrial (s : State) (h : Nat) (x : Bool) : State := s.withRole { s.role with trial := s.role.trial.set h x }

/-- The standby is powered down: what it holds is lost (R20, R484, R494, R498). -/
def State.standbyOff (s : State) (h : Nat) : State := ((s.halfClear h).setTrial h false).setSbst sbOff

/-- The A-cores of half `h` start after its boot; where the A-image starts them is a free value (log 8). -/
def State.coresStart (s : State) (h : Nat) : State :=
  (List.range 4).foldl (fun s c =>
    let f := s.free
    f.2.modACore (h * 4 + c) (fun _ => { Cpu.fresh with cycBase := s.clock, started := true, pc := BitVec.ofNat 64 (f.1 % 2 ^ 46 * 4) })) s

/-- Half `h` is active and its boot is complete: heartbeats and watchdogs run from now (R485, R486). -/
def State.halfStarts (s : State) (h : Nat) : State :=
  let s := (s.coresStart h).raise (F.HMN_STAT_HB h)
  s.withRole { s.role with bootAt := some s.clock, hbAt := some s.now, beatAt := none, booting := none, kicks := s.role.kicks.map (fun _ => s.clock), srcs := [], testBase := s.clock }

/-! Isolation and NOHALF (R488, R493). -/

/-- Half `h` is cut off and held in reset; its open epoch gets no commit record. -/
def State.isolate (s : State) (h : Nat) : State :=
  let s := (s.noCommit).halfClear h
  let s := s.withJnl { s.jnl with image := [], badParts := [], bound := none }
  ((s.put F.ROLE_STAT_ACTIVE 0).portGone).withRole { s.role with bootAt := none, hbAt := none, beatAt := none, failed := h }

/-- NOHALF is entered. -/
def State.enterNohalf (s : State) : State :=
  let s := (s.halfClear 0).halfClear 1
  let s := ((((s.put F.ROLE_STAT_ACTIVE 0).portGone).setSbst sbOff).setRole rNohalf).setFaultN true
  (s.withRole { s.role with booting := none, bootAt := none, hbAt := none, beatAt := none }).event 0xA009 rolePlace

/-! Detection (R487, R488, R493, R501). -/

/-- The source of lowest code among those raised. -/
def lowestSource : List (Nat × Nat) → Nat × Nat
  | [] => (0, 0)
  | [e] => e
  | e :: r => let m := lowestSource r; if e.1 ≤ m.1 then e else m

/-- SRC, SRCS, ROLE_LAST and the event record the sources raised. -/
def State.recordSources (s : State) : State :=
  let l := s.role.srcs
  let src := lowestSource l
  let mask := (List.range 8).foldl (fun m c => if l.any (fun e => e.1 == c + 1) then m + 2 ^ c else m) 0
  let fcode := if l.any (fun e => e.1 == 6) then s.role.fcode else 0
  let s := ((s.put F.ROLE_STAT_SRC src.1).put F.ROLE_SRCS_MASK mask).setWord R.ROLE_LAST src.2
  s.event 0xA005 rolePlace (p1 := src.1 + fcode * 2 ^ 16) (p2 := mask * 2)

/-- The self-test that runs ends without a result (R489, R501). -/
def State.testEnds (s : State) (h : Nat) : State :=
  if s.sbst = sbTest then (s.put (F.ROLE_HEALTH_RUNNING (h + 1)) 0).setSbst sbOff else s

/-- Half `h` boots to take over, or to restart, in role state `st`. -/
def State.recover (s : State) (h st : Nat) (ready : Bool) : State :=
  let s := ((s.countSat F.ROLE_FCNT_FAIL).setRole st).setFaultN true
  let s := if st = rTakeover then s.setSbst (if ready then sbReady else sbBoot) else s
  s.withRole { s.role with booting := some h, detectAt := s.clock, swapB := none }

/-- The sources raised are acted on. -/
def State.detectSource (s : State) : State :=
  let st := s.roleState
  let drop (s : State) : State := s.withRole { s.role with srcs := [] }
  match s.active, s.role.booting with
  | some h, _ =>
    let s := drop s.recordSources
    let ready := st == rSwap && s.sbst == sbReady
    let s := ((s.testEnds (1 - h)).isolate h).setCe h { s.ce h with held := false }
    if st = rNormal ∨ st = rSwap then ((s.mitEngage).recover (1 - h) rTakeover ready)
    else
      let again := match s.role.restartAt with
        | some a => decide (s.clock < a + 60000000000)
        | none => false
      let s := s.mitEngage
      if again then s.enterNohalf
      else
        let s := s.recover h rRestart false
        s.withRole { s.role with restartAt := some s.clock }
  | none, some _ => (drop s.recordSources).enterNohalf
  | none, none => drop s

/-- Parity escalation of a half that is neither active nor booting: no failover source, but an event of the standby (R485). -/
def State.standbySources (s : State) : State :=
  let other (e : Nat × Nat) : Bool := e.1 == 4 && (match s.active, s.role.booting with
    | some h, _ | none, some h => bitField e.2 31 28 != h + 1
    | none, none => false)
  let l := s.role.srcs.filter other
  l.foldl (fun s e => s.halfFails (bitField e.2 31 28 - 1) 4 e.2) (s.withRole { s.role with srcs := s.role.srcs.filter (fun e => !other e) })

def execFailoverDetect (t : Nat) (s : State) : Host.Outcome State Fault Refusal :=
  let s := (s.atTime t).standbySources
  done (if s.role.srcs.isEmpty then s else if s.flag F.RST_STAT_FLUSH then s.withRole { s.role with srcs := [] }
    else if s.rst.entering then s.beanieIn else s.detectSource)

/-! The end of a takeover, a restart in place or a swap (R489–R494, R499). -/

/-- The A-image is chosen and the lane bundle loaded, unless the half is READY in a swap with the image it would choose: none where no
image verifies (R489 steps 3 to 5, R561, R563). -/
def State.recoverBoot (s : State) (h : Nat) (img : BootImages) : State × Bool :=
  let fell := s.role.trial.getD s.role.failed false && s.roleState != rSwap && s.flag (F.UPD_KSTAT_TRY 1)
  if s.sbst = sbReady ∧ !fell then (s, true)
  else
    let s := if fell then s.imgFallback 1 else s
    match s.imgBoot 1 img with
    | (s, none) => (s, false)
    | (s, some trial) => ((s.setTrial h trial).bundleLoad h (s.laneBundle trial img), true)

/-- The epoch to restore is chosen and restored; the lanes to start. -/
def State.recoverState (s : State) (h : Nat) : State × List Nat :=
  match s.bestSlot with
  | some (i, k) => (s.restore h (slotBase i) k, s.slotLanes (slotBase i))
  | none => (((s.lampDiscard).halfTags).event 0x2006 rolePlace, [])

/-- Half `h` is named active: switch port 3, internal ownership, lanes, cores (R489 steps 7 and 8). -/
def State.nameActive (s : State) (h : Nat) (lanes : List Nat) : State :=
  let s := (s.put F.ROLE_STAT_ACTIVE (h + 1)).raiseIf (s.role.failed != h) F.ROLE_STAT_CHG
  let s := (s.withNet { s.net with port3 := some h }).ownTakeover h
  let s := lanes.foldl (fun s l => s.lanePend h l true false) s
  ((s.halfStarts h).put (F.ROLE_HEALTH_IMGOK (h + 1)) 1).irqHalf h 6

/-- Steps 4 to 8 of R489 on half `h`. -/
def State.recovered (s : State) (h : Nat) (img : BootImages) : State :=
  let old := s.role.failed
  let st := s.roleState
  let t0 := s.role.detectAt
  let boot := s.recoverBoot h img
  let tried := boot.1.putB (F.ROLE_HEALTH_IMGOK (h + 1)) boot.2
  if !boot.2 || decide (t0 + 150000000 < s.clock) then tried.enterNohalf
  else
    let r := tried.recoverState h
    let s := ((r.1.nameActive h r.2).setSbst sbOff).setTrial old (if old = h then r.1.role.trial.getD h false else false)
    let s := s.setWord R.ROLE_TKT (nearest (s.clock - t0) 1000)
    let s :=
      if st = rSwap then (s.put F.ROLE_STAT_SRC 8).countSat F.ROLE_FCNT_SWAPS
      else if st = rTakeover then (s.put (F.ROLE_HEALTH_OK (old + 1)) 0).countSat (F.ROLE_HEALTH_FAILS (old + 1))
      else s
    ((s.setFaultN false).setRole rSingle).roleSettle

def execTakeoverComplete (t : Nat) (img : BootImages) (s : State) : Host.Outcome State Fault Refusal :=
  let s := s.atTime t
  match s.role.booting with
  | some h => done (s.recovered h img)
  | none => done s

/-! Heartbeats and watchdogs (R485, R486, R505). -/

/-- The heartbeat of this millisecond has been sent. -/
def State.beatSent (s : State) : Bool :=
  match s.role.beatAt with
  | some b => b / 1000000 == s.now / 1000000
  | none => false

def execHeartbeat (t : Nat) (s : State) : Host.Outcome State Fault Refusal :=
  let s := s.atTime t
  match s.active with
  | some h =>
    if s.role.bootAt.isSome && !s.flushOver && decide (490000 ≤ s.now % 1000000) && decide (s.now % 1000000 ≤ 510000) && !s.beatSent then
      let s := (s.put64 R.ROLE_LHB_LO R.ROLE_LHB_HI s.now).withRole { s.role with hbAt := some s.now, beatAt := some s.now }
      done ((s.raise (F.HMN_STAT_HB h)).count (F.HMN_HBCNT_COUNT h))
    else done s
  | none => done s

def execHeartbeatLoss (t : Nat) (s : State) : Host.Outcome State Fault Refusal :=
  let s := s.atTime t
  match s.active, s.role.hbAt with
  | some h, some last => done (if s.role.bootAt.isSome && decide (last + 2000000 ≤ s.now) then s.addSource 5 (hmnPlace h) else s)
  | _, _ => done s

def execAcoreWatchdogExpire (t : Nat) (c : ACoreId) (s : State) : Host.Outcome State Fault Refusal :=
  let s := s.atTime t
  let h : Nat := c.half
  let due := decide (s.role.kicks.getD (h * 4 + c.core) 0 + s.get (F.HMN_WDCFG_TMO h) * 1000000 ≤ s.clock)
  let exp := s.get (F.HMN_STAT_EXP h)
  done (if s.halfPowered h && wbit (s.get (F.HMN_WDCFG_EN h)) c.core && due && !wbit exp c.core then
    ((s.put (F.HMN_STAT_EXP h) (exp + 2 ^ c.core.val)).event 0x9005 (hmnPlace h) (p0 := c.core)).halfFails h 1 (hmnPlace h) else s)

/-- A write of HMN_KICK{c} (R505). -/
def State.wHmnKick (s : State) (h c : Nat) : Acc2 := okay (s.withRole { s.role with kicks := s.role.kicks.set (h * 4 + c) s.clock })

/-- A write of HMN_WDCFG: the watchdogs that it enables run from now (R505). -/
def State.wHmnWdcfg (s : State) (m : Master) (h v : Nat) : Acc2 :=
  let was := s.get (F.HMN_WDCFG_EN h)
  let r := s.plainWrite m (R.HMN_WDCFG h) v
  let s := r.1
  let on := s.get (F.HMN_WDCFG_EN h)
  (s.withRole { s.role with kicks := s.role.kicks.mapIdx (fun i k => if i / 4 = h ∧ wbit on (i % 4) ∧ ¬ wbit was (i % 4) then s.clock else k) }, r.2)

/-! The standby's self-test (R49, R498). -/

/-- The clock at which the standby's self-test falls due. -/
def State.testDue (s : State) : Nat := s.role.asked.getD (s.role.testBase + s.get F.ROLE_STCFG_PER * 1000000000)

/-- A self-test may start: the role state allows it and none runs. -/
def State.testAllowed (s : State) : Bool :=
  (s.roleState == rNormal || s.roleState == rSingle) && s.role.bootAt.isSome && s.sbst == sbOff

def execSelfTestStart (t : Nat) (mw : Nat) (s : State) : Host.Outcome State Fault Refusal :=
  let s := s.atTime t
  match s.active with
  | some h =>
    if s.testAllowed && decide (s.testDue ≤ s.clock) && decide (s.role.tryAt ≤ s.clock) then
      if mw + 5450 ≤ 45000 then
        done (((s.setSbst sbTest).put (F.ROLE_HEALTH_RUNNING (2 - h)) 1).withRole { s.role with testBase := s.clock, asked := none })
      else done (s.withRole { s.role with tryAt := s.clock + 10000000000 })
    else done s
  | none => done s

/-- The A-image that the standby would boot at a takeover is verified, and rejected where it fails (R498, R556, R563). -/
def State.standbyImage (s : State) (h : Nat) (img : BootImages) : State × Bool :=
  let trial := s.flag (F.UPD_KSTAT_TRY 1) && !s.role.trial.getD h false && s.get (F.UPD_KSTAT_TRIES 1) != 3
  let r := if trial then s.verified 1 true img.staged else (s, false)
  if r.2 then r else r.1.verified 1 false img.current

/-- `result` is the test's RESULT code: 1 pass, 2 logic fail, 3 memory fail. -/
def execSelfTestComplete (t : Nat) (result : Fin 4) (img : BootImages) (s : State) : Host.Outcome State Fault Refusal :=
  let s := s.atTime t
  match s.active with
  | some h =>
    if s.sbst = sbTest ∧ result ≠ 0 then
      let b := 1 - h
      let r := s.standbyImage h img
      let ok := result == 1 && r.2
      let s := ((r.1.standbyOff b).put (F.ROLE_HEALTH_RUNNING (b + 1)) 0).putB (F.ROLE_HEALTH_IMGOK (b + 1)) r.2
      let s := ((s.put (F.ROLE_HEALTH_RESULT (b + 1)) result).put (F.ROLE_HEALTH_OVERDUE (b + 1)) 0).putB (F.ROLE_HEALTH_OK (b + 1)) ok
      let s := s.withRole { s.role with tested := s.role.tested.set b (some s.clock) }
      let s := if ok then s else let s := s.countSat (F.ROLE_HEALTH_FAILS (b + 1)); s.event 0x2008 rolePlace (p0 := b + 1) (p1 := s.healthWord b)
      done ((s.irq 6).roleSettle)
    else done s
  | none => done s

def execSelfTestOverdue (t : Nat) (s : State) : Host.Outcome State Fault Refusal :=
  let s := s.atTime t
  match s.active with
  | some h =>
    let b := 1 - h
    if s.testAllowed && decide (s.testDue + 3600000000000 ≤ s.clock) && !s.flag (F.ROLE_HEALTH_OVERDUE (b + 1)) then
      let s := s.raise (F.ROLE_HEALTH_OVERDUE (b + 1))
      done (s.event 0x2008 rolePlace (p0 := b + 1) (p1 := s.healthWord b))
    else done s
  | none => done s

/-! The deliberate swap (R499, R500). -/

/-- A write of SWAP = 1. -/
def State.swapStart (s : State) (h : Nat) : State :=
  let s := (s.testEnds (1 - h)).setRole rSwap
  (s.setSbst sbBoot).withRole { s.role with swapAt := s.clock, swapMiss := 0, swapB := none }

/-- The swap is abandoned; `failed`: the standby's OK clears. -/
def State.swapAbandon (s : State) (h cause : Nat) (failed : Bool) : State :=
  let b := 1 - h
  let s := if s.role.swapB.isSome then s.noCommit else s
  let s := (s.standbyOff b).setCe h { s.ce h with held := false }
  let s := if s.role.trial.getD h false then s else s.imgRuns 1 false
  let s := if failed then s.put (F.ROLE_HEALTH_OK (b + 1)) 0 else s
  (((s.withRole { s.role with swapB := none }).setRole rNormal).event 0x2007 rolePlace (p1 := cause)).roleSettle

def execStandbyReady (t : Nat) (img : BootImages) (s : State) : Host.Outcome State Fault Refusal :=
  let s := s.atTime t
  match s.active with
  | some h =>
    if s.roleState = rSwap ∧ s.sbst = sbBoot ∧ s.clock ≤ s.role.swapAt + 200000000 then
      let b := 1 - h
      match s.imgBoot 1 img with
      | (s, none) => done ((s.put (F.ROLE_HEALTH_IMGOK (b + 1)) 0).swapAbandon h 0 true)
      | (s, some trial) =>
        let s := (s.setTrial b trial).bundleLoad b (s.laneBundle trial img)
        done ((s.put (F.ROLE_HEALTH_IMGOK (b + 1)) 1).setSbst sbReady)
    else done s
  | none => done s

/-- The standby has not come to run the image of its boot: where the trial is selected, that is an unconfirmed boot of it (R561, R567). -/
def State.bootFailed (s : State) : State :=
  if !s.flag (F.UPD_KSTAT_TRY 1) then s
  else if s.get (F.UPD_KSTAT_TRIES 1) = 3 then s.imgFallback 1
  else (s.count (F.UPD_KSTAT_TRIES 1)).selWrite

/-- Cause 0: the standby failed, or was not READY by 200 ms; 2: no commit record within 1.5 ms of B; 3: ten boundaries without (R500). -/
def execSwapAbandon (t : Nat) (cause : Fin 4) (s : State) : Host.Outcome State Fault Refusal :=
  let s := s.atTime t
  match s.active with
  | some h =>
    if s.roleState ≠ rSwap then done s
    else
      match cause.val with
      | 0 => done (if s.role.swapB.isNone then (if s.sbst = sbBoot then s.bootFailed else s).swapAbandon h 0 true else s)
      | 2 => done (match s.role.swapB with | some b => if b + 1500000 ≤ s.now then s.swapAbandon h 2 false else s | none => s)
      | 3 => done (if s.role.swapB.isNone && decide (10 ≤ s.role.swapMiss) then s.swapAbandon h 3 false else s)
      | _ => done s
  | none => done s

/-! Writes of ROLE_CTL (R503, R594, R595). -/

/-- FAIL by the owner while no half is active: a restart in place has failed (R493); in a takeover and at the end of a swap it speaks of the isolated
half and shows in ROLE_SRCS only (R501). -/
def State.failRecovering (s : State) (code : Nat) : State :=
  if s.roleState = rRestart then (s.withRole { s.role with fcode := code }).addSource 6 rolePlace
  else if s.recovering then s.put F.ROLE_SRCS_MASK (s.get F.ROLE_SRCS_MASK ||| 2 ^ 5)
  else s

/-- A write of ROLE_CTL. -/
def State.wRoleCtl (s : State) (m : Master) (v : Nat) : Acc2 :=
  let own := s.isOwner m
  let core := s.isActiveCore m
  if (v / 2 % 8 ≠ 0 ∧ !own) ∨ !(own || core) then (s, stNotOwner)
  else if 1 < actionCount [0, 1, 2, 3] v then okay (s.raise F.ROLE_STAT_CFGERR)
  else
    match s.active with
    | some h =>
      if wbit v 0 then okay ((s.withRole { s.role with fcode := v / 2 ^ 16 % 2 ^ 16 }).addSource 6 (if core then place (h + 1) 0 0xFF 0xFFFF else rolePlace))
      else if wbit v 1 then (if s.roleState = rNormal then okay (s.swapStart h) else okay (s.raise F.ROLE_STAT_CFGERR))
      else if wbit v 2 then
        (if s.testAllowed then okay (s.withRole { s.role with asked := some (s.role.asked.getD s.clock), tryAt := s.clock }) else okay (s.raise F.ROLE_STAT_CFGERR))
      else if wbit v 3 then (if s.roleState = rSwap ∧ s.role.swapB.isNone then okay (s.swapAbandon h 1 false) else okay s)
      else okay s
    | none => okay (if wbit v 0 then s.failRecovering (v / 2 ^ 16 % 2 ^ 16) else s.raiseIf (wbit v 1 || wbit v 2) F.ROLE_STAT_CFGERR)

/-- What follows a write of ROLE_CFG or ROLE_JCFG: NORMAL or SINGLE (R475). -/
def Acc2.settle (r : Acc2) : Acc2 := (r.1.roleSettle, r.2)

/-! Epochs (R476, R477, R481, R499, R522). -/

/-- An epoch boundary of R476 falls now, or the final capture of a flush or of the entry to Beanie at the next 1 kHz boundary (R502, R522). -/
def State.epochDue (s : State) : Bool :=
  let fresh := match s.jnl.bound with
    | some b => decide (b < s.now)
    | none => true
  s.journalRuns && !s.flushOver && !s.jnl.final && fresh
    && (if s.flag F.RST_STAT_FLUSH || s.rst.entering then s.now % 1000000 == 0 else s.jnl.ems != 0 && s.now % (s.jnl.ems * 1000000) == 0)

/-- The boundary of a swap whose standby is READY (R499 step 3). -/
def State.swapBoundary (s : State) (h : Nat) : State :=
  if (List.range 8).any (fun l => s.lnst h l == lnRunning) then (s.capture h false false).withRole { s.role with swapMiss := s.role.swapMiss + 1 }
  else
    let s := s.capture h false true
    ((s.setCe h { s.ce h with held := true }).mitEngage).withRole { s.role with swapB := some s.now }

def execEpochBoundary (t : Nat) (s : State) : Host.Outcome State Fault Refusal :=
  let s := s.atTime t
  match s.active with
  | some h =>
    if s.epochDue then
      if s.flag F.RST_STAT_FLUSH then done (s.capture h true false)
      else if s.rst.entering then
        let s := s.capture h false false
        done (s.withJnl { s.jnl with final := true })
      else if s.roleState = rSwap ∧ s.sbst = sbReady ∧ s.role.swapB.isNone ∧ s.role.swapMiss < 10 then done (s.swapBoundary h)
      else done (s.capture h false false)
    else done s
  | none => done s

/-- The swap's epoch has committed within 1.5 ms of its boundary: the old half is isolated, and the READY one takes its place (R499 step 4, R500). -/
def State.swapIsolate (s : State) (h : Nat) : State :=
  let s := s.isolate h
  s.withRole { s.role with booting := some (1 - h), detectAt := s.clock, swapB := none }

/-- The epoch of now has ended, with a commit record or without: the final one of the entry to Beanie goes on to that, and the final one of a flush to
its steps 4 and 5 (R502, R522). -/
def State.epochEnd (s : State) : State :=
  if !s.jnl.final then s else if s.rst.entering then s.beanieIn else if s.flushing then s.flushSaves else s

def execEpochCommit (t : Nat) (s : State) : Host.Outcome State Fault Refusal :=
  let s := s.atTime t
  match s.active with
  | some h =>
    if s.commitReady then
      let swap := match s.jnl.pend with
        | some (_, b, _, x) => x && decide (s.now ≤ b + 1500000)
        | none => false
      let s := s.commit h
      done (if swap && s.roleState == rSwap then s.swapIsolate h else s.epochEnd)
    else if s.jnl.bad then done s.noCommit.epochEnd
    else done s
  | none => done s

end Sys2Proof.Machine
end

