-- ==== Sys2Proof/Machine/Tally.lean ====
section
/-! DEFINITION. The tally fuses TLY: rows, mirrors, burning (spec/17_update_tally_fuses.md R568–R571, R573). -/

namespace Sys2Proof.Machine

def tlyPlace : Nat := fieldBlock 0 7

/-- The state with the fuses' own part at `x`. -/
def State.withTly (s : State) (x : TlySt) : State := { s with tly := x }

/-! Settings and rows (R568, R569). -/

/-- Address of row 0, row size and value bytes of a setting. -/
def tallySetting : Nat → Option (Nat × Nat × Nat)
  | 1 => some (0x380000000, 32, 16)
  | 2 => some (0x380000100, 32, 2)
  | 3 => some (0x380000200, 32, 8)
  | 4 => some (0x380000300, 32, 2)
  | 5 => some (0x380000400, 32, 1)
  | 6 => some (0x380000500, 32, 1)
  | 7 => some (0x380000600, 64, 48)
  | 8 => some (0x380000800, 128, 68)
  | _ => none

/-- The address of row `r` of a setting. -/
def tallyRow (c r : Nat) : Nat :=
  match tallySetting c with
  | some (a, n, _) => a + r * n
  | none => 0

/-- The value bytes of a setting. -/
def tallyLen (c : Nat) : Nat :=
  match tallySetting c with
  | some (_, _, n) => n
  | none => 0

/-- Row `r` of setting `c` is BURNED and not BAD. -/
def State.tallyBurned (s : State) (c r : Nat) : Bool := s.readN (tallyRow c r) 4 % 4 == 1

/-- Row `r` of setting `c` is used: burned, BAD, or holding bits. -/
def State.tallyUsed (s : State) (c r : Nat) : Bool := (s.readBytes (tallyRow c r) (8 + tallyLen c)).any (fun b => b != 0)

/-- The last burned row of a setting. -/
def State.tallyLast (s : State) (c : Nat) : Option Nat :=
  (List.range 8).foldl (fun last r => if s.tallyBurned c r then some r else last) none

/-- The number of rows used. -/
def State.tallyRows (s : State) (c : Nat) : Nat := (List.range 8).countP (fun r => s.tallyUsed c r)

/-- The first free row. -/
def State.tallyNext (s : State) (c : Nat) : Option Nat := (List.range 8).find? (fun r => !s.tallyUsed c r)

/-- `n` bytes at offset `o` of the value in force; `d` where no row is burned. -/
def State.tallyValue (s : State) (c o n d : Nat) : Nat :=
  match s.tallyLast c with
  | some r => s.readN (tallyRow c r + 8 + o) n
  | none => d

/-! Mirrors (R12, R371, R372, R497, R525, R568). -/

/-- The mirrors of one setting take its value; those that act at once act. -/
def State.tallyMirror (s : State) (c : Nat) : State :=
  match c with
  | 2 => (s.brimLock 0 (s.tallyValue 2 0 1 0)).brimLock 1 (s.tallyValue 2 1 1 0)
  | 3 =>
    let mask := s.tallyValue 3 0 4 0
    let ports := s.tallyValue 3 4 1 0
    let s := (s.setWord R.BRM_DZLK mask).put F.BRM_DZL2_PMASK ports
    let s := s.put F.BRM_DZL2_ESPKMAX (s.tallyValue 3 6 2 500)
    let s := (List.range 32).foldl (fun s n => s.raiseIf (wbit mask n) (F.FNG_CFG_DZ n)) s
    (List.range 8).foldl (fun s k => s.putB (F.SNP_STAT_LOCKED k) (wbit ports k)) s
  | 4 =>
    let ceil := s.tallyValue 4 0 2 1000
    (s.put F.MIT_LOCK_CEIL ceil).put F.MIT_CFG_HOLD (min ceil (s.get F.MIT_CFG_HOLD))
  | 8 =>
    let s := (s.put F.PST_PCMD_PCMD (s.tallyValue 8 64 2 0)).put F.PST_LCMD_LCMD (s.tallyValue 8 66 2 0)
    (List.range 32).foldl (fun s n => s.put (F.PST_FCODE_CODE n) (s.tallyValue 8 (2 * n) 2 0)) s
  | _ => s

/-- TLY_ROWS brought up to date. -/
def State.tallyRowCounts (s : State) : State :=
  s.put F.TLY_ROWS_USED ((List.range 8).foldl (fun w i => w + s.tallyRows (i + 1) * 16 ^ i) 0)

/-- The mirrors as a module reset loads them: CEIL and HOLD take their reset values under the locks (R371, R497, R571). -/
def State.tallyLoad (s : State) : State :=
  let s := [2, 3, 8].foldl State.tallyMirror s
  (s.mitLoad (s.tallyValue 4 0 2 1000)).tallyRowCounts

/-! Burning (R570). -/

/-- TLY_HOURS: powered time in tenths of an hour. -/
def State.tallyHours (s : State) : Nat :=
  let run := match s.tly.since with
    | some a => s.clock - a
    | none => 0
  nearest (s.tly.powered + run) 360000000000 % 2 ^ 32

/-- The value bytes that TLY_DATA holds for a setting. -/
def State.tallyData (s : State) (c : Nat) : List Byte :=
  ((List.range 30).flatMap (fun j => leBytes 4 (s.word (R.TLY_DATA j)))).take (tallyLen c)

/-- The new value is one that R568 allows. -/
def State.tallyAllowed (s : State) (c : Nat) : Bool :=
  let d := s.tallyData c
  match c with
  | 1 | 5 => true
  | 2 => [0, 1].all (fun r =>
      let new := leAt d r 1
      let old := s.tallyValue 2 r 1 0
      decide (new ≤ 200) && (old == 0 || (new != 0 && decide (new ≤ old))))
  | 3 =>
    let mask := s.tallyValue 3 0 4 0
    let ports := s.tallyValue 3 4 1 0
    leAt d 0 4 &&& mask == mask && leAt d 4 1 &&& ports == ports && decide (leAt d 6 2 ≤ s.tallyValue 3 6 2 500)
  | 4 => decide (10 ≤ leAt d 0 2) && decide (leAt d 0 2 ≤ s.tallyValue 4 0 2 1000)
  | 6 => decide (leAt d 0 1 ≤ 64) && decide (s.rollback < leAt d 0 1)
  | 7 => d.any (fun b => b != 0)
  | 8 => (List.range 8).all (fun p => leAt d 64 2 / 4 ^ p % 4 != 3)
  | _ => false

/-- A write of TLY_ARM by the owner: the key arms for 1 ms. -/
def State.wTlyArm (s : State) (m : Master) (v : Nat) : Acc2 :=
  if !s.isOwner m then (s, stNotOwner)
  else if v = 0x54414C59 then okay ((s.raise F.TLY_STAT_ARMED).withTly { s.tly with armEnds := s.clock + 1000000 })
  else okay s

def execTallyArmExpire (t : Nat) (s : State) : Host.Outcome State Fault Refusal :=
  let s := s.atTime t
  done (if s.flag F.TLY_STAT_ARMED && decide (s.tly.armEnds ≤ s.clock) then s.put F.TLY_STAT_ARMED 0 else s)

/-- A write of TLY_CMD with VBAT at `vbat` mV: GO starts a burn or is REFUSED; a reserved SETTING is not placed (R593). -/
def State.wTlyCmd (s : State) (m : Master) (v vbat : Nat) : Acc2 :=
  if !s.isOwner m then (s, stNotOwner)
  else
    let c := fieldOf F.TLY_CMD_SETTING v
    let s := if (tallySetting c).isSome then s.put F.TLY_CMD_SETTING c else s
    if !wbit v 31 then okay s
    else
      let armed := s.flag F.TLY_STAT_ARMED && decide (s.clock ≤ s.tly.armEnds)
      match s.tallyNext c with
      | some r =>
        if armed && !s.flag F.TLY_STAT_BUSY && decide (8000 ≤ vbat) && !s.flag F.RST_STAT_FLUSH && s.tallyAllowed c then
          okay ((s.raise F.TLY_STAT_BUSY).withTly { s.tly with burn := some (c, r, s.tallyData c, s.get F.OWN_STAT_CLASS, m) })
        else okay (s.raise F.TLY_STAT_REFUSED)
      | none => okay (s.raise F.TLY_STAT_REFUSED)

/-- The bytes of a burned row: header and value (R569). -/
def tallyImage (r hours cls : Nat) (m : Master) (value : List Byte) : List Byte :=
  leBytes 4 (1 + cls % 8 * 2 ^ 4 + midKind m % 2 ^ 8 * 2 ^ 8 + r * 2 ^ 16) ++ leBytes 4 hours ++ value

/-- A row marked BAD. -/
def State.tallyBad (s : State) (a : Nat) : State := s.setByte a (s.byte a ||| 2)

/-- The burn that runs has ended; `got` is what the row reads back as. -/
def State.tallyDone (s : State) (got : List Byte) : State :=
  match s.tly.burn with
  | some (c, r, value, cls, m) =>
    let a := tallyRow c r
    let img := tallyImage r s.tallyHours cls m value
    let s := (s.put F.TLY_STAT_BUSY 0).withTly { s.tly with burn := none }
    let s := s.writeBytes a (got.take (8 + tallyLen c))
    let s := (s.put F.TLY_STAT_LASTROW r).put F.TLY_STAT_LASTSET c
    let s := if got = img then ((s.raise F.TLY_STAT_DONE).tallyMirror c).event 0x2012 tlyPlace (p1 := c) (p2 := r) (p3 := cls)
      else (s.tallyBad a).raise F.TLY_STAT_BURNFAIL
    s.tallyRowCounts
  | none => s

/-- `got`: the bytes of the row as they read back, header first. -/
def execTallyBurnDone (t : Nat) (got : List Byte) (s : State) : Host.Outcome State Fault Refusal :=
  let s := s.atTime t
  done (if s.awake tlyPlace then s.tallyDone got else s)

/-- A burn cut off: the row is unused, holds some of the value's bits and is BAD, or is complete; which of them is open (R570). -/
def State.tallyCut (s : State) : State :=
  match s.tly.burn with
  | some (c, r, value, cls, m) =>
    let a := tallyRow c r
    let s := (s.put F.TLY_STAT_BUSY 0).withTly { s.tly with burn := none }
    let f := s.free
    match f.1 % 3 with
    | 0 => f.2
    | 1 =>
      let g := f.2.free
      let part := leNat value &&& g.1
      if part = 0 then g.2 else (g.2.writeBytes (a + 8) (leBytes (tallyLen c) part)).tallyBad a
    | _ => f.2.writeBytes a (tallyImage r f.2.tallyHours cls m value)
  | none => s

end Sys2Proof.Machine
end

