-- ==== Sys2Proof/Machine/Mosaic.lean ====
section
/-! DEFINITION. The arithmetic of the mosaic pipelines: sample unpacking, the stages of R98, taps, output formats and statistics
(spec/03_camera_mosaic_pipelines.md R93–R104). -/

namespace Sys2Proof.Machine

/-- A plane of samples: rows of pixels. -/
abbrev Plane := Array (Array Nat)

/-- The sample at line `y`, pixel `x`. -/
def Plane.px (p : Plane) (y x : Nat) : Nat := (p.getD y #[]).getD x 0

/-- The plane of `h` lines of `w` pixels with value `f y x`. -/
def plane (h w : Nat) (f : Nat → Nat → Nat) : Plane := Array.ofFn (n := h) (fun y => Array.ofFn (n := w) (fun x => f y x))

/-- The parameters of one frame's processing. -/
structure Pipe where
  ctx : Nat
  width : Nat
  height : Nat
  bits : Nat
  recon : Nat
  tap : Nat
  mos : Nat
  pb : List Byte
  lsc : List Byte
  deriving DecidableEq, Repr

/-- `n` bytes at offset `o` of the stage parameter block (R101). -/
def Pipe.par (p : Pipe) (o n : Nat) : Nat := leAt p.pb o n

/-- The mosaic code of pixel (y, x) (R96). -/
def Pipe.code (p : Pipe) (y x : Nat) : Nat := p.mos / 2 ^ (3 * (4 * (y % 4) + x % 4)) % 8

/-- The descriptor holds a cell of code `k`. -/
def Pipe.has (p : Pipe) (k : Nat) : Bool := (List.range 16).any (fun i => p.mos / 2 ^ (3 * i) % 8 == k)

/-- FLAGS of the parameter block. -/
def Pipe.flag (p : Pipe) (b : Nat) : Bool := wbit (p.par 14 2) b
def Pipe.hf (p : Pipe) : Nat := 2 ^ (p.par 60 1 % 4)
def Pipe.vf (p : Pipe) : Nat := 2 ^ (p.par 60 1 / 4 % 4)
def Pipe.fmt (p : Pipe) : Nat := p.par 60 1 / 16 % 8

/-- The output planes produced (R97): 0 R, 1 G, 2 B, 4 I, 5 Y, in output order. -/
def Pipe.produced (p : Pipe) : List Nat := (if p.recon = 3 then [5] else [0, 1, 2]) ++ (if p.has 4 then [4] else [])

/-- Bytes of one output pixel (R101). -/
def Pipe.outBytes (p : Pipe) : Nat :=
  match p.fmt with
  | 0 => 1
  | 1 => 3
  | 2 => 4
  | 3 => 2 * p.produced.length
  | _ => 2

/-- Bytes of the output image. -/
def Pipe.imageBytes (p : Pipe) : Nat := p.width / p.hf * (p.height / p.vf) * p.outBytes

/-- Bytes of the tap frame (R100). -/
def Pipe.tapBytes (p : Pipe) : Nat :=
  match p.tap with
  | 0 => 0
  | 1 | 2 | 3 => p.width * p.height * 2
  | _ => p.width * p.height * 2 * p.produced.length

/-- The descriptor and the parameter block pass the checks of R97 and R101, for strides in bytes. Every 5 × 5 window covers all
residues of line and pixel modulo 4, so it holds a cell of every plane present. -/
def Pipe.valid (p : Pipe) (emb : Nat) (stride tstride : Nat) : Bool :=
  let needs : List Nat := match p.recon with
    | 0 => [0, 1, 2]
    | 1 => [0, 3, 2]
    | 2 => [0, 3, 1]
    | _ => [3]
  needs.all p.has && !p.has 5 && !p.has 6 && !p.has 7
    && decide (p.fmt ≤ 4) && !(p.recon == 3 && (p.fmt == 1 || p.fmt == 2))
    && decide (p.imageBytes + emb ≤ stride) && decide (p.tapBytes ≤ tstride)

/-! Samples (R93, stage 1). CSI-2 packs a group of pixels as their high bytes followed by their low bits (log 16). -/

/-- Pixels of one packed group, and its length in bytes. -/
def rawGroup (bits : Nat) : Nat × Nat :=
  match bits with
  | 10 => (4, 5)
  | 12 => (2, 3)
  | _ => (4, 7)

/-- Pixel `x` of a packed line; zero past the line's last whole group. -/
def rawSample (bits : Nat) (line : Array Byte) (x : Nat) : Nat :=
  let g := rawGroup bits
  let o := x / g.1 * g.2
  let k := bits - 8
  if line.size < o + g.2 then 0
  else
    let low := (List.range (g.2 - g.1)).foldr (fun i n => (line.getD (o + g.1 + i) 0).toNat + 256 * n) 0
    (line.getD (o + x % g.1) 0).toNat * 2 ^ k + low / 2 ^ (k * (x % g.1)) % 2 ^ k

/-! Windows. -/

/-- The pixels of the window of radius `r` about (y, x) that lie in a frame of `h` lines of `w` pixels. -/
def window (r h w y x : Nat) : List (Nat × Nat) :=
  ((List.range (2 * r + 1)).flatMap (fun i => (List.range (2 * r + 1)).filterMap (fun j =>
    if r ≤ y + i ∧ y + i - r < h ∧ r ≤ x + j ∧ x + j - r < w then some (y + i - r, x + j - r) else none)))

/-- The lower median of a list of samples (R98 stage 3). -/
def lowerMedian (l : List Nat) : Nat :=
  let sorted := l.foldl (fun acc v => acc.takeWhile (fun u => decide (u ≤ v)) ++ v :: acc.dropWhile (fun u => decide (u ≤ v))) []
  sorted.getD ((l.length - 1) / 2) 0

def listMax (l : List Nat) : Nat := l.foldl max 0
def listMin (l : List Nat) : Nat := l.foldl min (l.headD 0)

/-! Stages 2 to 5 (R98). -/

/-- A number clamped to 0–65,535. -/
def satU16 (x : Int) : Nat := (satU 16 x).toNat

/-- Stage 2. -/
def Pipe.blackLevel (p : Pipe) (code v : Nat) : Nat := satU16 (rdiv ((v - p.par (2 * code) 2) * p.par 10 2) (2 ^ 14))

/-- Stage 3 at pixel (y, x) of `h` lines. -/
def Pipe.defect (p : Pipe) (h : Nat) (s : Plane) (y x : Nat) : Nat :=
  let v := s.px y x
  let n := ((window 2 h p.width y x).filter (fun q => q != (y, x) && p.code q.1 q.2 == p.code y x)).map (fun q => s.px q.1 q.2)
  let thr := p.par 12 2
  if n.isEmpty then v
  else if listMax n + thr < v ∨ v + thr < listMin n then lowerMedian n
  else v

/-- Stage 4 at pixel (y, x): the gain of plane `code` between its four nodes, and the product rounded once. -/
def Pipe.lens (p : Pipe) (code y x v : Nat) : Nat :=
  let eh := p.height - 1
  let ew := p.width - 1
  let i := min 15 (y * 16 / eh)
  let j := min 15 (x * 16 / ew)
  let fy := y * 16 - i * eh
  let fx := x * 16 - j * ew
  let g (a b : Nat) : Nat := leAt p.lsc ((code * 289 + (i + a) * 17 + (j + b)) * 2) 2
  let sum := g 0 0 * (eh - fy) * (ew - fx) + g 0 1 * (eh - fy) * fx + g 1 0 * fy * (ew - fx) + g 1 1 * fy * fx
  satU16 (rdiv (v * sum : Nat) (eh * ew * 2 ^ 14))

/-- Stage 5's interpolation of plane `k` at pixel (y, x); a window that holds no sample of the plane gives an open value (log 13). -/
def Pipe.interpolate (p : Pipe) (h : Nat) (s : Plane) (k y x : Nat) : Nat :=
  if p.code y x = k then s.px y x
  else
    let near (r : Nat) := ((window r h p.width y x).filter (fun q => p.code q.1 q.2 == k)).map (fun q => s.px q.1 q.2)
    let v := if (near 1).isEmpty then near 2 else near 1
    if v.isEmpty then Config.edgeSample k y x % 65536 else (rdiv (v.sum : Nat) v.length).toNat

/-- The planes R, G, B, C, I of one pixel. -/
structure Px where
  r : Nat
  g : Nat
  b : Nat
  c : Nat
  i : Nat
  deriving DecidableEq, Repr

/-- The interpolated planes of pixel (y, x); an absent plane is 0. -/
def Pipe.planesAt (p : Pipe) (h : Nat) (s : Plane) (y x : Nat) : Px :=
  let v (k : Nat) : Nat := if p.has k then p.interpolate h s k y x else 0
  ⟨v 0, v 1, v 2, v 3, v 4⟩

/-- The rest of stage 5: infrared subtraction, clear reconstruction; the pixel and its Y. -/
def Pipe.reconstruct (p : Pipe) (q : Px) : Px × Nat :=
  let sub (k o v : Nat) : Nat := if p.has k then (v - rdiv (p.par o 2 * q.i : Nat) (2 ^ 15)).toNat else v
  let r := sub 0 24 q.r
  let g := sub 1 26 q.g
  let b := sub 2 28 q.b
  let c := sub 3 30 q.c
  let g := if p.recon = 1 then (c - rdiv (p.par 32 2 * r + p.par 34 2 * b : Nat) (2 ^ 15)).toNat else g
  let b := if p.recon = 2 then (c - rdiv (p.par 32 2 * r + p.par 34 2 * g : Nat) (2 ^ 15)).toNat else b
  (⟨r, g, b, c, q.i⟩, if p.recon = 3 then c else (r + 2 * g + b + 2) / 4)

/-- Stage 6. -/
def Pipe.matrix (p : Pipe) (q : Px) : Px :=
  let row (i : Nat) : Nat :=
    let m (j : Nat) : Int := signedOf 16 (p.par (36 + 6 * i + 2 * j) 2)
    satU16 (rdiv (m 0 * q.r + m 1 * q.g + m 2 * q.b) (2 ^ 12) + signedOf 16 (p.par (54 + 2 * i) 2))
  if p.recon = 3 ∨ !p.flag 2 then q else { q with r := row 0, g := row 1, b := row 2 }

/-- Stage 7. -/
def Pipe.tone (p : Pipe) (x : Nat) : Nat :=
  let n := x / 1024
  let a : Int := (p.par (64 + 2 * n) 2 : Nat)
  let b : Int := (p.par (66 + 2 * n) 2 : Nat)
  (a + rdiv ((b - a) * (x % 1024 : Nat)) 1024).toNat

/-- A plane's value of a pixel, by the numbers of `Pipe.produced`. -/
def Px.plane (q : Px) (y : Nat) : Nat → Nat
  | 0 => q.r
  | 1 => q.g
  | 2 => q.b
  | 3 => q.c
  | 4 => q.i
  | _ => y

/-- Stages 6 and 7 of plane `k`. -/
def Pipe.toned (p : Pipe) (q : Px) (y k : Nat) : Nat :=
  let v := (p.matrix q).plane y k
  if k = 4 ∧ !p.flag 3 then v else p.tone v

/-- An 8-bit output (R101). -/
def out8 (x : Nat) : Nat := min 255 ((x + 128) / 256)

/-- The bytes of one output pixel, from its 16-bit planes (R101). YI88 without infrared cells puts I = 0, as the table says of RGBI8888 (log 93). -/
def Pipe.format (p : Pipe) (v : Nat → Nat) : List Nat :=
  let i := if p.has 4 then v 4 else 0
  match p.fmt with
  | 0 => [out8 (v 5)]
  | 1 => [out8 (v 0), out8 (v 1), out8 (v 2)]
  | 2 => [out8 (v 0), out8 (v 1), out8 (v 2), out8 i]
  | _ => [out8 (v 5), out8 i]

/-- What a frame's lines become: the image bytes, the tap bytes, and the parts of the statistics record. -/
structure FrameOut where
  image : List Byte := []
  tap : List Byte := []
  sums : List Nat := []
  sharp : Nat := 0
  hist : List Nat := []
  deriving DecidableEq, Repr, Inhabited

/-- A 16-bit plane as bytes. -/
def planeBytes (h w : Nat) (f : Nat → Nat → Nat) : List Byte :=
  (List.range h).flatMap (fun y => (List.range w).flatMap (fun x => leBytes 2 (f y x)))

/-! A frame (R98–R104). -/

/-- The planes of a frame's received lines after each of the stages 1 to 4, and its interpolated pixels. -/
structure Developed where
  decoded : Plane
  levelled : Plane
  corrected : Plane
  shaded : Plane
  pixels : Array (Array Px)

/-- The interpolated planes of pixel (y, x), before infrared subtraction (R99). -/
def Developed.at (d : Developed) (y x : Nat) : Px := (d.pixels.getD y #[]).getD x ⟨0, 0, 0, 0, 0⟩

/-- Stages 1 to 5 of a frame's received lines, up to the interpolation. -/
def Pipe.develop (p : Pipe) (lines : List (List Byte)) : Developed :=
  let raw := (lines.map List.toArray).toArray
  let h := raw.size
  let w := p.width
  let s1 := plane h w (fun y x => rawSample p.bits (raw.getD y #[]) x * 2 ^ (16 - p.bits))
  let s2 := plane h w (fun y x => p.blackLevel (p.code y x) (s1.px y x))
  let s3 := if p.flag 0 then plane h w (fun y x => p.defect h s2 y x) else s2
  let s4 := if p.flag 1 then plane h w (fun y x => p.lens (p.code y x) y x (s3.px y x)) else s3
  ⟨s1, s2, s3, s4, Array.ofFn (n := h) (fun y => Array.ofFn (n := w) (fun x => p.planesAt h s4 y x))⟩

/-- Y of pixel (y, x), after reconstruction (R99). -/
def Pipe.lumAt (p : Pipe) (d : Developed) (y x : Nat) : Nat := (p.reconstruct (d.at y x)).2

/-- Plane `k` of pixel (y, x) after stage 7, in a frame of `h` received lines; a line not received gives an open value (log 13). -/
def Pipe.tonedAt (p : Pipe) (d : Developed) (h k y x : Nat) : Nat :=
  if y < h then p.toned (p.reconstruct (d.at y x)).1 (p.lumAt d y x) k else Config.edgeSample (8 + k) y x % 65536

/-- Stage 8: the average of plane `v` over a box. -/
def Pipe.box (p : Pipe) (v : Nat → Nat → Nat) (oy ox : Nat) : Nat :=
  let vs := (List.range p.vf).flatMap (fun i => (List.range p.hf).map (fun j => v (oy * p.vf + i) (ox * p.hf + j)))
  (rdiv (vs.sum : Nat) vs.length).toNat

/-- The zone of pixel (y, x) (R104). -/
def Pipe.zone (p : Pipe) (y x : Nat) : Nat := 4 * (y / (p.height / 4)) + x / (p.width / 4)

/-- A frame's received lines through the stages of R98. A box of the scaler that takes in a line not received averages an
open value for it (log 13). -/
def Pipe.process (p : Pipe) (lines : List (List Byte)) : FrameOut :=
  let d := p.develop lines
  let h := lines.length
  let w := p.width
  let lum := plane h w (p.lumAt d)
  let lin (k y x : Nat) : Nat := (p.reconstruct (d.at y x)).1.plane (lum.px y x) k
  let ow := w / p.hf
  let oh := (h + p.vf - 1) / p.vf
  let box (k : Nat) : Nat → Nat → Nat := p.box (p.tonedAt d h k)
  let image :=
    if p.fmt = 3 then p.produced.flatMap (fun k =>
      planeBytes (if k = p.produced.getLastD 0 then oh else p.height / p.vf) ow (fun y x => if y < oh then box k y x else Config.edgeSample (16 + k) y x % 65536))
    else (List.range oh).flatMap (fun y => (List.range ow).flatMap (fun x => (p.format (fun k => box k y x)).map (BitVec.ofNat 8)))
  let tap := match p.tap with
    | 1 => planeBytes h w d.decoded.px
    | 2 => planeBytes h w d.levelled.px
    | 3 => planeBytes h w d.corrected.px
    | 4 => p.produced.flatMap (fun k => planeBytes p.height w (fun y x => if y < h then lin k y x else Config.edgeSample (24 + k) y x % 65536))
    | 5 => p.produced.flatMap (fun k => planeBytes p.height w (p.tonedAt d h k))
    | _ => []
  let pixels := (List.range h).flatMap (fun y => (List.range w).map (fun x => (y, x)))
  let sum (k : Nat) : Nat := (pixels.map (fun q => (d.at q.1 q.2).plane 0 k)).sum
  let diffs := (List.range h).map (fun y => ((List.range (w - 1)).map (fun x =>
    max (lum.px y x) (lum.px y (x + 1)) - min (lum.px y x) (lum.px y (x + 1)))).sum)
  let hist := pixels.foldl (fun (a : Array Nat) q => a.modify (p.zone q.1 q.2 * 16 + lum.px q.1 q.2 / 4096) (· + 1)) (Array.replicate 256 0)
  { image := image, tap := tap, sums := (List.range 5).map sum,
    sharp := if h = 0 then 0 else (rdiv (diffs.sum * 2 ^ 16 : Nat) (h * (w - 1))).toNat, hist := hist.toList }

end Sys2Proof.Machine
end

