-- ==== Sys2Proof/Machine/Vision.lean ====
section
/-! DEFINITION. Camera ports, the vision scheduler and the mosaic pipelines (spec/03_camera_mosaic_pipelines.md R86–R121). -/

namespace Sys2Proof.Machine

/-- The state with context `c` at `x`. -/
def State.setCtx (s : State) (c : Nat) (x : Ctx) : State := { s with ctxs := s.ctxs.set c x }

/-- Context `c`. -/
def State.ctx (s : State) (c : Nat) : Ctx := s.ctxs.getD c {}

/-- The last frame of context `c`, when it is open (R92). -/
def Ctx.openFrame (x : Ctx) : Option Frame :=
  match x.frames.getLast? with
  | some f => if f.isOpen then some f else none
  | none => none

/-- The last frame changed. -/
def Ctx.modLast (x : Ctx) (f : Frame → Frame) : Ctx := { x with frames := x.frames.modify (x.frames.length - 1) f }

/-- Mark bit `b` set (R104). -/
def Frame.mark (f : Frame) (b : Nat) : Frame := { f with marks := f.marks ||| 2 ^ b }

/-- Mark bit `b` is set. -/
def Frame.marked (f : Frame) (b : Nat) : Bool := wbit f.marks b

/-- The frame was dropped: no image is produced. -/
def Frame.dropped (f : Frame) : Bool := f.marked 6

/-- Image lines of the frame received so far. -/
def Frame.lines (f : Frame) : Nat := f.taken.length + f.waiting.countP (fun e => !e.1)

/-- Bytes of the frame in the input buffer. -/
def Frame.waitingBytes (f : Frame) : Nat := (f.waiting.map (fun e => e.2.length)).sum

/-- Place code of context `c` (R597). -/
def vscPlace (c : Nat) : Nat := place 3 1 6 c

/-- A camera port and a pipeline (R7). -/
def csiPlace (p : Nat) : Nat := fieldBlock 1 p
def mplPlace (q : Nat) : Nat := fieldBlock 1 (4 + q)

/-- Port `p` takes what its camera sends: it is enabled, and neither it nor VSC is down (R114, R119, R120). -/
def State.csiOn (s : State) (p : Nat) : Bool := s.flag (F.CSI_CFG_EN p) && s.awake (csiPlace p) && !s.restarting (fieldBlock 1 6)

/-- Pipeline `q` runs (R119, R120). -/
def State.mplOn (s : State) (q : Nat) : Bool := s.awake (mplPlace q) && !s.restarting (fieldBlock 1 6)

/-! Ports (R86–R91, R114). -/

/-- Bytes in the input buffer of port `p`. -/
def State.portBytes (s : State) (p : Nat) : Nat :=
  (((s.ctx (2 * p)).frames ++ (s.ctx (2 * p + 1)).frames).map Frame.waitingBytes).sum

/-- CSI_FILL brought up to date, rounded to the nearest unit (spec/00_scope.md R596). -/
def State.portFill (s : State) (p : Nat) : State :=
  let n := (s.portBytes p + 32) / 64
  (s.put (F.CSI_FILL_FILL p) n).put (F.CSI_FILL_PEAK p) (max n (s.get (F.CSI_FILL_PEAK p)))

def execHighSpeedEntry (t : Nat) (p : Fin 4) (deskew : Bool) (s : State) : Host.Outcome State Fault Refusal :=
  let s := s.atTime t
  done (if s.csiOn p then (s.raise (F.CSI_STAT_LINK p)).putB (F.CSI_STAT_DESKEW p) deskew else s)

def execHighSpeedExit (t : Nat) (p : Fin 4) (s : State) : Host.Outcome State Fault Refusal :=
  let s := s.atTime t
  done (if s.awake (csiPlace p) then s.put (F.CSI_STAT_LINK p) 0 else s)

/-- The slot of port `p` that takes packets of virtual channel `vc` (R89). -/
def State.slotOf (s : State) (p vc : Nat) : Option Nat :=
  if s.flag (F.CSI_CFG_VEN0 p) && s.get (F.CSI_CFG_VCS0 p) == vc then some 0
  else if s.flag (F.CSI_CFG_VEN1 p) && s.get (F.CSI_CFG_VCS1 p) == vc then some 1
  else none

/-- A packet dropped under R87 or R89: counted, with the flag `f`. -/
def State.unknownPacket (s : State) (p : Nat) (f : Fld) : State := (s.countSat (F.CSI_DCNT_UNK p)).raise f

/-- The open frame of context `c` changed. -/
def State.modOpen (s : State) (c : Nat) (f : Frame → Frame) : State :=
  match (s.ctx c).openFrame with
  | some _ => s.setCtx c ((s.ctx c).modLast f)
  | none => s

/-- Port `p` takes nothing because it, or VSC, is down for a restart: what arrives is lost as one that meets a full buffer (R113, R119; log 93). -/
def State.csiStopped (s : State) (p : Nat) : Bool :=
  s.flag (F.CSI_CFG_EN p) && !s.inBeanie && (s.restarting (csiPlace p) || s.restarting (fieldBlock 1 6))

/-- The open frame of context `c` loses a packet for want of room: it discards the rest up to its end, TRUNCATED (R113). -/
def State.truncOpen (s : State) (c : Nat) : State :=
  (s.countSat (F.VSC_DCNT_TRUNC c)).modOpen c (fun f => { f.mark 0 with discard := true })

/-- A packet is lost in a restart of its port or of VSC. -/
def State.lostPacket (s : State) (p vc : Nat) : State :=
  match s.slotOf p vc with
  | none => s
  | some k =>
    let c := 2 * p + k
    if !s.flag (F.VSC_CCFG_EN c) then s
    else
      let s := s.raise (F.CSI_STAT_OVF p)
      match (s.ctx c).openFrame with
      | some f => if f.discard then s else s.truncOpen c
      | none => s

/-- What a packet header brings about (R86, R113): the context that takes the packet, when one does. `hdr`: 0 clean, 1 corrected,
2 uncorrectable. -/
def State.header (s : State) (p vc hdr : Nat) : State × Option Nat :=
  if !s.csiOn p then (if s.csiStopped p && decide (hdr ≠ 2) then s.lostPacket p vc else s, none)
  else if hdr = 2 then
    let s := (s.countSat (F.CSI_ECNT_HDR p)).raise (F.CSI_STAT_HDR p)
    ((s.modOpen (2 * p) (·.mark 2)).modOpen (2 * p + 1) (·.mark 2), none)
  else
    let s := if hdr = 1 then (s.countSat (F.CSI_DCNT_ECC1 p)).raise (F.CSI_STAT_ECC1 p) else s
    match s.slotOf p vc with
    | none => (s.unknownPacket p (F.CSI_STAT_VCUNK p), none)
    | some k => (s, some (2 * p + k))

/-! Notices (R105, R106). -/

/-- The ID word (R104). -/
def Frame.idWord (f : Frame) (c pipe : Nat) : Nat := c + pipe * 8 + (if f.dropped then 15 else f.buf) * 16 + f.marks % 2 ^ 12 * 2 ^ 8

/-- The pipeline of a frame of context `c`: the one that took its end, else the one that the context is bound to (R104, R112). -/
def State.framePipe (s : State) (c : Nat) (f : Frame) : Nat := if f.processed then f.pipe else (s.ctx c).pipe

/-- The notice of a finished frame. -/
def State.notice (s : State) (c : Nat) (f : Frame) : State :=
  s.queRecord (F.VSC_NQ_EN c) (F.VSC_NQ_QUEUE c) 0x10
    [f.idWord c (s.framePipe c f), f.csifn + f.taken.length * 2 ^ 16, f.ctxfn, f.tseq, f.tstrike % 2 ^ 32, f.tstrike / 2 ^ 32]

/-- The context moves to the pipeline that PIPE names (R112). -/
def State.migrate (s : State) (c : Nat) : State :=
  let s := s.setCtx c { s.ctx c with pipe := s.get (F.VSC_CCFG_PIPE c), credit := s.get (F.VSC_CCFG_WEIGHT c), migAfter := 0 }
  s.put (F.VSC_CSTAT_MIGPEND c) 0

/-- The frame is the pipeline's to process: it is not dropped, and its end has not been taken. -/
def Frame.live (f : Frame) : Bool := !f.dropped && !f.processed

/-- A migration that waits is made once the frame that was open when it was asked for, and those before it, are processed (R112). -/
def State.migrateDue (s : State) (c : Nat) : State :=
  let x := s.ctx c
  if s.flag (F.VSC_CSTAT_MIGPEND c) && !(x.frames.take x.migAfter).any Frame.live then s.migrate c else s

/-- The oldest frame of context `c` is finished: it leaves the context, and a migration that waited for it is made (R112). -/
def State.popFrame (s : State) (c : Nat) : State :=
  let x := s.ctx c
  (s.setCtx c { x with frames := x.frames.drop 1, migAfter := x.migAfter - 1 }).migrateDue c

/-- Closed dropped frames at the head of context `c` leave it with their notices (R105, R106); `n` bounds their number. -/
def State.settleFrames (s : State) (c : Nat) : Nat → State
  | 0 => s
  | n + 1 =>
    match (s.ctx c).frames with
    | f :: _ => if f.dropped && !f.isOpen then ((s.notice c f).popFrame c).settleFrames c n else s
    | [] => s

/-- `settleFrames` over all the frames of context `c`. -/
def State.settleAll (s : State) (c : Nat) : State := s.settleFrames c (s.ctx c).frames.length

/-- The open frame of context `c` closes now with the marks of `f` (R92, R113). Lines discarded after an overflow were not received, so a truncated frame is
SHORT too; a dropped one never is (log 93). -/
def State.closeFrame (s : State) (c : Nat) (f : Frame → Frame) : State :=
  match (s.ctx c).openFrame with
  | none => s
  | some fr =>
    let fr := { f fr with isOpen := false, tfe := s.now }
    let fr := if fr.lines < s.get (F.VSC_CGEO_HEIGHT c) ∧ !fr.dropped then fr.mark 3 else fr
    let s := s.setCtx c ((s.ctx c).modLast (fun _ => fr))
    (((s.put (F.VSC_CSTAT_OPEN c) 0).put (F.VSC_CSTAT_MARKS c) fr.marks).settleAll c).migrateDue c

/-! Frame start (R92–R102). -/

/-- The parameters of context `c` for a frame with the given parameter block and shading table. -/
def State.pipeOf (s : State) (c : Nat) (pb lsc : List Byte) : Pipe :=
  { ctx := c, width := s.get (F.VSC_CGEO_WIDTH c), height := s.get (F.VSC_CGEO_HEIGHT c), bits := 10 + 2 * s.get (F.VSC_CCFG_DT c),
    recon := s.get (F.VSC_CCFG_RECON c), tap := s.get (F.VSC_CCFG_TAP c),
    mos := s.word (R.VSC_MOS_LO c) % 2 ^ 30 + s.word (R.VSC_MOS_HI c) % 2 ^ 18 * 2 ^ 30, pb := pb, lsc := lsc }

/-- Bytes of the embedded-data area (R103). -/
def State.embArea (s : State) (c : Nat) : Nat := if s.flag (F.VSC_CCFG_EMB c) then 4096 else 0

/-- The strike that a frame-start stamp of context `c` matches (R94). -/
def State.matchStrike (s : State) (c tau : Nat) : Option (Nat × Nat) :=
  let n := s.get (F.VSC_CCFG_TLINE c)
  if s.get (F.HB_LCFG_MODE n) != 1 then none
  else
    match (s.line n).strikes.find? (fun e => decide (e.2 ≤ tau)) with
    | none => none
    | some e =>
      if (s.ctx c).lastSeq != some e.1 && decide (s.get (F.VSC_TWIN_WMIN c) * 1000 ≤ tau - e.2)
          && decide (tau - e.2 ≤ s.get (F.VSC_TWIN_WMAX c) * 1000) then some e
      else none

/-- Frames of context `c` that hold a buffer and are not yet written. -/
def Ctx.inFlight (x : Ctx) : Nat := x.frames.countP (fun f => !f.dropped)

/-- A frame start of context `c` with frame number `fn` (R92–R102, R113). -/
def State.frameStart (s : State) (c fn : Nat) : State :=
  let s := s.closeFrame c id
  let tau := s.now
  let f : Frame := { csifn := fn, ctxfn := s.word (R.VSC_FCNT c), tstrike := tau, tfs := tau }
  let s := s.setWord (R.VSC_FCNT c) (s.word (R.VSC_FCNT c) + 1)
  let hit := if s.flag (F.VSC_CCFG_TEN c) then s.matchStrike c tau else none
  let s := match hit with
    | some e => s.setCtx c { s.ctx c with lastSeq := some e.1 }
    | none => s
  let f := match hit with
    | some e => { f with tseq := e.1, tstrike := e.2 }
    | none => if s.flag (F.VSC_CCFG_TEN c) then f.mark 5 else f
  let s := if f.marked 5 then s.countSat (F.VSC_UCNT_UNTRIG c) else s
  let pb := s.readBytes (s.getAddr (R.VSC_PB_LO c) (R.VSC_PB_HI c)) 512
  let lsc := if wbit (leAt pb 14 2) 1 then s.readBytes (leAt pb 16 8) 2890 else []
  let good := (s.pipeOf c pb lsc).valid (s.embArea c) (s.get (F.VSC_BUF_STRIDE c) * 256) (s.get (F.VSC_TSTR_TSTR c) * 256)
  let wr := s.get (F.VSC_WR_WR c) + (s.ctx c).inFlight
  let nbuf := s.get (F.VSC_BUF_NBUF c)
  let room := decide ((wr + 2 ^ 16 - s.get (F.VSC_REL_REL c)) % 2 ^ 16 < nbuf)
  let s := if good then s else (s.raise (F.VSC_CSTAT_CFGERR c)).event 0x2101 (vscPlace c) (p1 := f.ctxfn)
  let f := if good && room then { f with buf := wr % 2 ^ 16 % nbuf, pb := pb, lsc := lsc } else { f.mark 6 with discard := true }
  let s := if f.dropped then s.countSat (F.VSC_DCNT_DROP c) else s
  (s.setCtx c { s.ctx c with frames := (s.ctx c).frames ++ [f] }).raise (F.VSC_CSTAT_OPEN c)

def execFrameStartPacket (t : Nat) (p : Fin 4) (vc : Fin 4) (fn : BitVec 16) (hdr : Fin 3) (s : State) : Host.Outcome State Fault Refusal :=
  let r := (s.atTime t).header p vc hdr
  match r.2 with
  | some c => done (if r.1.flag (F.VSC_CCFG_EN c) then r.1.frameStart c fn.toNat else r.1)
  | none => done r.1

def execFrameEndPacket (t : Nat) (p : Fin 4) (vc : Fin 4) (hdr : Fin 3) (s : State) : Host.Outcome State Fault Refusal :=
  let r := (s.atTime t).header p vc hdr
  match r.2 with
  | some c => done (r.1.closeFrame c id)
  | none => done r.1

/-! Pipelines (R107–R112). -/

/-- Context `c` is bound to pipeline `q` (R107). -/
def State.boundTo (s : State) (c q : Nat) : Bool := s.flag (F.VSC_CCFG_EN c) && (s.ctx c).pipe == q

/-- The frame of a context that the pipeline processes. -/
def Ctx.work (x : Ctx) : Option Frame := x.frames.find? Frame.live

/-- The frame that the pipeline processes, changed. -/
def Ctx.modWork (x : Ctx) (g : Frame → Frame) : Ctx := { x with frames := x.frames.modify (x.frames.findIdx Frame.live) g }

/-- READYL in force on pipeline `q`: the one of the last grant point while a grant lasts (R115). -/
def State.readyLines (s : State) (q : Nat) : Nat :=
  if s.flag (F.MPL_STAT_BUSY q) then s.mplReadyl.getD q 15 else s.get (F.MPL_CFG_READYL q)

/-- Context `c` is ready for pipeline `q` (R107). -/
def State.ready (s : State) (c q : Nat) : Bool :=
  match (s.ctx c).work with
  | some f => !f.isOpen || decide (s.readyLines q + 1 ≤ f.waiting.countP (fun e => !e.1)) || decide (49152 ≤ f.waitingBytes)
  | none => false

/-- VSC_CSTAT:MARKS of context `c` brought up to date while its last closed frame, in `fs`, still gains marks (R116). -/
def State.marksNow (s : State) (c : Nat) (fs : List Frame) : State :=
  match (fs.filter (fun f => !f.isOpen)).getLast? with
  | some f => s.put (F.VSC_CSTAT_MARKS c) f.marks
  | none => s

/-- The pipeline takes the packets of its context up to the `n`-th line (R98, R103). -/
def Frame.take (f : Frame) (emb : Bool) : Nat → List (Bool × List Byte) → Frame
  | _, [] => { f with waiting := [] }
  | n, (true, d) :: r =>
    let all := f.emb ++ d
    let f := if emb then { f with emb := all.take 4096 } else f
    (if emb && decide (4096 < all.length) then f.mark 9 else f).take emb n r
  | 0, (false, d) :: r => { f with waiting := (false, d) :: r }
  | n + 1, (false, d) :: r => { f with taken := f.taken ++ [d] }.take emb n r

/-- Lines that the grant in force on pipeline `q` may still take (R108). -/
def State.grantRoom (s : State) (q : Nat) : Nat := if s.mplStripe.getD q true then 64 - s.mplLines.getD q 0 else 2 ^ 32

/-- Pipeline `q` processes up to `n` waiting lines of the context that holds its grant. -/
def State.takeLines (s : State) (q n : Nat) : State :=
  let c := s.get (F.MPL_STAT_CTX q)
  let x := s.ctx c
  match x.work with
  | none => s
  | some f =>
    let n := min (min n (s.grantRoom q)) (f.waiting.countP (fun e => !e.1))
    let x := x.modWork (fun f => f.take (s.flag (F.VSC_CCFG_EMB c)) n f.waiting)
    let s := (s.setCtx c x).marksNow c x.frames
    let s := { s with mplLines := s.mplLines.set q (s.mplLines.getD q 0 + n) }
    (s.count (F.MPL_PIX_PIX q) (n * s.get (F.VSC_CGEO_WIDTH c))).portFill (c / 2)

/-- The order in which pipeline `q` considers the contexts (R109). -/
def ptrOrder (ptr : Nat) : List Nat := (List.range 8).map (fun i => (ptr + 1 + i) % 8)

/-- A grant point of pipeline `q` (R109). CTX resets to 0, so the first grant after a reset counts no switch when it goes to context 0 (R110; log 93). -/
def State.grant (s : State) (q : Nat) : State :=
  if s.flag (F.MPL_STAT_BUSY q) || !s.mplOn q then s
  else
    let order := ptrOrder (s.get (F.MPL_STAT_PTR q))
    let able := order.filter (fun c => s.boundTo c q && s.ready c q)
    let cand := able.filter (fun c => decide (0 < (s.ctx c).credit))
    let s := if cand.isEmpty && !able.isEmpty then
        order.foldl (fun s c => if s.boundTo c q then s.setCtx c { s.ctx c with credit := s.get (F.VSC_CCFG_WEIGHT c) } else s) s
      else s
    match (if cand.isEmpty then able else cand) with
    | [] => s
    | c :: _ =>
      let s := s.setCtx c { s.ctx c with credit := (s.ctx c).credit - 1 }
      let s := if s.get (F.MPL_STAT_CTX q) = c then s else s.count (F.MPL_SWCNT_SW q)
      let s := ((s.put (F.MPL_STAT_PTR q) c).put (F.MPL_STAT_CTX q) c).raise (F.MPL_STAT_BUSY q)
      { s with mplLines := s.mplLines.set q 0, mplStripe := s.mplStripe.set q (s.flag (F.MPL_CFG_SMODE q))
               mplReadyl := s.mplReadyl.set q (s.get (F.MPL_CFG_READYL q)) }

def execPipelineGrant (t : Nat) (q : Fin 2) (s : State) : Host.Outcome State Fault Refusal := done ((s.atTime t).grant q)

/-- The end of the grant of pipeline `q` (R108); without its conditions the grant stays. -/
def State.grantEnd (s : State) (q : Nat) : State :=
  if !s.flag (F.MPL_STAT_BUSY q) || !s.mplOn q then s
  else
    let c := s.get (F.MPL_STAT_CTX q)
    let s := s.takeLines q (2 ^ 32)
    let closed := match (s.ctx c).work with
      | some f => !f.isOpen && f.waiting.isEmpty
      | none => true
    let empty := match (s.ctx c).work with
      | some f => f.waiting.isEmpty
      | none => true
    let s := if closed then (s.setCtx c ((s.ctx c).modWork (fun f => { f with processed := true, pipe := q }))).migrateDue c else s
    let other := (List.range 8).any (fun d => d != c && s.boundTo d q && s.ready d q)
    let full := decide (64 ≤ s.mplLines.getD q 0)
    if closed || (s.mplStripe.getD q true && (full || (empty && other))) then s.put (F.MPL_STAT_BUSY q) 0 else s

def execGrantEnd (t : Nat) (q : Fin 2) (s : State) : Host.Outcome State Fault Refusal := done ((s.atTime t).grantEnd q)

/-! Long packets (R87, R90, R93, R103, R113). -/

/-- The pipelines have taken `n` lines out of the buffer of port `p` under the grants in force. -/
def State.drainPort (s : State) (p n : Nat) : State :=
  (List.range 2).foldl (fun s q =>
    if s.flag (F.MPL_STAT_BUSY q) && s.mplOn q && s.get (F.MPL_STAT_CTX q) / 2 == p then s.takeLines q n else s) s

/-- The bytes that a line of context `c` must carry (R93). -/
def State.lineBytes (s : State) (c : Nat) : Nat := s.get (F.VSC_CGEO_WIDTH c) * (10 + 2 * s.get (F.VSC_CCFG_DT c)) / 8

/-- A long packet for the open frame of context `c`; without one it takes no room and leaves no trace. Embedded data that EMB = 0 leaves out takes no room in the buffer and cannot meet a full one, as frame
starts and frame ends (log 93). -/
def State.longPacket (s : State) (p c dt : Nat) (crcOk : Bool) (d : List Byte) : State :=
  match (s.ctx c).openFrame with
  | none => s
  | some f =>
    let f := if crcOk then f else { f.mark 1 with crcErrs := min (f.crcErrs + 1) 65535 }
    let s := s.modOpen c (fun _ => f)
    if f.discard then s
    else if dt = 0x12 ∧ !s.flag (F.VSC_CCFG_EMB c) then s
    else if 98304 < s.portBytes p + d.length then
      (s.raise (F.CSI_STAT_OVF p)).truncOpen c
    else if dt = 0x12 then (s.modOpen c (fun f => { f with waiting := f.waiting ++ [(true, d)] })).portFill p
    else if s.get (F.VSC_CGEO_HEIGHT c) ≤ f.lines then
      (s.countSat (F.VSC_UCNT_XLINES c)).modOpen c (fun f => { f.mark 4 with xlines := min (f.xlines + 1) 65535 })
    else
      let s := if d.length = s.lineBytes c then s else s.modOpen c (fun f => { f.mark 8 with lineLens := min (f.lineLens + 1) 65535 })
      (s.modOpen c (fun f => { f with waiting := f.waiting ++ [(false, d)] })).portFill p

/-- A long packet on port `p`: its CRC is checked whatever becomes of it (R86); its virtual channel is looked at before its data type (log 93).
`drained`: lines that the pipelines have taken out of the buffer before. -/
def execLongPacket (t : Nat) (p : Fin 4) (vc : Fin 4) (dt : BitVec 6) (hdr : Fin 3) (crcOk : Bool) (payload : List Byte) (drained : Nat)
    (s : State) : Host.Outcome State Fault Refusal :=
  let s := (s.atTime t).drainPort p drained
  let s := if s.csiOn p && decide (hdr ≠ 2) && !crcOk then (s.countSat (F.CSI_ECNT_CRC p)).raise (F.CSI_STAT_CRC p) else s
  let r := s.header p vc hdr
  match r.2 with
  | none => done r.1
  | some c =>
    let s := r.1
    if dt.toNat ≠ 0x12 ∧ dt.toNat ≠ 0x2B + s.get (F.VSC_CCFG_DT c) then done (s.unknownPacket p (F.CSI_STAT_UNKDT p))
    else done (if s.flag (F.VSC_CCFG_EN c) then s.longPacket p c dt.toNat crcOk payload else s)

/-! Completion (R98–R106). -/

/-- IRVR of the statistics record (R104); a ratio that does not fit Q8.24 has no stated value. -/
def State.irvr (s : State) (p : Pipe) (sums : List Nat) : Nat × State :=
  let vis := if p.recon = 0 then sums.getD 0 0 + sums.getD 1 0 + sums.getD 2 0 else sums.getD 3 0
  if !p.has 4 then (0, s)
  else if vis = 0 then (0xFFFFFFFF, s)
  else
    let v := (rdiv (sums.getD 4 0 * 2 ^ 24 : Nat) vis).toNat
    if v < 2 ^ 32 then (v, s) else (s.free.1 % 2 ^ 32, s.free.2)

/-- SHARP; a frame without lines has no stated mean. -/
def State.sharpOf (s : State) (o : FrameOut) (lines : Nat) : Nat × State :=
  if lines = 0 then (s.free.1 % 2 ^ 32, s.free.2) else (o.sharp, s)

/-- The statistics record's words (R104). -/
def Frame.statWords (f : Frame) (id sharp irvr : Nat) (o : FrameOut) : List Nat :=
  [id, f.csifn, f.ctxfn, f.tseq, f.tstrike, f.tstrike / 2 ^ 32, f.tfs, f.tfs / 2 ^ 32, f.tfe, f.tfe / 2 ^ 32,
   f.taken.length + f.xlines * 2 ^ 16, f.crcErrs + f.lineLens * 2 ^ 16, sharp, irvr, 0, 0]
    ++ o.sums.flatMap (fun v => [v, v / 2 ^ 32]) ++ List.replicate 6 0 ++ o.hist

/-- A grant of a pipeline on context `c` ends. -/
def State.freeGrant (s : State) (c : Nat) : State :=
  (List.range 2).foldl (fun s q => if s.flag (F.MPL_STAT_BUSY q) && s.get (F.MPL_STAT_CTX q) == c then s.put (F.MPL_STAT_BUSY q) 0 else s) s

/-- A parity error in pipeline `q` that poisoned the output words at `words` (R44, R113). -/
def State.pipeParity (s : State) (q : Nat) (words : List Nat) : State :=
  let s := (s.countSat (F.MPL_PCNT_PERR q)).raiseIf (!words.isEmpty) (F.MPL_STAT_POISON q)
  let s := words.foldl (fun s a => s.markPoison a 4) s
  s.poisonFault (mplPlace q) (words.headD 0)

/-- The oldest frame of context `c` is written to field DRAM and its notice follows. `bad` lists, for each parity error, the 32-bit words that it
poisoned, by area (0 embedded data, 1 image, 2 tap, 3 statistics record) and offset in words (R113). -/
def State.frameComplete (s : State) (c : Nat) (bad : List (List (Fin 4 × Nat))) : State :=
  match (s.ctx c).frames with
  | [] => s
  | f :: later =>
    if f.isOpen || f.dropped || !f.waiting.isEmpty || !s.mplOn (s.framePipe c f) then s
    else
      let q := s.framePipe c f
      let p := s.pipeOf c f.pb f.lsc
      let s := if f.processed then s else s.freeGrant c
      let f := if bad.flatten.isEmpty then f else f.mark 7
      let o := p.process f.taken
      let base := s.getAddr (R.VSC_OUT_LO c) (R.VSC_OUT_HI c) + f.buf * s.get (F.VSC_BUF_STRIDE c) * 256
      let image := base + s.embArea c
      let tap := s.getAddr (R.VSC_TAP_LO c) (R.VSC_TAP_HI c) + f.buf * s.get (F.VSC_TSTR_TSTR c) * 256
      let st := s.getAddr (R.VSC_ST_LO c) (R.VSC_ST_HI c) + f.buf * 0x480
      let write (s : State) (a : Nat) (b : List Byte) : State := if s.inDram a b.length then (s.writeBytes a b).dmaWrote a b.length else s
      let s := write (write (write s base f.emb) image o.image) tap o.tap
      let sh := s.sharpOf o f.taken.length
      let ir := sh.2.irvr p o.sums
      let s := ir.2
      let s := if s.inDram st 1152 then (s.writeWords st (f.statWords (f.idWord c q) sh.1 ir.1 o)).dmaWrote st 1152 else s
      let area (k : Fin 4) : Nat := match k with
        | 0 => base
        | 1 => image
        | 2 => tap
        | 3 => st
      let s := bad.foldl (fun s ws => s.pipeParity q (ws.map (fun w => area w.1 + 4 * w.2))) s
      let s := s.marksNow c (f :: later)
      let s := (s.count (F.VSC_WR_WR c)).notice c f
      let s := s.queueFrameJobs { ctx := c, ctxfn := f.ctxfn, tseq := f.tseq, tstrike := f.tstrike, marks := f.marks, addr := image,
                                  width := p.width / p.hf, height := p.height / p.vf }
      (s.popFrame c).settleAll c

def execFrameComplete (t : Nat) (c : Fin 8) (bad : List (List (Fin 4 × Nat))) (s : State) : Host.Outcome State Fault Refusal :=
  done ((s.atTime t).frameComplete c bad)

/-! Context registers (R102, R112, R116). -/

/-- A write of VSC_REL{c}: a value that would make (WR − REL) exceed NBUF is ignored. -/
def State.wRel (s : State) (c v : Nat) : Acc2 :=
  okay (if (s.get (F.VSC_WR_WR c) + 2 ^ 16 - v % 2 ^ 16) % 2 ^ 16 ≤ s.get (F.VSC_BUF_NBUF c) then s.put (F.VSC_REL_REL c) v else s)

/-- Context `c` is enabled: counts cleared, bound to its pipeline with a full credit (R94, R109, R116). -/
def State.contextOn (s : State) (c : Nat) : State :=
  let s := ((s.put (F.VSC_WR_WR c) 0).put (F.VSC_REL_REL c) 0).setWord (R.VSC_FCNT c) 0
  s.setCtx c { credit := s.get (F.VSC_CCFG_WEIGHT c), pipe := s.get (F.VSC_CCFG_PIPE c) }

/-- Every frame of context `c` that is not complete closes at once as DROPPED (R113), those closed and not yet written with it (log 93). -/
def State.dropFrames (s : State) (c : Nat) : State :=
  let fresh := (s.ctx c).frames.countP (fun f => !f.dropped)
  let s := s.countSat (F.VSC_DCNT_DROP c) fresh
  let drop (f : Frame) : Frame := { f.mark 6 with isOpen := false, waiting := [], discard := true, tfe := if f.isOpen then s.now else f.tfe }
  let x := s.ctx c
  let fs := x.frames.map drop
  let s := s.setCtx c { x with frames := fs }
  let s := match fs.getLast? with
    | some f => s.put (F.VSC_CSTAT_MARKS c) f.marks
    | none => s
  ((s.put (F.VSC_CSTAT_OPEN c) 0).settleAll c).portFill (c / 2)

/-- A write of VSC_CCFG{c} (R116): while EN = 1 only EN, PIPE and WEIGHT may change. -/
def State.wCcfg (s : State) (m : Master) (c v : Nat) : Acc2 :=
  let old := s.word (R.VSC_CCFG c)
  let fixed (w : Nat) : Nat := withField (F.VSC_CCFG_EN c) (withField (F.VSC_CCFG_PIPE c) (withField (F.VSC_CCFG_WEIGHT c) w 0) 0) 0
  let was := s.flag (F.VSC_CCFG_EN c)
  let changes := fixed (regWritten (R.VSC_CCFG c) old v) != fixed old
  let r := s.plainWrite m (R.VSC_CCFG c) v (guard := !(was && changes))
  let ok := r.1.word (R.VSC_CCFG c) != old
  let s := r.1
  if r.2 != stOk || !ok then r
  else
    let on := s.flag (F.VSC_CCFG_EN c)
    if !was && on then okay (s.contextOn c)
    else if was && !on then okay ((s.dropFrames c).freeGrant c)
    else if was && s.get (F.VSC_CCFG_PIPE c) != fieldOf (F.VSC_CCFG_PIPE c) old then
      let x := s.ctx c
      if x.openFrame.isNone then okay ((s.freeGrant c).migrate c)
      else okay ((s.raise (F.VSC_CSTAT_MIGPEND c)).setCtx c { x with migAfter := x.frames.length })
    else okay s

/-- The line length and the number of lines that R93 admits. -/
def geoOk (width height : Nat) : Bool :=
  width % 8 == 0 && decide (64 ≤ width) && decide (width ≤ 8192) && height % 8 == 0 && decide (8 ≤ height) && decide (height ≤ 8192)

/-- A write of a word of context `c` that R116 refuses while EN = 1; CGEO takes what R93 admits. -/
def State.wCtxReg (s : State) (m : Master) (c a v : Nat) : Acc2 :=
  s.plainWrite m a v (guard := !s.flag (F.VSC_CCFG_EN c) && (a != R.VSC_CGEO c || geoOk (v % 2 ^ 16) (v / 2 ^ 16)))

/-- Writing 1 clears VSC_DCNT{c} and VSC_UCNT{c}. -/
def State.wVscClr (s : State) (c v : Nat) : Acc2 := okay (if wbit v 0 then (s.setWord (R.VSC_DCNT c) 0).setWord (R.VSC_UCNT c) 0 else s)

/-! Port and pipeline registers (R114, R115, R117). -/

/-- The open frames of port `p` close as TRUNCATED (R114, R117). One that is DROPPED already gets the mark and is not counted again (log 93). -/
def State.truncatePort (s : State) (p : Nat) : State :=
  [2 * p, 2 * p + 1].foldl (fun s c =>
    match (s.ctx c).openFrame with
    | some f =>
      let s := if f.dropped || f.marked 0 then s else s.countSat (F.VSC_DCNT_TRUNC c)
      s.closeFrame c (·.mark 0)
    | none => s) s

/-- A write of CSI_CFG{p} (R114): while EN = 1 only EN may change; clearing EN truncates the open frames. -/
def State.wCsiCfg (s : State) (m : Master) (p v : Nat) : Acc2 :=
  let old := s.word (R.CSI_CFG p)
  let was := s.flag (F.CSI_CFG_EN p)
  let r := s.plainWrite m (R.CSI_CFG p) v (guard := !was || regWritten (R.CSI_CFG p) old v / 2 == old / 2)
  if r.2 == stOk && was && !r.1.flag (F.CSI_CFG_EN p) then okay (r.1.truncatePort p) else r

/-- A write of CSI_RATE{p}: refused while EN = 1. -/
def State.wCsiRate (s : State) (m : Master) (p v : Nat) : Acc2 := s.plainWrite m (R.CSI_RATE p) v (guard := !s.flag (F.CSI_CFG_EN p))

/-- Writing 1 clears CSI_ECNT, CSI_DCNT and PEAK. -/
def State.wCsiClr (s : State) (p v : Nat) : Acc2 :=
  okay (if wbit v 0 then ((s.setWord (R.CSI_ECNT p) 0).setWord (R.CSI_DCNT p) 0).put (F.CSI_FILL_PEAK p) 0 else s)

/-- Writing 1 clears MPL_PCNT. -/
def State.wMplClr (s : State) (q v : Nat) : Acc2 := okay (if wbit v 0 then s.setWord (R.MPL_PCNT q) 0 else s)

/-- The frame in the grant of pipeline `q` closes as DROPPED, with a notice (R117). -/
def State.dropGrant (s : State) (q : Nat) : State :=
  if !s.flag (F.MPL_STAT_BUSY q) then s
  else
    let c := s.get (F.MPL_STAT_CTX q)
    let x := s.ctx c
    let s := match x.work with
      | some f =>
        let s := (s.countSat (F.VSC_DCNT_DROP c)).putB (F.VSC_CSTAT_OPEN c) (x.openFrame.isSome && !f.isOpen)
        let x := x.modWork (fun f => { f.mark 6 with isOpen := false, waiting := [], discard := true, tfe := if f.isOpen then s.now else f.tfe })
        ((((s.setCtx c x).marksNow c x.frames).settleAll c).migrateDue c).portFill (c / 2)
      | none => s
    { s.put (F.MPL_STAT_BUSY q) 0 with mplLines := s.mplLines.set q 0 }

/-- A block reset of CSI{p} (R117). Lines in its input buffer stay to be processed, while FILL reads 0 until the next packet (log 93). -/
def State.csiReset (s : State) (p : Nat) : State := (s.truncatePort p).clearRegs (R.CSI_CFG p) (R.CSI_CFG p + 0x100)

/-- A block reset of MPL{q} (R117). -/
def State.mplReset (s : State) (q : Nat) : State := (s.dropGrant q).clearRegs (R.MPL_CFG q) (R.MPL_CFG q + 0x100)

/-- A block reset of VSC (R117): open frames are abandoned without notice. -/
def State.vscReset (s : State) : State :=
  let s := (List.range 2).foldl (fun s q => s.put (F.MPL_STAT_BUSY q) 0) s
  let s := { s with ctxs := List.replicate 8 {}, mplLines := List.replicate 2 0, mplStripe := List.replicate 2 true, mplReadyl := List.replicate 2 15 }
  let s := s.clearRegs (R.VSC_CCFG 0) (R.VSC_CCFG 8)
  (List.range 4).foldl State.portFill s

end Sys2Proof.Machine
end

