-- ==== Sys2Proof/Machine/BlockReset.lean ====
section
/-! DEFINITION. What a block reset does to each block (spec/15_reset_power_startup.md R511–R513, R527; the reset rules of each chapter). -/

namespace Sys2Proof.Machine

/-! The fusion blocks (R194). -/

/-- A block reset of FEX: its jobs and registers; the weight set in the current slot is loaded again, one that the factory
stored as it was last decrypted (log 64). -/
def State.fexReset (s : State) : State :=
  let s := (s.withFus { s.fus with jobs := [], started := none, heads := [], restarting := false, jobBad := false, setBase := 0, busyNs := 0 }).clearRegs
    R.FEX_CFG (R.FEX_CFG + 0x10000)
  if s.imageKnown 4 false then s.fexTake (s.imagePlain 4 false [])
  else
    match s.fus.curPlain with
    | some plain => s.fexTake plain
    | none => s

/-- A block reset of FUS: sources, grids and heads off. -/
def State.fusReset (s : State) : State :=
  ((s.withFus { s.fus with srcs := List.replicate 32 {}, grids := List.replicate 4 {}, heads := [] }).clearRegs R.FUS_SD_LO (R.FUS_SD_LO + 0x10000)).fexStat

/-- A block reset of YT: its tiles off. -/
def State.ytReset (s : State) : State := (s.withFus { s.fus with ytPos := none }).clearRegs R.YT_CFG (R.YT_CFG + 0x10000)

/-! Recorder and concentrator (R544). -/

/-- A block reset of EVR: it flushes first, so it loses no record, and takes its counts up again from the record area. -/
def State.evrReset (s : State) : State :=
  let s := s.evrUnfreeze.flushLog
  let s := { s.clearRegs R.EVR_CTL (R.EVR_CTL + 0x10000) with evr := {}, perMaster := s.perMaster.filter (fun e => e.1.2 != R.EVR_BPAGE) }
  s.evrStart

/-- A block reset of FLT: open windows are discarded without records. -/
def State.fltReset (s : State) : State :=
  (s.withFlt { s.flt with windows := [], sec := 0, inSec := 0, lost := 0, lostCode := 0 }).clearRegs R.FLT_CFG (R.FLT_CFG + 0x10000)

/-! Update and tally (R566, R567, R571). -/

/-- What UPD keeps through a reset: identity, selector, slots and versions; an OPEN slot becomes INCOMPLETE. -/
def State.updKept (s : State) : List (Nat × Nat) :=
  [(R.UPD_ID, s.word R.UPD_ID), (R.UPD_BSEQ, s.word R.UPD_BSEQ)] ++ [1, 2, 3, 4, 5].flatMap (fun k =>
    let stg := if s.stg k = stgOpen then stgIncomplete else s.stg k
    let w := s.get (F.UPD_KSTAT_CUR k) + s.get (F.UPD_KSTAT_PSCUR k) * 2 + s.get (F.UPD_KSTAT_TRY k) * 4 + stg * 16 + s.get (F.UPD_KSTAT_TRIES k) * 256
    [(R.UPD_KSTAT k, w), (R.UPD_SRCV k, s.word (R.UPD_SRCV k)), (R.UPD_CVER k, s.word (R.UPD_CVER k)), (R.UPD_TVER k, s.word (R.UPD_TVER k))])

/-- UPD's own part after a reset of its block: no staging or COMMIT runs; which microcode a block runs, and its restart, stand. -/
def UpdSt.cut (x : UpdSt) : UpdSt :=
  { x with kinds := x.kinds.map (fun i => { i with committing := false, runAt := none, resp := none }), staging := [] }

/-- UPD's own part after a module reset: every block starts anew. -/
def UpdSt.halted (x : UpdSt) : UpdSt := { x.cut with restarting := [], trials := [], stopped := [] }

/-- Registers set, address and value. -/
def State.setWords (s : State) (l : List (Nat × Nat)) : State := l.foldl (fun s e => s.setWord e.1 e.2) s

/-- A block reset of UPD. -/
def State.updReset (s : State) : State :=
  let kept := s.updKept
  ((s.clearRegs R.UPD_ID (R.UPD_ID + 0x10000)).setWords kept).withUpd s.upd.cut

/-- A block reset of TLY: a burn that runs is cut off (R570). -/
def State.tlyReset (s : State) : State :=
  let s := s.tallyCut
  (s.clearRegs R.TLY_STAT (R.TLY_STAT + 0x10000)).tallyRowCounts

/-! Posture and SAFE_N (R527). -/

/-- The level of SAFE_N now: it is low only after an assertion; whether it has gone high since, for less than 10 ms, is open (log 81). -/
def State.safeLow (s : State) : Bool × State :=
  if s.flag F.RST_STAT_SAFE then (s.free.1 % 2 == 1, s.free.2) else (false, s)

/-- A block reset of PST: SAFEL and OVV clear, the mirrors reload; a SAFE_N that is low acts as an assertion, one that is high holds no port. -/
def State.pstReset (s : State) : State :=
  let level := [F.PST_STAT_CLKF, F.PST_STAT_BENCH, F.PST_STAT_APPLIED].map (fun f => (f, s.get f))
  let r := ((s.clearRegs R.PST_STAT (R.PST_STAT + 0x10000)).tallyMirror 8).safeLow
  let s := level.foldl (fun s e => s.put e.1 e.2) r.2
  if r.1 then s.safeTake.event 0x240D pstPlace else s.put F.RST_STAT_SAFE 0

/-! Links (R470). -/

/-- A block reset of ETH: registers and the learning table; what it had queued is lost. -/
def State.ethReset (s : State) : State :=
  (s.clearRegs R.ETH_MAC_LO (R.ETH_MAC_LO + 0x10000)).withNet { s.net with macs := [], egress := [], frags := [] }

/-- A block reset of LMP: held responses, cache and subscriptions go without responses. -/
def State.lmpReset (s : State) : State :=
  ({ s.clearRegs R.LMP_CFG (R.LMP_CFG + 0x10000) with lmpCan := [], lmpRes := [] } : State).withNet { s.net with cache := [], heldResps := [], subs := [], lmpUdp := [], hosts := [] }

/-- A block reset of USB: detached for 10 ms; EN follows the strap. -/
def State.usbReset (s : State) : State :=
  let s := (s.clearRegs R.USB_CFG (R.USB_CFG + 0x10000)).put F.USB_CFG_EN (s.get F.RST_STRAP_CODE / 4)
  s.withNet { s.net with usbOff := s.clock + 10000000 }

/-! Halves and transport (R37, R246, R505). -/

/-- A reset of an A-core of a half that runs: it starts again where the boot controller starts it (log 8). -/
def State.coreReset (s : State) (h c : Nat) : State :=
  let f := s.free
  let run := s.isActive h && s.role.bootAt.isSome
  f.2.modACore (h * 4 + c) (fun _ => 
    { Cpu.fresh with cycBase := s.clock, started := run, pc := if run then BitVec.ofNat 64 (f.1 % 2 ^ 46 * 4) else 0 })

/-- A block reset of HMN of half `h`. -/
def State.hmnReset (s : State) (h : Nat) : State := s.clearRegs (R.HMN_WDCFG h) (R.HMN_WDCFG h + 0x10000)

/-- A block reset of QUE: its registers and the record counts. -/
def State.queReset (s : State) : State := { s.clearRegs (R.QUE_BASE_LO 0) (R.QUE_BASE_LO 0 + 0x10000) with queSeq := [] }

/-- A block reset of PPS. -/
def State.ppsReset (s : State) : State := (s.clearRegs R.PPS_CFG (R.PPS_CFG + 0x10000)).withHb { s.hb with ppsEnds := 0 }

/-- The reset of one block, by its whole-block place code; RST, CLK and ROLE, and the blocks without state of their own, are left as they
are. -/
def State.blockReset (s : State) (p : Nat) : State :=
  let b := plBlock p
  match plDomain p, plCluster p with
  | 1, c | 2, c =>
    let h := plDomain p - 1
    match c, b with
    | 0, 4 => s
    | 0, k => s.coreReset h k
    | 1, 0 => s.lphReset h
    | 1, 1 => s.ceReset h
    | 1, k => s.lanReset h (k - 2)
    | 2, _ => s.hmnReset h
    | _, _ => s
  | 3, 0 =>
    match b with
    | 2 => s.hbReset
    | 4 => s.evrReset
    | 5 => s.fltReset
    | 6 => s.updReset
    | 7 => s.tlyReset
    | 8 => s.ownReset
    | _ => s
  | 3, 1 => if b < 4 then s.csiReset b else if b < 6 then s.mplReset (b - 4) else s.vscReset
  | 3, 2 =>
    match b with
    | 0 => s.fexReset
    | 1 => s.clearRegs R.PRJ_PTS (R.PRJ_PTS + 0x10000)
    | 2 => s.fusReset
    | _ => s.ytReset
  | 3, 3 =>
    match b with
    | 0 => s.hraReset
    | 1 => s.gpaReset
    | _ => s.fqiReset
  | 4, 4 =>
    match b with
    | 0 => s.fngReset
    | 1 => s.plmReset
    | 2 => s.ldsReset
    | 3 => s.brmReset
    | 4 => s.snpReset
    | 5 => s.mitReset
    | 6 => s.pstReset
    | _ => s
  | 3, 5 =>
    match b with
    | 0 => s.gnbReset
    | 1 => s.ppsReset
    | _ => s.imuReset
  | 3, 6 =>
    match b with
    | 4 => s.msgReset
    | 5 => s.objReset
    | 6 => s.ethReset
    | 7 => s.lmpReset
    | 8 => s.usbReset
    | n => s.canReset n
  | 3, 7 =>
    match b with
    | 0 => s.queReset
    | 1 => s.clearRegs R.FAB_PCNT (R.FAB_PCNT + 0x10000)
    | _ => s
  | _, _ => s

/-- The reset of one block with the holding registers of its window (R35). -/
def State.blockCleared (s : State) (p : Nat) : State :=
  let s := { s with held := s.held.filter (fun e => !(blockWindows p).any (fun w => decide (w.1 ≤ e.1.2) && decide (e.1.2 < w.1 + w.2))) }
  s.blockReset p

/-! The idle protocol (R511–R513). -/

/-- A reset request reaches block `p`, as part of the reset `g` whose wait began at `at'`; a block that already waits is joined (R513). -/
def State.blockRequest (s : State) (g at' p : Nat) : State :=
  if s.rst.blocks.any (fun e => e.place == p && e.applied.isNone) then s
  else { s with rst := { s.rst with blocks := s.rst.blocks.filter (fun e => e.place != p) ++ [{ place := p, startAt := at', group := g }] } }

/-- A reset of the blocks `l`: it joins the wait of a reset that one of them is already in, and its timer, else it begins one of its own (R511, R513). -/
def State.blockRequests (s : State) (l : List Nat) : State :=
  let fresh := (s.rst.blocks.map (·.group)).foldl max 0 + 1
  let w := (s.rst.blocks.find? (fun e => l.contains e.place && e.applied.isNone)).getD { startAt := s.clock, group := fresh }
  l.foldl (fun s p => s.blockRequest w.group w.startAt p) s

/-- Block `p` waits for idle. -/
def State.blockWaits (s : State) (p : Nat) : Option Nat := (s.rst.blocks.find? (fun e => e.place == p && e.applied.isNone)).map (fun e => e.startAt)

/-- The reset of block `p` is applied. -/
def State.blockApply (s : State) (p : Nat) : State :=
  let s := s.blockCleared p
  { s with rst := { s.rst with blocks := s.rst.blocks.map (fun e => if e.place = p then { e with applied := some s.clock } else e) } }

/-- A block in reset signals idle, by TMO at the latest; EVR does so when it has flushed. -/
def execBlockIdle (t : Nat) (p : Nat) (s : State) : Host.Outcome State Fault Refusal :=
  let s := s.atTime t
  match s.blockWaits p with
  | some a => done (if p = fieldBlock 0 4 ∨ s.clock ≤ a + s.get F.RST_IDLE_TMO * 1000 then s.blockApply p else s)
  | none => done s

/-- A block has not signalled idle by TMO: its reset is forced; EVR's never is (R512, R544). -/
def execBlockResetForce (t : Nat) (p : Nat) (s : State) : Host.Outcome State Fault Refusal :=
  let s := s.atTime t
  match s.blockWaits p with
  | some a =>
    if p ≠ fieldBlock 0 4 ∧ a + s.get F.RST_IDLE_TMO * 1000 ≤ s.clock then
      let s := ((s.blockApply p).raise F.RST_STAT_TFORCE).countSat F.RST_FCNT_COUNT
      done (s.event 0xA004 p (p1 := s.get F.RST_IDLE_TMO))
    else done s
  | none => done s

end Sys2Proof.Machine
end

