-- ==== Sys2Proof/Machine/Reset.lean ====
section
/-! DEFINITION. The reset controller RST: module reset, power-on, boot, flush, Beanie, and the power die's supply and clock checks
(spec/15_reset_power_startup.md R506–R531, R601). -/

namespace Sys2Proof.Machine

def rstPlace : Nat := fieldBlock 0 0

/-- The state with the reset controller's own part at `x`. -/
def State.withRst (s : State) (x : RstSt) : State := { s with rst := x }

/-- The boundary-scan instruction holds the module in reset: EXTEST, HIGHZ or CLAMP (R592). -/
def tapHolds (ir : Byte) : Bool := ir == 0x00 || ir == 0x03 || ir == 0x04

/-- A thermal reset whose junctions are still hot is in force (R521). -/
def State.hot (s : State) : Bool :=
  match s.rst.hold, s.rst.released with
  | some (4, _), none => true
  | _, _ => false

/-! Module reset (R82, R396, R409, R484, R506, R531, R571, R601). -/

/-- The cause is one that follows a loss of power (R51, R601). -/
def powerCause (cause : Nat) : Bool := cause == 1 || cause == 2 || cause == 8

/-- The registers that a module reset keeps, address and value: UPD's selector and slots, the levels of the balls, the marks of the last
flush, and at the exit from Beanie the wake logic of CAN. -/
def State.moduleKept (s : State) (cause : Nat) : List (Nat × Nat) :=
  let vhok := if powerCause cause then 0 else s.get F.RST_STAT_VHOK
  let pwrf := if powerCause cause then 0 else s.get F.RST_STAT_PWRF
  let wake := if cause = 9 then [0, 1, 2, 3].flatMap (fun n =>
    (R.CAN_STAT n, s.get (F.CAN_STAT_WKPEND n) * 2 ^ 7 + s.get (F.CAN_STAT_WKSRC n) * 2 ^ 8) :: (wakeWords n).map (fun a => (a, s.word a))) else []
  s.updKept ++ [(R.RST_CAUSE, cause + s.get F.RST_CAUSE_PFAIL * 2 ^ 8 + s.get F.RST_CAUSE_PFOK * 2 ^ 9),
    (R.RST_STAT, vhok + pwrf * 2 + s.get F.RST_STAT_SAFE * 4 + s.get F.RST_STAT_IGN * 64), (R.LDS_ISEL, s.word R.LDS_ISEL)] ++ wake

/-- A register that keeps its value: those that Hatband's reset leaves, and GNB's at the exit from Beanie. -/
def moduleLive (cause a : Nat) : Bool :=
  (!powerCause cause && decide (0x400020000 ≤ a) && decide (a < 0x400030000)) || (cause == 9 && decide (R.GNB_CFG ≤ a) && decide (a < R.GNB_CFG + 0x10000))

/-- A byte of memory that is lost: the halves' DRAM and TCMs, and where power was lost field DRAM and the buffers of the field blocks too (R402). -/
def moduleLost (cause a : Nat) : Bool :=
  decide (a < 0x200000000) || decide (0x500000000 ≤ a) || (powerCause cause && (decide (a < 0x300000000) || decide (0x400000000 ≤ a)))

/-- A poison mark that a module reset clears: of lost memory, or of a register that takes its reset value. -/
def markLost (cause a : Nat) : Bool := moduleLost cause a || ((regDescAt (a / 4 * 4)).isSome && !moduleLive cause (a / 4 * 4))

/-- A module reset begins and is in force. -/
def State.moduleReset (s : State) (cause : Nat) : State :=
  let s := s.tallyCut
  let s := if powerCause cause then s else s.hbReset
  let kept := s.moduleKept cause
  let new : State :=
    { pending := s.pending, clock := s.clock, start := if powerCause cause then none else s.start, freeCtr := s.freeCtr, reply := s.reply
      regs := s.regs.filter (fun e => moduleLive cause e.1)
      mem := s.mem.filter (fun e => !moduleLost cause e.1), poison := s.poison.filter (fun a => !markLost cause a && !s.fabBad.contains a)
      flt := if cause = 9 then { held := s.flt.held } else {}
      hb := if powerCause cause then {} else { s.hb with lines := List.replicate 32 {} }
      fus := { curPlain := s.fus.curPlain, trialPlain := s.fus.trialPlain }
      gnb := if cause = 9 then s.gnbWake.gnb else {}
      cans := if powerCause cause then List.replicate 4 {} else (List.range 4).map (fun n =>
        { wakeErr := if cause = 9 then (s.can n).wakeErr else 0, biased := s.canBiased n
          heard := if s.get (F.CAN_TRX_MODE n) = 0 then (s.can n).heard else s.clock })
      net := { sent := s.net.sent, ethOut := s.net.ethOut }, upd := s.upd.halted, tly := { powered := s.tly.powered, since := s.tly.since }, tap := s.tap
      rst := { powered := s.rst.powered, nextCause := s.rst.nextCause, hold := some (cause, s.clock) } }
  new.setWords kept

/-- The last source of the reset in force is released now (R509). -/
def State.released (s : State) : State := s.withRst { s.rst with released := some s.clock }

/-- When the last source of the reset in force ended: a reset by RESET_N ends with the low from outside, after which, since `high`, it is not driven
low (R509, R601). -/
def State.sourceEnd (s : State) (high : Nat) : Option Nat :=
  match s.rst.hold, s.rst.released with
  | some (3, a), none => some (max a high)
  | some _, r => r
  | none, _ => none

/-! Reaches (R507, R508). -/

/-- RST, CLK and ROLE. -/
def resetProof : List Nat := [fieldBlock 0 0, fieldBlock 0 1, fieldBlock 0 3]

/-- The reach names a half's domain, its cluster 0 or its cluster 1. -/
def halfReach (p : Nat) : Option Nat :=
  if (plDomain p = 1 ∨ plDomain p = 2) ∧ (isDomainPlace p ∨ (isClusterPlace p ∧ plCluster p < 2)) then some (plDomain p - 1) else none

/-- A reset of reach `p`, which R507 accepts, with `cause`; a flush holds it off (R524). -/
def State.resetReach (s : State) (p cause : Nat) : State :=
  if s.flushing then s
  else if p = plModule then (s.moduleReset cause).released
  else
    match halfReach p with
    | some h =>
      if s.isActive h || s.role.booting == some h then s.addSource 7 p
      else (((s.testEnds h).halfFails h 7 p).halfClear h).setTrial h false
    | none =>
      let all := reachBlocks p
      let s := if all.any (fun b => resetProof.contains b) then s.event 0x2003 rstPlace (p1 := p) else s
      s.blockRequests (all.filter (fun b => !resetProof.contains b))

/-- A reach that may be reset: it exists and is no element. -/
def reachOk (p : Nat) : Bool := placeExists p && plElement p == 0xFFFF

/-- RST_CTL:GO (R507). -/
def State.softReset (s : State) : State :=
  let p := s.word R.RST_PLACE
  if reachOk (canonPlace p) then s.resetReach (canonPlace p) 5 else s.event 0x2003 rstPlace (p1 := canonPlace p) (p2 := 1)

/-- RST_CTL:BEANIE (R502, R530): at once where no journal runs, else after the final commit. -/
def State.beanieAsk (s : State) : State :=
  if s.flushing || s.inBeanie then s
  else if s.journalRuns then s.withRst { s.rst with entering := true }
  else s.beanieIn

/-- A write of RST_CTL: two action bits at once are refused (R595). -/
def State.wRstCtl (s : State) (m : Master) (v : Nat) : Acc2 :=
  if !s.isOwner m then (s, stNotOwner)
  else if wbit v 0 && wbit v 1 then okay s
  else if wbit v 0 then okay s.softReset
  else if wbit v 1 then okay s.beanieAsk
  else okay s

/-- The resets that Lamip asked for and that are due (R457). -/
def State.lampResets (s : State) : State :=
  let due := s.net.resets.filter (fun e => decide (e.2 ≤ s.clock))
  let s := s.withNet { s.net with resets := s.net.resets.filter (fun e => decide (s.clock < e.2)) }
  due.foldl (fun s e => s.resetReach e.1 6) s

def execLamipResetApply (t : Nat) (s : State) : Host.Outcome State Fault Refusal := done (s.atTime t).lampResets

/-! Sources (R506, R509, R510, R517, R521, R524). -/

/-- Powered time counts from now (R573 TLY_HOURS), or stops. -/
def State.powerCount (s : State) (on : Bool) : State :=
  let run := match s.tly.since with
    | some a => s.clock - a
    | none => 0
  s.withTly { s.tly with powered := s.tly.powered + run, since := if on then some s.clock else none }

/-- The end of a flush that ran its length: what is still unsaved, and PFOK, are written (R522 steps 4 to 6). -/
def State.flushEnd (s : State) : State :=
  let s := s.flushSaves
  (s.writeN 0x3010FFF10 4 3).dmaWrote 0x3010FFF10 4

/-- VBAT rises through 6.5 V: power-on, or the restart after a flush. -/
def State.powerOn (s : State) : State :=
  let s := if s.flushing then s.flushEnd else s
  let marks := s.readN 0x3010FFF10 4
  let s := (s.moduleReset s.rst.nextCause).selLoad.writeN 0x3010FFF10 4 0
  let s := (s.put F.RST_CAUSE_PFAIL (marks % 2)).put F.RST_CAUSE_PFOK (marks / 2)
  ((s.withRst { s.rst with powered := true }).released).powerCount true

def execPowerOn (t : Nat) (s : State) : Host.Outcome State Fault Refusal :=
  let s := s.atTime t
  done (if s.rst.powered then s else s.powerOn)

/-- Power is lost; the next power-on carries `cause`. -/
def State.powerLost (s : State) (cause : Nat) : State :=
  let s := (s.moduleReset cause).powerCount false
  s.withRst { s.rst with powered := false, nextCause := cause }

def execBrownOut (t : Nat) (s : State) : Host.Outcome State Fault Refusal :=
  let s := s.atTime t
  done (if s.rst.powered && !s.flushing then s.powerLost 2 else s)

/-- RESET_N low for 6 µs or more; the module does not heed the ball while it drives it, and a flush holds the reset off. The source ends when the
ball is no longer driven low, which RESET_RELEASE tells. -/
def execResetNAssert (t : Nat) (s : State) : Host.Outcome State Fault Refusal :=
  let s := s.atTime t
  done (if s.rst.powered && !s.flushing && !s.rst.resetN then s.moduleReset 3 else s)

/-- A junction at 175 °C: a module reset without a flush; a flush that runs is abandoned, and the reset goes on as one outside a flush (R524). -/
def execThermalShutdown (t : Nat) (s : State) : Host.Outcome State Fault Refusal :=
  let s := s.atTime t
  done (if s.rst.powered then s.moduleReset 4
    else if s.flushing && !s.flushOver then (((s.moduleReset 4).withRst { (s.moduleReset 4).rst with powered := true, nextCause := 1 }).powerCount true)
    else s)

def execThermalRelease (t : Nat) (s : State) : Host.Outcome State Fault Refusal :=
  let s := s.atTime t
  done (if s.hot then s.released else s)

/-! Release and boot (R513–R516, R518, R526, R527, R561, R565, R601). -/

/-- The strap is measured as `n` (R514, R515). -/
def State.strap (s : State) (n : Nat) : State :=
  let ovv := s.tallyValue 5 0 1 0
  let mask := ovv % 16
  let code := (List.range 4).foldl (fun c i => c + bit (if wbit mask i then wbit (ovv / 16) i else wbit (n / 16) i) * 2 ^ i) 0
  let s := s.setWord R.RST_STRAP (n + n / 16 * 2 ^ 8 + code * 2 ^ 12 + bit (s.tallyLast 5).isSome * 2 ^ 16)
  (s.put F.RST_STAT_BENCH (code / 8)).put F.PST_STAT_BENCH (code / 8)

/-- The power die is released: its firmware and the calibration set are taken, its clock checked, SAFE_N heeded, the posture applied. -/
def State.dieRelease (s : State) (safe : Bool) (clk : Option (Int × Bool)) (pfw cal : BootImages) (plain : List Byte) : State :=
  let c := s.imgBoot 5 cal
  let s := match c.2 with
    | some trial => c.1.writeBytes 0x301100000 ((c.1.imagePlain 5 trial plain).take 0x80000)
    | none => c.1
  let p := s.imgBoot 3 pfw
  let s := (List.range 8).foldl State.portDeclare (p.1.withDrv { p.1.drv with forced := p.2.isNone, visitAt := s.clock }).coilLoad
  let s := match clk with
    | some (ppm, ao) => (s.raise F.PST_STAT_CLKF).event 0xA40F pstPlace (p1 := bitsOf 32 ppm) (p2 := bit ao)
    | none => s
  let s := if safe then s.safeTake.event 0x240D pstPlace else s
  if s.flag F.PST_STAT_BENCH || s.flag F.PST_STAT_CLKF then s
  else (if safe then s else s.postureAll).raise F.PST_STAT_APPLIED

/-- The reset in force is released: steps 3 to 7 of R518. -/
def State.release (s : State) (n : Nat) (safe ign : Bool) (clk : Option (Int × Bool)) (pfw cal : BootImages) (plain : List Byte) : State :=
  let s := s.withRst { s.rst with hold := none, released := none, resetN := false, booting := true }
  let s := ((s.putB F.RST_STAT_IGN ign).putB F.RST_STAT_SAFE safe).strap n
  let code := s.get F.RST_STRAP_CODE
  let s := (s.tallyLoad).dieRelease safe clk pfw cal plain
  let s := ((s.canStrap (wbit code 1)).put F.USB_CFG_EN (code / 4)).evrStart
  let h := code % 2
  let s := ((s.put F.ROLE_STAT_ACTIVE (h + 1)).setRole rSingle).ownNamed (halfMid h) 0
  (s.withNet { s.net with port3 := some h }).withRole { s.role with booting := some h, testBase := s.clock }

/-- `strap`: the conversion result; `safe`: SAFE_N is low; `pins`: IGN and RESET_N; `clk`: what the clock check found, where it failed, and
whether it counted against CLK_AO; `pfw` and `cal`: what verifying the P-firmware and the calibration set finds, and `plain` the latter's
contents, where the factory stored them. -/
def execResetRelease (t : Nat) (strap : Byte) (safe : Bool) (pins : ResetPins) (clk : Option (Int × Bool)) (pfw cal : BootImages) (plain : List Byte) (s : State) :
    Host.Outcome State Fault Refusal :=
  let s := s.atTime t
  match s.sourceEnd pins.resetHigh with
  | some a =>
    done (if s.rst.powered && !tapHolds s.tap.ir && decide (a + 10000000 ≤ s.clock) && decide (pins.resetHigh ≤ s.clock) then
      s.release strap.toNat safe pins.ign clk pfw cal plain else s)
  | none => done s

/-- The golden recovery path (R565). -/
def State.goldenPath (s : State) : State :=
  let s := (s.withRst { s.rst with golden := true, faultN := true }).put F.USB_CFG_EN 1
  (s.withRole { s.role with booting := none }).ownFree 2

/-- A staging cut off by the last reset is discarded at this boot (R566). -/
def State.dropIncomplete (s : State) : State :=
  [1, 2, 3, 4, 5].foldl (fun s k => if s.stg k = stgIncomplete then (s.put (F.UPD_KSTAT_STG k) stgEmpty).setWord (R.UPD_SRCV k) 0 else s) s

/-- The boot of half `h` completes (R518 steps 7 and 8). -/
def State.bootDone (s : State) (h : Nat) (img : BootImages) : State :=
  let s := (s.withRst { s.rst with booting := false }).dropIncomplete
  match s.imgBoot 1 img with
  | (s, none) => s.goldenPath
  | (s, some trial) =>
    let s := ((s.setTrial h trial).bundleLoad h (s.laneBundle trial img)).halfStarts h
    let s := ((s.put (F.ROLE_HEALTH_IMGOK (h + 1)) 1).leaseStart).setFaultN false
    (s.withJnl { s.jnl with next := s.nextEpoch }).roleSettle

def execBootComplete (t : Nat) (img : BootImages) (s : State) : Host.Outcome State Fault Refusal :=
  let s := s.atTime t
  match s.active with
  | some h => done (if s.rst.booting then s.bootDone h img else s)
  | none => done s

/-- VHOLD has reached its charge (R518 step 9). -/
def execVholdCharged (t : Nat) (s : State) : Host.Outcome State Fault Refusal :=
  let s := s.atTime t
  done (if s.rst.powered then s.raise F.RST_STAT_VHOK else s)

/-! Over-voltage and clock check (R519, R520). -/

def execOvervoltage (t : Nat) (mv : Nat) (s : State) : Host.Outcome State Fault Refusal :=
  let s := s.atTime t
  done (if s.down || s.inBeanie || s.drv.ovv then s
    else
      let s := s.withDrv { s.drv with ovv := true }
      let s := (((s.fingersOff true).loadsOff true).chargersTurn).raise F.PST_STAT_OVV
      s.event 0x240E pstPlace (p1 := mv))

def execOvervoltageRecover (t : Nat) (s : State) : Host.Outcome State Fault Refusal :=
  let s := s.atTime t
  done (if s.drv.ovv then (((s.withDrv { s.drv with ovv := false }).fingersBack).loadsBack).chargersTurn else s)

/-- `ao`: the count was taken against CLK_AO, REFIN being absent. -/
def execClockCheckFail (t : Nat) (ppm : Int) (ao : Bool) (s : State) : Host.Outcome State Fault Refusal :=
  let s := s.atTime t
  done (if s.down || s.inBeanie || s.flag F.PST_STAT_CLKF then s
    else ((s.raise F.PST_STAT_CLKF).powerOff false).event 0xA40F pstPlace (p1 := bitsOf 32 ppm) (p2 := bit ao))

def execClockCheckRecover (t : Nat) (s : State) : Host.Outcome State Fault Refusal :=
  let s := s.atTime t
  done (if s.flag F.PST_STAT_CLKF then
    let s := s.put F.PST_STAT_CLKF 0
    let s := (if s.flag F.PST_STAT_BENCH then s else s.postureAll.raise F.PST_STAT_APPLIED)
    (s.portsTurn).chargersTurn else s)

/-! SAFE_N (R527). -/

/-- SAFE_N low for 2 µs, again after a high of less than 10 ms too; a power die in reset, or off in Beanie, heeds SAFE_N at its release. -/
def execSafeNAssert (t : Nat) (s : State) : Host.Outcome State Fault Refusal :=
  let s := s.atTime t
  done (if s.down || s.inBeanie then s.raise F.RST_STAT_SAFE
    else (s.safeTake).event 0x240D pstPlace)

/-- SAFE_N has been high for 10 ms. -/
def execSafeNRelease (t : Nat) (s : State) : Host.Outcome State Fault Refusal :=
  let s := s.atTime t
  done ((s.put F.PST_STAT_SAFE 0).put F.RST_STAT_SAFE 0)

/-! The flush (R522–R524). -/

/-- The flush starts; `vbat`: VBAT under R517 started it, else PWRFAIL_N. The log and the coil models are saved after the final epoch, or at once where
no journal runs (R522). -/
def State.flushStart (s : State) (vbat : Bool) : State :=
  let s := ((s.raise F.RST_STAT_FLUSH).raiseIf (!vbat) F.RST_STAT_PWRF).writeN 0x3010FFF10 4 1
  let s := s.dmaWrote 0x3010FFF10 4
  let s := (s.powerCount false).withRst { s.rst with powered := false, nextCause := 8, flushAt := some s.clock, entering := false }
  if s.inBeanie then s.flushSaves
  else
    let s := ((s.withDrv { s.drv with forced := true }).powerOff false).evrUnfreeze
    let s := (s.withJnl { s.jnl with final := false }).event 0x2014 rstPlace (p1 := bit vbat)
    if s.journalRuns then s else s.flushSaves

def execPowerFailFlush (t : Nat) (vbat : Bool) (s : State) : Host.Outcome State Fault Refusal :=
  let s := s.atTime t
  done (if s.down || s.flushing then s else s.flushStart vbat)

/-- VHOLD falls below 2.5 V: a flush that is not over ends without PFOK. -/
def execFlushAbandon (t : Nat) (s : State) : Host.Outcome State Fault Refusal :=
  let s := s.atTime t
  done (if s.flushing && !s.flushOver then s.powerLost 1 else s)

/-! Beanie's end (R407, R531). -/

/-- Module time has reached RST_BWK, or IGN has been high for 10 ms, where its wake source is enabled. -/
def State.beanieDue (s : State) (ign : Bool) : Bool :=
  let wake := s.get64 R.RST_BWK_LO R.RST_BWK_HI
  (ign && s.flag F.RST_BCFG_IGNW) || (s.flag F.RST_BCFG_TIMW && wake != 2 ^ 64 - 1 && decide (wake ≤ s.now))

def execBeanieWake (t : Nat) (ign : Bool) (s : State) : Host.Outcome State Fault Refusal :=
  let s := s.atTime t
  done (if s.inBeanie && !s.flushing && s.beanieDue ign then (s.moduleReset 9).released else s)

/-- What a sleeping transceiver detects: a wake is recorded, and ends Beanie where RST_BCFG:CANW = 1. -/
def execCanWakeDetect (t : Nat) (n : Fin 4) (w : CanWake) (s : State) : Host.Outcome State Fault Refusal :=
  let s := s.atTime t
  let s := if s.get (F.CAN_TRX_MODE n) = 0 then s.canHeard n else s
  match s.wakeSource n w with
  | (some src, s) =>
    let s := s.canWake n src
    done (if s.inBeanie && !s.flushing && s.flag F.RST_BCFG_CANW then (s.moduleReset 9).released else s)
  | (none, s) => done s

end Sys2Proof.Machine
end

