-- ==== Sys2Proof/Machine/Events.lean ====
section
/-! DEFINITION. Commands of the event recorder and the fault concentrator (spec/16_event_recorder.md R538–R551; spec/01_harvest_architecture.md
R44). -/

namespace Sys2Proof.Machine

def evrPlace : Nat := fieldBlock 0 4

/-! Clear, freeze, unfreeze, flush (R541, R547, R548). Each answers the status that Lamip gives; the register path answers OK. -/

/-- A clear by master `m`. What came before it is emitted first: the windows that ended and the summary of a second that ended (R539, R540); a flush
that runs has then ended (log 9). -/
def State.logClear (s : State) (m : Master) : Acc2 :=
  if s.flag F.EVR_STAT_FROZEN then (s.raise F.EVR_STAT_REFUSED, stBusy)
  else
    let s := s.fltSecond.fltExpire (s.now - 1)
    let s := (s.put F.EVR_LCNT_LCNT 0).put F.EVR_STAT_FULL 0
    let s := (s.withEvr { s.evr with buf := s.evr.buf.map (fun e => { e with flushed := true }), flushEnds := min s.evr.flushEnds s.clock }).evrCount.evrCounts
    okay (s.fltSend { code := 0x200C, place := evrPlace, time := s.now, p1 := m % 2 ^ 32, p2 := m / 2 ^ 32 }).fltJoin

/-- Start-up, test or recovery (R547). -/
def State.freezable (s : State) : Bool :=
  let st := s.roleState
  s.role.bootAt.isNone || s.flag F.RST_STAT_BENCH || st == rTakeover || st == rSwap || st == rRestart || st == rNohalf

/-- A freeze. -/
def State.logFreeze (s : State) : Acc2 :=
  if s.freezable then okay ((s.raise F.EVR_STAT_FROZEN).withEvr { s.evr with freezeEnds := s.now + s.get F.EVR_FRZ_TMO * 1000000 })
  else (s.raise F.EVR_STAT_REFUSED, stBusy)

/-- A flush asked for; none starts while EVR is frozen. -/
def State.logFlush (s : State) : State := if s.flag F.EVR_STAT_FROZEN then s else s.flushLog

/-- A write of EVR_CTL: two action bits at once are refused (R595). -/
def State.wEvrCtl (s : State) (m : Master) (v : Nat) : Acc2 :=
  if 1 < actionCount [0, 1, 2, 3] v then okay (s.raise F.EVR_STAT_REFUSED)
  else if wbit v 0 then okay s.logFlush
  else if wbit v 1 then okay (s.logClear m).1
  else if wbit v 2 then okay s.logFreeze.1
  else if wbit v 3 then okay s.evrUnfreeze
  else okay s

/-- FREEZE_TIMEOUT (R547). -/
def execFreezeTimeout (t : Nat) (s : State) : Host.Outcome State Fault Refusal :=
  let s := s.atTime t
  done (if s.flag F.EVR_STAT_FROZEN && decide (s.evr.freezeEnds ≤ s.now) then s.evrUnfreeze else s)

/-- The windows whose end has come are emitted, after the summary of a second that ended (R539, R540); FLT does not run where EVR does not. -/
def execWindowEnd (t : Nat) (s : State) : Host.Outcome State Fault Refusal := 
  let s := s.atTime t
  done (if s.evr.running then ((s.fltSecond).fltExpire s.now).fltJoin else s)

/-- Writing 1 clears FLT_SUPP and FLT_QDROP. -/
def State.wFltClr (s : State) (v : Nat) : Acc2 := okay (if wbit v 0 then (s.setWord R.FLT_SUPP 0).setWord R.FLT_QDROP 0 else s)

/-! Reports (R44, R535, R538, R549). -/

/-- The codes that are ever emitted (R549). -/
def eventCodes : List Nat :=
  [0x0001, 0x8002, 0x1001, 0x9002, 0x9003, 0x9004, 0x9005, 0x2001, 0x2002, 0x2003, 0xA004, 0xA005, 0x2006, 0x2007, 0x2008, 0xA009, 0x200A, 0x200C,
   0x200D, 0x2010, 0x2011, 0x2012, 0x2014, 0x2101, 0x2201, 0x2301, 0x2302, 0xA401, 0x2402, 0xA403, 0xA404, 0x2405, 0xA406, 0x2407, 0x2408, 0x2409,
   0x240A, 0x240B, 0x240C, 0x240D, 0x240E, 0xA40F, 0x2410, 0x2501, 0x2601, 0xA602, 0x2603, 0x2604, 0x2605, 0xA606, 0x2607, 0xA701]

/-- The bytes that an uncorrectable error at address `a` poisons: 64 bits of DRAM, 32 bits of MRAM (R43). -/
def State.eccPoison (s : State) (a : Nat) : State :=
  if a < 0x300000000 then s.markPoison (a / 8 * 8) 8
  else if a < 0x302000000 then s.markPoison (a / 4 * 4) 4
  else s

/-- The word at `a` of a block's SRAM, as a register window, a TCM, a buffer or the event buffer shows it, is poisoned to its readers until it is written
again (R44). -/
def State.sramPoison (s : State) (a : Nat) : State := if (windowBlock a).isSome then s.markPoison (a / 4 * 4) 4 else s

/-- A parity error in the working tiles of PRJ and FUS, which the rest of the engine's SRAM holds (R165): the accumulators in the 8 bytes of DRAM that the
tile holds for `a` are poisoned, and the frame job that was projecting, `job`, is abandoned. -/
def State.tileParity (s : State) (job : Bool) (a : Nat) : State :=
  if 0x200000000 ≤ a ∧ a < 0x300000000 then s.eccPoison a
  else ({ s with fus := { s.fus with jobBad := s.fus.jobBad || job } } : State).sramPoison a

/-- What a report of code 0xA701 by the unit with place `p` means beside its record: an uncorrectable memory error poisons the data, and in a
half's DRAM it is failover source 0x3; an error in an L2 poisons the read that met it; a parity error in a block's SRAM poisons the word at `a`, and
sets the flag that the block's chapter gives (R43, R44, R157, R193, R485). -/
def State.parityEffect (s : State) (p a : Nat) : State :=
  match plDomain p, plCluster p, plBlock p with
  | 1, 3, 0 | 2, 3, 0 =>
    (s.eccPoison a).halfFails (plDomain p - 1) 3 p
  | 1, 0, 4 | 2, 0, 4 => s.failRead a
  | 3, 7, 2 | 3, 7, 3 => s.eccPoison a
  | 3, 7, 1 => s
  | 3, 3, 0 => (if p % 2 ^ 16 = 0xFFFF then s else s.raise (F.HRA_CSTAT_POISON (p % 2 ^ 16))).sramPoison a
  | 3, 2, 0 =>
    let running := s.fus.started.isSome || !s.fus.heads.isEmpty
    ({ s with fus := { s.fus with jobBad := s.fus.jobBad || running } } : State).sramPoison a
  | 3, 2, 1 => s.tileParity s.fus.started.isSome a
  | 3, 2, 2 =>
    let g := p % 2 ^ 16
    (if g < 4 ∧ (s.fus.grids.getD g {}).run then
      let x := s.fus.grids.getD g {}
      ({ s with fus := { s.fus with grids := s.fus.grids.set g { x with poisons := x.poisons ++ [x.opens] } } } : State).raise F.FUS_STAT_POISON
    else s).tileParity false a
  | _, _, _ => s.sramPoison a

/-- A parity error on the fabric, reported by FAB (R44, R46): `kind` 0 a read whose retry failed, which is the next read of that line, 1 a write, stored with a poison mark, 2 a read whose
retry was clean; `unit` the place of the unit that detected it, FAB itself where it names none (log 30). -/
def State.fabReport (s : State) (kind unit a : Nat) : State :=
  let u := if unit ≠ 0 && placeExists (canonPlace unit) then canonPlace unit else fabPlace
  let s := s.event 0xA701 fabPlace (p1 := a % 2 ^ 32) (p2 := a / 2 ^ 32 % 2 ^ 16)
  let s := s.fabError u a (if kind % 3 = 2 then F.FAB_RCNT_COUNT else F.FAB_ECNT_COUNT)
  match kind % 3 with
  | 0 => s.failRead a
  | 1 => s.markPoison (a / 16 * 16) 16
  | _ => s

/-- Which of P0 to P3 the table of R549 lists for a code. -/
def eventParams (code : Nat) : List Nat :=
  if [0x2006, 0xA009, 0x2302, 0x240D, 0x2501].contains code then []
  else if [0x9005, 0x2301, 0xA401, 0xA403, 0xA404, 0x240B, 0x2410, 0x2601, 0x2603, 0x2607].contains code then [0]
  else if [0x8002, 0x2001, 0xA004, 0x2007, 0x2011, 0x2014, 0x2201, 0x2408, 0x240E].contains code then [1]
  else if [0x1001, 0x2008, 0x2101, 0x2402, 0x2405, 0xA406, 0x2407, 0x2409, 0x240A, 0xA602, 0x2604, 0x2605, 0xA606].contains code then [0, 1]
  else if code = 0x9002 then [0, 1, 2]
  else if code = 0x200A ∨ code = 0x2012 then [1, 2, 3]
  else [1, 2]

/-- Parameter `k`, zero where it is not listed for the code (R549). -/
def listed (code k v : Nat) : Nat := if (eventParams code).contains k then v else 0

/-- A report of a unit whose cause lies outside the commands of the table. A code that is never emitted and a place that does not exist
make none. For a parity error on the fabric `p0` is its kind and `p3` the detecting unit (log 30). -/
def execFaultReport (t : Nat) (code : BitVec 16) (p : Word) (p0 p1 p2 p3 : Word) (s : State) : Host.Outcome State Fault Refusal :=
  let s := s.atTime t
  let pl := canonPlace p.toNat
  let a := p1.toNat + p2.toNat % 2 ^ 16 * 2 ^ 32
  done (if !(eventCodes.contains code.toNat && placeExists pl) then s
  else if code = 0xA701 && pl == fabPlace then s.fabReport p0.toNat p3.toNat a
  else
    let c := code.toNat
    let s := s.event c pl (p0 := listed c 0 p0.toNat) (p1 := listed c 1 p1.toNat) (p2 := listed c 2 p2.toNat) (p3 := listed c 3 p3.toNat)
    if code = 0xA701 then s.parityEffect pl a else s)

/-- `die`: 0 SoC, 1 power die; `temp` in 0.1 °C. -/
def execDieTemperatureHigh (t : Nat) (die : Fin 2) (temp : Int) (s : State) : Host.Outcome State Fault Refusal :=
  let s := s.atTime t
  done (if 1600 ≤ temp then s.event 0x0001 (place 0 0 1 0xFFFF) (p1 := die) (p2 := bitsOf 32 temp) else s)

end Sys2Proof.Machine
end

