-- ==== Sys2Proof/Machine/Update.lean ====
section
/-! DEFINITION. Staging, COMMIT, confirmation and restarts of UPD (spec/17_update_tally_fuses.md R557–R567, R572). -/

namespace Sys2Proof.Machine

/-- The kinds of R552 that are not reserved. -/
def kindOk (k : Nat) : Bool := decide (1 ≤ k) && decide (k ≤ 5)

/-- A staging or a COMMIT of kind `k` runs. -/
def State.imgBusy (s : State) (k : Nat) : Bool := s.upd.staging.any (fun e => e.1 == k) || (s.img k).committing

/-- UPD_STAT:SBUSY brought up to date. -/
def State.updBusy (s : State) : State := s.putB F.UPD_STAT_SBUSY (!s.upd.staging.isEmpty || s.upd.kinds.any (fun i => i.committing))

/-- The trial of kind `k` is selected or running (R558). -/
def State.imgTrial (s : State) (k : Nat) : Bool := s.flag (F.UPD_KSTAT_TRY k) || s.flag (F.UPD_KSTAT_RUNTRY k)

/-! Staging (R557, R558, R467). -/

/-- What a staging of `n` bytes at offset `o` is answered with before it runs. -/
def State.stageCheck (s : State) (k o n : Nat) : Nat :=
  if s.imgTrial k || s.imgBusy k then stBusy
  else if o ≠ 0 ∧ s.stg k = stgAbandoned then stAbandoned
  else if o ≠ 0 ∧ (s.stg k ≠ stgOpen ∨ o ≠ s.word (R.UPD_SRCV k)) then stBadLen
  else if imageLimit k < o + n then stBadLen
  else stOk

/-- The bytes of the staged slot of kind `k` are erased. -/
def State.slotErase (s : State) (k : Nat) : State :=
  s.withUpd { s.upd with nand := sparseBlit (nandBase k (s.stagedSlot k)) (2 ^ 26) [] s.upd.nand }

/-- A staging begins: at offset 0 it opens a new image and discards what the slot held. -/
def State.stageOpen (s : State) (k o : Nat) : State :=
  if o = 0 then (((s.slotErase k).put (F.UPD_KSTAT_STG k) stgOpen).setWord (R.UPD_SRCV k) 0).setWord (R.UPD_TVER k) 0 else s

/-- `bytes` are written into the staged slot at offset `o`, and UPD_SRCV advances. -/
def State.stageBytes (s : State) (k o : Nat) (bytes : List Byte) : State :=
  let s := s.withUpd { s.upd with nand := sparseBlit (nandBase k (s.stagedSlot k) + o) bytes.length (bytesFrom 0 bytes) s.upd.nand }
  s.setWord (R.UPD_SRCV k) (o + bytes.length)

/-- A STAGE transaction of the owner: its bytes are in the frame. -/
def State.stageFrame (s : State) (k o : Nat) (bytes : List Byte) : Acc2 :=
  let st := s.stageCheck k o bytes.length
  if st = stOk then okay ((s.stageOpen k o).stageBytes k o bytes) else (s, st)

/-- A write of UPD_SCMD: GO starts a copy from DRAM (R557); what Lamip refuses sets CFGERR here. -/
def State.wScmd (s : State) (m : Master) (v : Nat) : Acc2 :=
  let k := v % 8
  if !s.isOwner m then (s, stNotOwner)
  else if !kindOk k then okay (s.raise F.UPD_STAT_CFGERR)
  else
    let s := s.put F.UPD_SCMD_KIND k
    if !wbit v 31 then okay s
    else
      let src := s.getAddr R.UPD_SSRC_LO R.UPD_SSRC_HI
      let o := s.word R.UPD_SOFS
      let n := s.word R.UPD_SLEN
      if s.stageCheck k o n = stOk ∧ s.inDram src n then
        let s := s.stageOpen k o
        okay ((s.withUpd { s.upd with staging := s.upd.staging ++ [(k, src, o, n)] }).updBusy)
      else okay (s.raise F.UPD_STAT_CFGERR)

/-- The copy of kind `k` from DRAM completes; a change of owner meanwhile has abandoned the image. -/
def execStageDone (t : Nat) (k : Fin 6) (s : State) : Host.Outcome State Fault Refusal :=
  let s := s.atTime t
  match s.upd.staging.find? (fun e => e.1 == k.val && s.awake updPlace) with
  | some (_, src, o, n) =>
    let bytes := s.readBytes src n
    let s := s.withUpd { s.upd with staging := s.upd.staging.filter (fun e => e.1 != k.val) }
    done ((if s.stg k = stgOpen then s.stageBytes k o bytes else s).updBusy)
  | none => done s

/-- A write of UPD_SLEN: a multiple of 4 up to 1 MiB (R572). -/
def State.wSlen (s : State) (m : Master) (v : Nat) : Acc2 :=
  s.plainWrite m R.UPD_SLEN v (guard := v % 4 == 0 && decide (v % 2 ^ 21 ≤ 0x100000))

/-- A write of UPD_SSRC_LO: 4-byte aligned. -/
def State.wSsrc (s : State) (m : Master) (v : Nat) : Acc2 := s.plainWrite m R.UPD_SSRC_LO v (guard := v % 4 == 0)

/-! COMMIT (R559, R560). -/

/-- The selector is written with TRY set for kind `k`. -/
def State.trialSelect (s : State) (k : Nat) : State :=
  (((s.raise (F.UPD_KSTAT_TRY k)).put (F.UPD_KSTAT_TRIES k) 0).put (F.UPD_KSTAT_STG k) stgTrial).selWrite

/-- A COMMIT by the owner: what it is answered with, and whether the selector is written already. -/
def State.commitImage (s : State) (k : Nat) : State × Nat × Bool :=
  let h := s.nandBytes k (s.stagedSlot k) 0 512
  if s.imgTrial k || s.imgBusy k then (s, stBusy, false)
  else if s.stg k = stgAbandoned then (s, stAbandoned, false)
  else if !(s.stg k == stgOpen || s.stg k == stgComplete) || s.word (R.UPD_SRCV k) != leAt h 8 4 || !headerOk k h then (s, stBadLen, false)
  else
    let s := (s.put (F.UPD_KSTAT_STG k) stgComplete).setWord (R.UPD_TVER k) (leAt h 16 4)
    if k = 1 then ((s.setImg 1 { s.img 1 with committing := true }).updBusy, stOk, false)
    else (s.trialSelect k, stOk, true)

/-- The copy into the program store ends; the response that waits is held for its epoch. -/
def State.commitCopied (s : State) : State :=
  let img := sparseCut (nandBase 1 (s.stagedSlot 1)) 0x400000 s.upd.nand
  let resp := (s.img 1).resp
  let s := ((s.blit (psBase (s.psSlot true)) 0x400000 img).dmaWrote (psBase (s.psSlot true)) 16).setImg 1 { s.img 1 with committing := false, resp := none }
  let s := (s.updBusy).trialSelect 1
  match resp with
  | some f => s.lampHold f
  | none => s

def execCommitCopyDone (t : Nat) (s : State) : Host.Outcome State Fault Refusal :=
  let s := s.atTime t
  done (if (s.img 1).committing && s.awake updPlace then s.commitCopied else s)

/-- The staged image is discarded: STG becomes EMPTY. -/
def State.imgDiscard (s : State) (k : Nat) : State :=
  (((s.slotErase k).put (F.UPD_KSTAT_STG k) stgEmpty).setWord (R.UPD_SRCV k) 0).setWord (R.UPD_TVER k) 0

/-! Confirmation (R562). -/

/-- The trial of kind `k` becomes current; the former current slot is the staged slot, EMPTY. -/
def State.imgConfirm (s : State) (k : Nat) : State :=
  let ver := s.word (R.UPD_TVER k)
  let s := s.put (F.UPD_KSTAT_CUR k) (s.stagedSlot k)
  let s := if k = 1 then (s.put (F.UPD_KSTAT_PSCUR 1) (s.psSlot true)).withRole { s.role with trial := [false, false] }
    else if k = 4 then s.withFus { s.fus with curPlain := s.fus.trialPlain }
    else if k = 2 then s.withUpd { s.upd with trials := [] } else s
  let s := ((s.put (F.UPD_KSTAT_TRY k) 0).put (F.UPD_KSTAT_TRIES k) 0).imgRuns k false
  ((s.imgDiscard k).setWord (R.UPD_CVER k) ver).selWrite

/-- A write of UPD_CTL (R559, R562, R595). -/
def State.wUpdCtl (s : State) (m : Master) (v : Nat) : Acc2 :=
  let k := fieldOf F.UPD_CTL_KIND v
  if !s.isOwner m then (s, stNotOwner)
  else if 1 < actionCount [0, 1, 2] v ∨ !kindOk k then okay (s.raise F.UPD_STAT_CFGERR)
  else
    let s := s.put F.UPD_CTL_KIND k
    if wbit v 0 then
      okay (if s.flag (F.UPD_KSTAT_TRY k) && s.flag (F.UPD_KSTAT_RUNTRY k) && decide (s.runTime k < 600) && !s.imgBusy k then s.imgConfirm k
        else s.raise F.UPD_STAT_CFGERR)
    else if wbit v 1 then
      let r := s.commitImage k
      okay (r.1.raiseIf (r.2.1 != stOk) F.UPD_STAT_CFGERR)
    else if wbit v 2 then
      okay (if (s.stg k = stgOpen ∨ s.stg k = stgComplete) ∧ !s.imgBusy k then s.imgDiscard k else s.raise F.UPD_STAT_CFGERR)
    else okay s

/-! Restarts (R83, R119, R160, R196, R401, R442, R470, R564). -/

/-- What a restart for new microcode does to a block, beside keeping its registers. -/
def State.blockRestarted (s : State) (p : Nat) : State :=
  let b := plBlock p
  match plCluster p with
  | 0 => if b = 2 then s.hbRestart else s
  | 1 =>
    if b < 4 then s.truncatePort b
    else if b < 6 then s.dropGrant (b - 4)
    else (List.range 8).foldl State.dropFrames s
  | 2 => if b ≠ 0 then (List.range 4).foldl (fun s g => if (s.grid g).run then s.setGrid g { s.grid g with first := true } else s) s else s
  | 3 => if b = 0 then s.hraRestart else if b = 1 then s.gpaRestart else s.fqiRestart
  | 5 => if b = 0 then s.gnbRestart else s
  | 6 => if b < 4 then s.canRestart b else if b = 4 then s.msgRestart else s
  | _ => s

/-- A restart of FEX (R196, R564): its jobs are dropped, and every enabled head shows OVERRUN. -/
def State.fexDropped (s : State) : State :=
  let jobs := s.fus.jobs ++ s.fus.started.toList
  let s := s.withFus { s.fus with jobs := [], started := none, heads := [], jobBad := false }
  let s := jobs.foldl (fun s j =>
    let s := (s.countSat F.FEX_JDROP_COUNT).raise F.FEX_STAT_JDROP
    match (s.src j.src).cur with
    | some d => s.jobDrop j.src d j.tstrike
    | none => s) s
  ((List.range 32).foldl (fun s h => if s.flag (F.FUS_HCFG_EN h) then s.headMark h (F.FUS_HSTAT_OVERRUN h) else s) s).fexStat

/-- FEX has restarted, with the set whose plaintext is `plain`. -/
def State.fexRestarted (s : State) (plain : List Byte) : State :=
  let s := s.fexDropped
  ((s.withFus { s.fus with restarting := false }).fexTake plain).fexStat

/-- A write of UPD_FRST: a block of the field domain, not of a half or of the power die. -/
def State.wFrst (s : State) (m : Master) (v : Nat) : Acc2 :=
  if !s.isOwner m then (s, stNotOwner)
  else if plDomain v = 3 ∧ plCluster v ≠ 4 ∧ isBlockPlace v ∧ placeExists v then
    let s := if s.upd.restarting.contains v then s else s.withUpd { s.upd with restarting := s.upd.restarting ++ [v] }
    okay (if v = fexPlace && !s.restartVerifies v then s.withFus { s.fus with restarting := true } else s)
  else okay (s.raise F.UPD_STAT_CFGERR)

/-- The restart of block `p` takes effect with the image that runs from now on; `trial`: the staged one. -/
def State.restartTakes (s : State) (p : Nat) (trial : Bool) (plain : List Byte) : State :=
  let k := restartKind p
  let s := s.setImg k { s.img k with fresh := true }
  let s := s.withUpd { s.upd with stopped := s.upd.stopped.filter (fun b => b != p) }
  if k = 4 then
    let plain := s.imagePlain 4 trial plain
    let s := s.withFus (if trial then { s.fus with trialPlain := some plain } else { s.fus with curPlain := some plain })
    s.fexRestarted plain
  else (s.withUpd { s.upd with trials := if trial then s.upd.trials.filter (fun b => b != p) ++ [p] else s.upd.trials.filter (fun b => b != p) }).blockRestarted p

/-- The F-microcode has fallen back: the blocks that run the trial restart with the current one (R564). -/
def State.trialsBack (s : State) : State := (s.upd.trials.foldl State.blockRestarted s).withUpd { s.upd with trials := [] }

/-- Block `p` is left unstarted, as no image of its kind verifies (R561). -/
def State.leftUnstarted (s : State) (p : Nat) : State :=
  let s := s.withUpd { s.upd with stopped := s.upd.stopped.filter (fun b => b != p) ++ [p], trials := s.upd.trials.filter (fun b => b != p) }
  if p = fexPlace then let s := s.fexDropped; s.withFus { s.fus with restarting := true } else s.blockRestarted p

/-- A restart that runs ends: with an image that verifies, or with the block unstarted. -/
def State.restartDone (s : State) (p : Nat) (img : BootImages) (plain : List Byte) : State :=
  let k := restartKind p
  let s := s.withUpd { s.upd with restarting := s.upd.restarting.filter (fun b => b != p) }
  if s.restartVerifies p then
    let r := s.imgBoot k img
    let fell := k == 2 && s.flag (F.UPD_KSTAT_TRY 2) && !r.1.flag (F.UPD_KSTAT_TRY 2)
    let s := if fell then r.1.trialsBack else r.1
    match r.2 with
    | some trial => s.restartTakes p trial plain
    | none => s.leftUnstarted p
  else
    let trial := s.flag (F.UPD_KSTAT_TRY k)
    (s.imgRuns k trial).restartTakes p trial plain

/-- `img`: what verifying the images finds; `plain`: the plaintext of the weight set, for FEX, of a set that the factory
stored. -/
def execBlockRestartDone (t : Nat) (p : Word) (img : BootImages) (plain : List Byte) (s : State) : Host.Outcome State Fault Refusal :=
  let s := s.atTime t
  done (if s.upd.restarting.contains p.toNat && !s.inBeanie then s.restartDone p.toNat img plain else s)

/-- A trial unconfirmed after 600 s falls back; blocks that run trial microcode restart with the current one (R562, R564). -/
def State.trialOver (s : State) (k : Nat) : State :=
  let s := s.imgFallback k
  if k = 2 then s.trialsBack.imgRuns 2 false else s

def execTrialTimeout (t : Nat) (k : Fin 6) (s : State) : Host.Outcome State Fault Refusal :=
  let s := s.atTime t
  done (if kindOk k && s.awake updPlace && s.flag (F.UPD_KSTAT_TRY k) && s.flag (F.UPD_KSTAT_RUNTRY k) && decide (600 ≤ s.runTime k) then s.trialOver k else s)

end Sys2Proof.Machine
end

