-- ==== Sys2Proof/Machine/Bus.lean ====
section
/-! DEFINITION. The fabric: which accesses are answered, and what a word written or read by a master does
(spec/01_harvest_architecture.md R20–R26, R35, R43–R47; spec/13_lamip_ownership_ethernet.md R462). -/

namespace Sys2Proof.Machine

/-! Places and power of an address. -/

/-- The block that an address of R22, R23 or R25 belongs to; none: unassigned (R26). -/
def accessBlock (a : Nat) : Option Nat :=
  if a < 2 ^ 33 then some (halfBlock (a / 2 ^ 32) 3 0)
  else if a < 0x300000000 then some (fieldBlock 7 2)
  else if a < 0x302000000 then some (fieldBlock 7 3)
  else if 0x380000000 ≤ a ∧ a < 0x380001000 then some (fieldBlock 0 7)
  else windowBlock a

/-- The words that stay on in Beanie: those of HB, PPS, GNB and ROLE, RST's wake words and CAN's (R20). -/
def beanieWord (a : Nat) : Bool :=
  match windowBlock a with
  | some p =>
    p == fieldBlock 0 2 || p == fieldBlock 5 1 || p == fieldBlock 5 0 || p == fieldBlock 0 3
      || [R.RST_BWK_LO, R.RST_BWK_HI, R.RST_BCFG].contains a
      || (List.range 4).any (fun n => (wakeWords n).contains a)
  | none => false

/-- The domain of the window or memory at address `a`, of block `p`, is powered, and a half's port is open (R20, R26, R474). -/
def State.accessPowered (s : State) (a p : Nat) : Bool :=
  match plDomain p with
  | 0 | 4 => true
  | 1 | 2 => if plCluster p = 2 then !s.inBeanie else s.halfOpen (plDomain p - 1)
  | _ => !s.inBeanie || beanieWord a

/-- What an access to the word at `a` is answered with before it reaches a block; `none`: it goes on (R26, R511). -/
def State.accessError (s : State) (a : Nat) : Option Nat :=
  if s.down then some stError
  else
    match accessBlock a with
    | none => some stError
    | some p => if !s.accessPowered a p then some stNotPowered else if s.blockHeld p then some stError else none

/-! Unassigned addresses (R26). -/

/-- An access to an address that nothing is assigned to is recorded: an event of FAB with the address in P1 and P2. R549 gives no code for it, so the
code is a free value among those of its table (log 28). -/
def State.noteAccess (s : State) (a : Nat) : State :=
  if s.down || (accessBlock a).isSome then s
  else
    let f := s.free
    f.2.event (eventCodes.getD (f.1 % eventCodes.length) 0x0001) fabPlace (p1 := a % 2 ^ 32) (p2 := a / 2 ^ 32 % 2 ^ 16)

/-! Memory. -/

/-- The lane whose TCM holds address `a`: half, lane, data TCM, offset. -/
def tcmAt (a : Nat) : Option (Nat × Nat × Bool × Nat) :=
  let k := a / 2 ^ 32
  let o := a % 2 ^ 32
  if (k = 5 ∨ k = 6) ∧ 0x1000000 ≤ o ∧ o < 0x1100000 then
    some (k - 5, (o - 0x1000000) / 0x20000, decide (0x10000 ≤ o % 0x20000), o % 0x10000)
  else none

/-- Address `a` is memory: DRAM, MRAM, a fuse row or a TCM. -/
def isMemory (a : Nat) : Bool :=
  decide (a < 0x302000000) || (decide (0x380000000 ≤ a) && decide (a < 0x380001000)) || (tcmAt a).isSome

/-- A range of MRAM that the blocks managing it alone write: journal, log, directory, coil models, program store (R24, R599). -/
def managed (a : Nat) : Bool :=
  (decide (0x300000000 ≤ a) && decide (a < 0x301100000)) || (decide (0x3011F0000 ≤ a) && decide (a < 0x3011F0200))
    || (decide (0x301200000 ≤ a) && decide (a < 0x301A00000))

/-- The `n` bytes from `a` lie in the ring of an enabled queue, or in the data areas of the objects: queue traffic and CAN data (R462). -/
def State.openMemory (s : State) (a n : Nat) : Bool :=
  let objs := s.getAddr R.OBJ_DBASE_LO R.OBJ_DBASE_HI
  (decide (objs ≤ a) && decide (a + n ≤ objs + 0x20000))
    || (List.range 128).any (fun q =>
      let b := s.getAddr (R.QUE_BASE_LO q) (R.QUE_BASE_HI q)
      s.flag (F.QUE_CFG_EN q) && decide (b ≤ a) && decide (a + n ≤ b + s.queN q * s.queEsize q))

/-- What a write of `n` bytes to memory at `a` by master `m` is answered with, and the flag that a refusal sets (R24, R257, R462). -/
def State.memCheck (s : State) (m : Master) (a n : Nat) : Acc2 :=
  if managed a then (s, stNotOwner)
  else if 0x301100000 ≤ a ∧ a < 0x301200000 then if s.isOwner m then okay s else (s, stNotOwner)
  else if 0x301A00000 ≤ a ∧ a < 0x302000000 ∨ 0x380000000 ≤ a ∧ a < 0x380001000 then okay s
  else
    match tcmAt a with
    | some (h, l, false, _) =>
      if !s.isOwner m then (s, stNotOwner)
      else if s.laneFree h l then okay s
      else (s.raise (F.CE_STAT_CFGERR h), stError)
    | _ => if midKind m = 0 || s.isOwner m || s.openMemory a n then okay s else (s, stNotOwner)

/-- The low `n` bytes of `v` stored at `a`, where a store has passed `memCheck`. A fuse row takes no direct write. -/
def State.memStore (s : State) (a n v : Nat) : State :=
  if 0x380000000 ≤ a ∧ a < 0x380001000 then s
  else
    match tcmAt a with
    | some (h, l, true, o) => s.tcmStore h l o n v
    | _ => s.writeN a n v

/-! Register writes. -/

/-- What the world outside decides about a write: the transmit buffer whose frame has won arbitration at MSG_CANCEL, and VBAT in mV at
TLY_CMD. What is not given is a free value. -/
structure Outside where
  won : Option (Option Nat) := none
  vbat : Option Nat := none
  deriving DecidableEq, Repr, Inhabited

/-- A write of QUE_CFG (R42). -/
def State.wQueCfg (s : State) (m : Master) (q v : Nat) : Acc2 :=
  s.writeThen m (R.QUE_CFG q) v (·.queCfgWritten q)

/-- A write of FAB_CLR (R46). -/
def State.wFabClr (s : State) (v : Nat) : Acc2 :=
  okay (if wbit v 0 then ((s.setWord R.FAB_PCNT 0).setWord R.FAB_RCNT 0).setWord R.FAB_ECNT 0 else s)

/-- A write of LMP_CLR (R472). -/
def State.wLmpClr (s : State) (v : Nat) : Acc2 :=
  okay (if wbit v 0 then ((s.setWord R.LMP_CRCCNT 0).setWord R.LMP_REFCNT 0).setWord R.LMP_RETRY 0 else s)

/-- A write of ETH_CLR (R473). -/
def State.wEthClr (s : State) (v : Nat) : Acc2 := okay (if wbit v 0 then s.setWord R.ETH_DROP 0 else s)

/-- A write of USB_CFG: a device that is not attached is not connected (R472). -/
def State.wUsbCfg (s : State) (m : Master) (v : Nat) : Acc2 :=
  s.writeThen m R.USB_CFG v (fun s => if s.flag F.USB_CFG_EN then s else s.setWord R.USB_STAT 0)

/-- A word that each master has for itself: OBJ_PAGE and EVR_BPAGE (R419, R550). -/
def State.wPage (s : State) (m : Master) (a v : Nat) : Acc2 := 
  okay { s with perMaster := assocPut (m, a) (BitVec.ofNat 32 (regWritten a 0 v)) s.perMaster }

/-- A write of MSG_CANCEL; the arbitration in progress is `x.won`, or open. -/
def State.wCancel (s : State) (m : Master) (v : Nat) (x : Outside) : Acc2 :=
  match x.won with
  | some w => s.wMsgCancel m v w
  | none => let f := s.free; f.2.wMsgCancel m v (if f.1 % 4 = 3 then none else some (f.1 % 4))

/-- A write of TLY_CMD; VBAT is `x.vbat`, or open. -/
def State.wBurn (s : State) (m : Master) (v : Nat) (x : Outside) : Acc2 :=
  match x.vbat with
  | some b => s.wTlyCmd m v b
  | none => let f := s.free; f.2.wTlyCmd m v f.1

/-- The lane of a LAN window. -/
def laneOf (a : Nat) : Nat := (a % 2 ^ 32 - 0x120000) / 0x10000

/-- The loop of an LPH descriptor window. -/
def loopOf (a : Nat) : Nat := (a % 2 ^ 32 - 0x100000) / 0x100

/-! The register of kind `b` at offset `o` of its table, at address `a`: each takes the write its chapter gives it. -/

/-- Writes of the timing, fabric and queue blocks. -/
def State.writeTiming (s : State) (m : Master) (b : Blk) (o a v : Nat) : Acc2 :=
  match b, o with
  | .que, 0x08 => s.wQueCfg m (indexIn a (R.QUE_CFG 0) 0x20) v
  | .que, 0x0C => okay (s.quePidxWrite (indexIn a (R.QUE_PIDX 0) 0x20) v)
  | .que, 0x10 => okay (s.queCidxWrite (indexIn a (R.QUE_CIDX 0) 0x20) v)
  | .que, 0x18 => okay (s.queStatWrite (indexIn a (R.QUE_STAT 0) 0x20) v)
  | .fab, 0x1C => s.wFabClr v
  | .pps, 0x00 => s.wPpsCfg m v
  | .hb, 0x18 => s.wGset m v
  | .hb, 0x20 => s.wGcor m v
  | .hb, 0x24 => s.wFadj m v
  | .hb, 0x30 => s.wDisc m v
  | .hb, 0x100 => s.wLcfg m (indexIn a (R.HB_LCFG 0) 0x20) v
  | .hb, 0x104 | .hb, 0x108 | .hb, 0x10C | .hb, 0x110 | .hb, 0x114 => s.wLineStage m a v
  | _, _ => s.plainWrite m a v

/-- Writes of the vision blocks. -/
def State.writeVision (s : State) (m : Master) (b : Blk) (o a v : Nat) : Acc2 :=
  let p := indexIn a 0x400100000 0x10000
  let c := indexIn a (R.VSC_CCFG 0) 0x80
  match b, o with
  | .csi, 0x00 => s.wCsiCfg m p v
  | .csi, 0x04 => s.wCsiRate m p v
  | .csi, 0x18 => s.wCsiClr p v
  | .mpl, 0x14 => s.wMplClr (indexIn a 0x400140000 0x10000) v
  | .vsc, 0x100 => s.wCcfg m c v
  | .vsc, 0x144 => s.wRel c v
  | .vsc, 0x158 => s.wVscClr c v
  | .vsc, 0x104 | .vsc, 0x10C | .vsc, 0x110 | .vsc, 0x11C | .vsc, 0x120 | .vsc, 0x124 | .vsc, 0x128 | .vsc, 0x12C | .vsc, 0x130 | .vsc, 0x134
  | .vsc, 0x138 => s.wCtxReg m c a v
  | _, _ => s.plainWrite m a v

/-- Writes of the input blocks. -/
def State.writeInputs (s : State) (m : Master) (b : Blk) (o a v : Nat) : Acc2 :=
  let n := indexIn a 0x400300100 0x40
  match b, o with
  | .hra, 0x00 => s.wHraCal m v
  | .hra, 0x04 => s.wHraStat m v
  | .hra, 0x08 => s.wHraClr v
  | .hra, 0x100 => s.wHraCfg m n v
  | .hra, 0x104 => s.wHraImp m n v
  | .hra, 0x108 | .hra, 0x10C => s.wHraThr m n a v
  | .gpa, 0x00 => s.wGpaCal m v
  | .gpa, 0x08 => s.wGpaClr v
  | .gpa, 0x100 => s.wGpaLcfg m (indexIn a (R.GPA_LCFG 0) 0x40) v
  | .gpa, 0x400 => s.wGpaCap m (indexIn a (R.GPA_CAPCFG 0) 0x10) v
  | .fqi, 0x0C => s.wFqiClr v
  | .fqi, 0x100 => s.wFqiCfg m (indexIn a (R.FQI_CFG 0) 0x40) v
  | _, _ => s.plainWrite m a v

/-- Writes of the fusion engine. -/
def State.writeFusion (s : State) (m : Master) (b : Blk) (o a v : Nat) : Acc2 :=
  let k := indexIn a (R.FUS_SCTL 0) 0x20
  match b, o with
  | .fex, 0x28 => s.wFexClr v
  | .prj, 0x08 => s.wPrjClr v
  | .fus, 0x14 => s.wFusClr v
  | .fus, 0x100 => s.wGcfg m (indexIn a (R.FUS_GCFG 0) 0x40) v
  | .fus, 0x104 | .fus, 0x108 | .fus, 0x10C | .fus, 0x110 | .fus, 0x114 | .fus, 0x118 | .fus, 0x11C | .fus, 0x120 | .fus, 0x124 =>
    s.wGridReg m (indexIn a (R.FUS_GCFG 0) 0x40) a v
  | .fus, 0x200 => s.wSctl m k v
  | .fus, 0x214 => s.wSput k v
  | .fus, 0x600 => s.wHcfg m (indexIn a (R.FUS_HCFG 0) 0x10) v
  | .yt, 0x18 => s.wYtCommit v
  | .yt, 0x2C => s.wYtClr v
  | .yt, 0x40 => s.wTcfg m (indexIn a (R.YT_TCFG 0) 0x10) v
  | _, _ => s.plainWrite m a v

/-- The word lies in a loop's descriptor (R264). -/
def loopWord (a : Nat) : Bool := decide (0x500100000 ≤ a) && decide (a < 0x700000000) && a % 2 ^ 32 / 2 ^ 16 == 0x10

/-- Writes of the control engine. -/
def State.writeControl (s : State) (m : Master) (b : Blk) (o a v : Nat) : Acc2 :=
  let h := halfOf a
  match b, o with
  | .lpd, 0x00 => s.wLoopCtl m h (loopOf a) v
  | .lpd, _ => s.wLoopWord m h (loopOf a) (a % 0x100) v
  | .ce, 0x04 => s.wCeMig m h v
  | .ce, 0x10 => s.wCeClr h v
  | .ce, 0x24 => s.wSwap m h v
  | .lan, 0x00 => s.wLanCfg m h (laneOf a) v
  | .lan, 0x04 => s.wLanCtl m h (laneOf a) v
  | .lan, 0x1C => s.wLanDur m h (laneOf a) v
  | .lan, 0x20 => s.wLanQout m h (laneOf a) v
  | _, _ => s.plainWrite m a v

/-- Writes of the power die. -/
def State.writePower (s : State) (m : Master) (b : Blk) (o a v : Nat) : Acc2 :=
  let n := indexIn a (R.FNG_CFG 0) 0x40
  let p := indexIn a (R.PLM_CFG 0) 0x20
  let l := indexIn a (R.LDS_CFG 0) 0x20
  let r := indexIn a (R.BRM_CFG 0) 0x40
  match b, o with
  | .fng, 0x0C => s.wFngClr v
  | .fng, 0x100 => s.wFngCfg m n v
  | .fng, 0x108 => s.wFngDuty m n v
  | .fng, 0x00 => s.wFngGctl m v
  | .fng, 0x118 => s.wFngTh2 m n v
  | .fng, 0x11C => s.wFngCtl m n v
  | .plm, 0x04 => s.wPlmClr v
  | .plm, 0x104 => s.wPlmCtl m p v
  | .plm, 0x108 => s.wPlmStat m p v
  | .lds, 0x0C => s.wLdsClr v
  | .lds, 0x100 => s.wLdsCfg m l v
  | .lds, 0x104 => s.wLdsCur m l v
  | .lds, 0x10C => s.wLdsCtl m l v
  | .brm, 0x08 => s.wBrmClr v
  | .brm, 0x100 => s.wBrmCfg m r v
  | .brm, 0x104 => s.wBrmCeil m r v
  | .brm, 0x200 => s.wFdz m (indexIn a (R.BRM_FDZ 0) 0x10) v
  | .snp, 0x04 => s.wSnpClr v
  | .snp, 0x100 => s.wSnpCfg m (indexIn a (R.SNP_CFG 0) 0x20) v
  | .mit, 0x00 => s.wMitCfg m v
  | _, _ => s.plainWrite m a v

/-- Writes of the position blocks. -/
def State.writeGnss (s : State) (m : Master) (b : Blk) (o a v : Nat) : Acc2 :=
  let c := indexIn a (R.GNB_CHCFG 0) 0x20
  match b, o with
  | .gnb, 0x00 => s.wGnbCfg m v
  | .gnb, 0x18 => s.wGnbRel v
  | .gnb, 0x24 => s.wGnbClr v
  | .gnb, 0x60 => s.wFecmd m v
  | .gnb, 0x80 => s.wClke m v
  | .gnb, 0x100 => s.wAq0 m v
  | .gnb, 0x280 => s.wNavc v
  | .gnb, 0x400 => s.wGnbChcfg m c v
  | .gnb, 0x40C => s.wPrd m c v
  | .imu, 0x00 => s.wImuCfg m v
  | .imu, 0x18 => s.wImuClr v
  | _, _ => s.plainWrite m a v

/-- Writes of the CAN and message blocks. -/
def State.writeCan (s : State) (m : Master) (b : Blk) (o a v : Nat) (x : Outside) : Acc2 :=
  let n := indexIn a 0x400600000 0x10000
  match b, o with
  | .can, 0x00 => s.wCanCfg m n v
  | .can, 0x04 | .can, 0x08 | .can, 0x0C => s.wCanTiming m n a v
  | .can, 0x10 => s.wCanTrx m n v
  | .can, 0x40 => s.wCanCtl m n v
  | .can, 0x44 => s.wCanClr n v
  | .obj, 0x00 => s.wPage m a v
  | .obj, 0x04 => s.wTxreq m v
  | .msg, 0x14 => s.wPrel v
  | .msg, 0x20 => s.wCancel m v x
  | .msg, 0x28 => s.wMsgClr v
  | .msg, 0x108 => s.wMsgAc m (indexIn a (R.MSG_AC 0) 0x40) v
  | _, _ => s.plainWrite m a v

/-- Writes of ownership, Lamip, Ethernet, roles, resets, events, updates and fuses. -/
def State.writeSystem (s : State) (m : Master) (b : Blk) (o a v : Nat) (x : Outside) : Acc2 :=
  let h := halfOf a
  match b, o with
  | .own, 0x10 => s.wOwnCtl m v
  | .lmp, 0x18 => s.wLmpClr v
  | .eth, 0x14 => s.wEthClr v
  | .usb, 0x00 => s.wUsbCfg m v
  | .eth, 0x40 => s.plainWrite m a v (guard := a != R.ETH_PCFG 2 || fieldOf (F.ETH_PCFG_ROLE 2) v != 1)
  | .role, 0x04 => (s.plainWrite m a v).settle
  | .role, 0x08 => s.wRoleCtl m v
  | .role, 0x0C => (s.wRoleJcfg m v).settle
  | .role, 0x84 => s.wRoleDrl m (indexIn a (R.ROLE_DRL 0) 8) v
  | .hmn, 0x00 => s.wHmnWdcfg m h v
  | .hmn, 0x04 => s.wHmnKick h (indexIn (a % 2 ^ 32) (R.HMN_KICK 0 0 % 2 ^ 32) 4)
  | .rst, 0x0C => s.wRstCtl m v
  | .evr, 0x00 => s.wEvrCtl m v
  | .evr, 0x20 => s.wPage m a v
  | .flt, 0x18 => s.wFltClr v
  | .upd, 0x08 => s.wScmd m v
  | .upd, 0x10 => s.wSlen m v
  | .upd, 0x14 => s.wSsrc m v
  | .upd, 0x1C => s.wUpdCtl m v
  | .upd, 0x20 => s.wFrst m v
  | .tly, 0x04 => s.wTlyArm m v
  | .tly, 0x08 => s.wBurn m v x
  | _, _ => s.plainWrite m a v

/-- A write of `v` to the register at address `a`, after the checks of the fabric. A word of Tly fields is owner-only too (R462). -/
def State.regWrite (s : State) (m : Master) (a v : Nat) (x : Outside) : Acc2 :=
  if R.OBJ_PAGE + 0x4000 ≤ a ∧ a < R.OBJ_PAGE + 0x8000 then
    s.wObj m (s.objPage m * 512 + (a - (R.OBJ_PAGE + 0x4000)) / 32) (a % 32 / 4) v
  else
    match regDescAt a with
    | none => if loopWord a then s.wLoopWord m (halfOf a) (loopOf a) (a % 0x100) v else okay s
    | some (b, d) =>
      if d.fields.any (fun f => f.acc == .tly) && !s.isOwner m then (s, stNotOwner)
      else
        match b with
        | .que | .fab | .hb | .pps => s.writeTiming m b d.off a v
        | .csi | .mpl | .vsc => s.writeVision m b d.off a v
        | .hra | .gpa | .fqi => s.writeInputs m b d.off a v
        | .fex | .prj | .fus | .yt => s.writeFusion m b d.off a v
        | .lpd | .ce | .lan => s.writeControl m b d.off a v
        | .fng | .plm | .lds | .brm | .snp | .mit | .pst => s.writePower m b d.off a v
        | .gnb | .imu => s.writeGnss m b d.off a v
        | .can | .obj | .msg => s.writeCan m b d.off a v x
        | .own | .lmp | .usb | .eth | .role | .hmn | .rst | .evr | .flt | .upd | .tly => s.writeSystem m b d.off a v x
        | .obe => okay s

/-! The word accesses. -/

/-- Where a poison mark of the word at `a` stands: an object's words have one place whatever page shows them. -/
def State.markAddr (s : State) (m : Master) (a : Nat) : Nat :=
  if R.OBJ_PAGE + 0x4000 ≤ a ∧ a < R.OBJ_PAGE + 0x8000 then R.OBJ_CTL (s.objPage m * 512) + (a - (R.OBJ_PAGE + 0x4000)) else a

/-- A write of the 32-bit word `v` at address `a`, a multiple of 4, by master `m`. -/
def State.busWrite (s : State) (m : Master) (a v : Nat) (x : Outside := {}) : Acc2 :=
  match s.accessError a with
  | some e => (s.noteAccess a, e)
  | none =>
    let inj := s.armed true
    let r := if isMemory a then
        let c := s.memCheck m a 4
        if c.2 = stOk then okay (c.1.memStore a 4 v) else c
      else s.regWrite m a v x
    let k := r.1.markAddr m a
    let s := { r.1 with poison := r.1.poison.filter (fun p => decide (p < k) || decide (k + 4 ≤ p)) }
    if r.2 = stKept then okay (if inj then r.1.injected a false else r.1)
    else ((if r.2 ≠ stOk then r.1 else if inj then (s.markPoison k 4).injected a false else s), r.2)

/-- What a read gives: the word, the state after it, its status, and whether the data is poisoned to the requestor. -/
structure BusRead where
  val : Nat := 0
  st : State := {}
  status : Nat := 0
  bad : Bool := false
  deriving DecidableEq, Repr, Inhabited

/-- The words of the higher halves of capturing pairs (R35, R53, R423), and each low word with the higher words it captures. -/
def pairOf (a : Nat) : List Nat :=
  if a = R.HB_TIME_LO ∨ a = R.HB_GTIME_LO then [R.HB_TIME_HI, R.HB_GTIME_HI]
  else
    match regDescAt a with
    | some (.hb, d) => if d.off = 0x10 then [a + 4] else []
    | some (.fab, d) => if d.off = 0x10 then [a + 4] else []
    | some (.fqi, d) => if d.off = 0x114 then [a + 4] else []
    | some (.fex, d) => if d.off = 0x14 then [a + 4] else []
    | some (.imu, d) => if d.off = 0x0C then [a + 4] else []
    | some (.own, d) => if d.off = 0x04 then [a + 4] else []
    | some (.role, d) => if d.off = 0x14 ∨ d.off = 0x1C then [a + 4] else []
    | _ => []

/-- Address `a` is the higher word of a capturing pair. -/
def isHigh (a : Nat) : Bool := a == R.HB_TIME_HI || a == R.HB_GTIME_HI || (pairOf (a - 4)).contains a

/-- RST_STAT as it is read, of `plain`: the levels that IGN, SAFE_N and PWRFAIL_N have now are open bits `f`; SAFE_N is low only after an assertion,
PWRFAIL_N only in a flush (R532; log 81). -/
def State.rstStat (s : State) (plain f : Nat) : Nat :=
  withField F.RST_STAT_PWRF (withField F.RST_STAT_SAFE (withField F.RST_STAT_IGN plain f) (s.get F.RST_STAT_SAFE * (f / 2))) (bit s.flushing * (f / 4))

/-- The current value of the register at `a`: what the block computes when it is read, else what the register holds. -/
def State.regValue (s : State) (m : Master) (a : Nat) : Nat × State :=
  let plain := s.word a
  match regDescAt a with
  | some (.hb, d) =>
    match d.off with
    | 0x00 => (s.now % 2 ^ 32, s)
    | 0x04 => (s.now / 2 ^ 32 % 2 ^ 32, s)
    | 0x08 => (bitsOf 64 s.gnss % 2 ^ 32, s)
    | 0x0C => (bitsOf 64 s.gnss / 2 ^ 32, s)
    | 0x40 => (s.tickCount % 2 ^ 32, s)
    | _ => (plain, s)
  | some (.pps, d) => (if d.off = 4 then withField F.PPS_STAT_STATE plain (s.get F.HB_STAT_STATE) else plain, s)
  | some (.gpa, d) => (if d.off = 4 then withField F.GPA_STAT_BUSY plain (bit s.converting) else plain, s)
  | some (.fex, d) => (if d.off = 0x24 then s.fexBusyTime else plain, s)
  | some (.hra, d) => (if d.off = 0x124 then s.calAge (indexIn a (R.HRA_CFG 0) 0x40) else plain, s)
  | some (.fqi, d) =>
    let i := indexIn a (R.FQI_CFG 0) 0x40
    (if d.off = 0x10C then s.finFreq i else if d.off = 0x110 then s.finPer i else plain, s)
  | some (.fng, d) =>
    let n := indexIn a (R.FNG_CFG 0) 0x40
    (if d.off = 0x138 then withField (F.FNG_MON_CALAGE n) plain (s.fngCalAge n)
      else if d.off = 0x1000 then plain % 2 ^ 24 else if d.off = 0x1004 then plain % 2 ^ 27 else plain, s)
  | some (.own, d) => (if d.off = 0x0C then s.leaseLeft else plain, s)
  | some (.lmp, d) => (if d.off = 0x04 then withField F.LMP_STAT_NSUB plain s.net.subs.length else plain, s)
  | some (.role, d) =>
    if d.off = 0x10 then
      let f := s.free
      (withField F.ROLE_JSTAT_ACOPY plain (f.2.acopy f.1), f.2)
    else if d.off = 0x40 then (s.healthWord (indexIn a (R.ROLE_HEALTH 1) 4), s)
    else (plain, s)
  | some (.mit, d) => (if d.off = 0x08 then withField F.MIT_STAT_ELAPSED plain s.mitElapsed else plain, s)
  | some (.evr, d) =>
    if d.off = 0x20 then (((assoc (m, a) s.perMaster).getD 0).toNat, s)
    else if d.off = 0x04 then (withField F.EVR_STAT_FLUSHING plain (bit s.evrFlushing), s)
    else if d.off = 0x24 then
      match s.evr.buf with
      | e :: _ => (e.seq % 2 ^ 32, s)
      | [] => let f := s.free; (f.1 % 2 ^ 32, f.2)
    else (plain, s)
  | some (.rst, d) =>
    if d.off = 0x04 then
      let f := s.free
      (s.rstStat plain f.1, f.2)
    else (plain, s)
  | some (.obj, d) => (if d.off = 0x00 then ((assoc (m, a) s.perMaster).getD 0).toNat else plain, s)
  | some (.upd, d) => (if d.off = 0x128 then s.runTime (indexIn a (R.UPD_KSTAT 0) 0x20) else plain, s)
  | some (.tly, d) => (if d.off = 0x10 then s.tallyHours else plain, s)
  | some (.eth, d) =>
    let p := indexIn a (R.ETH_PCFG 0) 0x10
    if d.off = 0x44 ∧ p < 2 ∧ s.flag (F.ETH_PSTAT_LINK p) then
      let f := s.free
      (withField (F.ETH_PSTAT_SQI p) plain f.1, f.2)
    else (plain, s)
  | _ => (plain, s)

/-- A word of the event buffer window: record `i` of page `m` sees, newest first (R550). -/
def State.bufferWord (s : State) (m : Master) (o : Nat) : Nat :=
  let i := ((assoc (m, R.EVR_BPAGE) s.perMaster).getD 0).toNat % 2 * 1024 + o / 32
  let j := (s.evr.slot + 4095 - i) % 2048
  match s.evr.buf[s.evr.buf.length - 1 - j]? with
  | some e => if j < s.evr.buf.length then recordWord e.seq e.entry / 2 ^ (32 * (o % 32 / 4)) % 2 ^ 32 else 0
  | none => 0

/-- A byte of a row of setting 7 that the factory burned: the root-key hash of row 0 is the chip's own (log 6). -/
def factoryByte (a : Nat) : Option Nat :=
  if 0x380000608 ≤ a ∧ a < 0x380000638 then some (Config.factoryKey (a - 0x380000608) % 256) else none

/-- `n` bytes of memory as a read gives them. -/
def State.memRead (s : State) (a : Nat) : Nat → Nat
  | 0 => 0
  | n + 1 => (factoryByte a).getD (s.byte a).toNat + 256 * s.memRead (a + 1) n

/-- The register window's word at `a`, and the state after the read. -/
def State.regRead (s : State) (m : Master) (a : Nat) : Nat × State :=
  if R.OBJ_PAGE + 0x4000 ≤ a ∧ a < R.OBJ_PAGE + 0x8000 then
    let n := s.objPage m * 512 + (a - (R.OBJ_PAGE + 0x4000)) / 32
    match a % 32 / 4 with
    | 0 => (s.word (R.OBJ_CTL n), s)
    | 1 => (s.word (R.OBJ_ID n), s)
    | 2 => (s.word (if s.flag (F.OBJ_CTL_DIR n) then R.OBJ_TXP n else R.OBJ_MASK n), s)
    | 3 => (s.word (R.OBJ_ESTAT n), s.objStatRead m n)
    | k => (((assoc (m, objHold k) s.held).getD 0).toNat, s)
  else if 0x400048000 ≤ a ∧ a < 0x400050000 then (s.bufferWord m (a - 0x400048000), s)
  else if (0x400501000 ≤ a ∧ a < 0x400502000) ∨ (0x400508000 ≤ a ∧ a < 0x400510000) then (s.readN a 4, s)
  else if isHigh a then (((assoc (m, a) s.held).getD 0).toNat, s)
  else
    let r := s.regValue m a
    let held := (pairOf a).foldl (fun h b => assocPut (m, b) (BitVec.ofNat 32 (s.regValue m b).1) h) r.2.held
    (r.1, { r.2 with held := held })

/-- A read of the word at address `a`, a multiple of 4, by master `m`. -/
def State.busRead (s : State) (m : Master) (a : Nat) : BusRead :=
  match s.accessError a with
  | some e => { st := s.noteAccess a, status := e }
  | none =>
    let bad := s.poisoned (s.markAddr m a) 4
    let inj := s.armed false
    let r := if isMemory a then (s.memRead a 4, s) else s.regRead m a
    let s := if inj then r.2.injected a true else r.2
    { val := r.1, st := if bad then s.delivered a else s, status := stOk, bad := bad }

/-! Commands. -/

/-- A register access by a master: the answer stands in `reply` (log 10). -/
def State.access (s : State) (m : Master) (a v : Nat) (x : Outside := {}) : State := (s.busWrite m a v x).reply

/-- A read by a master: the answer stands in `reply`, poisoned data as an error without the word (R44). -/
def State.accessRead (s : State) (m : Master) (a : Nat) : State :=
  let r := s.busRead m a
  { r.st with reply := some (if r.bad then (stError, []) else if r.status = stOk then (stOk, [r.val]) else (r.status, [])) }

/-- A write of the word at `a` (R593, R594); the address of a register access is a multiple of 4 (R10). -/
def execRegisterWrite (t : Nat) (m : Master) (a : Nat) (v : Word) (s : State) : Host.Outcome State Fault Refusal :=
  let s := s.atTime t
  done (if a % 4 = 0 then s.access m a v.toNat else Acc2.reply (s, stBadAddr))

/-- A read of the word at `a` (R35). -/
def execCaptureRead (t : Nat) (m : Master) (a : Nat) (s : State) : Host.Outcome State Fault Refusal :=
  let s := s.atTime t
  done (if a % 4 = 0 then s.accessRead m a else Acc2.reply (s, stBadAddr))

def execQuePidxWrite (t : Nat) (m : Master) (q : Fin 128) (v : Word) (s : State) : Host.Outcome State Fault Refusal :=
  done ((s.atTime t).access m (R.QUE_PIDX q) v.toNat)

def execQueCidxWrite (t : Nat) (m : Master) (q : Fin 128) (v : Word) (s : State) : Host.Outcome State Fault Refusal :=
  done ((s.atTime t).access m (R.QUE_CIDX q) v.toNat)

def execQueStatClr (t : Nat) (m : Master) (q : Fin 128) (v : Word) (s : State) : Host.Outcome State Fault Refusal :=
  done ((s.atTime t).access m (R.QUE_STAT q) v.toNat)

def execFabClr (t : Nat) (m : Master) (v : Word) (s : State) : Host.Outcome State Fault Refusal :=
  done ((s.atTime t).access m R.FAB_CLR v.toNat)

end Sys2Proof.Machine
end

