-- ==== Sys2Proof/Machine/Flags.lean ====
section
/-! DEFINITION. The flags of st (spec/06_jarug_instruction_set.md R205, R209–R211): st is S, N, Z, C, V from bit 4 down. -/

namespace Sys2Proof.Machine

/-- st with N, Z, C and V as given and S unchanged (R205). -/
def flagsOf (st : BitVec 5) (n z c v : Bool) : BitVec 5 :=
  BitVec.ofNat 5 (bit v + 2 * bit c + 4 * bit z + 8 * bit n + 16 * (st.toNat / 16))

/-- An operation that sets no flag. -/
def noFlags (_ _ : DWord) (st : BitVec 5) : BitVec 5 := st

/-- The flags of `a + b` on `w` bits (R210). -/
def addFlagsW {w : Nat} (a b : BitVec w) (st : BitVec 5) : BitVec 5 :=
  let r := a + b
  flagsOf st r.msb (r == 0) (decide (2 ^ w ≤ a.toNat + b.toNat)) (a.msb == b.msb && r.msb != a.msb)

/-- The flags of `a − b` on `w` bits (R210). -/
def subFlagsW {w : Nat} (a b : BitVec w) (st : BitVec 5) : BitVec 5 :=
  let r := a - b
  flagsOf st r.msb (r == 0) (decide (b.toNat ≤ a.toNat)) (a.msb != b.msb && r.msb == b.msb)

/-- ADD. -/
def addFlags (a b : DWord) (st : BitVec 5) : BitVec 5 := addFlagsW a b st

/-- SUB, CMP and CMPI. -/
def subFlags (a b : DWord) (st : BitVec 5) : BitVec 5 := subFlagsW a b st

/-- ADDW, on 32 bits. -/
def addwFlags (a b : DWord) (st : BitVec 5) : BitVec 5 := addFlagsW (a.setWidth 32) (b.setWidth 32) st

/-- SUBW, on 32 bits. -/
def subwFlags (a b : DWord) (st : BitVec 5) : BitVec 5 := subFlagsW (a.setWidth 32) (b.setWidth 32) st

/-- The flags of a logic result: N and Z, with C and V cleared (R209). -/
def logicFlags (r : DWord) (st : BitVec 5) : BitVec 5 := flagsOf st r.msb (r == 0) false false

/-- The condition codes (R211). -/
def condHolds (cond : Fin 16) (st : BitVec 5) : Bool :=
  let s := st.getLsbD 4
  let n := st.getLsbD 3
  let z := st.getLsbD 2
  let c := st.getLsbD 1
  let v := st.getLsbD 0
  match cond.val with
  | 0x0 => z
  | 0x1 => !z
  | 0x2 => c
  | 0x3 => !c
  | 0x4 => n
  | 0x5 => !n
  | 0x6 => v
  | 0x7 => !v
  | 0x8 => c && !z
  | 0x9 => !c || z
  | 0xA => n == v
  | 0xB => n != v
  | 0xC => !z && n == v
  | 0xD => z || n != v
  | 0xE => true
  | _ => s

end Sys2Proof.Machine
end

