-- ==== Sys2Proof/Machine/Operands.lean ====
section
/-! DEFINITION. What every Jarug instruction is written with: fetching, retiring, trapping, operands, and the loads and stores of the
two profiles (spec/06_jarug_instruction_set.md R203, R207, R216–R218, R235–R240, R244). -/

namespace Sys2Proof.Machine

/-! Registers of a unit. -/

/-- General register `r`. -/
def Cpu.gr (c : Cpu) (r : GReg) : DWord := c.g.get r

/-- General register `r` set to `v`. -/
def Cpu.setG (c : Cpu) (r : GReg) (v : DWord) : Cpu := { c with g := c.g.set r v }

/-- Register f`r`. -/
def Cpu.fr (c : Cpu) (r : GReg) : DWord := c.f.get r

/-- Register f`r` set to `v`. -/
def Cpu.setF (c : Cpu) (r : GReg) (v : DWord) : Cpu := { c with f := c.f.set r v }

/-- Accumulator `k`. -/
def Cpu.ac (c : Cpu) (k : Fin 8) : Acc := c.acc.get k

/-- Accumulator `k` set to `v`. -/
def Cpu.setAcc (c : Cpu) (k : Fin 8) (v : Acc) : Cpu := { c with acc := c.acc.set k v }

/-- The instruction ends after `n` cycles, and the next one follows it. -/
def Cpu.next (c : Cpu) (n : Nat) : Cpu := { c with pc := c.pc + 4, cycles := c.cycles + n }

/-- The instruction ends after `n` cycles, and the one at `target` follows. -/
def Cpu.jump (c : Cpu) (n : Nat) (target : DWord) : Cpu := { c with pc := target, cycles := c.cycles + n }

/-! Traps. -/

/-- Unit `u` stops under R240 on an exception of cause word `ecause`, at `pc`. -/
def State.unitStops (s : State) (u : Proc) (ecause : Nat) (pc : DWord) : State :=
  let s := s.event 0x9003 (procPlace u) (p1 := ecause) (p2 := pc.toNat % 2 ^ 32)
  match u with
  | .a _ => s.modCpu u (fun c => { c with stopped := true })
  | .l l => s.laneExpire l.half l.lane true

/-- The instant of a lane's synchronous exception noted (R237). -/
def State.noteTrap (s : State) (l : LaneId) : State := s.setLn l.half l.lane { s.ln l.half l.lane with trapAt := some s.now }

/-- The instruction at pc raises a synchronous exception; its own count is `cost` (R237, R238, R240, R243, R244). -/
def State.trap (s : State) (u : Proc) (cause sub : Nat) (addr : DWord) (cost : Nat) : State :=
  let pc := (s.cpu u).pc
  let exl := (s.cpu u).exl
  let s := s.modCpu u (fun c => { c with cycles := c.cycles + cost })
  let s := if cause = 4 then s.event 0x9004 (procPlace u) (p1 := addr.toNat % 2 ^ 32) (p2 := addr.toNat / 2 ^ 32 % 2 ^ 16) else s
  if exl then s.unitStops u (causeWord cause sub) pc
  else
    let s := s.modCpu u (fun c => c.enter pc (causeWord cause sub) addr)
    match u with
    | .a _ => s
    | .l l => ((s.noteTrap l).raise (F.LAN_STAT_EXC l.half l.lane)).irqHalf l.half 7

/-- The SUB code of a bus error whose access was answered with status `e` (R235). -/
def busSub (e : Nat) : Nat := if e = stNotPowered then 4 else if e = stNotOwner then 5 else 0

/-- What fetching the word at pc raises: cause and SUB (R217, R218, R235, R237). -/
def State.fetchFault (s : State) (u : Proc) : Option (Nat × Nat) :=
  let a := (s.cpu u).pc.toNat
  match u with
  | .a _ =>
    if 2 ^ 48 ≤ a then some (3, 1)
    else
      match s.accessError a with
      | some e => some (3, busSub e)
      | none => if s.poisoned a 4 then some (4, 1) else none
  | .l l =>
    if 2 ^ 16 ≤ a then some (3, 1)
    else if s.poisoned (instTcm l.half l.lane + a) 4 then some (4, 1) else none

/-- What the fetch of the word at pc that raises an exception does beside it: an A-core's fetch from an unassigned address is recorded (R26), and a
failed read over the fabric is delivered (R44). -/
def State.fetchMet (s : State) (u : Proc) : State :=
  let a := (s.cpu u).pc.toNat
  match u with
  | .a _ => if 2 ^ 48 ≤ a then s else (s.noteAccess a).delivered a
  | .l _ => s

/-- Unit `u` executes one instruction at device time `t`, whose effect after the fetch is `body`. A unit that does not execute takes no
instruction (log 3). -/
def State.instr (s : State) (t : Nat) (u : Proc) (body : State → State) : State :=
  let s := s.atTime t
  if s.executes u then
    match s.fetchFault u with
    | some x => (s.fetchMet u).trap u x.1 x.2 (s.cpu u).pc 1
    | none => body s
  else s

/-- An instruction of `n` cycles that changes the registers of its unit by `f` and goes on to the next word. -/
def State.regOp (s : State) (t : Nat) (u : Proc) (n : Nat) (f : Cpu → Cpu) : State :=
  s.instr t u (fun s => s.modCpu u (fun c => (f c).next n))

/-- D := `r` of A and B, and st by `fl` of the same. -/
def State.op3 (s : State) (t : Nat) (u : Proc) (n : Nat) (d a b : GReg) (r : DWord → DWord → DWord)
    (fl : DWord → DWord → BitVec 5 → BitVec 5 := noFlags) : State :=
  s.regOp t u n (fun c => { c.setG d (r (c.gr a) (c.gr b)) with st := fl (c.gr a) (c.gr b) c.st })

/-- D := `r` of A. -/
def State.op2 (s : State) (t : Nat) (u : Proc) (n : Nat) (d a : GReg) (r : DWord → DWord) : State :=
  s.regOp t u n (fun c => c.setG d (r (c.gr a)))

/-! Loads and stores. -/

/-- The effective address of the M format (R208). -/
def Cpu.ea (c : Cpu) (base : GReg) (ofs : BitVec 16) : DWord := c.gr base + ofs.signExtend 64

/-- What a data read gives: the value, the state after it, or the cause and SUB of the exception it raises. -/
structure Got where
  st : State
  val : Nat := 0
  err : Option (Nat × Nat) := none
  deriving DecidableEq, Repr

/-- An A-core's read of the 1, 2 or 4 bytes at `a`, out of the word that holds them. -/
def State.coreRead (s : State) (m : Master) (a n : Nat) : Got :=
  let r := s.busRead m (a / 4 * 4)
  let bad := if isMemory a then s.poisoned a n else r.bad
  if r.status ≠ stOk then { st := r.st, err := some (3, busSub r.status) }
  else if bad then { st := r.st, err := some (4, 0) }
  else { st := r.st, val := r.val / 2 ^ (8 * (a % 4)) % 2 ^ (8 * n) }

/-- An A-core's read of the `n` bytes at the aligned address `ea` (R217); a doubleword is two words, the lower first. -/
def State.coreLoad (s : State) (m : Master) (ea n : Nat) : Got :=
  if 2 ^ 48 ≤ ea then { st := s, err := some (3, 1) }
  else if n = 8 then
    let lo := s.coreRead m ea 4
    let hi := lo.st.coreRead m (ea + 4) 4
    match lo.err, hi.err with
    | some (3, x), _ => { lo with err := some (3, x) }
    | _, some (3, x) => { hi with err := some (3, x) }
    | some x, _ => { lo with err := some x }
    | none, some x => { hi with err := some x }
    | none, none => { st := hi.st, val := lo.val + 2 ^ 32 * hi.val }
  else s.coreRead m ea n

/-- One word of a lane's read of the boundary block: a pass that a boundary has overtaken reads words from either boundary (R256). -/
def State.eitherWord (s : State) (h l o choice : Nat) : Nat :=
  if choice % 2 = 1 then (s.ln h l).prev.getD ((o - 0xFF00) / 4) 0 else s.readN (dataTcm h l + o) 4

/-- A lane's read of the `n` bytes at offset `o` of its data TCM (R218, R256). -/
def State.laneLoad (s : State) (h l o n : Nat) : Got :=
  if 2 ^ 16 ≤ o then { st := s, err := some (3, 1) }
  else if s.poisoned (dataTcm h l + o) n then { st := s, err := some (4, 0) }
  else if 0xFF00 ≤ o && !(s.ln h l).prev.isEmpty then
    let f := s.free
    let w := o / 4 * 4
    let both := s.eitherWord h l w f.1 + 2 ^ 32 * (if n = 8 then s.eitherWord h l (w + 4) (f.1 / 2) else 0)
    { st := f.2, val := both / 2 ^ (8 * (o % 4)) % 2 ^ (8 * n) }
  else { st := s, val := s.readN (dataTcm h l + o) n }

/-- A read of the `n` bytes at the aligned address `ea` by unit `u`. -/
def State.loadData (s : State) (u : Proc) (ea n : Nat) : Got :=
  match u with
  | .a c => s.coreLoad (halfMid c.half) ea n
  | .l l => s.laneLoad l.half l.lane ea n

/-- A load of `n` bytes: `put` places the value (R208, R216, R244). -/
def State.load (s : State) (t : Nat) (u : Proc) (base : GReg) (ofs : BitVec 16) (n : Nat) (put : Cpu → Nat → Cpu) : State :=
  s.instr t u (fun s =>
    let ea := (s.cpu u).ea base ofs
    if ea.toNat % n ≠ 0 then s.trap u 2 0 ea 2
    else
      let r := s.loadData u ea.toNat n
      match r.err with
      | some x => r.st.trap u x.1 x.2 ea 2
      | none => r.st.modCpu u (fun c => (put c r.val).next 2))

/-- A core's own plain store leaves its own reservation as it was (R228). -/
def State.keepResv (s : State) (c : ACoreId) (g : Option Nat) : State := s.modCpu (.a c) (fun x => { x with resv := g })

/-- An A-core's store of the low `n` bytes of `v` at the aligned address `a`: the status it is answered with. Only whole words reach a
register window; a doubleword is two words there, the lower first. -/
def State.coreWrite (s : State) (c : ACoreId) (a n v : Nat) : Acc2 :=
  let m := halfMid c.half
  if 2 ^ 48 ≤ a then (s, stBadAddr)
  else
    match s.accessError a with
    | some e => (s.noteAccess a, e)
    | none =>
      if isMemory a then
        let g := (s.cpu (.a c)).resv
        let r := s.memCheck m a n
        if r.2 ≠ stOk then r
        else
          let x := (r.1.memStore a n v).keepResv c g
          okay (if s.armed true then (x.markPoison a n).injected a false else x)
      else if n = 4 then s.busWrite m a v
      else if n = 8 then
        let lo := s.busWrite m a (v % 2 ^ 32)
        let hi := lo.1.busWrite m (a + 4) (v / 2 ^ 32)
        (hi.1, if lo.2 ≠ stOk then lo.2 else hi.2)
      else (s, stError)

/-- An A-core's store: it retires, and a bus error arrives later (R217, R236). -/
def State.coreStore (s : State) (c : ACoreId) (ea n v : Nat) : State :=
  let s := s.modCpu (.a c) (fun x => x.next 1)
  let r := s.coreWrite c ea n v
  if r.2 = stOk then r.1
  else r.1.modCpu (.a c) (fun x => { x with busErr := x.busErr ++ [(if 2 ^ 48 ≤ ea then 1 else busSub r.2, ea)] })

/-- A lane's store into its data TCM; a word of the boundary block that the lane has written itself is read as written. -/
def State.laneStore (s : State) (l : LaneId) (o n v : Nat) : State :=
  let s := s.tcmStore l.half l.lane o n v
  let s := if 0xFF00 ≤ o then s.setLn l.half l.lane { s.ln l.half l.lane with prev := [] } else s
  s.modCpu (.l l) (fun c => c.next 1)

/-- A store of `n` bytes: `val` gives the register's value (R208, R216, R218, R244). -/
def State.store (s : State) (t : Nat) (u : Proc) (base : GReg) (ofs : BitVec 16) (n : Nat) (val : Cpu → DWord) : State :=
  s.instr t u (fun s =>
    let ea := (s.cpu u).ea base ofs
    if ea.toNat % n ≠ 0 then s.trap u 2 0 ea 1
    else
      match u with
      | .a c => s.coreStore c ea.toNat n (val (s.cpu u)).toNat
      | .l l => if 2 ^ 16 ≤ ea.toNat then s.trap u 3 1 ea 1 else s.laneStore l ea.toNat n (val (s.cpu u)).toNat)

end Sys2Proof.Machine
end

