-- ==== Sys2Proof/Machine/Alu.lean ====
section
/-! DEFINITION. The ALU group, the immediate forms and MULDIV (spec/06_jarug_instruction_set.md R208–R210, R212–R215). -/

namespace Sys2Proof.Machine

/-! Operations on 64-bit values. -/

/-- 1 when `b` holds, else 0. -/
def boolWord (b : Bool) : DWord := BitVec.ofNat 64 (bit b)

/-- The low `w` bits sign-extended. -/
def sextFrom (w : Nat) (x : DWord) : DWord := (x.setWidth w).signExtend 64

/-- A shift or rotation by `n` below 64, of the kinds of R213. -/
def shiftBy (kind n : Nat) (a : DWord) : DWord :=
  match kind with
  | 0 => a <<< n
  | 1 => a >>> n
  | 2 => a.sshiftRight n
  | _ => a.rotateRight n

/-- A shift by B and 63. -/
def shiftReg (kind : Nat) (a b : DWord) : DWord := shiftBy kind (b.toNat % 64) a

/-- The number of leading zeros. -/
def leadingZeros (a : DWord) : DWord := BitVec.ofNat 64 (if a = 0 then 64 else 63 - Nat.log2 a.toNat)

/-- The number of ones. -/
def onesCount (a : DWord) : DWord := BitVec.ofNat 64 ((List.range 64).countP (fun i => a.getLsbD i))

def signedMin (a b : DWord) : DWord := if a.slt b then a else b
def signedMax (a b : DWord) : DWord := if a.slt b then b else a
def unsignedMin (a b : DWord) : DWord := if a.ult b then a else b
def unsignedMax (a b : DWord) : DWord := if a.ult b then b else a
def addWord (a b : DWord) : DWord := sextFrom 32 (a + b)
def subWord (a b : DWord) : DWord := sextFrom 32 (a - b)

/-- Flags `f` where the flag bit F is set. -/
def flagsIf (f : Bool) (fl : DWord → DWord → BitVec 5 → BitVec 5) : DWord → DWord → BitVec 5 → BitVec 5 := if f then fl else noFlags

/-- The flags of the logic result `r`. -/
def logicOf (r : DWord → DWord → DWord) (a b : DWord) (st : BitVec 5) : BitVec 5 := logicFlags (r a b) st

/-- A and not B. -/
def andNot (a b : DWord) : DWord := a &&& ~~~b

/-! ALU (R209). -/

def execAdd (t : Nat) (u : Proc) (d a b : GReg) (f : Bool) (s : State) : Host.Outcome State Fault Refusal :=
  done (s.op3 t u 1 d a b (· + ·) (flagsIf f addFlags))

def execSub (t : Nat) (u : Proc) (d a b : GReg) (f : Bool) (s : State) : Host.Outcome State Fault Refusal :=
  done (s.op3 t u 1 d a b (· - ·) (flagsIf f subFlags))

def execAnd (t : Nat) (u : Proc) (d a b : GReg) (f : Bool) (s : State) : Host.Outcome State Fault Refusal :=
  done (s.op3 t u 1 d a b (· &&& ·) (flagsIf f (logicOf (· &&& ·))))

def execOr (t : Nat) (u : Proc) (d a b : GReg) (f : Bool) (s : State) : Host.Outcome State Fault Refusal :=
  done (s.op3 t u 1 d a b (· ||| ·) (flagsIf f (logicOf (· ||| ·))))

def execXor (t : Nat) (u : Proc) (d a b : GReg) (f : Bool) (s : State) : Host.Outcome State Fault Refusal :=
  done (s.op3 t u 1 d a b (· ^^^ ·) (flagsIf f (logicOf (· ^^^ ·))))

def execAndn (t : Nat) (u : Proc) (d a b : GReg) (f : Bool) (s : State) : Host.Outcome State Fault Refusal :=
  done (s.op3 t u 1 d a b andNot (flagsIf f (logicOf andNot)))

def execSll (t : Nat) (u : Proc) (d a b : GReg) (s : State) : Host.Outcome State Fault Refusal := done (s.op3 t u 1 d a b (shiftReg 0))
def execSrl (t : Nat) (u : Proc) (d a b : GReg) (s : State) : Host.Outcome State Fault Refusal := done (s.op3 t u 1 d a b (shiftReg 1))
def execSra (t : Nat) (u : Proc) (d a b : GReg) (s : State) : Host.Outcome State Fault Refusal := done (s.op3 t u 1 d a b (shiftReg 2))
def execRor (t : Nat) (u : Proc) (d a b : GReg) (s : State) : Host.Outcome State Fault Refusal := done (s.op3 t u 1 d a b (shiftReg 3))

def execSlt (t : Nat) (u : Proc) (d a b : GReg) (s : State) : Host.Outcome State Fault Refusal :=
  done (s.op3 t u 1 d a b (fun x y => boolWord (x.slt y)))

def execSltu (t : Nat) (u : Proc) (d a b : GReg) (s : State) : Host.Outcome State Fault Refusal :=
  done (s.op3 t u 1 d a b (fun x y => boolWord (x.ult y)))

def execMin (t : Nat) (u : Proc) (d a b : GReg) (s : State) : Host.Outcome State Fault Refusal := done (s.op3 t u 1 d a b signedMin)
def execMax (t : Nat) (u : Proc) (d a b : GReg) (s : State) : Host.Outcome State Fault Refusal := done (s.op3 t u 1 d a b signedMax)
def execMinu (t : Nat) (u : Proc) (d a b : GReg) (s : State) : Host.Outcome State Fault Refusal := done (s.op3 t u 1 d a b unsignedMin)
def execMaxu (t : Nat) (u : Proc) (d a b : GReg) (s : State) : Host.Outcome State Fault Refusal := done (s.op3 t u 1 d a b unsignedMax)

def execAddw (t : Nat) (u : Proc) (d a b : GReg) (f : Bool) (s : State) : Host.Outcome State Fault Refusal :=
  done (s.op3 t u 1 d a b addWord (flagsIf f addwFlags))

def execSubw (t : Nat) (u : Proc) (d a b : GReg) (f : Bool) (s : State) : Host.Outcome State Fault Refusal :=
  done (s.op3 t u 1 d a b subWord (flagsIf f subwFlags))

def execSextb (t : Nat) (u : Proc) (d a : GReg) (s : State) : Host.Outcome State Fault Refusal := done (s.op2 t u 1 d a (sextFrom 8))
def execSexth (t : Nat) (u : Proc) (d a : GReg) (s : State) : Host.Outcome State Fault Refusal := done (s.op2 t u 1 d a (sextFrom 16))
def execSextw (t : Nat) (u : Proc) (d a : GReg) (s : State) : Host.Outcome State Fault Refusal := done (s.op2 t u 1 d a (sextFrom 32))

def execZextw (t : Nat) (u : Proc) (d a : GReg) (s : State) : Host.Outcome State Fault Refusal :=
  done (s.op2 t u 1 d a (fun x => (x.setWidth 32).setWidth 64))

def execClz (t : Nat) (u : Proc) (d a : GReg) (s : State) : Host.Outcome State Fault Refusal := done (s.op2 t u 1 d a leadingZeros)
def execPopc (t : Nat) (u : Proc) (d a : GReg) (s : State) : Host.Outcome State Fault Refusal := done (s.op2 t u 1 d a onesCount)

def execCmp (t : Nat) (u : Proc) (a b : GReg) (s : State) : Host.Outcome State Fault Refusal :=
  done (s.regOp t u 1 (fun c => { c with st := subFlags (c.gr a) (c.gr b) c.st }))

def execTst (t : Nat) (u : Proc) (a b : GReg) (s : State) : Host.Outcome State Fault Refusal :=
  done (s.regOp t u 1 (fun c => { c with st := logicFlags (c.gr a &&& c.gr b) c.st }))

/-! Immediate forms (R208, R212, R213). -/

def execAddi (t : Nat) (u : Proc) (d a : GReg) (imm : BitVec 16) (s : State) : Host.Outcome State Fault Refusal :=
  done (s.op2 t u 1 d a (· + imm.signExtend 64))

def execAndi (t : Nat) (u : Proc) (d a : GReg) (imm : BitVec 16) (s : State) : Host.Outcome State Fault Refusal :=
  done (s.op2 t u 1 d a (· &&& imm.setWidth 64))

def execOri (t : Nat) (u : Proc) (d a : GReg) (imm : BitVec 16) (s : State) : Host.Outcome State Fault Refusal :=
  done (s.op2 t u 1 d a (· ||| imm.setWidth 64))

def execXori (t : Nat) (u : Proc) (d a : GReg) (imm : BitVec 16) (s : State) : Host.Outcome State Fault Refusal :=
  done (s.op2 t u 1 d a (· ^^^ imm.setWidth 64))

def execSlti (t : Nat) (u : Proc) (d a : GReg) (imm : BitVec 16) (s : State) : Host.Outcome State Fault Refusal :=
  done (s.op2 t u 1 d a (fun x => boolWord (x.slt (imm.signExtend 64))))

def execSltiu (t : Nat) (u : Proc) (d a : GReg) (imm : BitVec 16) (s : State) : Host.Outcome State Fault Refusal :=
  done (s.op2 t u 1 d a (fun x => boolWord (x.ult (imm.signExtend 64))))

def execShi (t : Nat) (u : Proc) (d a : GReg) (kind : Fin 4) (amt : Fin 64) (s : State) : Host.Outcome State Fault Refusal :=
  done (s.op2 t u 1 d a (shiftBy kind amt))

def execCmpi (t : Nat) (u : Proc) (a : GReg) (imm : BitVec 16) (s : State) : Host.Outcome State Fault Refusal :=
  done (s.regOp t u 1 (fun c => { c with st := subFlags (c.gr a) (imm.signExtend 64) c.st }))

def execLdi (t : Nat) (u : Proc) (d : GReg) (imm : BitVec 21) (s : State) : Host.Outcome State Fault Refusal :=
  done (s.regOp t u 1 (fun c => c.setG d (imm.signExtend 64)))

def execLdu (t : Nat) (u : Proc) (d : GReg) (imm : BitVec 21) (s : State) : Host.Outcome State Fault Refusal :=
  done (s.regOp t u 1 (fun c => c.setG d (imm.signExtend 64 <<< 16)))

def execAdr (t : Nat) (u : Proc) (d : GReg) (imm : BitVec 21) (s : State) : Host.Outcome State Fault Refusal :=
  done (s.regOp t u 1 (fun c => c.setG d (c.pc + imm.signExtend 64 <<< 2)))

/-! MULDIV (R214, R215). -/

def execMul (t : Nat) (u : Proc) (d a b : GReg) (s : State) : Host.Outcome State Fault Refusal := done (s.op3 t u 2 d a b (· * ·))

def execMulh (t : Nat) (u : Proc) (d a b : GReg) (s : State) : Host.Outcome State Fault Refusal :=
  done (s.op3 t u 2 d a b (fun x y => BitVec.ofInt 64 (x.toInt * y.toInt / 2 ^ 64)))

def execMulhu (t : Nat) (u : Proc) (d a b : GReg) (s : State) : Host.Outcome State Fault Refusal :=
  done (s.op3 t u 2 d a b (fun x y => BitVec.ofNat 64 (x.toNat * y.toNat / 2 ^ 64)))

def execMulw (t : Nat) (u : Proc) (d a b : GReg) (s : State) : Host.Outcome State Fault Refusal :=
  done (s.op3 t u 2 d a b (fun x y => sextFrom 32 (x * y)))

/-- A division of 20 cycles: `r` of A and a nonzero B; a zero divisor traps on an A-core, and gives `z` of A with V set on a lane. -/
def State.divide (s : State) (t : Nat) (u : Proc) (d a b : GReg) (r : DWord → DWord → DWord) (z : DWord → DWord) : State :=
  s.instr t u (fun s =>
    let c := s.cpu u
    if c.gr b = 0 then
      match u with
      | .a _ => s.trap u 7 0 0 20
      | .l _ => s.modCpu u (fun c => ({ c.setG d (z (c.gr a)) with st := c.st ||| 1 }).next 20)
    else s.modCpu u (fun c => (c.setG d (r (c.gr a) (c.gr b))).next 20))

/-- What DIV by zero gives a lane. -/
def divByZero (a : DWord) : DWord := if a.msb then 0x8000000000000000 else 0x7FFFFFFFFFFFFFFF

def execDiv (t : Nat) (u : Proc) (d a b : GReg) (s : State) : Host.Outcome State Fault Refusal :=
  done (s.divide t u d a b BitVec.sdiv divByZero)

def execDivu (t : Nat) (u : Proc) (d a b : GReg) (s : State) : Host.Outcome State Fault Refusal :=
  done (s.divide t u d a b BitVec.udiv (fun _ => 0xFFFFFFFFFFFFFFFF))

def execRem (t : Nat) (u : Proc) (d a b : GReg) (s : State) : Host.Outcome State Fault Refusal :=
  done (s.divide t u d a b BitVec.srem (fun x => x))

def execRemu (t : Nat) (u : Proc) (d a b : GReg) (s : State) : Host.Outcome State Fault Refusal :=
  done (s.divide t u d a b BitVec.umod (fun x => x))

end Sys2Proof.Machine
end

