-- ==== Sys2Proof/Machine/Atomic.lean ====
section
/-! DEFINITION. The ATOM group of Jarug-A (spec/06_jarug_instruction_set.md R227–R229). Loads and stores of every unit take effect in the order
of the commands, so a fence only goes on (log 3). -/

namespace Sys2Proof.Machine

/-- The operand size that W names. -/
def atomSize (w : Bool) : Nat := if w then 4 else 8

/-- The value that D takes from memory: a word is sign-extended. -/
def atomValue (w : Bool) (v : Nat) : DWord := if w then (BitVec.ofNat 32 v).signExtend 64 else BitVec.ofNat 64 v

/-- What an ATOM access to address `a` raises before it reads: misaligned, outside the three DRAM ranges, or no answer from the DRAM. -/
def State.atomFault (s : State) (a n : Nat) : Option (Nat × Nat) :=
  if a % n ≠ 0 then some (2, 0)
  else if 3 * 2 ^ 32 ≤ a then some (3, 3)
  else (s.accessError a).map (fun e => (3, busSub e))

/-- An ATOM access that meets no fault before it: `eff` is its effect on an address and a size. -/
def State.atom (s : State) (t : Nat) (c : ACoreId) (a : GReg) (w : Bool) (eff : State → Nat → Nat → State) : State :=
  s.instr t (.a c) (fun s =>
    let x := (s.cpu (.a c)).gr a
    match s.atomFault x.toNat (atomSize w) with
    | some f => s.trap (.a c) f.1 f.2 x 1
    | none => eff s x.toNat (atomSize w))

/-- A read of `n` bytes at `a` for `eff`, which takes the value; poisoned data raises the poison exception. -/
def State.atomRead (s : State) (c : ACoreId) (a n : Nat) (eff : State → Nat → State) : State :=
  let r := s.coreLoad (halfMid c.half) a n
  match r.err with
  | some x => r.st.trap (.a c) x.1 x.2 (BitVec.ofNat 64 a) 1
  | none => eff r.st r.val

def execLr (t : Nat) (c : ACoreId) (d a : GReg) (w : Bool) (s : State) : Host.Outcome State Fault Refusal :=
  done (s.atom t c a w (fun s x n =>
    s.atomRead c x n (fun s v => s.modCpu (.a c) (fun y => { y.setG d (atomValue w v) with resv := some (x / 64) }.next 1))))

/-- SC: the store where the reservation covers the address, and in either case the end of the reservation. -/
def execSc (t : Nat) (c : ACoreId) (d a b : GReg) (w : Bool) (s : State) : Host.Outcome State Fault Refusal :=
  done (s.atom t c a w (fun s x n =>
    let y := s.cpu (.a c)
    let holds := y.resv == some (x / 64)
    let s := if holds then (s.coreWrite c x n ((y.gr b).toNat % 2 ^ (8 * n))).1 else s
    s.modCpu (.a c) (fun z => { z.setG d (BitVec.ofNat 64 (bit (!holds))) with resv := none }.next 1)))

/-- An atomic read and write: `f` of the old value and B is stored. -/
def State.atomSwap (s : State) (t : Nat) (c : ACoreId) (d a b : GReg) (w : Bool) (f : Nat → Nat → Nat) : State :=
  s.atom t c a w (fun s x n =>
    s.atomRead c x n (fun s v =>
      let y := (s.cpu (.a c)).gr b
      (s.coreWrite c x n (f v y.toNat % 2 ^ (8 * n))).1.modCpu (.a c) (fun z => (z.setG d (atomValue w v)).next 1)))

def execAfadd (t : Nat) (c : ACoreId) (d a b : GReg) (w : Bool) (s : State) : Host.Outcome State Fault Refusal :=
  done (s.atomSwap t c d a b w (· + ·))

def execAswap (t : Nat) (c : ACoreId) (d a b : GReg) (w : Bool) (s : State) : Host.Outcome State Fault Refusal :=
  done (s.atomSwap t c d a b w (fun _ y => y))

def execFence (t : Nat) (c : ACoreId) (s : State) : Host.Outcome State Fault Refusal := done (s.regOp t (.a c) 1 (fun x => x))
def execFacq (t : Nat) (c : ACoreId) (s : State) : Host.Outcome State Fault Refusal := done (s.regOp t (.a c) 1 (fun x => x))
def execFrel (t : Nat) (c : ACoreId) (s : State) : Host.Outcome State Fault Refusal := done (s.regOp t (.a c) 1 (fun x => x))

end Sys2Proof.Machine
end

