-- ==== Sys2Proof/Machine/Branch.lean ====
section
/-! DEFINITION. Branches and jumps (spec/06_jarug_instruction_set.md R216, R219, R220). -/

namespace Sys2Proof.Machine

/-- The target of a branch at `pc`. -/
def branchTo (pc : DWord) (ofs : BitVec 22) : DWord := pc + ofs.signExtend 64 <<< 2

/-- BC. -/
def Cpu.branch (c : Cpu) (cond : Fin 16) (ofs : BitVec 22) : Cpu :=
  if condHolds cond c.st then c.jump 2 (branchTo c.pc ofs) else c.next 1

/-- A taken BLC: g31 := pc + 4, and on a lane the return address is pushed. -/
def Cpu.link (c : Cpu) (lane : Bool) (ofs : BitVec 22) : Cpu :=
  let ret := c.pc + 4
  let x := c.setG 31 ret
  { x with rstack := if lane then ret.setWidth 16 :: x.rstack else x.rstack }.jump 2 (branchTo c.pc ofs)

def execBc (t : Nat) (u : Proc) (cond : Fin 16) (ofs : BitVec 22) (s : State) : Host.Outcome State Fault Refusal :=
  done (s.instr t u (fun s => s.modCpu u (fun c => c.branch cond ofs)))

def execBlc (t : Nat) (u : Proc) (cond : Fin 16) (ofs : BitVec 22) (s : State) : Host.Outcome State Fault Refusal :=
  done (s.instr t u (fun s =>
    let c := s.cpu u
    if !condHolds cond c.st then s.modCpu u (fun c => c.next 1)
    else if procIsLane u && decide (8 ≤ c.rstack.length) then s.trap u 1 3 (BitVec.ofNat 64 (bw 0x29 cond ofs.toNat)) 2
    else s.modCpu u (fun c => c.link (procIsLane u) ofs)))

/-- A jump to the address in A, `f` applied to the registers with it. -/
def State.jumpReg (s : State) (t : Nat) (c : ACoreId) (a : GReg) (f : Cpu → Cpu) : State :=
  s.instr t (.a c) (fun s =>
    let target := (s.cpu (.a c)).gr a
    if target.toNat % 4 ≠ 0 then s.trap (.a c) 2 1 target 1
    else s.modCpu (.a c) (fun x => (f x).jump 1 target))

def execJr (t : Nat) (c : ACoreId) (a : GReg) (s : State) : Host.Outcome State Fault Refusal := done (s.jumpReg t c a (fun x => x))

def execJlr (t : Nat) (c : ACoreId) (d a : GReg) (s : State) : Host.Outcome State Fault Refusal :=
  done (s.jumpReg t c a (fun x => x.setG d (x.pc + 4)))

def execRet (t : Nat) (l : LaneId) (s : State) : Host.Outcome State Fault Refusal :=
  done (s.instr t (.l l) (fun s =>
    match (s.cpu (.l l)).rstack with
    | [] => s.trap (.l l) 1 4 (BitVec.ofNat 64 (0x2B * 2 ^ 26)) 2
    | r :: rest => s.modCpu (.l l) (fun c => { c with rstack := rest }.jump 2 (r.setWidth 64))))

end Sys2Proof.Machine
end

