-- ==== Sys2Proof/Machine/Writes.lean ====
section
/-! DEFINITION. The commands that are writes of one register: each goes over the fabric to its register, as REGISTER_WRITE does
(spec/01_harvest_architecture.md R26; spec/00_scope.md R593–R595), and the register's chapter says what it does there. `v` is the word written; a
command that disables has EN cleared in it. -/

namespace Sys2Proof.Machine

/-! Registers of the timebase (R52–R82). -/

def execRefselChange (t : Nat) (m : Master) (v : Word) (s : State) : Host.Outcome State Fault Refusal :=
  done ((s.atTime t).access m R.HB_DISC v.toNat)

def execHbGsetWrite (t : Nat) (m : Master) (v : Word) (s : State) : Host.Outcome State Fault Refusal :=
  done ((s.atTime t).access m R.HB_GSET_LO v.toNat)

def execHbGcorWrite (t : Nat) (m : Master) (v : Word) (s : State) : Host.Outcome State Fault Refusal := done ((s.atTime t).access m R.HB_GCOR v.toNat)

def execHbFadjWrite (t : Nat) (m : Master) (v : Word) (s : State) : Host.Outcome State Fault Refusal := done ((s.atTime t).access m R.HB_FADJ v.toNat)

def execHbLcfgCommit (t : Nat) (m : Master) (n : Fin 32) (v : Word) (s : State) : Host.Outcome State Fault Refusal :=
  done ((s.atTime t).access m (R.HB_LCFG n) v.toNat)

def execHbFuspWrite (t : Nat) (m : Master) (v : Word) (s : State) : Host.Outcome State Fault Refusal := done ((s.atTime t).access m R.HB_FUSP v.toNat)

def execHbGnspWrite (t : Nat) (m : Master) (v : Word) (s : State) : Host.Outcome State Fault Refusal := done ((s.atTime t).access m R.HB_GNSP v.toNat)

/-! Registers of the camera blocks (R102, R112–R116). -/

def execVscRelWrite (t : Nat) (m : Master) (c : Fin 8) (v : Word) (s : State) : Host.Outcome State Fault Refusal :=
  done ((s.atTime t).access m (R.VSC_REL c) v.toNat)

def execContextEnable (t : Nat) (m : Master) (c : Fin 8) (v : Word) (s : State) : Host.Outcome State Fault Refusal :=
  done ((s.atTime t).access m (R.VSC_CCFG c) v.toNat)

def execContextDisable (t : Nat) (m : Master) (c : Fin 8) (v : Word) (s : State) : Host.Outcome State Fault Refusal :=
  done ((s.atTime t).access m (R.VSC_CCFG c) (v.toNat / 2 * 2))

def execContextMigrate (t : Nat) (m : Master) (c : Fin 8) (v : Word) (s : State) : Host.Outcome State Fault Refusal :=
  done ((s.atTime t).access m (R.VSC_CCFG c) v.toNat)

def execCsiDisable (t : Nat) (m : Master) (p : Fin 4) (v : Word) (s : State) : Host.Outcome State Fault Refusal :=
  done ((s.atTime t).access m (R.CSI_CFG p) (v.toNat / 2 * 2))

def execCsiClr (t : Nat) (m : Master) (p : Fin 4) (v : Word) (s : State) : Host.Outcome State Fault Refusal :=
  done ((s.atTime t).access m (R.CSI_CLR p) v.toNat)

def execMplClr (t : Nat) (m : Master) (q : Fin 2) (v : Word) (s : State) : Host.Outcome State Fault Refusal :=
  done ((s.atTime t).access m (R.MPL_CLR q) v.toNat)

def execVscCclr (t : Nat) (m : Master) (c : Fin 8) (v : Word) (s : State) : Host.Outcome State Fault Refusal :=
  done ((s.atTime t).access m (R.VSC_CCLR c) v.toNat)

/-! Registers of the input blocks (R162–R164). -/

def execHraClr (t : Nat) (m : Master) (v : Word) (s : State) : Host.Outcome State Fault Refusal := done ((s.atTime t).access m R.HRA_CLR v.toNat)

def execGpaCalNow (t : Nat) (m : Master) (v : Word) (s : State) : Host.Outcome State Fault Refusal := done ((s.atTime t).access m R.GPA_CAL v.toNat)

def execGpaClr (t : Nat) (m : Master) (v : Word) (s : State) : Host.Outcome State Fault Refusal := done ((s.atTime t).access m R.GPA_CLR v.toNat)

def execFqiClr (t : Nat) (m : Master) (v : Word) (s : State) : Host.Outcome State Fault Refusal := done ((s.atTime t).access m R.FQI_CLR v.toNat)

/-! Registers of the feature and fusion engine (R177, R180, R199–R202). -/

def execSourceEnable (t : Nat) (m : Master) (n : Fin 32) (v : Word) (s : State) : Host.Outcome State Fault Refusal :=
  done ((s.atTime t).access m (R.FUS_SCTL n) v.toNat)

def execSourceDisable (t : Nat) (m : Master) (n : Fin 32) (v : Word) (s : State) : Host.Outcome State Fault Refusal :=
  done ((s.atTime t).access m (R.FUS_SCTL n) (v.toNat / 2 * 2))

def execFusSputWrite (t : Nat) (m : Master) (n : Fin 32) (v : Word) (s : State) : Host.Outcome State Fault Refusal :=
  done ((s.atTime t).access m (R.FUS_SPUT n) v.toNat)

def execGridEnable (t : Nat) (m : Master) (g : Fin 4) (v : Word) (s : State) : Host.Outcome State Fault Refusal :=
  done ((s.atTime t).access m (R.FUS_GCFG g) v.toNat)

def execGridDisable (t : Nat) (m : Master) (g : Fin 4) (v : Word) (s : State) : Host.Outcome State Fault Refusal :=
  done ((s.atTime t).access m (R.FUS_GCFG g) (v.toNat / 2 * 2))

def execYtCommit (t : Nat) (m : Master) (v : Word) (s : State) : Host.Outcome State Fault Refusal := done ((s.atTime t).access m R.YT_COMMIT v.toNat)

def execFexClr (t : Nat) (m : Master) (v : Word) (s : State) : Host.Outcome State Fault Refusal := done ((s.atTime t).access m R.FEX_CLR v.toNat)

def execPrjClr (t : Nat) (m : Master) (v : Word) (s : State) : Host.Outcome State Fault Refusal := done ((s.atTime t).access m R.PRJ_CLR v.toNat)

def execFusClr (t : Nat) (m : Master) (v : Word) (s : State) : Host.Outcome State Fault Refusal := done ((s.atTime t).access m R.FUS_CLR v.toNat)

def execYtClr (t : Nat) (m : Master) (v : Word) (s : State) : Host.Outcome State Fault Refusal := done ((s.atTime t).access m R.YT_CLR v.toNat)

/-! Registers of the control engine (R261, R265, R270, R277–R280). -/

def execLaneStart (t : Nat) (m : Master) (h : Fin 2) (l : Fin 8) (v : Word) (s : State) : Host.Outcome State Fault Refusal :=
  done ((s.atTime t).access m (R.LAN_CTL h l) v.toNat)

def execLaneStop (t : Nat) (m : Master) (h : Fin 2) (l : Fin 8) (v : Word) (s : State) : Host.Outcome State Fault Refusal :=
  done ((s.atTime t).access m (R.LAN_CTL h l) v.toNat)

def execLoopEnable (t : Nat) (m : Master) (h : Fin 2) (n : Fin 256) (v : Word) (s : State) : Host.Outcome State Fault Refusal :=
  done ((s.atTime t).access m (R.LPD_CTL h n) v.toNat)

def execLphSwapReq (t : Nat) (m : Master) (h : Fin 2) (v : Word) (s : State) : Host.Outcome State Fault Refusal :=
  done ((s.atTime t).access m (R.LPH_SWAP h) v.toNat)

def execMigrationArm (t : Nat) (m : Master) (h : Fin 2) (v : Word) (s : State) : Host.Outcome State Fault Refusal :=
  done ((s.atTime t).access m (R.CE_MIG h) v.toNat)

def execMigrationAbort (t : Nat) (m : Master) (h : Fin 2) (v : Word) (s : State) : Host.Outcome State Fault Refusal :=
  done ((s.atTime t).access m (R.CE_MIG h) v.toNat)

def execCeClr (t : Nat) (m : Master) (h : Fin 2) (v : Word) (s : State) : Host.Outcome State Fault Refusal :=
  done ((s.atTime t).access m (R.CE_CLR h) v.toNat)

/-! Registers of the power die (R316, R322, R328, R330, R343, R355, R362, R378, R379). -/

def execPalmRearm (t : Nat) (m : Master) (p : Fin 8) (v : Word) (s : State) : Host.Outcome State Fault Refusal :=
  done ((s.atTime t).access m (R.PLM_CTL p) v.toNat)

def execFingerRearm (t : Nat) (m : Master) (n : Fin 32) (v : Word) (s : State) : Host.Outcome State Fault Refusal :=
  done ((s.atTime t).access m (R.FNG_CTL n) v.toNat)

def execFngClr (t : Nat) (m : Master) (v : Word) (s : State) : Host.Outcome State Fault Refusal := done ((s.atTime t).access m R.FNG_CLR v.toNat)

def execPlmClr (t : Nat) (m : Master) (v : Word) (s : State) : Host.Outcome State Fault Refusal := done ((s.atTime t).access m R.PLM_CLR v.toNat)

def execLoadRearm (t : Nat) (m : Master) (n : Fin 16) (v : Word) (s : State) : Host.Outcome State Fault Refusal :=
  done ((s.atTime t).access m (R.LDS_CTL n) v.toNat)

def execLdsClr (t : Nat) (m : Master) (v : Word) (s : State) : Host.Outcome State Fault Refusal := done ((s.atTime t).access m R.LDS_CLR v.toNat)

def execBrmCeilWrite (t : Nat) (m : Master) (r : Fin 2) (v : Word) (s : State) : Host.Outcome State Fault Refusal :=
  done ((s.atTime t).access m (R.BRM_CEIL r) v.toNat)

def execBrmClr (t : Nat) (m : Master) (v : Word) (s : State) : Host.Outcome State Fault Refusal := done ((s.atTime t).access m R.BRM_CLR v.toNat)

def execSnpClr (t : Nat) (m : Master) (v : Word) (s : State) : Host.Outcome State Fault Refusal := done ((s.atTime t).access m R.SNP_CLR v.toNat)

/-! Registers of the position blocks (R382–R403). -/

def execFeFrame (t : Nat) (m : Master) (v : Word) (s : State) : Host.Outcome State Fault Refusal := done ((s.atTime t).access m R.GNB_FECMD v.toNat)

def execChannelEnable (t : Nat) (m : Master) (c : Fin 96) (v : Word) (s : State) : Host.Outcome State Fault Refusal :=
  done ((s.atTime t).access m (R.GNB_CHCFG c) v.toNat)

def execAcqStart (t : Nat) (m : Master) (v : Word) (s : State) : Host.Outcome State Fault Refusal := done ((s.atTime t).access m R.GNB_AQ0 v.toNat)

def execPrdWrite (t : Nat) (m : Master) (c : Fin 96) (v : Word) (s : State) : Host.Outcome State Fault Refusal :=
  done ((s.atTime t).access m (R.GNB_PRD c) v.toNat)

def execClkeWrite (t : Nat) (m : Master) (v : Word) (s : State) : Host.Outcome State Fault Refusal := done ((s.atTime t).access m R.GNB_CLKE v.toNat)

def execNavCommit (t : Nat) (m : Master) (v : Word) (s : State) : Host.Outcome State Fault Refusal := done ((s.atTime t).access m R.GNB_NAVC v.toNat)

def execGnbRelWrite (t : Nat) (m : Master) (v : Word) (s : State) : Host.Outcome State Fault Refusal := done ((s.atTime t).access m R.GNB_REL v.toNat)

def execGnbClr (t : Nat) (m : Master) (v : Word) (s : State) : Host.Outcome State Fault Refusal := done ((s.atTime t).access m R.GNB_CLR v.toNat)

def execImuClr (t : Nat) (m : Master) (v : Word) (s : State) : Host.Outcome State Fault Refusal := done ((s.atTime t).access m R.IMU_CLR v.toNat)

/-! Registers of CAN and the message engine (R413, R425, R431, R432, R434, R443, R445). -/

def execCanRecov (t : Nat) (m : Master) (n : Fin 4) (v : Word) (s : State) : Host.Outcome State Fault Refusal :=
  done ((s.atTime t).access m (R.CAN_CTL n) v.toNat)

def execCanClr (t : Nat) (m : Master) (n : Fin 4) (v : Word) (s : State) : Host.Outcome State Fault Refusal :=
  done ((s.atTime t).access m (R.CAN_CLR n) v.toNat)

def execObjTxreq (t : Nat) (m : Master) (v : Word) (s : State) : Host.Outcome State Fault Refusal := done ((s.atTime t).access m R.OBJ_TXREQ v.toNat)

def execAddressClaimStart (t : Nat) (m : Master) (n : Fin 4) (v : Word) (s : State) : Host.Outcome State Fault Refusal :=
  done ((s.atTime t).access m (R.MSG_AC n) v.toNat)

def execMsgPrel (t : Nat) (m : Master) (v : Word) (s : State) : Host.Outcome State Fault Refusal := done ((s.atTime t).access m R.MSG_PREL v.toNat)

def execMsgClr (t : Nat) (m : Master) (v : Word) (s : State) : Host.Outcome State Fault Refusal := done ((s.atTime t).access m R.MSG_CLR v.toNat)

/-! Registers of Lamip, the switch, roles, resets, events, updates and fuses (R472, R473, R498–R507, R530, R551, R559, R562, R564, R570). -/

def execLmpClr (t : Nat) (m : Master) (v : Word) (s : State) : Host.Outcome State Fault Refusal := done ((s.atTime t).access m R.LMP_CLR v.toNat)

def execEthClr (t : Nat) (m : Master) (v : Word) (s : State) : Host.Outcome State Fault Refusal := done ((s.atTime t).access m R.ETH_CLR v.toNat)

def execRoleFail (t : Nat) (m : Master) (v : Word) (s : State) : Host.Outcome State Fault Refusal := done ((s.atTime t).access m R.ROLE_CTL v.toNat)

def execStest (t : Nat) (m : Master) (v : Word) (s : State) : Host.Outcome State Fault Refusal := done ((s.atTime t).access m R.ROLE_CTL v.toNat)

def execSwap (t : Nat) (m : Master) (v : Word) (s : State) : Host.Outcome State Fault Refusal := done ((s.atTime t).access m R.ROLE_CTL v.toNat)

def execSwapAbort (t : Nat) (m : Master) (v : Word) (s : State) : Host.Outcome State Fault Refusal := done ((s.atTime t).access m R.ROLE_CTL v.toNat)

def execSoftwareReset (t : Nat) (m : Master) (v : Word) (s : State) : Host.Outcome State Fault Refusal :=
  done ((s.atTime t).access m R.RST_CTL v.toNat)

def execBeanieEnter (t : Nat) (m : Master) (v : Word) (s : State) : Host.Outcome State Fault Refusal := done ((s.atTime t).access m R.RST_CTL v.toNat)

def execFltClr (t : Nat) (m : Master) (v : Word) (s : State) : Host.Outcome State Fault Refusal := done ((s.atTime t).access m R.FLT_CLR v.toNat)

def execImageAbort (t : Nat) (m : Master) (v : Word) (s : State) : Host.Outcome State Fault Refusal := done ((s.atTime t).access m R.UPD_CTL v.toNat)

def execConfirm (t : Nat) (m : Master) (v : Word) (s : State) : Host.Outcome State Fault Refusal := done ((s.atTime t).access m R.UPD_CTL v.toNat)

def execBlockRestart (t : Nat) (m : Master) (v : Word) (s : State) : Host.Outcome State Fault Refusal :=
  done ((s.atTime t).access m R.UPD_FRST v.toNat)

def execTallyArm (t : Nat) (m : Master) (v : Word) (s : State) : Host.Outcome State Fault Refusal := done ((s.atTime t).access m R.TLY_ARM v.toNat)

/-! Writes that take something else from outside. -/

/-- A rotation is due PER seconds after the last one started, or a master writes HRA_CAL with NOW (R129). -/
def execCalRotationStart (t : Nat) (now : Option (Master × Word)) (s : State) : Host.Outcome State Fault Refusal :=
  let s := s.atTime t
  match now with
  | some (m, v) => done (s.access m R.HRA_CAL v.toNat)
  | none =>
    let per := s.get F.HRA_CAL_PER
    done (if per ≠ 0 ∧ s.inp.rotAt + per * 1000000000 ≤ s.now ∧ s.awake hraBlock then s.startRotation else s)

/-- A read of an object's STAT through the window (R423). -/
def execObjStatRead (t : Nat) (m : Master) (k : Fin 512) (s : State) : Host.Outcome State Fault Refusal :=
  done ((s.atTime t).accessRead m (0x40065400C + 0x20 * k))

/-- `won`: the buffer whose frame has won arbitration (R431). -/
def execMsgCancel (t : Nat) (m : Master) (v : Word) (won : Option (Fin 3)) (s : State) : Host.Outcome State Fault Refusal :=
  done ((s.atTime t).access m R.MSG_CANCEL v.toNat { won := some (won.map (·.val)) })

/-- `vbat`: VBAT in mV (R570). -/
def execTallyBurn (t : Nat) (m : Master) (v : Word) (vbat : Nat) (s : State) : Host.Outcome State Fault Refusal :=
  done ((s.atTime t).access m R.TLY_CMD v.toNat { vbat := some vbat })

def execHmnKick (t : Nat) (m : Master) (c : ACoreId) (v : Word) (s : State) : Host.Outcome State Fault Refusal :=
  done ((s.atTime t).access m (R.HMN_KICK c.half c.core) v.toNat)

/-- A write of EVR_CTL:FLUSH (R541). -/
def execLogFlushCmd (t : Nat) (m : Master) (s : State) : Host.Outcome State Fault Refusal := done ((s.atTime t).access m R.EVR_CTL 1)

end Sys2Proof.Machine
end

