-- ==== Sys2Proof/Machine/Lamip.lean ====
section
/-! DEFINITION. The Lamip engine LMP: frames, the retry cache, the transactions, subscriptions (spec/13_lamip_ownership_ethernet.md R452–R469;
spec/16_event_recorder.md R545–R548; spec/17_update_tally_fuses.md R557–R559). -/

namespace Sys2Proof

/-! Parts of a request. -/

/-- Payload word `i` of a request. -/
def LampReq.word (q : LampReq) (i : Nat) : Nat := (q.payload.getD i 0).toNat

/-- The place code of a request in the form of R9. -/
def LampReq.at (q : LampReq) : Nat := Machine.canonPlace q.place.toNat

/-- The response to a request. -/
def LampReq.answer (q : LampReq) (m : Master) (ty status : Nat) (payload : List Nat := []) : Machine.LampFrame :=
  { mid := m, type := ty, status := status, tid := q.tid.toNat, place := q.at, addr := q.addr.toNat, payload := payload }

/-- The request with the EVLOG operation `op`. -/
def LampReq.withOp (q : LampReq) (op : Nat) : LampReq := { q with payload := BitVec.ofNat 32 op :: q.payload.drop 1 }

end Sys2Proof

namespace Sys2Proof.Machine

/-! Transactions (R456). -/

def tyRead : Nat := 1
def tyWrite : Nat := 2
def tyClaim : Nat := 3
def tyRenew : Nat := 4
def tyRelease : Nat := 5
def tyHandover : Nat := 6
def tyReset : Nat := 7
def tyStage : Nat := 8
def tyCommit : Nat := 9
def tySubscribe : Nat := 10
def tyEvlog : Nat := 11

/-- The payload words that a type takes: fewest and most; none for a reserved type. -/
def lampWords (ty : Nat) : Option (Nat × Nat) :=
  match ty with
  | 1 | 3 => some (1, 1)
  | 2 | 8 => some (0, 256)
  | 4 | 5 | 7 | 9 => some (0, 0)
  | 6 | 10 => some (2, 2)
  | 11 => some (3, 3)
  | _ => none

/-- A type that the owner alone may use. -/
def ownerType (ty : Nat) : Bool := decide (4 ≤ ty) && decide (ty ≤ 9)

/-- Why a request is refused before it executes (R8, R455, R456, R469); none: it executes. -/
def State.lampRefuse (s : State) (m : Master) (ty : Nat) (q : LampReq) : Option Nat :=
  match lampWords ty with
  | none => some stBadType
  | some (lo, hi) =>
    if q.payload.length < lo ∨ hi < q.payload.length then some stBadLen
    else if q.addr.toNat % 4 ≠ 0 ∨ 2 ^ 48 ≤ q.addr.toNat then some stBadAddr
    else if !placeExists q.at then some stBadPlace
    else if ownerType ty && !s.isOwner m then some stNotOwner
    else none

/-- Why a READ of `n` bytes is refused (R455, R456). -/
def readRefuse (q : LampReq) (n : Nat) : Option Nat :=
  if n < 4 ∨ 1024 < n ∨ n % 4 ≠ 0 then some stBadLen
  else if !inPlace q.at q.addr.toNat n then some stBadPlace
  else none

/-- A fabric error or poison at address `a` is a fault to FLT (R469). -/
def State.lampFault (s : State) (a : Nat) : State := s.event 0xA701 lmpPlace (p1 := a % 2 ^ 32) (p2 := a / 2 ^ 32)

/-- `n` words read from `a` on by master `m`; it stops at the first word that fails, without data (R457, R469). `got`: those read, last first. -/
def State.lampRead (s : State) (m : Master) (a : Nat) : Nat → List Nat → State × Nat × List Nat
  | 0, got => (s, stOk, got.reverse)
  | n + 1, got =>
    let r := s.busRead m a
    if r.bad || r.status == stError then (r.st.lampFault a, stError, [])
    else if r.status ≠ stOk then (r.st, r.status, [])
    else r.st.lampRead m (a + 4) n (r.val :: got)

/-- Words written from `a` on by master `m`; it stops at the first word that fails, or whose data takes an injected parity error (R46, R457, R469). -/
def State.lampWrite (s : State) (m : Master) (a : Nat) : List Nat → Acc2
  | [] => okay s
  | w :: l =>
    let inj := (s.accessError a).isNone && s.armed true
    let r := s.busWrite m a w
    if inj || r.2 == stError then (r.1.lampFault a, stError)
    else if r.2 ≠ stOk then r
    else r.1.lampWrite m (a + 4) l

/-- The word at `a` may not be written by master `m`: it is managed, or Own or Tly or memory of the owner's alone (R24, R457, R462). -/
def State.wordRefused (s : State) (m : Master) (a : Nat) : Bool :=
  if isMemory a then (s.memCheck m a 4).2 == stNotOwner || (decide (0x380000000 ≤ a) && decide (a < 0x380001000) && !s.isOwner m)
  else
    match regDescAt (s.markAddr m a) with
    | some (_, d) => (d.ownerOnly || d.fields.any (fun f => f.acc == .tly)) && !s.isOwner m
    | none => false

/-- A WRITE: its status, and the state after it. -/
def State.lampWriteAll (s : State) (m : Master) (q : LampReq) : State × Nat × Bool :=
  let a := q.addr.toNat
  let n := q.payload.length
  if !inPlace q.at a (4 * max n 1) then (s, stBadPlace, false)
  else if (List.range n).any (fun i => s.wordRefused m (a + 4 * i)) then (s, stNotOwner, false)
  else
    let r := s.lampWrite m a (q.payload.map (·.toNat))
    (r.1, r.2, true)

/-! The log (R545–R548). -/

/-- A record as EVLOG reads it: its number, its 32 bytes, and the address at which a poison mark of it shows. -/
structure LogRec where
  seq : Nat := 0
  word : Nat := 0
  loc : Nat := 0
  deriving DecidableEq, Repr

/-- Sequence number `b` is `a` or later, modulo 2^32 (R537). -/
def seqFrom (a b : Nat) : Bool := decide ((b + 2 ^ 32 - a % 2 ^ 32) % 2 ^ 32 < 2 ^ 31)

/-- A record put in ascending order of sequence numbers. -/
def insertRecord (r : LogRec) : List LogRec → List LogRec
  | [] => [r]
  | x :: l => if seqFrom x.seq r.seq then x :: insertRecord r l else r :: x :: l

/-- The records of the log, in order. -/
def State.logged (s : State) : List LogRec :=
  (List.range (s.get F.EVR_LCNT_LCNT)).map (fun i =>
    let a := 0x300C00000 + 32 * i
    let w := s.readN a 32
    { seq := w % 2 ^ 32, word := w, loc := a })

/-- The records of the buffer, oldest first. -/
def State.buffered (s : State) : List LogRec :=
  let n := s.evr.buf.length
  s.evr.buf.zipIdx.map (fun e => { seq := e.1.seq, word := recordWord e.1.seq e.1.entry, loc := slotWindow ((s.evr.slot + 4096 - n + e.2) % 2048) })

/-- The records held, from sequence number `first` on, in ascending order. Those of the log come before those that the buffer alone holds. -/
def State.recordsFrom (s : State) (first : Nat) : List LogRec :=
  let log := s.logged.filter (fun r => seqFrom first r.seq)
  (s.buffered.filter (fun e => seqFrom first e.seq && !log.any (fun r => r.seq == e.seq))).foldl (fun l e => insertRecord e l) log

/-- An EVLOG transaction; poisoned records are not sent (R45, R469). -/
def State.lampEvlog (s : State) (m : Master) (q : LampReq) : State × Nat × List Nat :=
  match q.word 0 with
  | 0 =>
    if q.word 2 < 1 ∨ 32 < q.word 2 then (s, stBadLen, [])
    else
      let l := (s.recordsFrom (q.word 1)).take (q.word 2)
      match l.find? (fun r => s.poisoned r.loc 32) with
      | some r => ((s.event 0xA701 lmpPlace (p1 := r.loc % 2 ^ 32) (p2 := r.loc / 2 ^ 32)).delivered r.loc, stError, [])
      | none => (s, stOk, l.flatMap (fun r => (List.range 8).map (fun i => r.word / 2 ^ (32 * i) % 2 ^ 32)))
  | 1 => let r := s.logClear m; (r.1, r.2, [])
  | 2 => let r := s.logFreeze; (r.1, r.2, [])
  | 3 => (s.evrUnfreeze, stOk, [])
  | _ => (s, stBadLen, [])

/-! Subscriptions (R458). -/

/-- The subscription of master `m` with identifier `tid`. -/
def Subs.is (x : Subs) (m tid : Nat) : Bool := x.mid == m && x.tid == tid

/-- A SUBSCRIBE. -/
def State.lampSubscribe (s : State) (m : Master) (q : LampReq) : Acc2 :=
  let period := q.word 0
  let n := q.word 1
  let tid := q.tid.toNat
  let others := s.net.subs.filter (fun x => !x.is m tid)
  if period = 0 then okay (s.withNet { s.net with subs := others })
  else if period < 10 ∨ 60000 < period then (s, stBadLen)
  else
    match readRefuse q n with
    | some st => (s, st)
    | none =>
      if 32 ≤ others.length then (s, stBusy)
      else
        let x : Subs := { mid := m, tid := tid, place := q.at, addr := q.addr.toNat, bytes := n, period := period, at1 := s.clock }
        okay (s.withNet { s.net with subs := others ++ [x] })

/-- A push is due: module time is a multiple of the period, and this one has not been pushed. -/
def State.pushDue (s : State) (x : Subs) : Bool :=
  s.timed && s.now % (x.period * 1000000) == 0 && x.pushed != some s.now

/-- The push of a subscription. -/
def State.pushSubs (s : State) (x : Subs) : State :=
  let s := s.withNet { s.net with subs := s.net.subs.map (fun y => if y.is x.mid x.tid then { y with pushed := some s.now } else y) }
  let r := s.lampRead x.mid x.addr (x.bytes / 4) []
  r.1.lampOut { mid := x.mid, type := tySubscribe, push := true, status := r.2.1, tid := x.tid, place := x.place, addr := x.addr, payload := r.2.2 }

/-! Execution. -/

/-- The place names image kind `k` of UPD (R456). -/
def imagePlace (p : Nat) : Option Nat := if p / 2 ^ 16 = place 3 0 6 0 / 2 ^ 16 ∧ kindOk (p % 2 ^ 16) then some (p % 2 ^ 16) else none

/-- A request of OWN. -/
def ownType (ty : Nat) : Bool := decide (tyClaim ≤ ty) && decide (ty ≤ tyHandover)

/-- A request is lost: no response comes, and a repeat executes afresh (R470). -/
def State.lampLose (s : State) (m : Master) (q : LampReq) : State :=
  s.withNet { s.net with cache := s.net.cache.filter (fun e => !(e.mid == m && e.tid == q.tid.toNat && e.answer.isNone)) }

/-- A request of master `m` executed and answered, at once or held for its epoch (R456–R459). -/
def State.lampExecute (s : State) (m : Master) (ty : Nat) (q : LampReq) : State :=
  let now (s : State) (status : Nat) (data : List Nat) : State := s.lampSend (q.answer m ty status data)
  match s.lampRefuse m ty q with
  | some st => now s st []
  | none =>
    match ty with
    | 1 =>
      match readRefuse q (q.word 0) with
      | some st => now s st []
      | none => let r := s.lampRead m q.addr.toNat (q.word 0 / 4) []; now r.1 r.2.1 r.2.2
    | 2 => let r := s.lampWriteAll m q; if r.2.2 then r.1.lampHold (q.answer m ty r.2.1) else now r.1 r.2.1 []
    | 3 =>
      match s.ownClaim m (q.word 0 % 8) (some (q.answer m ty stOk)) with
      | (s, some st) => now s st []
      | (s, none) => s
    | 4 => let r := s.ownRenew m; now r.1 r.2 []
    | 5 => let r := s.ownRelease m; now r.1 r.2 []
    | 6 => let r := s.ownHandover m (q.word 0 + q.word 1 * 2 ^ 32); now r.1 r.2 []
    | 7 => if reachOk q.at then s.lampHold (q.answer m ty stOk) else now s stBadPlace []
    | 8 =>
      match imagePlace q.at with
      | none => now s stBadPlace []
      | some k =>
        let r := s.stageFrame k q.addr.toNat (q.payload.flatMap (fun w => leBytes 4 w.toNat))
        if r.2 = stOk then r.1.lampHold (q.answer m ty stOk) else now r.1 r.2 []
    | 9 =>
      match imagePlace q.at with
      | none => now s stBadPlace []
      | some k =>
        let r := s.commitImage k
        if r.2.1 ≠ stOk then now r.1 r.2.1 []
        else if r.2.2 then r.1.lampHold (q.answer m ty stOk)
        else r.1.setImg k { r.1.img k with resp := some (q.answer m ty stOk) }
    | 10 => let r := s.lampSubscribe m q; now r.1 r.2 []
    | _ => let r := s.lampEvlog m q; now r.1 r.2.1 r.2.2

/-- A request of master `m` executes; one for OWN is lost while OWN restarts or is in reset (R470). -/
def State.lampTransact (s : State) (m : Master) (ty : Nat) (q : LampReq) : State :=
  if ownType ty && !s.ownUp && (s.lampRefuse m ty q).isNone then s.lampLose m q else s.lampExecute m ty q

/-- A transaction of a master reaches LMP. -/
def State.lampRun (s : State) (m : Master) (ty : Nat) (q : LampReq) : State := if s.lampUp then s.lampTransact m ty q else s

/-! Frames (R452–R454, R460). -/

/-- The frame passes R454: its CRC, its length, its version. -/
def frameOk (b : List Byte) : Bool :=
  decide (28 ≤ b.length) && leAt b 0 1 == 1 && b.length == 28 + leAt b 20 4
    && leAt b (b.length - 4) 4 == (crc32c (b.take (b.length - 4))).toNat

/-- The words of a byte string. -/
def byteWords (b : List Byte) : List Word := (List.range (b.length / 4)).map (fun i => BitVec.ofNat 32 (leAt b (4 * i) 4))

/-- The request in a frame. -/
def frameReq (b : List Byte) : LampReq :=
  { tid := BitVec.ofNat 32 (leAt b 4 4), place := BitVec.ofNat 32 (leAt b 8 4), addr := BitVec.ofNat 64 (leAt b 12 8), payload := byteWords ((b.drop 24).take (leAt b 20 4)) }

/-- The frame of a new request executes; FLAGS and STATUS of a request are 0, LEN a multiple of 4 up to 1,024 (R453). -/
def State.frameRun (s : State) (m : Master) (b : List Byte) : State :=
  let ty := leAt b 1 1
  let q := frameReq b
  if lampWords ty = none then s.lampSend (q.answer m ty stBadType)
  else if leAt b 2 2 ≠ 0 ∨ leAt b 20 4 % 4 ≠ 0 ∨ 1024 < leAt b 20 4 then s.lampSend (q.answer m ty stBadLen)
  else s.lampTransact m ty q

/-- A frame of master `m` arrives. -/
def State.frameArrives (s : State) (m : Master) (b : List Byte) : State :=
  if !frameOk b then (s.countSat F.LMP_CRCCNT_COUNT).raise F.LMP_STAT_CRCERR
  else
    let s := s.count F.LMP_RXCNT_COUNT
    let q := frameReq b
    let tid := q.tid.toNat
    if tid = 0 then s.frameRun m b
    else
      match s.net.cache.find? (fun e => e.mid == m && e.tid == tid) with
      | some e =>
        match e.answer with
        | some f => (s.countSat F.LMP_RETRY_COUNT).lampOut f
        | none => s
      | none =>
        let full := decide (512 ≤ s.net.cache.length)
        let stuck := match s.net.cache with
          | e :: _ => e.answer.isNone
          | [] => false
        if full && stuck then s.lampSend (q.answer m (leAt b 1 1) stBusy)
        else
          let kept := if full then s.net.cache.drop 1 else s.net.cache
          (s.withNet { s.net with cache := kept ++ [{ mid := m, tid := tid }] }).frameRun m b

def usbPlace : Nat := fieldBlock 6 8

/-- USB neither restarts nor is in reset (R470). -/
def State.usbUp (s : State) : Bool := s.awake usbPlace && !s.blockHeld usbPlace

/-- LMP takes its next frame from a transport; one that LMP_CFG, ETH_IP, MSG_AC or USB closes drops it (R436, R449, R451, R472, R473). -/
def State.lampTake (s : State) (src : LampSrc) : State :=
  match src with
  | .udp =>
    match s.net.lmpUdp with
    | [] => s
    | (ip, port, b) :: rest =>
      let s := s.withNet { s.net with lmpUdp := rest }
      if s.flag F.LMP_CFG_UDPEN && s.word R.ETH_IP != 0 then s.frameArrives (2 ^ 56 + ip * 2 ^ 16 + port) b else s
  | .can =>
    match s.lmpCan with
    | [] => s
    | (c, sa, b) :: rest =>
      let s := { s with lmpCan := rest }
      if s.flag F.LMP_CFG_CANEN && s.flag (F.MSG_AC_LMP c) then s.frameArrives (2 * 2 ^ 56 + c * 2 ^ 8 + sa) b else s
  | .usb b =>
    if s.flag F.LMP_CFG_USBEN && s.flag F.USB_CFG_EN && s.flag F.USB_STAT_CFGD && decide (s.net.usbOff ≤ s.clock) && s.usbUp then s.frameArrives (3 * 2 ^ 56) b else s

/-! Commands. A transaction's command is the request as LMP executes it; a frame with it inside comes by LAMIP_FRAME_RECEIVE. -/

def execLamipFrameReceive (t : Nat) (src : LampSrc) (s : State) : Host.Outcome State Fault Refusal :=
  let s := s.atTime t
  done (if s.lampUp then s.lampTake src else s)

def execRead (t : Nat) (m : Master) (q : LampReq) (s : State) : Host.Outcome State Fault Refusal := done ((s.atTime t).lampRun m tyRead q)
def execWrite (t : Nat) (m : Master) (q : LampReq) (s : State) : Host.Outcome State Fault Refusal := done ((s.atTime t).lampRun m tyWrite q)
def execReset (t : Nat) (m : Master) (q : LampReq) (s : State) : Host.Outcome State Fault Refusal := done ((s.atTime t).lampRun m tyReset q)
def execSubscribe (t : Nat) (m : Master) (q : LampReq) (s : State) : Host.Outcome State Fault Refusal := done ((s.atTime t).lampRun m tySubscribe q)

/-- An EVLOG of OP 0 (R545). -/
def execEvlogRead (t : Nat) (m : Master) (q : LampReq) (s : State) : Host.Outcome State Fault Refusal := done ((s.atTime t).lampRun m tyEvlog (q.withOp 0))

/-- By Lamip (`q`), or by a write of word `v` to the register at `a`. -/
def State.either (s : State) (m : Master) (ty : Nat) (q : Option LampReq) (a v : Nat) : State :=
  match q with
  | some q => s.lampRun m ty q
  | none => s.access m a v

def execClaim (t : Nat) (m : Master) (q : Option LampReq) (v : Word) (s : State) : Host.Outcome State Fault Refusal :=
  done ((s.atTime t).either m tyClaim q R.OWN_CTL v.toNat)

def execRenew (t : Nat) (m : Master) (q : Option LampReq) (v : Word) (s : State) : Host.Outcome State Fault Refusal :=
  done ((s.atTime t).either m tyRenew q R.OWN_CTL v.toNat)

def execRelease (t : Nat) (m : Master) (q : Option LampReq) (v : Word) (s : State) : Host.Outcome State Fault Refusal :=
  done ((s.atTime t).either m tyRelease q R.OWN_CTL v.toNat)

def execHandover (t : Nat) (m : Master) (q : Option LampReq) (v : Word) (s : State) : Host.Outcome State Fault Refusal :=
  done ((s.atTime t).either m tyHandover q R.OWN_CTL v.toNat)

def execStage (t : Nat) (m : Master) (q : Option LampReq) (v : Word) (s : State) : Host.Outcome State Fault Refusal :=
  done ((s.atTime t).either m tyStage q R.UPD_SCMD v.toNat)

def execCommit (t : Nat) (m : Master) (q : Option LampReq) (v : Word) (s : State) : Host.Outcome State Fault Refusal :=
  done ((s.atTime t).either m tyCommit q R.UPD_CTL v.toNat)

def execLogClear (t : Nat) (m : Master) (q : Option LampReq) (s : State) : Host.Outcome State Fault Refusal :=
  done ((s.atTime t).either m tyEvlog (q.map (·.withOp 1)) R.EVR_CTL 2)

def execLogFreeze (t : Nat) (m : Master) (q : Option LampReq) (s : State) : Host.Outcome State Fault Refusal :=
  done ((s.atTime t).either m tyEvlog (q.map (·.withOp 2)) R.EVR_CTL 4)

def execLogUnfreeze (t : Nat) (m : Master) (q : Option LampReq) (s : State) : Host.Outcome State Fault Refusal :=
  done ((s.atTime t).either m tyEvlog (q.map (·.withOp 3)) R.EVR_CTL 8)

/-- The subscription of master `m` and TID `tid` pushes, when it is due. -/
def execSubscriptionPush (t : Nat) (m : Master) (tid : Word) (s : State) : Host.Outcome State Fault Refusal :=
  let s := s.atTime t
  match s.net.subs.find? (fun x => x.is m tid.toNat) with
  | some x => done (if s.lampUp && s.pushDue x then s.pushSubs x else s)
  | none => done s

def execSubscriptionExpire (t : Nat) (m : Master) (tid : Word) (s : State) : Host.Outcome State Fault Refusal :=
  let s := s.atTime t
  done (s.withNet { s.net with subs := s.net.subs.filter (fun x => !(x.is m tid.toNat && decide (x.at1 + 30000000000 ≤ s.clock))) })

def execCacheEntryExpire (t : Nat) (m : Master) (tid : Word) (s : State) : Host.Outcome State Fault Refusal :=
  let s := s.atTime t
  done (s.withNet { s.net with cache := s.net.cache.filter (fun e => !(e.mid == m && e.tid == tid.toNat && e.answer.isSome && decide (e.at1 + 10000000000 ≤ s.clock))) })

end Sys2Proof.Machine
end

