-- ==== Sys2Proof/Machine/Ethernet.lean ====
section
/-! DEFINITION. The Ethernet switch ETH and the USB service port (spec/13_lamip_ownership_ethernet.md R446–R451, R469, R472, R473). -/

namespace Sys2Proof.Machine

/-- The switch's answer to an ARP request (R449). -/
def State.arpReply (s : State) (b : List Byte) : List Byte :=
  let p := ethBody b
  let asker := (b.drop (p + 8)).take 10
  let head := beBytes 6 (beAt b 6 6) ++ beBytes 6 s.ethMac ++ (b.drop 12).take (p - 12)
  head ++ [0, 1, 8, 0, 6, 4, 0, 2] ++ beBytes 6 s.ethMac ++ beBytes 4 (s.word R.ETH_IP) ++ asker ++ List.replicate 18 0

/-- The frame is an ARP request for ETH_IP. -/
def State.isArp (s : State) (b : List Byte) : Bool :=
  let p := ethBody b
  ethType b == 0x0806 && beAt b (p + 6) 2 == 1 && beAt b (p + 24) 4 == s.word R.ETH_IP && s.word R.ETH_IP != 0

/-- The fragments of a datagram that is dropped: protocol version, addresses, identification. -/
def IpPkt.key (x : IpPkt) : Bool × Nat × Nat × Nat := (x.v6, x.src, x.dst, x.ident)

/-- The frame carries a datagram for LMP, or the first fragment of one: to UDP port 41954, of IPv6 or to ETH_IP (R449). -/
def State.forLamp (s : State) (b : List Byte) : Option IpPkt :=
  (udpAt b).filter (fun x => beAt b (x.body + 2) 2 == 41954 && (x.v6 || (s.word R.ETH_IP != 0 && x.dst == s.word R.ETH_IP)))

/-- A datagram for LMP: dropped and counted where it is of IPv6 or fragmented, lost while LMP restarts (R470). The station that it comes from gets
the answer. -/
def State.toLamp (s : State) (b : List Byte) (x : IpPkt) (e : EthLoad) : State :=
  if x.v6 || x.frag then
    let s := s.countSat F.LMP_REFCNT_COUNT
    if x.frag && x.more then s.withNet { s.net with frags := s.net.frags.filter (· != x.key) ++ [x.key] } else s
  else if e.isFull 4 (ethQueue b) then s.countSat F.ETH_DROP_COUNT
  else if !s.lampUp then s
  else
    let u := x.body
    s.withNet { s.net with
      lmpUdp := s.net.lmpUdp ++ [(x.src, beAt b u 2, (b.drop (u + 8)).take (beAt b (u + 4) 2 - 8))]
      hosts := assocPut x.src (beAt b 6 6, if ethTagged b then (b.drop 12).take 4 else []) s.net.hosts }

/-- A frame passed on: to LMP, answered, dropped as a fragment of a dropped datagram, or forwarded (R447, R449). -/
def State.ethForward (s : State) (p : Nat) (b : List Byte) (e : EthLoad) : State :=
  if s.isArp b then s.ethSend e (s.arpReply b) p
  else
    match s.forLamp b, ipAt b with
    | some x, _ => s.toLamp b x e
    | none, some x =>
      if x.off ≠ 0 ∧ s.net.frags.contains x.key then (if x.more then s else s.withNet { s.net with frags := s.net.frags.filter (· != x.key) })
      else (s.ethPorts (beAt b 0 6) p).foldl (fun s k => s.ethSend e b k) s
    | none, none => (s.ethPorts (beAt b 0 6) p).foldl (fun s k => s.ethSend e b k) s

/-- A frame arrives at port `p`: stamped and counted on the wire (R36), then lost where it meets a full cuff (R33), else forwarded. -/
def State.ethFrame (s : State) (p : Nat) (b : List Byte) (e : EthLoad) : State :=
  let s := if p < 3 then (s.count (F.ETH_PRX_COUNT p)).ptpStamp p false b else s
  if p < 3 ∧ e.cuffFull then s.countSat F.ETH_DROP_COUNT else (s.ethLearn (beAt b 6 6) p).ethForward p b e

/-- What the ports have sent of their queues when a frame arrives: the frames that `e.sent` names, and all of a port that is not busy. -/
def State.egressRun (s : State) (e : EthLoad) : State :=
  let s := e.sent.foldl (fun s p => s.egressSend p.val) s
  ((List.range 4).filter (fun p => !e.isBusy p)).foldl (fun s p => s.egressDrain p) s

/-! Commands. -/

/-- `p`: the port that the frame came in by, 3 the active half; `full`: what stands in the frame's way, and what the ports have sent meanwhile. -/
def execSwitchFrame (t : Nat) (p : Fin 4) (frame : List Byte) (full : EthLoad) (s : State) : Host.Outcome State Fault Refusal :=
  let s := s.atTime t
  done (if s.ethUp && s.portUp p then (s.egressRun full).ethFrame p frame full else s)

/-- A PHY link is lost (R469). -/
def execLinkLoss (t : Nat) (p : Fin 3) (s : State) : Host.Outcome State Fault Refusal :=
  let s := s.atTime t
  if s.ethUp && s.flag (F.ETH_PSTAT_LINK p) then
    let macs := s.net.macs.filter (fun e => e.2.1 != p.val)
    let s := ((s.withNet { s.net with macs := macs }).put F.ETH_LRN_USED macs.length).put (F.ETH_PSTAT_LINK p) 0
    done (s.event 0x2607 ethPlace (p0 := p.val))
  else done s

/-- A PHY establishes its link on an enabled port (R473). -/
def execLinkUp (t : Nat) (p : Fin 3) (s : State) : Host.Outcome State Fault Refusal :=
  let s := s.atTime t
  done (if s.ethUp && s.flag (F.ETH_PCFG_EN p) then s.raise (F.ETH_PSTAT_LINK p) else s)

/-- Addresses not seen for 300 s are aged out (R447). -/
def execMacAddressAgeing (t : Nat) (s : State) : Host.Outcome State Fault Refusal :=
  let s := s.atTime t
  let macs := s.net.macs.filter (fun e => decide (s.clock < e.2.2 + 300000000000))
  done (if s.ethUp then (s.withNet { s.net with macs := macs }).put F.ETH_LRN_USED macs.length else s)

/-- The service port's bus changes (R451, R470, R472): a device that is not attached shows no host. -/
def execUsbBusChange (t : Nat) (conn hs cfgd : Bool) (s : State) : Host.Outcome State Fault Refusal :=
  let s := s.atTime t
  let here := s.flag F.USB_CFG_EN && decide (s.net.usbOff ≤ s.clock) && !s.down && !s.inBeanie && conn
  done (((s.putB F.USB_STAT_CONN here).putB F.USB_STAT_HS (here && hs)).putB F.USB_STAT_CFGD (here && cfgd))

end Sys2Proof.Machine
end

