-- ==== Sys2Proof/Machine/Fixed.lean ====
section
/-! DEFINITION. The Q group of Jarug-L (spec/06_jarug_instruction_set.md R221, R222). -/

namespace Sys2Proof.Machine

/-- a32 of a register. -/
def Cpu.q (c : Cpu) (r : GReg) : Int := ((c.gr r).setWidth 32).toInt

/-- S set when a saturation changed the value. -/
def Cpu.sticky (c : Cpu) (changed : Bool) : Cpu := { c with st := if changed then c.st ||| 16 else c.st }

/-- D := sext(x), a 32-bit value. -/
def Cpu.setQ (c : Cpu) (d : GReg) (x : Int) : Cpu := c.setG d (BitVec.ofInt 64 x)

/-- D := sext(sat32(x)). -/
def Cpu.setSat (c : Cpu) (d : GReg) (x : Int) : Cpu := (c.setQ d (satS 32 x)).sticky (satS 32 x != x)

/-- acc[k] := sat72(x). -/
def Cpu.setSat72 (c : Cpu) (k : Fin 8) (x : Int) : Cpu := (c.setAcc k (BitVec.ofInt 72 (satS 72 x))).sticky (satS 72 x != x)

def execQadd (t : Nat) (l : LaneId) (d a b : GReg) (s : State) : Host.Outcome State Fault Refusal :=
  done (s.regOp t (.l l) 1 (fun c => c.setSat d (c.q a + c.q b)))

def execQsub (t : Nat) (l : LaneId) (d a b : GReg) (s : State) : Host.Outcome State Fault Refusal :=
  done (s.regOp t (.l l) 1 (fun c => c.setSat d (c.q a - c.q b)))

def execQmul (t : Nat) (l : LaneId) (d a b : GReg) (n : Fin 64) (s : State) : Host.Outcome State Fault Refusal :=
  done (s.regOp t (.l l) 2 (fun c => c.setSat d (rdiv (c.q a * c.q b) (2 ^ n.val))))

def execQneg (t : Nat) (l : LaneId) (d a : GReg) (s : State) : Host.Outcome State Fault Refusal :=
  done (s.regOp t (.l l) 1 (fun c => c.setSat d (-c.q a)))

def execQabs (t : Nat) (l : LaneId) (d a : GReg) (s : State) : Host.Outcome State Fault Refusal :=
  done (s.regOp t (.l l) 1 (fun c => c.setSat d (c.q a).natAbs))

def execQshl (t : Nat) (l : LaneId) (d a : GReg) (n : Fin 64) (s : State) : Host.Outcome State Fault Refusal :=
  done (s.regOp t (.l l) 1 (fun c => c.setSat d (c.q a * 2 ^ n.val)))

def execQshr (t : Nat) (l : LaneId) (d a : GReg) (n : Fin 64) (s : State) : Host.Outcome State Fault Refusal :=
  done (s.regOp t (.l l) 1 (fun c => c.setQ d (rdiv (c.q a) (2 ^ n.val))))

/-- QCLIP: the limits in B, the lower in its low word; it leaves S unchanged. -/
def execQclip (t : Nat) (l : LaneId) (d a b : GReg) (s : State) : Host.Outcome State Fault Refusal :=
  done (s.regOp t (.l l) 1 (fun c => c.setQ d (clampInt (c.q b) ((c.gr b).extractLsb 63 32).toInt (c.q a))))

def execMacz (t : Nat) (l : LaneId) (k : Fin 8) (a b : GReg) (s : State) : Host.Outcome State Fault Refusal :=
  done (s.regOp t (.l l) 2 (fun c => c.setAcc k (BitVec.ofInt 72 (c.q a * c.q b))))

def execMac (t : Nat) (l : LaneId) (k : Fin 8) (a b : GReg) (s : State) : Host.Outcome State Fault Refusal :=
  done (s.regOp t (.l l) 2 (fun c => c.setSat72 k ((c.ac k).toInt + c.q a * c.q b)))

def execMsu (t : Nat) (l : LaneId) (k : Fin 8) (a b : GReg) (s : State) : Host.Outcome State Fault Refusal :=
  done (s.regOp t (.l l) 2 (fun c => c.setSat72 k ((c.ac k).toInt - c.q a * c.q b)))

def execAccrd (t : Nat) (l : LaneId) (d : GReg) (k : Fin 8) (n : Fin 64) (s : State) : Host.Outcome State Fault Refusal :=
  done (s.regOp t (.l l) 2 (fun c => c.setSat d (rdiv (c.ac k).toInt (2 ^ n.val))))

def execAccset (t : Nat) (l : LaneId) (k : Fin 8) (a : GReg) (n : Fin 64) (s : State) : Host.Outcome State Fault Refusal :=
  done (s.regOp t (.l l) 1 (fun c => c.setSat72 k ((c.gr a).toInt * 2 ^ n.val)))

def execAccget (t : Nat) (l : LaneId) (d : GReg) (k : Fin 8) (high : Bool) (s : State) : Host.Outcome State Fault Refusal :=
  done (s.regOp t (.l l) 1 (fun c => c.setG d (if high then ((c.ac k).extractLsb 71 64).signExtend 64 else (c.ac k).setWidth 64)))

def execAccput (t : Nat) (l : LaneId) (k : Fin 8) (a : GReg) (high : Bool) (s : State) : Host.Outcome State Fault Refusal :=
  done (s.regOp t (.l l) 1 (fun c => c.setAcc k
    (if high then ((c.gr a).setWidth 8 ++ (c.ac k).setWidth 64 : BitVec 72) else ((c.ac k).extractLsb 71 64 ++ c.gr a : BitVec 72))))

end Sys2Proof.Machine
end

