-- ==== Sys2Proof/Machine/Float.lean ====
section
/-! DEFINITION. IEEE 754-2019 binary32 and binary64 arithmetic of Jarug-A (spec/06_jarug_instruction_set.md R225, R226, R234 FCSR). A
finite nonzero value is a sign, a positive significand `m` and an exponent `e` for m × 2^e; every operation is exact until one rounding. -/

namespace Sys2Proof.Machine

/-- A format: the bits of its exponent and of its fraction. -/
structure Fmt where
  eb : Nat
  mb : Nat
  deriving DecidableEq, Repr

/-- The format that precision P names. -/
def fmtOf (p : Bool) : Fmt := if p then ⟨11, 52⟩ else ⟨8, 23⟩

/-- The exponent of the last place of a subnormal. -/
def Fmt.qmin (f : Fmt) : Int := 2 - (2 ^ (f.eb - 1) : Nat) - (f.mb : Int)

/-- What a bit pattern stands for. -/
inductive FVal where
  | nan (signaling : Bool)
  | inf (neg : Bool)
  | zero (neg : Bool)
  | fin (neg : Bool) (m : Nat) (e : Int)
  deriving DecidableEq, Repr

/-! The sticky flags, at their places in FCSR. -/

def fNV : Nat := 16
def fDZ : Nat := 32
def fOF : Nat := 64
def fUF : Nat := 128
def fNX : Nat := 256

/-- A result: its bits, and the flags that it raises. -/
abbrev FRes := Nat × Nat

/-- The bits of an infinity. -/
def Fmt.infBits (f : Fmt) (neg : Bool) : Nat := bit neg * 2 ^ (f.eb + f.mb) + (2 ^ f.eb - 1) * 2 ^ f.mb

/-- The bits of a zero. -/
def Fmt.zeroBits (f : Fmt) (neg : Bool) : Nat := bit neg * 2 ^ (f.eb + f.mb)

/-- The canonical quiet NaN (R226). -/
def Fmt.nanBits (f : Fmt) : Nat := (2 ^ f.eb - 1) * 2 ^ f.mb + 2 ^ (f.mb - 1)

/-- The value of a bit pattern. -/
def Fmt.unpack (f : Fmt) (x : Nat) : FVal :=
  let neg := x / 2 ^ (f.eb + f.mb) % 2 == 1
  let e := x / 2 ^ f.mb % 2 ^ f.eb
  let m := x % 2 ^ f.mb
  if e = 2 ^ f.eb - 1 then if m = 0 then .inf neg else .nan (m / 2 ^ (f.mb - 1) == 0)
  else if e = 0 then if m = 0 then .zero neg else .fin neg m f.qmin
  else .fin neg (2 ^ f.mb + m) (f.qmin + (e - 1 : Nat))

/-- A nonnegative number m / 2^s rounded to an integer, and whether that was inexact; `rm` is FCSR:RM. -/
def roundShift (rm : Nat) (neg : Bool) (m s : Nat) : Nat × Bool :=
  let n := m / 2 ^ s
  let r := m % 2 ^ s
  let up := match rm with
    | 0 => decide (2 ^ s < 2 * r) || (decide (2 ^ s = 2 * r) && n % 2 == 1)
    | 1 => false
    | 2 => !neg && decide (r ≠ 0)
    | _ => neg && decide (r ≠ 0)
  (n + bit up, decide (r ≠ 0))

/-- m × 2^e rounded to a multiple of 2^q. -/
def roundTo (rm : Nat) (neg : Bool) (m : Nat) (e q : Int) : Nat × Bool :=
  if e ≤ q then roundShift rm neg m (q - e).toNat else (m * 2 ^ (e - q).toNat, false)

/-- What an overflow gives: infinity, or the largest finite number where the rounding goes toward zero. -/
def Fmt.overflow (f : Fmt) (rm : Nat) (neg : Bool) : FRes :=
  let toInf := match rm with
    | 0 => true
    | 1 => false
    | 2 => !neg
    | _ => neg
  (f.infBits neg - bit (!toInf), fOF + fNX)

/-- ±m × 2^e rounded to the format, for a positive m. -/
def Fmt.round (f : Fmt) (rm : Nat) (neg : Bool) (m : Nat) (e : Int) : FRes :=
  let top := e + (Nat.log2 m : Int)
  let q := max (top - (f.mb : Int)) f.qmin
  let r := roundTo rm neg m e q
  let bits := (q - f.qmin).toNat * 2 ^ f.mb + r.1
  if (2 ^ f.eb - 1) * 2 ^ f.mb ≤ bits then f.overflow rm neg
  else
    let emin := f.qmin + f.mb
    let free := roundTo rm neg m e (top - (f.mb : Int))
    let tiny := if Config.tinyBefore then decide (top < emin) else decide (top < emin) && !(decide (top = emin - 1) && decide (free.1 = 2 ^ (f.mb + 1)))
    (bit neg * 2 ^ (f.eb + f.mb) + bits, if r.2 then fNX + bit tiny * fUF else 0)

/-- An integer times 2^e rounded to the format; zero has the sign `zneg`. -/
def Fmt.roundInt (f : Fmt) (rm : Nat) (x : Int) (e : Int) (zneg : Bool) : FRes :=
  if x = 0 then (f.zeroBits zneg, 0) else f.round rm (decide (x < 0)) x.natAbs e

/-- The canonical NaN, with NV where the operation is invalid. -/
def Fmt.nan (f : Fmt) (invalid : Bool) : FRes := (f.nanBits, bit invalid * fNV)

/-- A signaling NaN. -/
def FVal.isSnan : FVal → Bool
  | .nan s => s
  | _ => false

/-- A NaN. -/
def FVal.isNan : FVal → Bool
  | .nan _ => true
  | _ => false

/-- The sign bit; a NaN has none. -/
def FVal.neg : FVal → Bool
  | .nan _ => false
  | .inf n => n
  | .zero n => n
  | .fin n _ _ => n

/-- The value with its sign inverted. -/
def FVal.negate : FVal → FVal
  | .nan s => .nan s
  | .inf n => .inf (!n)
  | .zero n => .zero (!n)
  | .fin n m e => .fin (!n) m e

/-- ±m as an integer. -/
def signedBy (neg : Bool) (m : Nat) : Int := if neg then -(m : Int) else m

/-- The sum of m₁ × 2^e₁ and m₂ × 2^e₂ as an integer and its exponent. -/
def sumExact (x : Int) (ex : Int) (y : Int) (ey : Int) : Int × Int :=
  if ex ≤ ey then (x + y * 2 ^ (ey - ex).toNat, ex) else (x * 2 ^ (ex - ey).toNat + y, ey)

/-- The sign of an exact zero sum of two values of opposite signs: negative under rounding toward −∞. -/
def zeroSign (rm : Nat) : Bool := rm == 3

/-- x + y. -/
def Fmt.add (f : Fmt) (rm : Nat) (x y : FVal) : FRes :=
  match x, y with
  | .nan _, _ | _, .nan _ => f.nan (x.isSnan || y.isSnan)
  | .inf a, .inf b => if a = b then (f.infBits a, 0) else f.nan true
  | .inf a, _ => (f.infBits a, 0)
  | _, .inf b => (f.infBits b, 0)
  | .zero a, .zero b => (f.zeroBits (if a = b then a else zeroSign rm), 0)
  | .zero _, .fin n m e => f.round rm n m e
  | .fin n m e, .zero _ => f.round rm n m e
  | .fin n m e, .fin n' m' e' => let z := sumExact (signedBy n m) e (signedBy n' m') e'; f.roundInt rm z.1 z.2 (zeroSign rm)

/-- x × y. -/
def Fmt.mul (f : Fmt) (rm : Nat) (x y : FVal) : FRes :=
  let neg := x.neg != y.neg
  match x, y with
  | .nan _, _ | _, .nan _ => f.nan (x.isSnan || y.isSnan)
  | .inf _, .zero _ | .zero _, .inf _ => f.nan true
  | .inf _, _ | _, .inf _ => (f.infBits neg, 0)
  | .zero _, _ | _, .zero _ => (f.zeroBits neg, 0)
  | .fin _ m e, .fin _ m' e' => f.round rm neg (m * m') (e + e')

/-- x / y: the quotient is taken to 130 bits, and a remainder stands in one more. -/
def Fmt.div (f : Fmt) (rm : Nat) (x y : FVal) : FRes :=
  let neg := x.neg != y.neg
  match x, y with
  | .nan _, _ | _, .nan _ => f.nan (x.isSnan || y.isSnan)
  | .inf _, .inf _ | .zero _, .zero _ => f.nan true
  | .inf _, _ => (f.infBits neg, 0)
  | _, .inf _ => (f.zeroBits neg, 0)
  | .zero _, _ => (f.zeroBits neg, 0)
  | _, .zero _ => (f.infBits neg, fDZ)
  | .fin _ m e, .fin _ m' e' =>
    let n := m * 2 ^ 130
    f.round rm neg (2 * (n / m') + bit (decide (n % m' ≠ 0))) (e - e' - 131)

/-- The integer square root of `n`, of at most `k` bits. -/
def sqrtBits (n : Nat) : Nat → Nat → Nat
  | 0, r => r
  | k + 1, r => let c := r + 2 ^ k; sqrtBits n k (if c * c ≤ n then c else r)

/-- The square root: to 130 bits, and a remainder stands in one more. -/
def Fmt.sqrt (f : Fmt) (rm : Nat) (x : FVal) : FRes :=
  match x with
  | .nan s => f.nan s
  | .zero n => (f.zeroBits n, 0)
  | .inf n => if n then f.nan true else (f.infBits false, 0)
  | .fin n m e =>
    if n then f.nan true
    else
      let odd := e % 2
      let v := m * 2 ^ (odd.toNat + 200)
      let r := sqrtBits v 160 0
      f.round rm false (2 * r + bit (decide (r * r ≠ v))) ((e - odd) / 2 - 101)

/-- z + x × y, rounded once. -/
def Fmt.fma (f : Fmt) (rm : Nat) (z x y : FVal) : FRes :=
  let pneg := x.neg != y.neg
  let invalid := match x, y with
    | .inf _, .zero _ | .zero _, .inf _ => true
    | _, _ => false
  let product : FVal := match x, y with
    | .nan _, _ | _, .nan _ => .nan false
    | .inf _, _ | _, .inf _ => if invalid then .nan false else .inf pneg
    | .zero _, _ | _, .zero _ => .zero pneg
    | .fin _ m e, .fin _ m' e' => .fin pneg (m * m') (e + e')
  if x.isSnan || y.isSnan || z.isSnan then f.nan true
  else if invalid then f.nan (if z.isNan then Config.fmaSignals else true)
  else f.add rm z product

/-- x < y for values that are no NaN. -/
def FVal.lt (x y : FVal) : Bool :=
  match x, y with
  | .nan _, _ | _, .nan _ => false
  | .inf a, .inf b => a && !b
  | .inf a, _ => a
  | _, .inf b => !b
  | .zero _, .zero _ => false
  | .zero _, .fin n _ _ => !n
  | .fin n _ _, .zero _ => n
  | .fin n m e, .fin n' m' e' => decide ((sumExact (signedBy n m) e (-signedBy n' m') e').1 < 0)

/-- minimumNumber, or maximumNumber where `big`, of the patterns `a` and `b`: a number prevails over a NaN, and −0 is below +0. -/
def Fmt.pick (f : Fmt) (big : Bool) (a b : Nat) : FRes :=
  let x := f.unpack a
  let y := f.unpack b
  let nv := bit (x.isSnan || y.isSnan) * fNV
  if x.isNan && y.isNan then (f.nanBits, nv)
  else if x.isNan then (b, nv)
  else if y.isNan then (a, nv)
  else
    let aFirst := x.lt y || (!y.lt x && (x.neg || !y.neg))
    (if aFirst != big then a else b, nv)

/-- A number converted to a signed 64-bit integer, saturating; NaN gives 0 and NV. -/
def toInt64 (rm : Nat) (x : FVal) : DWord × Nat :=
  let ends (neg : Bool) : DWord × Nat := (if neg then 0x8000000000000000 else 0x7FFFFFFFFFFFFFFF, fNV)
  match x with
  | .nan _ => (0, fNV)
  | .inf n => ends n
  | .zero _ => (0, 0)
  | .fin n m e =>
    if 128 < e then ends n
    else
      let r := roundTo rm n m e 0
      let v := signedBy n r.1
      if v < -(2 ^ 63 : Nat) ∨ (2 ^ 63 : Nat) ≤ v then ends n else (BitVec.ofInt 64 v, if r.2 && Config.convertExact then fNX else 0)

/-- x in the format `f`. -/
def Fmt.convert (f : Fmt) (rm : Nat) (x : FVal) : FRes :=
  match x with
  | .nan s => f.nan s
  | .inf n => (f.infBits n, 0)
  | .zero n => (f.zeroBits n, 0)
  | .fin n m e => f.round rm n m e

/-! Values in f registers (R226). -/

/-- The pattern that an f register holds in precision `p`: a binary32 value that is not boxed is the canonical NaN. -/
def fpattern (p : Bool) (v : DWord) : Nat :=
  if p then v.toNat else if v.toNat / 2 ^ 32 = 0xFFFFFFFF then v.toNat % 2 ^ 32 else (fmtOf false).nanBits

/-- A pattern as an f register holds it: a binary32 value is boxed. -/
def fbox (p : Bool) (n : Nat) : DWord := BitVec.ofNat 64 (if p then n else 0xFFFFFFFF * 2 ^ 32 + n % 2 ^ 32)

/-- FCSR:RM. -/
def Cpu.rm (c : Cpu) : Nat := c.fcsr.toNat % 4

/-- Register f`r` as a value of precision `p`. -/
def Cpu.fval (c : Cpu) (p : Bool) (r : GReg) : FVal := (fmtOf p).unpack (fpattern p (c.fr r))

/-- The flags `fl` raised in FCSR. -/
def Cpu.raiseF (c : Cpu) (fl : Nat) : Cpu := { c with fcsr := c.fcsr ||| BitVec.ofNat 64 fl }

/-- fd := a result of precision `p`, and its flags raised. -/
def Cpu.setRes (c : Cpu) (p : Bool) (d : GReg) (r : FRes) : Cpu := (c.setF d (fbox p r.1)).raiseF r.2

/-- The pattern of register f`r` with its sign changed by `f`; a NaN is the canonical NaN (R226). -/
def Cpu.signOp (c : Cpu) (p : Bool) (d r : GReg) (f : FVal → Bool) : Cpu :=
  let x := c.fval p r
  let fm := fmtOf p
  let n := fpattern p (c.fr r)
  c.setF d (fbox p (if x.isNan then fm.nanBits else n % 2 ^ (fm.eb + fm.mb) + bit (f x) * 2 ^ (fm.eb + fm.mb)))

/-! FP (R225). -/

def execFadd (t : Nat) (c : ACoreId) (d a b : GReg) (p : Bool) (s : State) : Host.Outcome State Fault Refusal :=
  done (s.regOp t (.a c) 1 (fun c => c.setRes p d ((fmtOf p).add c.rm (c.fval p a) (c.fval p b))))

def execFsub (t : Nat) (c : ACoreId) (d a b : GReg) (p : Bool) (s : State) : Host.Outcome State Fault Refusal :=
  done (s.regOp t (.a c) 1 (fun c => c.setRes p d ((fmtOf p).add c.rm (c.fval p a) (c.fval p b).negate)))

def execFmul (t : Nat) (c : ACoreId) (d a b : GReg) (p : Bool) (s : State) : Host.Outcome State Fault Refusal :=
  done (s.regOp t (.a c) 1 (fun c => c.setRes p d ((fmtOf p).mul c.rm (c.fval p a) (c.fval p b))))

def execFdiv (t : Nat) (c : ACoreId) (d a b : GReg) (p : Bool) (s : State) : Host.Outcome State Fault Refusal :=
  done (s.regOp t (.a c) 1 (fun c => c.setRes p d ((fmtOf p).div c.rm (c.fval p a) (c.fval p b))))

def execFsqrt (t : Nat) (c : ACoreId) (d a : GReg) (p : Bool) (s : State) : Host.Outcome State Fault Refusal :=
  done (s.regOp t (.a c) 1 (fun c => c.setRes p d ((fmtOf p).sqrt c.rm (c.fval p a))))

def execFma (t : Nat) (c : ACoreId) (d a b : GReg) (p : Bool) (s : State) : Host.Outcome State Fault Refusal :=
  done (s.regOp t (.a c) 1 (fun c => c.setRes p d ((fmtOf p).fma c.rm (c.fval p d) (c.fval p a) (c.fval p b))))

def execFmin (t : Nat) (c : ACoreId) (d a b : GReg) (p : Bool) (s : State) : Host.Outcome State Fault Refusal :=
  done (s.regOp t (.a c) 1 (fun c => c.setRes p d ((fmtOf p).pick false (fpattern p (c.fr a)) (fpattern p (c.fr b)))))

def execFmax (t : Nat) (c : ACoreId) (d a b : GReg) (p : Bool) (s : State) : Host.Outcome State Fault Refusal :=
  done (s.regOp t (.a c) 1 (fun c => c.setRes p d ((fmtOf p).pick true (fpattern p (c.fr a)) (fpattern p (c.fr b)))))

def execFneg (t : Nat) (c : ACoreId) (d a : GReg) (p : Bool) (s : State) : Host.Outcome State Fault Refusal :=
  done (s.regOp t (.a c) 1 (fun c => c.signOp p d a (fun x => !x.neg)))

def execFabs (t : Nat) (c : ACoreId) (d a : GReg) (p : Bool) (s : State) : Host.Outcome State Fault Refusal :=
  done (s.regOp t (.a c) 1 (fun c => c.signOp p d a (fun _ => false)))

/-- N, Z, C and V of a comparison; V is unordered. -/
def compareFlags (x y : FVal) (st : BitVec 5) : BitVec 5 :=
  let un := x.isNan || y.isNan
  flagsOf st (x.lt y) (!un && !x.lt y && !y.lt x) (y.lt x) un

def execFcmp (t : Nat) (c : ACoreId) (a b : GReg) (p : Bool) (s : State) : Host.Outcome State Fault Refusal :=
  done (s.regOp t (.a c) 1 (fun c =>
    let x := c.fval p a
    let y := c.fval p b
    let nv := x.isSnan || y.isSnan || (Config.compareSignals && (x.isNan || y.isNan))
    { c with st := compareFlags x y c.st }.raiseF (bit nv * fNV)))

def execFcvti (t : Nat) (c : ACoreId) (d a : GReg) (p : Bool) (s : State) : Host.Outcome State Fault Refusal :=
  done (s.regOp t (.a c) 1 (fun c => let r := toInt64 c.rm (c.fval p a); (c.setG d r.1).raiseF r.2))

def execFcvtf (t : Nat) (c : ACoreId) (d a : GReg) (p : Bool) (s : State) : Host.Outcome State Fault Refusal :=
  done (s.regOp t (.a c) 1 (fun c => c.setRes p d ((fmtOf p).roundInt c.rm (c.gr a).toInt 0 false)))

def execFcvtp (t : Nat) (c : ACoreId) (d a : GReg) (p : Bool) (s : State) : Host.Outcome State Fault Refusal :=
  done (s.regOp t (.a c) 1 (fun c => c.setRes p d ((fmtOf p).convert c.rm (c.fval (!p) a))))

def execFmvgf (t : Nat) (c : ACoreId) (d a : GReg) (p : Bool) (s : State) : Host.Outcome State Fault Refusal :=
  done (s.regOp t (.a c) 1 (fun c => c.setF d (fbox p (c.gr a).toNat)))

def execFmvfg (t : Nat) (c : ACoreId) (d a : GReg) (p : Bool) (s : State) : Host.Outcome State Fault Refusal :=
  done (s.regOp t (.a c) 1 (fun c => c.setG d (if p then c.fr a else ((c.fr a).setWidth 32).signExtend 64)))

end Sys2Proof.Machine
end

