-- ==== Sys2Proof/Machine/LoadStore.lean ====
section
/-! DEFINITION. Loads and stores (spec/06_jarug_instruction_set.md R208, R216–R218). -/

namespace Sys2Proof.Machine

/-- D := sext(v) of `w` bits. -/
def putSext (d : GReg) (w : Nat) (c : Cpu) (v : Nat) : Cpu := c.setG d ((BitVec.ofNat w v).signExtend 64)

/-- D := zext(v). -/
def putZext (d : GReg) (c : Cpu) (v : Nat) : Cpu := c.setG d (BitVec.ofNat 64 v)

def execLdb (t : Nat) (u : Proc) (d base : GReg) (ofs : BitVec 16) (s : State) : Host.Outcome State Fault Refusal :=
  done (s.load t u base ofs 1 (putSext d 8))

def execLdbu (t : Nat) (u : Proc) (d base : GReg) (ofs : BitVec 16) (s : State) : Host.Outcome State Fault Refusal :=
  done (s.load t u base ofs 1 (putZext d))

def execLdh (t : Nat) (u : Proc) (d base : GReg) (ofs : BitVec 16) (s : State) : Host.Outcome State Fault Refusal :=
  done (s.load t u base ofs 2 (putSext d 16))

def execLdhu (t : Nat) (u : Proc) (d base : GReg) (ofs : BitVec 16) (s : State) : Host.Outcome State Fault Refusal :=
  done (s.load t u base ofs 2 (putZext d))

def execLdw (t : Nat) (u : Proc) (d base : GReg) (ofs : BitVec 16) (s : State) : Host.Outcome State Fault Refusal :=
  done (s.load t u base ofs 4 (putSext d 32))

def execLdwu (t : Nat) (u : Proc) (d base : GReg) (ofs : BitVec 16) (s : State) : Host.Outcome State Fault Refusal :=
  done (s.load t u base ofs 4 (putZext d))

def execLdd (t : Nat) (u : Proc) (d base : GReg) (ofs : BitVec 16) (s : State) : Host.Outcome State Fault Refusal :=
  done (s.load t u base ofs 8 (putZext d))

def execStb (t : Nat) (u : Proc) (d base : GReg) (ofs : BitVec 16) (s : State) : Host.Outcome State Fault Refusal :=
  done (s.store t u base ofs 1 (fun c => (c.gr d).setWidth 8 |>.setWidth 64))

def execSth (t : Nat) (u : Proc) (d base : GReg) (ofs : BitVec 16) (s : State) : Host.Outcome State Fault Refusal :=
  done (s.store t u base ofs 2 (fun c => (c.gr d).setWidth 16 |>.setWidth 64))

def execStw (t : Nat) (u : Proc) (d base : GReg) (ofs : BitVec 16) (s : State) : Host.Outcome State Fault Refusal :=
  done (s.store t u base ofs 4 (fun c => (c.gr d).setWidth 32 |>.setWidth 64))

def execStd (t : Nat) (u : Proc) (d base : GReg) (ofs : BitVec 16) (s : State) : Host.Outcome State Fault Refusal :=
  done (s.store t u base ofs 8 (fun c => c.gr d))

/-- f[DATA] := 0xFFFF_FFFF × 2^32 + mem32[ea]. -/
def execFldw (t : Nat) (c : ACoreId) (d base : GReg) (ofs : BitVec 16) (s : State) : Host.Outcome State Fault Refusal :=
  done (s.load t (.a c) base ofs 4 (fun x v => x.setF d (BitVec.ofNat 64 (0xFFFFFFFF * 2 ^ 32 + v))))

def execFldd (t : Nat) (c : ACoreId) (d base : GReg) (ofs : BitVec 16) (s : State) : Host.Outcome State Fault Refusal :=
  done (s.load t (.a c) base ofs 8 (fun x v => x.setF d (BitVec.ofNat 64 v)))

def execFstw (t : Nat) (c : ACoreId) (d base : GReg) (ofs : BitVec 16) (s : State) : Host.Outcome State Fault Refusal :=
  done (s.store t (.a c) base ofs 4 (fun x => (x.fr d).setWidth 32 |>.setWidth 64))

def execFstd (t : Nat) (c : ACoreId) (d base : GReg) (ofs : BitVec 16) (s : State) : Host.Outcome State Fault Refusal :=
  done (s.store t (.a c) base ofs 8 (fun x => x.fr d))

end Sys2Proof.Machine
end

