-- ==== Sys2Proof/Machine/LoopOps.lean ====
section
/-! DEFINITION. The port and loop instructions of Jarug-L (spec/06_jarug_instruction_set.md R223, R224; spec/07_control_lanes_loops.md
R251, R252, R266–R270, R282; spec/01_harvest_architecture.md R30). -/

namespace Sys2Proof.Machine

/-! Ports. -/

/-- SAMP: the value latched at the releasing boundary. -/
def execSamp (t : Nat) (l : LaneId) (r : GReg) (port : BitVec 16) (s : State) : Host.Outcome State Fault Refusal :=
  done (s.instr t (.l l) (fun s =>
    let p := port.toNat
    if !sampPort p then s.trap (.l l) 3 2 (port.setWidth 64) 2
    else
      let v := (assoc p (s.ln l.half l.lane).latched).getD (0, false)
      if v.2 then s.trap (.l l) 4 2 (port.setWidth 64) 2
      else s.modCpu (.l l) (fun c => (c.setG r ((BitVec.ofNat 32 v.1).signExtend 64)).next 2)))

/-- A value staged for a port: the last one of a pass is kept (R252). -/
def stagePort (p v : Nat) : List (Nat × Nat × Bool) → List (Nat × Nat × Bool)
  | [] => [(p, v, false)]
  | e :: r => if e.1 = p then (p, v, false) :: r else e :: stagePort p v r

/-- SETP. -/
def execSetp (t : Nat) (l : LaneId) (r : GReg) (port : BitVec 16) (s : State) : Host.Outcome State Fault Refusal :=
  done (s.instr t (.l l) (fun s =>
    let p := port.toNat
    if !setpPort p then s.trap (.l l) 3 2 (port.setWidth 64) 1
    else
      let v := ((s.cpu (.l l)).gr r).toNat % 2 ^ 32
      let x := s.ln l.half l.lane
      (s.setLn l.half l.lane { x with staged := stagePort p v x.staged }).modCpu (.l l) (fun c => c.next 1)))

/-! Loops. -/

/-- The place code of LPH. -/
def lphPlace (h : Nat) : Nat := halfBlock h 1 0

/-- A loop operation of `n` cycles on `loop`: refused under R266 where `owned` asks for the owner, without effect where a word of `reads`
is poisoned (R282), and otherwise `eff`, given REG<31..0>. -/
def State.loopOp (s : State) (t : Nat) (l : LaneId) (loop : Fin 256) (r : GReg) (n : Nat) (owned : Bool) (reads : State → List Nat)
    (eff : State → Nat → State) : State :=
  s.instr t (.l l) (fun s =>
    let h := l.half.val
    let id : DWord := BitVec.ofNat 64 loop.val
    if owned && !s.loopOwned h l.lane loop then (s.loopRefuse h loop).trap (.l l) 3 0 id n
    else
      match (reads s).filter (fun a => s.poisoned a 4) with
      | a :: _ =>
        let s := (s.loopErr h loop (F.LPH_STAT_POISON h)).event 0xA701 (lphPlace h) (p1 := a % 2 ^ 32) (p2 := a / 2 ^ 32)
        s.trap (.l l) 4 3 id n
      | [] => (eff s (((s.cpu (.l l)).gr r).toNat % 2 ^ 32)).modCpu (.l l) (fun c => c.next n))

/-- REG := sext of the word at `a`. -/
def State.loopResult (s : State) (l : LaneId) (r : GReg) (a : Nat) : State :=
  s.modCpu (.l l) (fun c => c.setG r ((s.reg a).signExtend 64))

def execLset (t : Nat) (l : LaneId) (loop : Fin 256) (r : GReg) (s : State) : Host.Outcome State Fault Refusal :=
  done (s.loopOp t l loop r 2 true (fun _ => [R.LPD_CTL l.half loop]) (fun s v => (s.setWord (R.LPD_SP l.half loop) v).cleanWord (R.LPD_SP l.half loop)))

def execLmeas (t : Nat) (l : LaneId) (loop : Fin 256) (r : GReg) (s : State) : Host.Outcome State Fault Refusal :=
  done (s.loopOp t l loop r 2 true (fun _ => [R.LPD_CTL l.half loop]) (fun s v => (s.setWord (R.LPD_X l.half loop) v).cleanWord (R.LPD_X l.half loop)))

def execLeval (t : Nat) (l : LaneId) (loop : Fin 256) (r : GReg) (s : State) : Host.Outcome State Fault Refusal :=
  done (s.loopOp t l loop r 16 true (fun s => s.evalReads l.half loop) (fun s _ =>
    (((s.evalWrites l.half loop).foldl State.cleanWord s).loopEval l.half loop).loopResult l r (R.LPD_U l.half loop)))

def execLout (t : Nat) (l : LaneId) (loop : Fin 256) (r : GReg) (s : State) : Host.Outcome State Fault Refusal :=
  done (s.loopOp t l loop r 2 false (fun _ => [R.LPD_U l.half loop]) (fun s _ => s.loopResult l r (R.LPD_U l.half loop)))

def execLint (t : Nat) (l : LaneId) (loop : Fin 256) (r : GReg) (s : State) : Host.Outcome State Fault Refusal :=
  done (s.loopOp t l loop r 2 false (fun _ => [R.LPD_I l.half loop]) (fun s _ => s.loopResult l r (R.LPD_I l.half loop)))

def execLman (t : Nat) (l : LaneId) (loop : Fin 256) (r : GReg) (s : State) : Host.Outcome State Fault Refusal :=
  done (s.loopOp t l loop r 3 true (fun _ => [R.LPD_CTL l.half loop])
    (fun s v => (s.loopMan l.half loop (signedOf 32 v)).cleanWord (R.LPD_M l.half loop)))

def execLauto (t : Nat) (l : LaneId) (loop : Fin 256) (s : State) : Host.Outcome State Fault Refusal :=
  done (s.loopOp t l loop 0 4 true (fun s => s.autoReads l.half loop)
    (fun s _ => ((s.autoWrites l.half loop).foldl State.cleanWord s).loopAuto l.half loop))

def execLbank (t : Nat) (l : LaneId) (loop : Fin 256) (r : GReg) (s : State) : Host.Outcome State Fault Refusal :=
  done (s.loopOp t l loop r 2 true (fun _ => [R.LPD_CTL l.half loop]) (fun s v => s.swapRequest l.half loop (v % 2)))

def execLstat (t : Nat) (l : LaneId) (loop : Fin 256) (r : GReg) (s : State) : Host.Outcome State Fault Refusal :=
  done (s.loopOp t l loop r 2 false (fun _ => [R.LPD_STAT l.half loop]) (fun s _ => s.loopResult l r (R.LPD_STAT l.half loop)))

end Sys2Proof.Machine
end

