-- ==== Sys2Proof/Machine/System.lean ====
section
/-! DEFINITION. Control registers, the SYS group, and the exceptions that no instruction of a row raises
(spec/06_jarug_instruction_set.md R207, R208, R233–R243). -/

namespace Sys2Proof.Machine

/-! Control registers (R234). -/

/-- The SUB code with which control register `n` is illegal on a unit: 1 where its profile lacks it, 2 where the number is reserved. -/
def cregFault (lane : Bool) (n : Nat) : Option Nat :=
  if n ≤ 0x0B then none
  else if n ≤ 0x10 then if lane then some 1 else none
  else if n = 0x11 then if lane then none else some 1
  else some 2

/-- CYCLE of an A-core before it wraps: the cycles of 1.6 GHz (R16) since its registers were reset, within what its clock and device time may differ by
(log 33), and never less than a read before. -/
def State.coreCycles (s : State) (c : Cpu) (f : Nat) : Nat :=
  let d := (s.clock - c.cycBase) * 8 / 5
  let slack := 2 + d / 2500
  max c.cycRead (d - slack + f % (2 * slack + 1))

/-- The value of control register `n`, and the state after the read: TIME lies within 4 ns of module time. -/
def State.cregRead (s : State) (u : Proc) (n : Nat) : DWord × State :=
  let c := s.cpu u
  match n with
  | 0x00 => (c.vbase, s)
  | 0x01 => (c.epc, s)
  | 0x02 => (c.ecause, s)
  | 0x03 => (c.eaddr, s)
  | 0x04 => (c.estat, s)
  | 0x05 => (c.st.setWidth 64, s)
  | 0x06 => (c.ien.setWidth 64, s)
  | 0x07 => (c.scr0, s)
  | 0x08 => (c.scr1, s)
  | 0x09 =>
    if procIsLane u then (BitVec.ofNat 64 c.cycles, s)
    else
      let f := s.free
      let n := s.coreCycles c f.1
      (BitVec.ofNat 64 n, f.2.modCpu u (fun x => { x with cycRead := n }))
  | 0x0A => let f := s.free; (BitVec.ofNat 64 (s.now + f.1 % 9 - 4), f.2)
  | 0x0B => (BitVec.ofNat 64 (procPlace u), s)
  | 0x0C => (c.fcsr, s)
  | 0x0D => (c.ipend, s)
  | 0x0E => (c.imask, s)
  | 0x10 => (c.cmptime, s)
  | 0x11 => (BitVec.ofNat 64 c.rstack.length, s)
  | _ => (0, s)

/-- The registers of a unit after a write of `v` to control register `n`; a read-only register takes none (R12). -/
def Cpu.cregWrite (c : Cpu) (n : Nat) (v : DWord) : Cpu :=
  match n with
  | 0x00 => { c with vbase := v &&& ~~~(0x3FF : DWord) }
  | 0x01 => { c with epc := v }
  | 0x02 => { c with ecause := v &&& 0x1FF }
  | 0x03 => { c with eaddr := v }
  | 0x04 => { c with estat := v }
  | 0x05 => { c with st := v.setWidth 5 }
  | 0x06 => { c with ien := v.setWidth 3 }
  | 0x07 => { c with scr0 := v }
  | 0x08 => { c with scr1 := v }
  | 0x0C => { c with fcsr := v &&& 0x1F3 }
  | 0x0D => { c with ipend := c.ipend &&& ~~~v }
  | 0x0E => { c with imask := v }
  | 0x10 => { c with cmptime := v, cmpArmed := true }
  | _ => c

/-- A write of SWI by a core: IPEND of the cores of its half that `v` names (R234). -/
def State.swi (s : State) (u : Proc) (v : DWord) : State :=
  match u with
  | .a c => (List.range 4).foldl (fun s k => if v.getLsbD k then s.modACore (c.half * 4 + k) (fun x => x.setIpend c.core) else s) s
  | .l _ => s

def execMfc (t : Nat) (u : Proc) (d : GReg) (n : BitVec 16) (s : State) : Host.Outcome State Fault Refusal :=
  done (s.instr t u (fun s =>
    match cregFault (procIsLane u) n.toNat with
    | some sub => s.trap u 1 sub (BitVec.ofNat 64 (gi 0x05 d 0 n.toNat)) 2
    | none => let r := s.cregRead u n.toNat; r.2.modCpu u (fun c => (c.setG d r.1).next 2)))

def execMtc (t : Nat) (u : Proc) (n : BitVec 16) (a : GReg) (s : State) : Host.Outcome State Fault Refusal :=
  done (s.instr t u (fun s =>
    match cregFault (procIsLane u) n.toNat with
    | some sub => s.trap u 1 sub (BitVec.ofNat 64 (gi 0x06 0 a n.toNat)) 2
    | none =>
      let v := (s.cpu u).gr a
      let s := s.modCpu u (fun c => (c.cregWrite n.toNat v).next 2)
      if n.toNat = 0x0F then s.swi u v else s.overrunDue u))

/-! SYS (R233). -/

def execNop (t : Nat) (u : Proc) (s : State) : Host.Outcome State Fault Refusal := done (s.regOp t u 1 (fun x => x))
def execIsync (t : Nat) (c : ACoreId) (s : State) : Host.Outcome State Fault Refusal := done (s.regOp t (.a c) 1 (fun x => x))

/-- ERET (R216, R239). -/
def execEret (t : Nat) (u : Proc) (s : State) : Host.Outcome State Fault Refusal :=
  done (s.instr t u (fun s =>
    let c := s.cpu u
    if !c.exl then s.trap u 1 5 (BitVec.ofNat 64 0xFC000002) 4
    else if c.epc.toNat % 4 ≠ 0 then s.trap u 2 1 c.epc 4
    else (s.modCpu u (fun c => { c.eret with cycles := c.cycles + 4 })).overrunDue u))

def execBrk (t : Nat) (u : Proc) (code : BitVec 15) (s : State) : Host.Outcome State Fault Refusal :=
  done (s.instr t u (fun s => s.trap u 5 0 (code.setWidth 64) 1))

/-- An interrupt is pending and unmasked. -/
def Cpu.interrupted (c : Cpu) : Bool := c.ipend &&& c.imask != 0

def execWfi (t : Nat) (c : ACoreId) (s : State) : Host.Outcome State Fault Refusal :=
  done (s.regOp t (.a c) 1 (fun x => { x with waiting := !x.interrupted }))

/-- A waiting core goes on once an interrupt is pending and unmasked, whatever IEN:EN. -/
def execWfiWake (t : Nat) (c : ACoreId) (s : State) : Host.Outcome State Fault Refusal :=
  let s := s.atTime t
  done (s.modCpu (.a c) (fun x => if x.interrupted then { x with waiting := false } else x))

/-- BWT ends the pass, and the lane waits for its boundary (R250). -/
def execBwt (t : Nat) (l : LaneId) (s : State) : Host.Outcome State Fault Refusal :=
  done (s.instr t (.l l) (fun s =>
    let h := l.half.val
    let n := l.lane.val
    let s := s.modCpu (.l l) (fun c => c.next 1)
    let used := (s.cpu (.l l)).cycles - (s.ln h n).relCycle
    let s := ((s.count (F.LAN_PASS_COUNT h n)).setWord (R.LAN_LASTC h n) used).setWord (R.LAN_MAXC h n) (Nat.max (s.word (R.LAN_MAXC h n)) (used % 2 ^ 32))
    s.setLnst h n lnWaiting))

/-! Exceptions between instructions. -/

/-- The core can take an exception: it is started and not stopped. -/
def State.coreRuns (s : State) (c : ACoreId) : Bool :=
  s.halfPowered c.half && s.isActive c.half && (s.cpu (.a c)).started && !(s.cpu (.a c)).stopped

/-- The oldest bus error of a posted store arrives (R236). With EXL = 1 the spec does not say whether it stops the unit as a synchronous
exception does; a free value decides (log 67). -/
def execImpreciseBusError (t : Nat) (c : ACoreId) (s : State) : Host.Outcome State Fault Refusal :=
  let s := s.atTime t
  let u : Proc := .a c
  let x := s.cpu u
  done (if s.coreRuns c then
      match x.busErr with
      | [] => s
      | e :: rest =>
        let ecause := causeWord 3 e.1 true
        let s := s.modCpu u (fun y => { y with busErr := rest, waiting := false })
        if x.exl then
          let f := s.free
          if f.1 % 2 = 1 then f.2.unitStops u ecause x.pc
          else f.2.modCpu u (fun y => y.enter y.pc ecause (BitVec.ofNat 64 e.2))
        else s.modCpu u (fun y => y.enter y.pc ecause (BitVec.ofNat 64 e.2))
    else s)

/-- The core takes an external interrupt (R242). -/
def execExternalInterrupt (t : Nat) (c : ACoreId) (s : State) : Host.Outcome State Fault Refusal :=
  let s := s.atTime t
  let x := s.cpu (.a c)
  done (if s.coreRuns c && x.ien.getLsbD 0 && !x.exl && x.interrupted then
      s.modCpu (.a c) (fun y => { y.enter y.pc (causeWord 8 0) 0 with waiting := false })
    else s)

/-- TIME reaches CMPTIME (R234). -/
def execCmptimeMatch (t : Nat) (c : ACoreId) (s : State) : Host.Outcome State Fault Refusal :=
  let s := s.atTime t
  let x := s.cpu (.a c)
  done (if s.halfPowered c.half && x.started && s.timed && x.cmpArmed && decide (x.cmptime.toNat ≤ s.now) then
      s.modCpu (.a c) (fun y => { y.setIpend 4 with cmpArmed := false })
    else s)

/-! Illegal words (R207, R208). -/

/-- The word belongs to the other profile only (R208, R233). -/
def otherProfile (lane : Bool) (w : Nat) : Bool :=
  let op := wordField w 31 26
  let fn := wordField w 10 0
  if lane then [0x02, 0x04, 0x24, 0x25, 0x26, 0x27, 0x2A].contains op || (op == 0x3F && (fn == 4 || fn == 6))
  else [0x03, 0x2B, 0x30, 0x31, 0x32].contains op || (op == 0x3F && fn == 5)

/-- The SUB code with which a word is illegal on a unit, none where it is an instruction of that unit (R235). A word of the other profile
has SUB 1 whatever its fields hold (log 65). -/
def illegalSub (u : Proc) (w : Word) : Option Nat :=
  if otherProfile (procIsLane u) w.toNat then some 1 else if (decodeJarug 0 u w).isSome then none else some 0

/-- A word that is no instruction of the unit. A word that is one has its meaning in its own row (log 3). -/
def execIllegalInstruction (t : Nat) (u : Proc) (word : Word) (s : State) : Host.Outcome State Fault Refusal :=
  done (s.instr t u (fun s =>
    match illegalSub u word with
    | some sub => s.trap u 1 sub (word.setWidth 64) 1
    | none => s))

end Sys2Proof.Machine
end

