-- ==== Sys2Proof/Machine/Tap.lean ====
section
/-! DEFINITION. The boundary-scan port (spec/18_package_electrical.md R590–R592). A command is the update of an instruction, and says the level of
DBG_EN: while that is low the port is held in Test-Logic-Reset and heeds nothing. -/

namespace Sys2Proof.Machine

/-- The state with the port's own part at `x`. -/
def State.withTap (s : State) (x : TapSt) : State := { s with tap := x }

/-! Balls and cells (R591). -/

/-- What a ball's own function makes of it: the level driven, none where it drives nothing; nothing is known of the transfers of the IMU and front-end
ports, which are one command each. -/
def State.ballFunction (s : State) : Ball → Option (Option Bool)
  | .gpio _ => some none
  | .trg n => some (s.trgLine n)
  | .ppsOut => some (some s.ppsLevel)
  | .resetN => some (if s.rst.resetN then some false else none)
  | .faultN => some (if s.rst.faultN then some false else none)
  | .canWake => some (if s.canWakeLow then some false else none)
  | .imuSck | .imuSdo | .imuSdi | .imuCsN | .gfeSck | .gfeSda | .gfeSen | .isel _ | .pwrfailN | .ign | .safeN => none

/-- What the module makes of a ball: the boundary register, else the ball's function. -/
def State.ball (s : State) (b : Ball) : Option (Option Bool) :=
  match s.tap.drives b with
  | some d => some d
  | none => s.ballFunction b

/-- What a cell captures: of a function that the state shows its output, its enable or its drive, else its bit of `levels`. -/
def State.captureCell (s : State) (levels : BitVec 88) (i : Nat) (c : Ball × CellKind) : Bool :=
  match c.2, s.ballFunction c.1 with
  | .output, some (some l) => l
  | .enable, some d => d.isSome
  | .driveLow, some d => d == some false
  | _, _ => levels.getLsbD i

/-- What the boundary register captures and shifts out. -/
def State.captureCells (s : State) (levels : BitVec 88) : Nat := (scanCells.zipIdx.map (fun c => bit (s.captureCell levels c.2 c.1) * 2 ^ c.2)).sum

/-! The port (R590, R592). -/

/-- The module reset that the port holds: entered where the instruction begins to hold it, its source released where it ends to. -/
def State.tapReset (s : State) (old : Byte) : State :=
  if !(s.rst.powered || s.flushing) || s.hot then s
  else if tapHolds s.tap.ir && !tapHolds old then s.moduleReset 3
  else if !tapHolds s.tap.ir && tapHolds old then s.released
  else s

/-- DBG_EN is low: Test-Logic-Reset, and DBG_TDO floats. -/
def State.tapOff (s : State) : State := (s.withTap { s.tap with dbgEn := false, ir := 0x02, out := none }).tapReset s.tap.ir

/-- The instruction `ir` is updated into the instruction register; `out` is what its data register then shifts out. With DBG_EN low nothing is heeded. -/
def State.tapSelect (s : State) (en : Bool) (ir : Byte) (cells : BitVec 88) (out : Option Nat) : State :=
  if en then (s.withTap { dbgEn := true, ir := ir, cells := cells, out := out }).tapReset s.tap.ir else s.tapOff

/-- `scan`: the levels of the balls that the cells capture, and what is then shifted in and driven; none: the cells drive what was
preloaded. -/
def execExtest (e : TapEdge) (scan : Option (BitVec 88 × BitVec 88)) (s : State) : Host.Outcome State Fault Refusal :=
  let s := s.atTime e.time
  done (match scan with
    | some (levels, cells) => s.tapSelect e.dbgEn 0x00 cells (some (s.captureCells levels))
    | none => s.tapSelect e.dbgEn 0x00 s.tap.cells s.tap.out)

/-- `levels`: the levels of the balls that the cells capture; `cells`: what is shifted in. -/
def execSamplePreload (e : TapEdge) (levels cells : BitVec 88) (s : State) : Host.Outcome State Fault Refusal :=
  let s := s.atTime e.time
  done (s.tapSelect e.dbgEn 0x01 cells (some (s.captureCells levels)))

/-- The instruction `ir` without the boundary register; `out`: what its data register shifts out. -/
def State.tapPlain (s : State) (e : TapEdge) (ir : Byte) (out : Nat) : State :=
  let s := s.atTime e.time
  s.tapSelect e.dbgEn ir s.tap.cells (some out)

def execIdcode (e : TapEdge) (s : State) : Host.Outcome State Fault Refusal := done (s.tapPlain e 0x02 0x04B0774B)

/-- The bypass register captures 0. -/
def execHighz (e : TapEdge) (s : State) : Host.Outcome State Fault Refusal := done (s.tapPlain e 0x03 0)

def execClamp (e : TapEdge) (s : State) : Host.Outcome State Fault Refusal := done (s.tapPlain e 0x04 0)

/-- `i`: the code is 0x05 + i; every code up to 0xFF acts as BYPASS. -/
def execBypass (e : TapEdge) (i : Fin 251) (s : State) : Host.Outcome State Fault Refusal := done (s.tapPlain e (BitVec.ofNat 8 (5 + i)) 0)

/-- Test-Logic-Reset: IDCODE is selected. -/
def execTapResetRelease (t : Nat) (s : State) : Host.Outcome State Fault Refusal :=
  let s := s.atTime t
  done ((s.withTap { s.tap with ir := 0x02 }).tapReset s.tap.ir)

def execDbgEnFall (t : Nat) (s : State) : Host.Outcome State Fault Refusal := done (s.atTime t).tapOff

end Sys2Proof.Machine
end

