-- ==== Sys2Proof/Machine/Dispatch.lean ====
section
/-! DEFINITION. The effect of each command on everything but the queue: one arm per constructor, each a direct call of its meaning. -/

namespace Sys2Proof.Machine

/-- What command `i` does in state `s`. -/
def exec (i : Instr) (s : State) : Host.Outcome State Fault Refusal :=
  match i with
  | .registerWrite t m a v => Sys2Proof.Machine.execRegisterWrite t m a v s
  | .captureRead t m a => Sys2Proof.Machine.execCaptureRead t m a s
  | .quePidxWrite t m q v => Sys2Proof.Machine.execQuePidxWrite t m q v s
  | .queCidxWrite t m q v => Sys2Proof.Machine.execQueCidxWrite t m q v s
  | .queStatClr t m q v => Sys2Proof.Machine.execQueStatClr t m q v s
  | .fabClr t m v => Sys2Proof.Machine.execFabClr t m v s
  | .plltLock t => Sys2Proof.Machine.execPlltLock t s
  | .refinAbsentTimeout t => Sys2Proof.Machine.execRefinAbsentTimeout t s
  | .refselChange t m v => Sys2Proof.Machine.execRefselChange t m v s
  | .referenceLoss t ocxo => Sys2Proof.Machine.execReferenceLoss t ocxo s
  | .ocxoReturn t => Sys2Proof.Machine.execOcxoReturn t s
  | .referenceReturn t ocxo => Sys2Proof.Machine.execReferenceReturn t ocxo s
  | .hbGsetWrite t m v => Sys2Proof.Machine.execHbGsetWrite t m v s
  | .hbGcorWrite t m v => Sys2Proof.Machine.execHbGcorWrite t m v s
  | .hbFadjWrite t m v => Sys2Proof.Machine.execHbFadjWrite t m v s
  | .slewStep t => Sys2Proof.Machine.execSlewStep t s
  | .gnssSecondBoundary t => Sys2Proof.Machine.execGnssSecondBoundary t s
  | .disciplineTimeout t => Sys2Proof.Machine.execDisciplineTimeout t s
  | .tuncGrowth t => Sys2Proof.Machine.execTuncGrowth t s
  | .hbLcfgCommit t m n v => Sys2Proof.Machine.execHbLcfgCommit t m n v s
  | .strike t n => Sys2Proof.Machine.execStrike t n s
  | .trgCaptureEdge t n rising => Sys2Proof.Machine.execTrgCaptureEdge t n rising s
  | .baseTick t => Sys2Proof.Machine.execBaseTick t s
  | .hbFuspWrite t m v => Sys2Proof.Machine.execHbFuspWrite t m v s
  | .hbGnspWrite t m v => Sys2Proof.Machine.execHbGnspWrite t m v s
  | .ppsPulseEnd t => Sys2Proof.Machine.execPpsPulseEnd t s
  | .frameStartPacket t p vc fn hdr => Sys2Proof.Machine.execFrameStartPacket t p vc fn hdr s
  | .frameEndPacket t p vc hdr => Sys2Proof.Machine.execFrameEndPacket t p vc hdr s
  | .longPacket t p vc dt hdr crcOk payload drained => Sys2Proof.Machine.execLongPacket t p vc dt hdr crcOk payload drained s
  | .pipelineGrant t q => Sys2Proof.Machine.execPipelineGrant t q s
  | .grantEnd t q => Sys2Proof.Machine.execGrantEnd t q s
  | .frameComplete t c bad => Sys2Proof.Machine.execFrameComplete t c bad s
  | .vscRelWrite t m c v => Sys2Proof.Machine.execVscRelWrite t m c v s
  | .contextEnable t m c v => Sys2Proof.Machine.execContextEnable t m c v s
  | .contextDisable t m c v => Sys2Proof.Machine.execContextDisable t m c v s
  | .contextMigrate t m c v => Sys2Proof.Machine.execContextMigrate t m c v s
  | .csiDisable t m p v => Sys2Proof.Machine.execCsiDisable t m p v s
  | .csiClr t m p v => Sys2Proof.Machine.execCsiClr t m p v s
  | .mplClr t m q v => Sys2Proof.Machine.execMplClr t m q v s
  | .vscCclr t m c v => Sys2Proof.Machine.execVscCclr t m c v s
  | .hrinSample t n seq input => Sys2Proof.Machine.execHrinSample t n seq input s
  | .calRotationStart t now => Sys2Proof.Machine.execCalRotationStart t now s
  | .hrinCalComplete t n gain ofs => Sys2Proof.Machine.execHrinCalComplete t n gain ofs s
  | .hrinTempCal t n => Sys2Proof.Machine.execHrinTempCal t n s
  | .hraClr t m v => Sys2Proof.Machine.execHraClr t m v s
  | .gpaListStrike t n seq => Sys2Proof.Machine.execGpaListStrike t n seq s
  | .gpaRunStart t => Sys2Proof.Machine.execGpaRunStart t s
  | .gpaRunComplete t n vals => Sys2Proof.Machine.execGpaRunComplete t n vals s
  | .gpaBackgroundCal t => Sys2Proof.Machine.execGpaBackgroundCal t s
  | .gpaCalNow t m v => Sys2Proof.Machine.execGpaCalNow t m v s
  | .gpaClr t m v => Sys2Proof.Machine.execGpaClr t m v s
  | .capMeasureStart t n seq => Sys2Proof.Machine.execCapMeasureStart t n seq s
  | .capMeasureDone t n c g => Sys2Proof.Machine.execCapMeasureDone t n c g s
  | .finEdge t n change => Sys2Proof.Machine.execFinEdge t n change s
  | .finStall t n => Sys2Proof.Machine.execFinStall t n s
  | .finOvrClear t n => Sys2Proof.Machine.execFinOvrClear t n s
  | .fqiClr t m v => Sys2Proof.Machine.execFqiClr t m v s
  | .workUnitBoundary t => Sys2Proof.Machine.execWorkUnitBoundary t s
  | .frameJobComplete t => Sys2Proof.Machine.execFrameJobComplete t s
  | .sourceEnable t m n v => Sys2Proof.Machine.execSourceEnable t m n v s
  | .sourceDisable t m n v => Sys2Proof.Machine.execSourceDisable t m n v s
  | .fusSputWrite t m n v => Sys2Proof.Machine.execFusSputWrite t m n v s
  | .gridEnable t m g v => Sys2Proof.Machine.execGridEnable t m g v s
  | .gridDisable t m g v => Sys2Proof.Machine.execGridDisable t m g v s
  | .instantClose t g => Sys2Proof.Machine.execInstantClose t g s
  | .headPublish t h => Sys2Proof.Machine.execHeadPublish t h s
  | .ytCommit t m v => Sys2Proof.Machine.execYtCommit t m v s
  | .fexClr t m v => Sys2Proof.Machine.execFexClr t m v s
  | .prjClr t m v => Sys2Proof.Machine.execPrjClr t m v s
  | .fusClr t m v => Sys2Proof.Machine.execFusClr t m v s
  | .ytClr t m v => Sys2Proof.Machine.execYtClr t m v s
  | .add t u d a b f => Sys2Proof.Machine.execAdd t u d a b f s
  | .sub t u d a b f => Sys2Proof.Machine.execSub t u d a b f s
  | .and t u d a b f => Sys2Proof.Machine.execAnd t u d a b f s
  | .or t u d a b f => Sys2Proof.Machine.execOr t u d a b f s
  | .xor t u d a b f => Sys2Proof.Machine.execXor t u d a b f s
  | .andn t u d a b f => Sys2Proof.Machine.execAndn t u d a b f s
  | .sll t u d a b => Sys2Proof.Machine.execSll t u d a b s
  | .srl t u d a b => Sys2Proof.Machine.execSrl t u d a b s
  | .sra t u d a b => Sys2Proof.Machine.execSra t u d a b s
  | .ror t u d a b => Sys2Proof.Machine.execRor t u d a b s
  | .slt t u d a b => Sys2Proof.Machine.execSlt t u d a b s
  | .sltu t u d a b => Sys2Proof.Machine.execSltu t u d a b s
  | .min t u d a b => Sys2Proof.Machine.execMin t u d a b s
  | .max t u d a b => Sys2Proof.Machine.execMax t u d a b s
  | .minu t u d a b => Sys2Proof.Machine.execMinu t u d a b s
  | .maxu t u d a b => Sys2Proof.Machine.execMaxu t u d a b s
  | .addw t u d a b f => Sys2Proof.Machine.execAddw t u d a b f s
  | .subw t u d a b f => Sys2Proof.Machine.execSubw t u d a b f s
  | .sextb t u d a => Sys2Proof.Machine.execSextb t u d a s
  | .sexth t u d a => Sys2Proof.Machine.execSexth t u d a s
  | .sextw t u d a => Sys2Proof.Machine.execSextw t u d a s
  | .zextw t u d a => Sys2Proof.Machine.execZextw t u d a s
  | .clz t u d a => Sys2Proof.Machine.execClz t u d a s
  | .popc t u d a => Sys2Proof.Machine.execPopc t u d a s
  | .cmp t u a b => Sys2Proof.Machine.execCmp t u a b s
  | .tst t u a b => Sys2Proof.Machine.execTst t u a b s
  | .mul t u d a b => Sys2Proof.Machine.execMul t u d a b s
  | .mulh t u d a b => Sys2Proof.Machine.execMulh t u d a b s
  | .mulhu t u d a b => Sys2Proof.Machine.execMulhu t u d a b s
  | .mulw t u d a b => Sys2Proof.Machine.execMulw t u d a b s
  | .div t u d a b => Sys2Proof.Machine.execDiv t u d a b s
  | .divu t u d a b => Sys2Proof.Machine.execDivu t u d a b s
  | .rem t u d a b => Sys2Proof.Machine.execRem t u d a b s
  | .remu t u d a b => Sys2Proof.Machine.execRemu t u d a b s
  | .mfc t u d n => Sys2Proof.Machine.execMfc t u d n s
  | .mtc t u n a => Sys2Proof.Machine.execMtc t u n a s
  | .addi t u d a imm => Sys2Proof.Machine.execAddi t u d a imm s
  | .andi t u d a imm => Sys2Proof.Machine.execAndi t u d a imm s
  | .ori t u d a imm => Sys2Proof.Machine.execOri t u d a imm s
  | .xori t u d a imm => Sys2Proof.Machine.execXori t u d a imm s
  | .slti t u d a imm => Sys2Proof.Machine.execSlti t u d a imm s
  | .sltiu t u d a imm => Sys2Proof.Machine.execSltiu t u d a imm s
  | .shi t u d a kind amt => Sys2Proof.Machine.execShi t u d a kind amt s
  | .cmpi t u a imm => Sys2Proof.Machine.execCmpi t u a imm s
  | .ldi t u d imm => Sys2Proof.Machine.execLdi t u d imm s
  | .ldu t u d imm => Sys2Proof.Machine.execLdu t u d imm s
  | .adr t u d imm => Sys2Proof.Machine.execAdr t u d imm s
  | .ldb t u d base ofs => Sys2Proof.Machine.execLdb t u d base ofs s
  | .ldbu t u d base ofs => Sys2Proof.Machine.execLdbu t u d base ofs s
  | .ldh t u d base ofs => Sys2Proof.Machine.execLdh t u d base ofs s
  | .ldhu t u d base ofs => Sys2Proof.Machine.execLdhu t u d base ofs s
  | .ldw t u d base ofs => Sys2Proof.Machine.execLdw t u d base ofs s
  | .ldwu t u d base ofs => Sys2Proof.Machine.execLdwu t u d base ofs s
  | .ldd t u d base ofs => Sys2Proof.Machine.execLdd t u d base ofs s
  | .stb t u d base ofs => Sys2Proof.Machine.execStb t u d base ofs s
  | .sth t u d base ofs => Sys2Proof.Machine.execSth t u d base ofs s
  | .stw t u d base ofs => Sys2Proof.Machine.execStw t u d base ofs s
  | .std t u d base ofs => Sys2Proof.Machine.execStd t u d base ofs s
  | .fldw t c d base ofs => Sys2Proof.Machine.execFldw t c d base ofs s
  | .fldd t c d base ofs => Sys2Proof.Machine.execFldd t c d base ofs s
  | .fstw t c d base ofs => Sys2Proof.Machine.execFstw t c d base ofs s
  | .fstd t c d base ofs => Sys2Proof.Machine.execFstd t c d base ofs s
  | .bc t u cond ofs => Sys2Proof.Machine.execBc t u cond ofs s
  | .blc t u cond ofs => Sys2Proof.Machine.execBlc t u cond ofs s
  | .jr t c a => Sys2Proof.Machine.execJr t c a s
  | .jlr t c d a => Sys2Proof.Machine.execJlr t c d a s
  | .ret t l => Sys2Proof.Machine.execRet t l s
  | .samp t l r port => Sys2Proof.Machine.execSamp t l r port s
  | .setp t l r port => Sys2Proof.Machine.execSetp t l r port s
  | .lset t l loop r => Sys2Proof.Machine.execLset t l loop r s
  | .lmeas t l loop r => Sys2Proof.Machine.execLmeas t l loop r s
  | .leval t l loop r => Sys2Proof.Machine.execLeval t l loop r s
  | .lout t l loop r => Sys2Proof.Machine.execLout t l loop r s
  | .lint t l loop r => Sys2Proof.Machine.execLint t l loop r s
  | .lman t l loop r => Sys2Proof.Machine.execLman t l loop r s
  | .lauto t l loop => Sys2Proof.Machine.execLauto t l loop s
  | .lbank t l loop r => Sys2Proof.Machine.execLbank t l loop r s
  | .lstat t l loop r => Sys2Proof.Machine.execLstat t l loop r s
  | .fadd t c d a b p => Sys2Proof.Machine.execFadd t c d a b p s
  | .fsub t c d a b p => Sys2Proof.Machine.execFsub t c d a b p s
  | .fmul t c d a b p => Sys2Proof.Machine.execFmul t c d a b p s
  | .fdiv t c d a b p => Sys2Proof.Machine.execFdiv t c d a b p s
  | .fsqrt t c d a p => Sys2Proof.Machine.execFsqrt t c d a p s
  | .fma t c d a b p => Sys2Proof.Machine.execFma t c d a b p s
  | .fmin t c d a b p => Sys2Proof.Machine.execFmin t c d a b p s
  | .fmax t c d a b p => Sys2Proof.Machine.execFmax t c d a b p s
  | .fneg t c d a p => Sys2Proof.Machine.execFneg t c d a p s
  | .fabs t c d a p => Sys2Proof.Machine.execFabs t c d a p s
  | .fcmp t c a b p => Sys2Proof.Machine.execFcmp t c a b p s
  | .fcvti t c d a p => Sys2Proof.Machine.execFcvti t c d a p s
  | .fcvtf t c d a p => Sys2Proof.Machine.execFcvtf t c d a p s
  | .fcvtp t c d a p => Sys2Proof.Machine.execFcvtp t c d a p s
  | .fmvgf t c d a p => Sys2Proof.Machine.execFmvgf t c d a p s
  | .fmvfg t c d a p => Sys2Proof.Machine.execFmvfg t c d a p s
  | .qadd t l d a b => Sys2Proof.Machine.execQadd t l d a b s
  | .qsub t l d a b => Sys2Proof.Machine.execQsub t l d a b s
  | .qmul t l d a b n => Sys2Proof.Machine.execQmul t l d a b n s
  | .qneg t l d a => Sys2Proof.Machine.execQneg t l d a s
  | .qabs t l d a => Sys2Proof.Machine.execQabs t l d a s
  | .qshl t l d a n => Sys2Proof.Machine.execQshl t l d a n s
  | .qshr t l d a n => Sys2Proof.Machine.execQshr t l d a n s
  | .qclip t l d a b => Sys2Proof.Machine.execQclip t l d a b s
  | .macz t l k a b => Sys2Proof.Machine.execMacz t l k a b s
  | .mac t l k a b => Sys2Proof.Machine.execMac t l k a b s
  | .msu t l k a b => Sys2Proof.Machine.execMsu t l k a b s
  | .accrd t l d k n => Sys2Proof.Machine.execAccrd t l d k n s
  | .accset t l k a n => Sys2Proof.Machine.execAccset t l k a n s
  | .accget t l d k high => Sys2Proof.Machine.execAccget t l d k high s
  | .accput t l k a high => Sys2Proof.Machine.execAccput t l k a high s
  | .lr t c d a w => Sys2Proof.Machine.execLr t c d a w s
  | .sc t c d a b w => Sys2Proof.Machine.execSc t c d a b w s
  | .afadd t c d a b w => Sys2Proof.Machine.execAfadd t c d a b w s
  | .aswap t c d a b w => Sys2Proof.Machine.execAswap t c d a b w s
  | .fence t c => Sys2Proof.Machine.execFence t c s
  | .facq t c => Sys2Proof.Machine.execFacq t c s
  | .frel t c => Sys2Proof.Machine.execFrel t c s
  | .nop t u => Sys2Proof.Machine.execNop t u s
  | .eret t u => Sys2Proof.Machine.execEret t u s
  | .brk t u code => Sys2Proof.Machine.execBrk t u code s
  | .wfi t c => Sys2Proof.Machine.execWfi t c s
  | .wfiWake t c => Sys2Proof.Machine.execWfiWake t c s
  | .bwt t l => Sys2Proof.Machine.execBwt t l s
  | .isync t c => Sys2Proof.Machine.execIsync t c s
  | .impreciseBusError t c => Sys2Proof.Machine.execImpreciseBusError t c s
  | .externalInterrupt t c => Sys2Proof.Machine.execExternalInterrupt t c s
  | .cmptimeMatch t c => Sys2Proof.Machine.execCmptimeMatch t c s
  | .laneBoundary t h bad => Sys2Proof.Machine.execLaneBoundary t h bad s
  | .laneStart t m h l v => Sys2Proof.Machine.execLaneStart t m h l v s
  | .laneStop t m h l v => Sys2Proof.Machine.execLaneStop t m h l v s
  | .loopEnable t m h n v => Sys2Proof.Machine.execLoopEnable t m h n v s
  | .lphSwapReq t m h v => Sys2Proof.Machine.execLphSwapReq t m h v s
  | .migrationArm t m h v => Sys2Proof.Machine.execMigrationArm t m h v s
  | .migrationCopyDone t h => Sys2Proof.Machine.execMigrationCopyDone t h s
  | .migrationAbort t m h v => Sys2Proof.Machine.execMigrationAbort t m h v s
  | .ceClr t m h v => Sys2Proof.Machine.execCeClr t m h v s
  | .decayComplete t n => Sys2Proof.Machine.execDecayComplete t n s
  | .regulatorUpdate t n cur ir vs vp vc rise => Sys2Proof.Machine.execRegulatorUpdate t n cur ir vs vp vc rise s
  | .phaseEnd t n cur rise => Sys2Proof.Machine.execPhaseEnd t n cur rise s
  | .boostDefer t n => Sys2Proof.Machine.execBoostDefer t n s
  | .boostTimeout t p => Sys2Proof.Machine.execBoostTimeout t p s
  | .fingerCalVisit t gain ofs => Sys2Proof.Machine.execFingerCalVisit t gain ofs s
  | .fingerCalSkip t => Sys2Proof.Machine.execFingerCalSkip t s
  | .resistanceStep t n => Sys2Proof.Machine.execResistanceStep t n s
  | .coilModelSave t => Sys2Proof.Machine.execCoilModelSave t s
  | .palmOvercurrent t p => Sys2Proof.Machine.execPalmOvercurrent t p s
  | .palmRearm t m p v => Sys2Proof.Machine.execPalmRearm t m p v s
  | .palmOverload t p iavg ipk => Sys2Proof.Machine.execPalmOverload t p iavg ipk s
  | .dutyLimit t n => Sys2Proof.Machine.execDutyLimit t n s
  | .pairThermalStep t n irms => Sys2Proof.Machine.execPairThermalStep t n irms s
  | .switchOvertemp t x => Sys2Proof.Machine.execSwitchOvertemp t x s
  | .switchTempRecover t x => Sys2Proof.Machine.execSwitchTempRecover t x s
  | .fingerOvercurrent t n => Sys2Proof.Machine.execFingerOvercurrent t n s
  | .fingerRearm t m n v => Sys2Proof.Machine.execFingerRearm t m n v s
  | .openLoadDetect t n => Sys2Proof.Machine.execOpenLoadDetect t n s
  | .shortToGround t n present => Sys2Proof.Machine.execShortToGround t n present s
  | .fngClr t m v => Sys2Proof.Machine.execFngClr t m v s
  | .plmClr t m v => Sys2Proof.Machine.execPlmClr t m v s
  | .inrushEnd t n => Sys2Proof.Machine.execInrushEnd t n s
  | .loadOvercurrent t n cur => Sys2Proof.Machine.execLoadOvercurrent t n cur s
  | .groupUndervoltage t g mv => Sys2Proof.Machine.execGroupUndervoltage t g mv s
  | .groupUvRecover t g mv => Sys2Proof.Machine.execGroupUvRecover t g mv s
  | .retryBudgetRefill t n => Sys2Proof.Machine.execRetryBudgetRefill t n s
  | .loadThermalTrip t n => Sys2Proof.Machine.execLoadThermalTrip t n s
  | .thermalLatchClear t n => Sys2Proof.Machine.execThermalLatchClear t n s
  | .restartTest t => Sys2Proof.Machine.execRestartTest t s
  | .loadRearm t m n v => Sys2Proof.Machine.execLoadRearm t m n v s
  | .loadCurrentReport t n cur low mv => Sys2Proof.Machine.execLoadCurrentReport t n cur low mv s
  | .iselChange t isel => Sys2Proof.Machine.execIselChange t isel s
  | .ldsClr t m v => Sys2Proof.Machine.execLdsClr t m v s
  | .capacitanceSample t r c => Sys2Proof.Machine.execCapacitanceSample t r c s
  | .capSampleBleed t r => Sys2Proof.Machine.execCapSampleBleed t r s
  | .energyUpdate t r mv => Sys2Proof.Machine.execEnergyUpdate t r mv s
  | .diversionStart t r mv => Sys2Proof.Machine.execDiversionStart t r mv s
  | .diversionEnd t r mv uj => Sys2Proof.Machine.execDiversionEnd t r mv uj s
  | .brmCeilWrite t m r v => Sys2Proof.Machine.execBrmCeilWrite t m r v s
  | .bleedEnd t r mv => Sys2Proof.Machine.execBleedEnd t r mv s
  | .dzCurrentCut t n => Sys2Proof.Machine.execDzCurrentCut t n s
  | .portLimit t k mv ua => Sys2Proof.Machine.execPortLimit t k mv ua s
  | .portFold t k mv ua => Sys2Proof.Machine.execPortFold t k mv ua s
  | .portUnfold t k mv ua => Sys2Proof.Machine.execPortUnfold t k mv ua s
  | .railOvercurrent t k present => Sys2Proof.Machine.execRailOvercurrent t k present s
  | .brmClr t m v => Sys2Proof.Machine.execBrmClr t m v s
  | .snpClr t m v => Sys2Proof.Machine.execSnpClr t m v s
  | .feFrame t m v => Sys2Proof.Machine.execFeFrame t m v s
  | .feFrameDone t data => Sys2Proof.Machine.execFeFrameDone t data s
  | .channelEnable t m c v => Sys2Proof.Machine.execChannelEnable t m c v s
  | .channelLock t c => Sys2Proof.Machine.execChannelLock t c s
  | .channelLockLoss t c => Sys2Proof.Machine.execChannelLockLoss t c s
  | .channelLost t c => Sys2Proof.Machine.execChannelLost t c s
  | .acqStart t m v => Sys2Proof.Machine.execAcqStart t m v s
  | .acqStep t ratio peak => Sys2Proof.Machine.execAcqStep t ratio peak s
  | .measurementEpoch t meas drops agc => Sys2Proof.Machine.execMeasurementEpoch t meas drops agc s
  | .epochBlockWrite t => Sys2Proof.Machine.execEpochBlockWrite t s
  | .symbolRecord t c n syms at0 cpcnt => Sys2Proof.Machine.execSymbolRecord t c n syms at0 cpcnt s
  | .prdWrite t m c v => Sys2Proof.Machine.execPrdWrite t m c v s
  | .clkeWrite t m v => Sys2Proof.Machine.execClkeWrite t m v s
  | .navCommit t m v => Sys2Proof.Machine.execNavCommit t m v s
  | .tvalidLoss t => Sys2Proof.Machine.execTvalidLoss t s
  | .gnbRelWrite t m v => Sys2Proof.Machine.execGnbRelWrite t m v s
  | .gclkLoss t => Sys2Proof.Machine.execGclkLoss t s
  | .beanieBurst t => Sys2Proof.Machine.execBeanieBurst t s
  | .beanieBurstEnd t meas bands => Sys2Proof.Machine.execBeanieBurstEnd t meas bands s
  | .imuTransaction t => Sys2Proof.Machine.execImuTransaction t s
  | .imuTransactionDone t rx bad => Sys2Proof.Machine.execImuTransactionDone t rx bad s
  | .gnbClr t m v => Sys2Proof.Machine.execGnbClr t m v s
  | .imuClr t m v => Sys2Proof.Machine.execImuClr t m v s
  | .dominantTimeout t n => Sys2Proof.Machine.execDominantTimeout t n s
  | .canWakeDetect t n w => Sys2Proof.Machine.execCanWakeDetect t n w s
  | .frameReceived t n f bad => Sys2Proof.Machine.execFrameReceived t n f bad s
  | .txBufferFill t n won => Sys2Proof.Machine.execTxBufferFill t n won s
  | .frameSent t n b => Sys2Proof.Machine.execFrameSent t n b s
  | .frameTxError t n b lec => Sys2Proof.Machine.execFrameTxError t n b lec s
  | .busOffRecoveryStart t n => Sys2Proof.Machine.execBusOffRecoveryStart t n s
  | .canRecov t m n v => Sys2Proof.Machine.execCanRecov t m n v s
  | .busOffRejoin t n => Sys2Proof.Machine.execBusOffRejoin t n s
  | .objectStale t n => Sys2Proof.Machine.execObjectStale t n s
  | .objTxreq t m v => Sys2Proof.Machine.execObjTxreq t m v s
  | .objectRepeat t n => Sys2Proof.Machine.execObjectRepeat t n s
  | .objStatRead t m k => Sys2Proof.Machine.execObjStatRead t m k s
  | .txRequestConsume t => Sys2Proof.Machine.execTxRequestConsume t s
  | .messageDeadline t n won => Sys2Proof.Machine.execMessageDeadline t n won s
  | .msgCancel t m v won => Sys2Proof.Machine.execMsgCancel t m v won s
  | .transportTimeout t k => Sys2Proof.Machine.execTransportTimeout t k s
  | .bamPacketSend t k => Sys2Proof.Machine.execBamPacketSend t k s
  | .msgPrel t m v => Sys2Proof.Machine.execMsgPrel t m v s
  | .addressClaimStart t m n v => Sys2Proof.Machine.execAddressClaimStart t m n v s
  | .claimSettled t n => Sys2Proof.Machine.execClaimSettled t n s
  | .cannotClaimSend t n => Sys2Proof.Machine.execCannotClaimSend t n s
  | .canClr t m n v => Sys2Proof.Machine.execCanClr t m n v s
  | .msgClr t m v => Sys2Proof.Machine.execMsgClr t m v s
  | .switchFrame t p frame full => Sys2Proof.Machine.execSwitchFrame t p frame full s
  | .linkLoss t p => Sys2Proof.Machine.execLinkLoss t p s
  | .ethClr t m v => Sys2Proof.Machine.execEthClr t m v s
  | .lamipFrameReceive t src => Sys2Proof.Machine.execLamipFrameReceive t src s
  | .read t m q => Sys2Proof.Machine.execRead t m q s
  | .write t m q => Sys2Proof.Machine.execWrite t m q s
  | .claim t m q v => Sys2Proof.Machine.execClaim t m q v s
  | .renew t m q v => Sys2Proof.Machine.execRenew t m q v s
  | .release t m q v => Sys2Proof.Machine.execRelease t m q v s
  | .handover t m q v => Sys2Proof.Machine.execHandover t m q v s
  | .reset t m q => Sys2Proof.Machine.execReset t m q s
  | .subscribe t m q => Sys2Proof.Machine.execSubscribe t m q s
  | .subscriptionPush t m tid => Sys2Proof.Machine.execSubscriptionPush t m tid s
  | .subscriptionExpire t m tid => Sys2Proof.Machine.execSubscriptionExpire t m tid s
  | .evlogRead t m q => Sys2Proof.Machine.execEvlogRead t m q s
  | .logClear t m q => Sys2Proof.Machine.execLogClear t m q s
  | .logFreeze t m q => Sys2Proof.Machine.execLogFreeze t m q s
  | .logUnfreeze t m q => Sys2Proof.Machine.execLogUnfreeze t m q s
  | .logFlushCmd t m => Sys2Proof.Machine.execLogFlushCmd t m s
  | .cacheEntryExpire t m tid => Sys2Proof.Machine.execCacheEntryExpire t m tid s
  | .settleWindowEnd t => Sys2Proof.Machine.execSettleWindowEnd t s
  | .leaseExpire t => Sys2Proof.Machine.execLeaseExpire t s
  | .lmpClr t m v => Sys2Proof.Machine.execLmpClr t m v s
  | .epochBoundary t => Sys2Proof.Machine.execEpochBoundary t s
  | .epochCommit t => Sys2Proof.Machine.execEpochCommit t s
  | .heartbeat t => Sys2Proof.Machine.execHeartbeat t s
  | .heartbeatLoss t => Sys2Proof.Machine.execHeartbeatLoss t s
  | .acoreWatchdogExpire t c => Sys2Proof.Machine.execAcoreWatchdogExpire t c s
  | .hmnKick t m c v => Sys2Proof.Machine.execHmnKick t m c v s
  | .roleFail t m v => Sys2Proof.Machine.execRoleFail t m v s
  | .failoverDetect t => Sys2Proof.Machine.execFailoverDetect t s
  | .mittenExpire t => Sys2Proof.Machine.execMittenExpire t s
  | .mittenRampStep t => Sys2Proof.Machine.execMittenRampStep t s
  | .selfTestStart t mw => Sys2Proof.Machine.execSelfTestStart t mw s
  | .selfTestComplete t result img => Sys2Proof.Machine.execSelfTestComplete t result img s
  | .selfTestOverdue t => Sys2Proof.Machine.execSelfTestOverdue t s
  | .stest t m v => Sys2Proof.Machine.execStest t m v s
  | .swap t m v => Sys2Proof.Machine.execSwap t m v s
  | .standbyReady t img => Sys2Proof.Machine.execStandbyReady t img s
  | .swapAbandon t cause => Sys2Proof.Machine.execSwapAbandon t cause s
  | .swapAbort t m v => Sys2Proof.Machine.execSwapAbort t m v s
  | .powerOn t => Sys2Proof.Machine.execPowerOn t s
  | .brownOut t => Sys2Proof.Machine.execBrownOut t s
  | .resetNAssert t => Sys2Proof.Machine.execResetNAssert t s
  | .thermalShutdown t => Sys2Proof.Machine.execThermalShutdown t s
  | .thermalRelease t => Sys2Proof.Machine.execThermalRelease t s
  | .softwareReset t m v => Sys2Proof.Machine.execSoftwareReset t m v s
  | .blockIdle t place => Sys2Proof.Machine.execBlockIdle t place s
  | .blockResetForce t place => Sys2Proof.Machine.execBlockResetForce t place s
  | .resetRelease t strap safe pins clk pfw cal plain => Sys2Proof.Machine.execResetRelease t strap safe pins clk pfw cal plain s
  | .overvoltage t mv => Sys2Proof.Machine.execOvervoltage t mv s
  | .overvoltageRecover t => Sys2Proof.Machine.execOvervoltageRecover t s
  | .clockCheckFail t ppm ao => Sys2Proof.Machine.execClockCheckFail t ppm ao s
  | .clockCheckRecover t => Sys2Proof.Machine.execClockCheckRecover t s
  | .powerFailFlush t vbat => Sys2Proof.Machine.execPowerFailFlush t vbat s
  | .flushAbandon t => Sys2Proof.Machine.execFlushAbandon t s
  | .vholdCharged t => Sys2Proof.Machine.execVholdCharged t s
  | .safeNAssert t => Sys2Proof.Machine.execSafeNAssert t s
  | .safeNRelease t => Sys2Proof.Machine.execSafeNRelease t s
  | .beanieEnter t m v => Sys2Proof.Machine.execBeanieEnter t m v s
  | .beanieWake t ign => Sys2Proof.Machine.execBeanieWake t ign s
  | .extest e scan => Sys2Proof.Machine.execExtest e scan s
  | .samplePreload e levels cells => Sys2Proof.Machine.execSamplePreload e levels cells s
  | .idcode e => Sys2Proof.Machine.execIdcode e s
  | .highz e => Sys2Proof.Machine.execHighz e s
  | .clamp e => Sys2Proof.Machine.execClamp e s
  | .bypass e code => Sys2Proof.Machine.execBypass e code s
  | .tapResetRelease t => Sys2Proof.Machine.execTapResetRelease t s
  | .dbgEnFall t => Sys2Proof.Machine.execDbgEnFall t s
  | .faultReport t code p p0 p1 p2 p3 => Sys2Proof.Machine.execFaultReport t code p p0 p1 p2 p3 s
  | .windowEnd t => Sys2Proof.Machine.execWindowEnd t s
  | .freezeTimeout t => Sys2Proof.Machine.execFreezeTimeout t s
  | .fltClr t m v => Sys2Proof.Machine.execFltClr t m v s
  | .stage t m q v => Sys2Proof.Machine.execStage t m q v s
  | .stageDone t k => Sys2Proof.Machine.execStageDone t k s
  | .commit t m q v => Sys2Proof.Machine.execCommit t m q v s
  | .imageAbort t m v => Sys2Proof.Machine.execImageAbort t m v s
  | .confirm t m v => Sys2Proof.Machine.execConfirm t m v s
  | .trialTimeout t k => Sys2Proof.Machine.execTrialTimeout t k s
  | .blockRestart t m v => Sys2Proof.Machine.execBlockRestart t m v s
  | .tallyArm t m v => Sys2Proof.Machine.execTallyArm t m v s
  | .tallyArmExpire t => Sys2Proof.Machine.execTallyArmExpire t s
  | .tallyBurn t m v vbat => Sys2Proof.Machine.execTallyBurn t m v vbat s
  | .tallyBurnDone t got => Sys2Proof.Machine.execTallyBurnDone t got s
  | .illegalInstruction t u word => Sys2Proof.Machine.execIllegalInstruction t u word s
  | .highSpeedEntry t p deskew => Sys2Proof.Machine.execHighSpeedEntry t p deskew s
  | .highSpeedExit t p => Sys2Proof.Machine.execHighSpeedExit t p s
  | .linkUp t p => Sys2Proof.Machine.execLinkUp t p s
  | .gclkReturn t => Sys2Proof.Machine.execGclkReturn t s
  | .usbBusChange t conn hs cfgd => Sys2Proof.Machine.execUsbBusChange t conn hs cfgd s
  | .lamipResetApply t => Sys2Proof.Machine.execLamipResetApply t s
  | .macAddressAgeing t => Sys2Proof.Machine.execMacAddressAgeing t s
  | .errorFrame t n lec first => Sys2Proof.Machine.execErrorFrame t n lec first s
  | .autonomousBiasing t n active => Sys2Proof.Machine.execAutonomousBiasing t n active s
  | .bootComplete t img => Sys2Proof.Machine.execBootComplete t img s
  | .takeoverComplete t img => Sys2Proof.Machine.execTakeoverComplete t img s
  | .commitCopyDone t => Sys2Proof.Machine.execCommitCopyDone t s
  | .blockRestartDone t place img plain => Sys2Proof.Machine.execBlockRestartDone t place img plain s
  | .dieTemperatureHigh t die temp => Sys2Proof.Machine.execDieTemperatureHigh t die temp s
  | .portLimitEnd t k mv ua => Sys2Proof.Machine.execPortLimitEnd t k mv ua s

end Sys2Proof.Machine
end

