-- ==== Sys2Proof/Safety.lean ====
section
/-! DEFINITION. The terms in which statements speak of safe states: canonical tables, Jarug state that the spec allows, exception entry,
numbers as exact values, accesses that reach their block. -/

namespace Sys2Proof.Machine

/-- The memory of a state is in its canonical form: addresses strictly rising, no byte listed that reads as it would unlisted. -/
def Memory.wf (m : List Host.Cell) : Bool := sparseWf memDefault m

/-- The register file of a state is in its canonical form. -/
def RegFile.wf (r : List (Nat × Word)) : Bool := sparseWf regReset r

/-- Numbers in strictly rising order, from `lo` on. -/
def risingFrom (lo : Nat) : List Nat → Bool
  | [] => true
  | a :: r => decide (lo ≤ a) && risingFrom (a + 1) r

/-- Equal contents are equal data: memory, registers and poison marks are in canonical form. -/
def State.canonical (s : State) : Bool := Memory.wf s.mem && RegFile.wf s.regs && risingFrom 0 s.poison

/-- What the spec allows a unit's registers to hold: pc on a word boundary (R203), at most 8 return addresses (R220), each on a word
boundary, VBASE on a vector block (R234). -/
def Cpu.legal (c : Cpu) : Bool :=
  c.pc.toNat % 4 == 0 && decide (c.rstack.length ≤ 8) && c.rstack.all (fun r => r.toNat % 4 == 0) && c.vbase.toNat % 1024 == 0

/-- Every unit's registers are ones that the spec allows. -/
def State.cpusLegal (s : State) : Bool := s.aCores.all Cpu.legal && s.lanes.all Cpu.legal

/-- Unit `u` executes at time `t`, and fetching its instruction raises nothing. -/
abbrev Runs (s : State) (t : Nat) (u : Proc) : Prop := (s.atTime t).executes u = true ∧ (s.atTime t).fetchFault u = none

/-- A unit in no handler, so that an exception is entered and does not stop it. -/
abbrev Free (s : State) (u : Proc) : Prop := (s.cpu u).exl = false

/-- The state at time `t` in which only the registers of unit `u` have changed. -/
def State.after (s : State) (t : Nat) (u : Proc) (f : Cpu → Cpu) : State := (s.atTime t).modCpu u f

/-- The unit goes on to the next word after `n` cycles, with general register `d` at `v`. -/
def Cpu.wrote (c : Cpu) (n : Nat) (d : GReg) (v : DWord) : Cpu := { c with g := c.g.set d v, pc := c.pc + 4, cycles := c.cycles + n }

/-- The unit goes on to the next word after `n` cycles, with f register `d` at `v` and the flags `fl` raised in FCSR. -/
def Cpu.wroteF (c : Cpu) (n : Nat) (d : GReg) (v : DWord) (fl : Nat) : Cpu :=
  { c with f := c.f.set d v, fcsr := c.fcsr ||| BitVec.ofNat 64 fl, pc := c.pc + 4, cycles := c.cycles + n }

/-- N, Z, C and V as given, and S as in `old` (R205, R210). -/
def FlagsAre (new old : BitVec 5) (n z c v : Bool) : Prop :=
  new.getLsbD 3 = n ∧ new.getLsbD 2 = z ∧ new.getLsbD 1 = c ∧ new.getLsbD 0 = v ∧ new.getLsbD 4 = old.getLsbD 4

/-- The unit has its entry in the state. -/
def Present (s : State) : Proc → Prop
  | .a c => procIndex (.a c) < s.aCores.length
  | .l l => procIndex (.l l) < s.lanes.length

/-- Between `s` and `s'` unit `u` entered the handler of a synchronous exception of the instruction at its pc (R238): what it saves, where it
goes, and the registers that entry leaves as they were. -/
def Entered (s s' : State) (u : Proc) (cause sub : Nat) (addr : DWord) : Prop :=
  let c := s.cpu u
  let c' := s'.cpu u
  c'.epc = c.pc ∧ c'.estat = c.st.setWidth 64 ∧ c'.ecause = BitVec.ofNat 64 (cause + 16 * sub) ∧ c'.eaddr = addr
    ∧ c'.ien.getLsbD 0 = false ∧ c'.ien.getLsbD 1 = true ∧ c'.ien.getLsbD 2 = c.ien.getLsbD 0
    ∧ c'.pc = (c.vbase &&& ~~~0x3FF) + BitVec.ofNat 64 (cause * 0x40)
    ∧ c'.g = c.g ∧ c'.f = c.f ∧ c'.acc = c.acc ∧ c'.rstack = c.rstack ∧ c'.st = c.st

/-- Between `s` and `s'` unit `u`, in a handler, stopped on a synchronous exception (R240): it executes nothing more, and no register that
entry saves or sets has changed. -/
def StoppedOn (s s' : State) (u : Proc) : Prop :=
  let c := s.cpu u
  let c' := s'.cpu u
  s'.executes u = false
    ∧ (match u with
      | .a _ => c'.stopped = true
      | .l l => s'.lnst l.half l.lane = lnHalted)
    ∧ c'.epc = c.epc ∧ c'.estat = c.estat ∧ c'.ecause = c.ecause ∧ c'.eaddr = c.eaddr ∧ c'.ien = c.ien ∧ c'.pc = c.pc ∧ c'.st = c.st
    ∧ c'.g = c.g ∧ c'.f = c.f ∧ c'.acc = c.acc ∧ c'.rstack = c.rstack

/-- No overrun exception waits to be taken by unit `u` (R237). -/
def NoOverrunWaits (s : State) : Proc → Prop
  | .a _ => True
  | .l l => (s.ln l.half l.lane).ovPend = false

/-- 2^e as a rational number. -/
def twoPow (e : Int) : Rat := if 0 ≤ e then ((2 ^ e.toNat : Nat) : Rat) else 1 / ((2 ^ (-e).toNat : Nat) : Rat)

/-- ±m × 2^e as a rational number. -/
def ratOf (neg : Bool) (m : Nat) (e : Int) : Rat := (if neg then -1 else 1) * (m : Rat) * twoPow e

/-- The value of a finite pattern as a rational number; 0 for the others. -/
def FVal.value : FVal → Rat
  | .fin neg m e => ratOf neg m e
  | .zero _ => 0
  | .inf _ => 0
  | .nan _ => 0

/-- Neither a NaN nor an infinity. -/
def FVal.isFinite : FVal → Bool
  | .fin _ _ _ => true
  | .zero _ => true
  | .inf _ => false
  | .nan _ => false

/-- `r` is the exact value `x` rounded once to the format under `rm`; an exact zero gives a zero and no flag (R226). -/
def RoundedOnce (f : Fmt) (rm : Nat) (x : Rat) (r : FRes) : Prop :=
  (x ≠ 0 → ∃ neg m e, 0 < m ∧ ratOf neg m e = x ∧ r = f.round rm neg m e) ∧ (x = 0 → r.2 = 0 ∧ ∃ n, f.unpack r.1 = .zero n)

/-- `v`, a finite result of the positive or negative exact value `x` with flags `fl`, lies on the side of it that a directed `rm` names, and is `x` where
no flag is raised (R226). -/
def DirectedFrom (rm : Nat) (x v : Rat) (fl : Nat) : Prop :=
  (rm = 1 → (x ≤ v ∧ v ≤ 0) ∨ (0 ≤ v ∧ v ≤ x)) ∧ (rm = 2 → x ≤ v) ∧ (rm = 3 → v ≤ x) ∧ (fl = 0 → v = x)

/-- A write by a master of the word at `a` reaches its block: powered, not in reset, and no injected error waiting for a write. -/
abbrev Reaches (s : State) (t a : Nat) : Prop := (s.atTime t).accessError a = none ∧ s.armed true = false

/-- The state after a write of the word at `a` that the block took: OK answered, and no poison left on the word. -/
def State.answered (s : State) (a : Nat) : State :=
  { s with poison := s.poison.filter (fun p => decide (p < a) || decide (a + 4 ≤ p)), reply := some (stOk, []) }

/-- The outcome of a step is a next state. -/
def Answers (o : Host.Outcome State Fault Refusal) : Prop := ∃ s, o = .next s

end Sys2Proof.Machine
end

