-- ==== Sys2Proof/Certificates/Slice0/Obligations.lean ====
section
/-! DEFINITION. The statements for the provers. A statement that gives the state after a command gives all of it, so what it does not
name is unchanged. -/

open Sys2Proof Sys2Proof.Machine

/-! The queue (the block form). -/

/-- A step runs the command at the front of the queue on the state with the rest, and an empty queue idles. The queue is the block form (log 1). -/
def Obligations.StepRunsTheFront : Prop :=
  (∀ (c : Instr) (rest : List Instr) (s : State), step { s with pending := c :: rest } = exec c { s with pending := rest })
    ∧ ∀ s : State, s.pending = [] → step s = .next s

/-- No command stops the module: every step from every state answers a next state, so bad operands, refused accesses and traps all leave a state to go
on from. -/
def Obligations.EveryStepAnswers : Prop :=
  ∀ s : State, ∃ s', step s = .next s'

/-! Jarug words and integer instructions (R203-R215). -/

/-- Decoding the word of an instruction gives it back, with every operand at every value: no bit of an encoding is dropped. -/
def Obligations.JarugDecodesItsEncoding : Prop :=
  ∀ (i : Instr) (t : Nat) (u : Proc) (w : Nat), issueOf i = some (t, u) → encodeWord i = some w →
    w < 2 ^ 32 ∧ decodeJarug t u (BitVec.ofNat 32 w) = some i

/-- Every word that decodes is the encoding of what it decodes to, but for bit F of CMP and TST, which R209 ignores: two words never mean one
instruction, and a nonzero zero-field is refused. The words 0 and 0xFFFF_FFFF are illegal in both profiles, and a word of the other profile is illegal
(R207, R208). -/
def Obligations.JarugWords : Prop :=
  (∀ (t : Nat) (u : Proc) (w : Word) (i : Instr), decodeJarug t u w = some i →
    issueOf i = some (t, u) ∧
      (encodeWord i = some w.toNat ∨ ((∃ a b, i = .cmp t u a b ∨ i = .tst t u a b) ∧ w.toNat / 1024 % 2 = 1 ∧ encodeWord i = some (w.toNat - 1024))))
    ∧ (∀ (t : Nat) (u : Proc), decodeJarug t u 0 = none ∧ decodeJarug t u 0xFFFFFFFF = none
    ∧ ∀ w : Word, otherProfile (procIsLane u) w.toNat = true → decodeJarug t u w = none)

/-- ADD, SUB, ADDW and SUBW: the result, the flags where F is set, and one cycle. V is set exactly when the exact signed result does not fit. CMP and
CMPI: the flags of the difference, and no register written. -/
def Obligations.AddSubtractCompare : Prop :=
  (∀ (s : State) (t : Nat) (u : Proc) (d a b : GReg) (f : Bool), Runs s t u →
    let c0 := s.cpu u
    let x := c0.gr a
    let y := c0.gr b
    let xw := x.setWidth 32
    let yw := y.setWidth 32
    (∃ st, exec (.add t u d a b f) s = .next (s.after t u fun c => { c.wrote 1 d (x + y) with st := st })
        ∧ (f = false → st = c0.st)
        ∧ (f = true → FlagsAre st c0.st (x + y).msb (x + y == 0) (decide (2 ^ 64 ≤ x.toNat + y.toNat)) (decide ((x + y).toInt ≠ x.toInt + y.toInt))))
      ∧ (∃ st, exec (.sub t u d a b f) s = .next (s.after t u fun c => { c.wrote 1 d (x - y) with st := st })
        ∧ (f = false → st = c0.st)
        ∧ (f = true → FlagsAre st c0.st (x - y).msb (x == y) (decide (y.toNat ≤ x.toNat)) (decide ((x - y).toInt ≠ x.toInt - y.toInt))))
      ∧ (∃ st, exec (.addw t u d a b f) s = .next (s.after t u fun c => { c.wrote 1 d ((xw + yw).signExtend 64) with st := st })
        ∧ (f = false → st = c0.st)
        ∧ (f = true → FlagsAre st c0.st (xw + yw).msb (xw + yw == 0) (decide (2 ^ 32 ≤ xw.toNat + yw.toNat)) (decide ((xw + yw).toInt ≠ xw.toInt + yw.toInt))))
      ∧ (∃ st, exec (.subw t u d a b f) s = .next (s.after t u fun c => { c.wrote 1 d ((xw - yw).signExtend 64) with st := st })
        ∧ (f = false → st = c0.st)
        ∧ (f = true → FlagsAre st c0.st (xw - yw).msb (xw == yw) (decide (yw.toNat ≤ xw.toNat)) (decide ((xw - yw).toInt ≠ xw.toInt - yw.toInt)))))
    ∧ (∀ (s : State) (t : Nat) (u : Proc) (a b : GReg) (imm : BitVec 16), Runs s t u →
    let c0 := s.cpu u
    let x := c0.gr a
    let differs (i : Instr) (y : DWord) : Prop :=
      ∃ st, exec i s = .next (s.after t u fun c => { c with st := st, pc := c.pc + 4, cycles := c.cycles + 1 })
        ∧ FlagsAre st c0.st (x - y).msb (x == y) (decide (y.toNat ≤ x.toNat)) (decide ((x - y).toInt ≠ x.toInt - y.toInt))
    differs (.cmp t u a b) (c0.gr b) ∧ differs (.cmpi t u a imm) (BitVec.ofInt 64 imm.toInt))

/-- AND, OR, XOR and ANDN: the result bit by bit, and where F is set N and Z of it with C and V cleared; TST sets the same flags of A and B and writes
no register. The immediate forms: sign-extended by ADDI, SLTI and SLTIU, zero-extended by ANDI, ORI and XORI; LDI, LDU and ADR (R208, R212). -/
def Obligations.LogicAndImmediates : Prop :=
  (∀ (s : State) (t : Nat) (u : Proc) (d a b : GReg) (f : Bool), Runs s t u →
    let c0 := s.cpu u
    let x := c0.gr a
    let y := c0.gr b
    let logic (i : Instr) (bitOf : Bool → Bool → Bool) : Prop :=
      ∃ r st, exec i s = .next (s.after t u fun c => { c.wrote 1 d r with st := st })
        ∧ (∀ k < 64, r.getLsbD k = bitOf (x.getLsbD k) (y.getLsbD k))
        ∧ (f = false → st = c0.st) ∧ (f = true → FlagsAre st c0.st r.msb (r == 0) false false)
    logic (.and t u d a b f) (fun p q => p && q) ∧ logic (.or t u d a b f) (fun p q => p || q) ∧ logic (.xor t u d a b f) (fun p q => p != q)
      ∧ logic (.andn t u d a b f) (fun p q => p && !q)
      ∧ (∃ st, exec (.tst t u a b) s = .next (s.after t u fun c => { c with st := st, pc := c.pc + 4, cycles := c.cycles + 1 })
        ∧ FlagsAre st c0.st (x &&& y).msb (x &&& y == 0) false false))
    ∧ (∀ (s : State) (t : Nat) (u : Proc) (d a : GReg) (imm : BitVec 16) (far : BitVec 21), Runs s t u →
    let c0 := s.cpu u
    let x := c0.gr a
    let gives (i : Instr) (p : DWord → Prop) : Prop := ∃ r, exec i s = .next (s.after t u fun c => c.wrote 1 d r) ∧ p r
    gives (.addi t u d a imm) (fun r => r = BitVec.ofInt 64 (x.toInt + imm.toInt))
      ∧ gives (.andi t u d a imm) (fun r => ∀ k < 64, r.getLsbD k = (x.getLsbD k && imm.getLsbD k))
      ∧ gives (.ori t u d a imm) (fun r => ∀ k < 64, r.getLsbD k = (x.getLsbD k || imm.getLsbD k))
      ∧ gives (.xori t u d a imm) (fun r => ∀ k < 64, r.getLsbD k = (x.getLsbD k != imm.getLsbD k))
      ∧ gives (.slti t u d a imm) (fun r => r.toNat = if x.toInt < imm.toInt then 1 else 0)
      ∧ gives (.sltiu t u d a imm) (fun r => r.toNat = if x.toNat < (imm.toInt % 2 ^ 64).toNat then 1 else 0)
      ∧ gives (.ldi t u d far) (fun r => r.toInt = far.toInt) ∧ gives (.ldu t u d far) (fun r => r.toInt = far.toInt * 65536)
      ∧ gives (.adr t u d far) (fun r => r = BitVec.ofInt 64 (c0.pc.toInt + 4 * far.toInt)))

/-- The shifts and the rotation, by a register and by an immediate, as the numbers and bits that they move. SLT, SLTU, MIN, MAX, MINU and MAXU. The
extensions, CLZ and POPC. -/
def Obligations.ShiftsAndSelections : Prop :=
  (∀ (s : State) (t : Nat) (u : Proc) (d a b : GReg) (amt : Fin 64), Runs s t u →
    let x := (s.cpu u).gr a
    let k := ((s.cpu u).gr b).toNat % 64
    let gives (i : Instr) (p : DWord → Prop) : Prop := ∃ r, exec i s = .next (s.after t u fun c => c.wrote 1 d r) ∧ p r
    let left (n : Nat) (r : DWord) : Prop := r.toNat = x.toNat * 2 ^ n % 2 ^ 64
    let right (n : Nat) (r : DWord) : Prop := r.toNat = x.toNat / 2 ^ n
    let signed (n : Nat) (r : DWord) : Prop := r.toInt = x.toInt / 2 ^ n
    let turned (n : Nat) (r : DWord) : Prop := ∀ i < 64, r.getLsbD i = x.getLsbD ((i + n) % 64)
    gives (.sll t u d a b) (left k) ∧ gives (.srl t u d a b) (right k) ∧ gives (.sra t u d a b) (signed k) ∧ gives (.ror t u d a b) (turned k)
      ∧ gives (.shi t u d a 0 amt) (left amt) ∧ gives (.shi t u d a 1 amt) (right amt) ∧ gives (.shi t u d a 2 amt) (signed amt)
      ∧ gives (.shi t u d a 3 amt) (turned amt))
    ∧ (∀ (s : State) (t : Nat) (u : Proc) (d a b : GReg), Runs s t u →
    let x := (s.cpu u).gr a
    let y := (s.cpu u).gr b
    let gives (i : Instr) (p : DWord → Prop) : Prop := ∃ r, exec i s = .next (s.after t u fun c => c.wrote 1 d r) ∧ p r
    gives (.slt t u d a b) (fun r => r.toNat = if x.toInt < y.toInt then 1 else 0)
      ∧ gives (.sltu t u d a b) (fun r => r.toNat = if x.toNat < y.toNat then 1 else 0)
      ∧ gives (.min t u d a b) (fun r => r.toInt = min x.toInt y.toInt) ∧ gives (.max t u d a b) (fun r => r.toInt = max x.toInt y.toInt)
      ∧ gives (.minu t u d a b) (fun r => r.toNat = min x.toNat y.toNat) ∧ gives (.maxu t u d a b) (fun r => r.toNat = max x.toNat y.toNat))
    ∧ (∀ (s : State) (t : Nat) (u : Proc) (d a : GReg), Runs s t u →
    let x := (s.cpu u).gr a
    let gives (i : Instr) (p : DWord → Prop) : Prop := ∃ r, exec i s = .next (s.after t u fun c => c.wrote 1 d r) ∧ p r
    gives (.sextb t u d a) (fun r => r.toInt = (x.setWidth 8).toInt) ∧ gives (.sexth t u d a) (fun r => r.toInt = (x.setWidth 16).toInt)
      ∧ gives (.sextw t u d a) (fun r => r.toInt = (x.setWidth 32).toInt) ∧ gives (.zextw t u d a) (fun r => r.toNat = x.toNat % 2 ^ 32)
      ∧ gives (.clz t u d a) (fun r => r.toNat ≤ 64 ∧ x.toNat < 2 ^ (64 - r.toNat) ∧ (x = 0 → r = 64) ∧ (x ≠ 0 → 2 ^ (64 - r.toNat) ≤ 2 * x.toNat))
      ∧ gives (.popc t u d a) (fun r => r.toNat = ((List.range 64).map (fun i => (x.getLsbD i).toNat)).sum))

/-- The multiplications, of 2 cycles, and the divisions by a nonzero divisor, of 20, which truncate toward zero. A divisor of zero: on a lane the
results of R215 with V set and the other flags kept, and on an A-core outside a handler the divide by zero exception, in which no general register
changes. -/
def Obligations.MultiplyAndDivide : Prop :=
  (∀ (s : State) (t : Nat) (u : Proc) (d a b : GReg), Runs s t u →
    let x := (s.cpu u).gr a
    let y := (s.cpu u).gr b
    let gives (n : Nat) (i : Instr) (p : DWord → Prop) : Prop := ∃ r, exec i s = .next (s.after t u fun c => c.wrote n d r) ∧ p r
    gives 2 (.mul t u d a b) (fun r => r.toNat = x.toNat * y.toNat % 2 ^ 64) ∧ gives 2 (.mulh t u d a b) (fun r => r.toInt = x.toInt * y.toInt / 2 ^ 64)
      ∧ gives 2 (.mulhu t u d a b) (fun r => r.toNat = x.toNat * y.toNat / 2 ^ 64)
      ∧ gives 2 (.mulw t u d a b) (fun r => r.toInt = (BitVec.ofInt 32 ((x.setWidth 32).toInt * (y.setWidth 32).toInt)).toInt)
      ∧ (y ≠ 0 → gives 20 (.div t u d a b) (fun r => r = BitVec.ofInt 64 (x.toInt.tdiv y.toInt))
        ∧ gives 20 (.divu t u d a b) (fun r => r.toNat = x.toNat / y.toNat)
        ∧ gives 20 (.rem t u d a b) (fun r => r.toInt = x.toInt.tmod y.toInt)
        ∧ gives 20 (.remu t u d a b) (fun r => r.toNat = x.toNat % y.toNat)))
    ∧ ((∀ (s : State) (t : Nat) (l : LaneId) (d a b : GReg), Runs s t (.l l) → (s.cpu (.l l)).gr b = 0 →
      let x := (s.cpu (.l l)).gr a
      let gives (i : Instr) (v : Int) : Prop :=
        ∃ st, exec i s = .next (s.after t (.l l) fun c => { c.wrote 20 d (BitVec.ofInt 64 v) with st := st })
          ∧ st.getLsbD 0 = true ∧ ∀ k, 0 < k → st.getLsbD k = (s.cpu (.l l)).st.getLsbD k
      gives (.div t (.l l) d a b) (if 0 ≤ x.toInt then 2 ^ 63 - 1 else -2 ^ 63) ∧ gives (.divu t (.l l) d a b) (2 ^ 64 - 1)
        ∧ gives (.rem t (.l l) d a b) x.toInt ∧ gives (.remu t (.l l) d a b) x.toInt)
    ∧ ∀ (s : State) (t : Nat) (c : ACoreId) (d a b : GReg), Runs s t (.a c) → Free s (.a c) → (s.cpu (.a c)).gr b = 0 →
      ∀ i ∈ [Instr.div t (.a c) d a b, .divu t (.a c) d a b, .rem t (.a c) d a b, .remu t (.a c) d a b],
        ∃ s', exec i s = .next s' ∧ ∀ y, s.aCores[procIndex (.a c)]? = some y →
          (s'.cpu (.a c)).g = y.g ∧ (s'.cpu (.a c)).ecause = 7 ∧ (s'.cpu (.a c)).epc = y.pc
            ∧ (s'.cpu (.a c)).pc = (y.vbase &&& ~~~0x3FF) + 0x1C0)

/-! Branches, ports, loops and the Q group (R219-R223, R266-R269). -/

/-- BC, and BLC where it is not taken or may link: the target is counted from the branch, a taken branch costs 2 cycles and another 1, and on a lane
the return address is pushed (R211, R219, R244). JR and JLR to a word boundary, and RET from a return stack that holds an address. -/
def Obligations.BranchesAndJumps : Prop :=
  (∀ (s : State) (t : Nat) (u : Proc) (cond : Fin 16) (ofs : BitVec 22), Runs s t u →
    let st := (s.cpu u).st
    let S := st.getLsbD 4
    let N := st.getLsbD 3
    let Z := st.getLsbD 2
    let C := st.getLsbD 1
    let V := st.getLsbD 0
    let taken := [Z, !Z, C, !C, N, !N, V, !V, C && !Z, !C || Z, N == V, N != V, !Z && N == V, Z || N != V, true, S].getD cond false
    let target (c : Cpu) : DWord := BitVec.ofInt 64 (c.pc.toInt + 4 * ofs.toInt)
    exec (.bc t u cond ofs) s = .next (s.after t u fun c =>
        if taken then { c with pc := target c, cycles := c.cycles + 2 } else { c with pc := c.pc + 4, cycles := c.cycles + 1 })
      ∧ (taken = false → exec (.blc t u cond ofs) s = .next (s.after t u fun c => { c with pc := c.pc + 4, cycles := c.cycles + 1 }))
      ∧ (taken = true → procIsLane u = false → exec (.blc t u cond ofs) s =
          .next (s.after t u fun c => { c with g := c.g.set 31 (c.pc + 4), pc := target c, cycles := c.cycles + 2 }))
      ∧ (taken = true → procIsLane u = true → (s.cpu u).rstack.length < 8 → exec (.blc t u cond ofs) s =
          .next (s.after t u fun c =>
            { c with g := c.g.set 31 (c.pc + 4), rstack := BitVec.ofNat 16 (c.pc.toNat + 4) :: c.rstack, pc := target c, cycles := c.cycles + 2 })))
    ∧ ((∀ (s : State) (t : Nat) (c : ACoreId) (d a : GReg), Runs s t (.a c) → ((s.cpu (.a c)).gr a).toNat % 4 = 0 →
      exec (.jr t c a) s = .next (s.after t (.a c) fun x => { x with pc := (s.cpu (.a c)).gr a, cycles := x.cycles + 1 })
        ∧ exec (.jlr t c d a) s = .next (s.after t (.a c) fun x => { x with g := x.g.set d (x.pc + 4), pc := (s.cpu (.a c)).gr a, cycles := x.cycles + 1 }))
    ∧ ∀ (s : State) (t : Nat) (l : LaneId) (r : BitVec 16) (rest : List (BitVec 16)), Runs s t (.l l) → (s.cpu (.l l)).rstack = r :: rest →
      exec (.ret t l) s = .next (s.after t (.l l) fun x => { x with rstack := rest, pc := r.setWidth 64, cycles := x.cycles + 2 }))

/-- The exceptions of jumps: a target off a word boundary, a full and an empty return stack (R216, R220). The stack and the general registers stay. A
port that the table of R29 does not give the instruction raises the bus error exception, and nothing is staged (R30). A loop operation from a lane
that is not its owner, or on a disabled loop, raises the bus error exception with the loop number, sets OWNERR and leaves the descriptor as it was
(R266). -/
def Obligations.JumpPortAndLoopTraps : Prop :=
  ((∀ (s : State) (t : Nat) (c : ACoreId) (d a : GReg), Runs s t (.a c) → Free s (.a c) → Present s (.a c) →
      ((s.cpu (.a c)).gr a).toNat % 4 ≠ 0 → ∀ i ∈ [Instr.jr t c a, .jlr t c d a],
        ∃ s', exec i s = .next s' ∧ Entered s s' (.a c) 2 1 ((s.cpu (.a c)).gr a))
    ∧ (∀ (s : State) (t : Nat) (l : LaneId) (ofs : BitVec 22), Runs s t (.l l) → Free s (.l l) → Present s (.l l) →
      8 ≤ (s.cpu (.l l)).rstack.length →
        ∃ s', exec (.blc t (.l l) 14 ofs) s = .next s' ∧ Entered s s' (.l l) 1 3 (BitVec.ofNat 64 (0xA780 * 2 ^ 16 + ofs.toNat)))
    ∧ ∀ (s : State) (t : Nat) (l : LaneId), Runs s t (.l l) → Free s (.l l) → Present s (.l l) → (s.cpu (.l l)).rstack = [] →
        ∃ s', exec (.ret t l) s = .next s' ∧ Entered s s' (.l l) 1 4 0xAC000000)
    ∧ (∀ (s : State) (t : Nat) (l : LaneId) (r : GReg) (port : BitVec 16), Runs s t (.l l) → Free s (.l l) → Present s (.l l) →
    (sampPort port.toNat = false → ∃ s', exec (.samp t l r port) s = .next s' ∧ Entered s s' (.l l) 3 2 (port.setWidth 64) ∧ s'.lns = s.lns)
      ∧ (setpPort port.toNat = false → ∃ s', exec (.setp t l r port) s = .next s' ∧ Entered s s' (.l l) 3 2 (port.setWidth 64) ∧ s'.lns = s.lns)
      ∧ (setpPort port.toNat = true → sampPort port.toNat = true))
    ∧ (∀ (s : State) (t : Nat) (l : LaneId) (n : Fin 256) (r : GReg), Runs s t (.l l) → Free s (.l l) → Present s (.l l) →
    s.loopOwned l.half l.lane n = false →
      ∀ i ∈ [Instr.lset t l n r, .lmeas t l n r, .leval t l n r, .lman t l n r, .lauto t l n, .lbank t l n r],
        ∃ s', exec i s = .next s' ∧ Entered s s' (.l l) 3 0 (BitVec.ofNat 64 n) ∧ s'.flag (F.LPH_STAT_OWNERR l.half) = true
          ∧ s'.get (F.LPH_STAT_LAST l.half) = n ∧ ∀ k < 64, s'.word (R.LPD_CTL l.half n + 4 * k) = s.word (R.LPD_CTL l.half n + 4 * k))

/-- SAMP returns the value latched at the last release, sign-extended; SETP stages the low word, in place of the value that the pass has staged for
that port before; the ports are those of the table (R29, R223, R251, R252). LSET, LMEAS, LMAN and LBANK by the owner of an enabled loop, and LOUT,
LINT and LSTAT by any lane: what they write, and their cycles. BWT ends the pass: the lane waits, and PASS, LASTC and MAXC count it (R250). -/
def Obligations.PortsLoopsAndPasses : Prop :=
  (∀ (s : State) (t : Nat) (l : LaneId) (r : GReg) (port : BitVec 16), Runs s t (.l l) →
    let x := s.ln l.half l.lane
    let within (k a n : Nat) : Prop := a ≤ k ∧ k < a + n
    (∀ k, setpPort k = true ↔ within k 0 32 ∨ within k 0x100 8 ∨ within k 0x200 16 ∨ within k 0xA00 512 ∨ within k 0xE00 64)
      ∧ (∀ k, sampPort k = true ↔ setpPort k = true ∨ within k 0x40 32 ∨ within k 0x240 8 ∨ within k 0x400 8 ∨ within k 0x480 8 ∨ within k 0x500 32
        ∨ within k 0x600 24 ∨ within k 0x800 32 ∨ within k 0xC00 64)
      ∧ (sampPort port.toNat = true → ∀ v, (assoc port.toNat x.latched).getD (0, false) = (v, false) →
        exec (.samp t l r port) s = .next (s.after t (.l l) fun c => c.wrote 2 r ((BitVec.ofNat 32 v).signExtend 64)))
      ∧ (setpPort port.toNat = true → ∃ staged, exec (.setp t l r port) s =
          .next ((s.after t (.l l) fun c => { c with pc := c.pc + 4, cycles := c.cycles + 1 }).setLn l.half l.lane { x with staged := staged })
          ∧ assoc port.toNat staged = some (((s.cpu (.l l)).gr r).toNat % 2 ^ 32, false)
          ∧ ∀ q, q ≠ port.toNat → assoc q staged = assoc q x.staged))
    ∧ (∀ (s : State) (t : Nat) (l : LaneId) (n : Fin 256) (r : GReg), Runs s t (.l l) →
    let h := l.half
    let v := ((s.cpu (.l l)).gr r).toNat % 2 ^ 32
    let goes (k : Nat) (x : State) : Host.Outcome State Fault Refusal := .next (x.modCpu (.l l) fun c => { c with pc := c.pc + 4, cycles := c.cycles + k })
    let returns (i : Instr) (a : Nat) : Prop :=
      s.poisoned a 4 = false → exec i s = .next (s.after t (.l l) fun c => c.wrote 2 r ((s.reg a).signExtend 64))
    returns (.lout t l n r) (R.LPD_U h n) ∧ returns (.lint t l n r) (R.LPD_I h n) ∧ returns (.lstat t l n r) (R.LPD_STAT h n)
      ∧ (s.loopOwned h l.lane n = true → s.poisoned (R.LPD_CTL h n) 4 = false →
        exec (.lset t l n r) s = goes 2 (((s.atTime t).setWord (R.LPD_SP h n) v).cleanWord (R.LPD_SP h n))
          ∧ exec (.lmeas t l n r) s = goes 2 (((s.atTime t).setWord (R.LPD_X h n) v).cleanWord (R.LPD_X h n))
          ∧ (∃ x, exec (.lman t l n r) s = goes 3 x ∧ x.word (R.LPD_M h n) = v ∧ x.flag (F.LPD_CTL_MODE h n) = false
            ∧ x.word (R.LPD_U h n) = s.word (R.LPD_U h n) ∧ x.word (R.LPD_I h n) = s.word (R.LPD_I h n))
          ∧ (∃ x, exec (.lbank t l n r) s = goes 2 x ∧ x.flag (loopBit h n 3) = decide (v % 2 ≠ s.get (F.LPD_CTL_BANK h n))
            ∧ x.get (F.LPD_CTL_BANK h n) = s.get (F.LPD_CTL_BANK h n))))
    ∧ (∀ (s : State) (t : Nat) (l : LaneId), Runs s t (.l l) → Present s (.l l) →
    let used := ((s.cpu (.l l)).cycles + 1 - (s.ln l.half l.lane).relCycle) % 2 ^ 32
    ∃ s', exec (.bwt t l) s = .next s' ∧ s'.lnst l.half l.lane = lnWaiting ∧ (s'.cpu (.l l)).pc = (s.cpu (.l l)).pc + 4
      ∧ s'.word (R.LAN_PASS l.half l.lane) = (s.word (R.LAN_PASS l.half l.lane) + 1) % 2 ^ 32 ∧ s'.word (R.LAN_LASTC l.half l.lane) = used
      ∧ s'.word (R.LAN_MAXC l.half l.lane) = max (s.word (R.LAN_MAXC l.half l.lane)) used ∧ s'.mem = s.mem
      ∧ s'.executes (.l l) = false)

/-- LEVAL is one step of the law of R267, exact until each rounding and saturation. LAUTO on a loop in manual puts it in automatic with U at the
manual value within the bank's limits and I preset so that P + I + D equals it, within IMIN and IMAX; on a loop in automatic it does nothing (R269).
When ISAT follows a clamped transfer is the model's reading (log 55). -/
def Obligations.LoopLaws : Prop :=
  (∀ (s : State) (t : Nat) (l : LaneId) (n : Fin 256) (r : GReg), Runs s t (.l l) → Present s (.l l) → s.loopOwned l.half l.lane n = true →
    (∀ a ∈ s.evalReads l.half n, s.poisoned a 4 = false) →
      let h := l.half
      let k := s.get (F.LPD_CTL_BANK h n)
      let q (a : Nat) : Int := s.sword a
      let near (x : Int) (b : Nat) : Int := (x + 2 ^ (b - 1)) / 2 ^ b
      let sat (x : Int) : Int := min (max x (-2 ^ 31)) (2 ^ 31 - 1)
      let sp := if s.flag (F.LPD_CTL_CASC h n) then sat (near (q (R.LPD_CSCL h n) * q (R.LPD_U h (s.get (F.LPD_CTL_CSRC h n)))) 24 + q (R.LPD_COFS h n))
        else q (R.LPD_SP h n)
      let e := sat (sp - q (R.LPD_X h n))
      let xd := if s.flag (F.LPD_CTL_DSEL h n) then sat (q (R.LPD_X h n) - sp) else q (R.LPD_X h n)
      let xp := if s.flag (loopBit h n 4) then xd else q (R.LPD_XPREV h n)
      let p := sat (near (q (R.LPD_KP h n k) * e) 24)
      let dd := sat (near (q (R.LPD_KD h n k) * (xp - xd)) 24)
      let d := sat (near (q (R.LPD_ALPHA h n k) * q (R.LPD_D h n)) 31 + near ((2 ^ 31 - q (R.LPD_ALPHA h n k)) * dd) 31)
      let i := if s.flag (F.LPD_CTL_MODE h n) then
          min (max (sat (q (R.LPD_I h n) + near (q (R.LPD_KITS h n k) * e) 30)) (q (R.LPD_IMIN h n k))) (q (R.LPD_IMAX h n k))
        else q (R.LPD_I h n)
      let o := min (max (if s.flag (F.LPD_CTL_MODE h n) then p + i + d else q (R.LPD_M h n)) (q (R.LPD_UMIN h n k))) (q (R.LPD_UMAX h n k))
      ∃ s', exec (.leval t l n r) s = .next s' ∧ s'.sword (R.LPD_SP h n) = sp ∧ s'.sword (R.LPD_PLAST h n) = p ∧ s'.sword (R.LPD_D h n) = d
        ∧ s'.sword (R.LPD_I h n) = i ∧ s'.sword (R.LPD_XPREV h n) = xd ∧ s'.sword (R.LPD_U h n) = o ∧ s'.flag (loopBit h n 4) = false
        ∧ ((s'.cpu (.l l)).gr r).toInt = o ∧ (s'.cpu (.l l)).pc = (s.cpu (.l l)).pc + 4 ∧ (s'.cpu (.l l)).cycles = (s.cpu (.l l)).cycles + 16)
    ∧ (∀ (s : State) (t : Nat) (l : LaneId) (n : Fin 256), Runs s t (.l l) → s.loopOwned l.half l.lane n = true →
    (∀ a ∈ s.autoReads l.half n, s.poisoned a 4 = false) →
      let h := l.half
      let k := s.get (F.LPD_CTL_BANK h n)
      let q (a : Nat) : Int := s.sword a
      let m := min (max (q (R.LPD_M h n)) (q (R.LPD_UMIN h n k))) (q (R.LPD_UMAX h n k))
      (s.flag (F.LPD_CTL_MODE h n) = true → exec (.lauto t l n) s = .next (s.after t (.l l) fun c => { c with pc := c.pc + 4, cycles := c.cycles + 4 }))
        ∧ (s.flag (F.LPD_CTL_MODE h n) = false → ∃ s', exec (.lauto t l n) s = .next s' ∧ s'.flag (F.LPD_CTL_MODE h n) = true
          ∧ s'.sword (R.LPD_U h n) = m ∧ s'.flag (loopBit h n 4) = true
          ∧ s'.sword (R.LPD_I h n) = min (max (sat32 (m - s'.loopP h n k - q (R.LPD_D h n))) (q (R.LPD_IMIN h n k))) (q (R.LPD_IMAX h n k))))

/-- The saturating operations: the exact result clamped to 32 bits, S set exactly where the clamp changed it, N, Z, C and V unchanged. QSHR rounds a
tie toward +∞, and QCLIP clamps to the limits in B, an upper limit below the lower one prevailing; both leave st as it was. The accumulators: products
added and subtracted exactly and clamped to 72 bits, and the raw transfers. -/
def Obligations.QArithmetic : Prop :=
  (∀ (s : State) (t : Nat) (l : LaneId) (d a b : GReg) (k : Fin 8) (n : Fin 64), Runs s t (.l l) →
    let c0 := s.cpu (.l l)
    let x := ((c0.gr a).setWidth 32).toInt
    let y := ((c0.gr b).setWidth 32).toInt
    let near (v : Int) : Int := if n.val = 0 then v else (v + 2 ^ (n.val - 1)) / 2 ^ n.val
    let gives (cyc : Nat) (i : Instr) (v : Int) : Prop :=
      ∃ r st, exec i s = .next (s.after t (.l l) fun c => { c.wrote cyc d r with st := st }) ∧ r.toInt = min (max v (-2 ^ 31)) (2 ^ 31 - 1)
        ∧ st.getLsbD 4 = (c0.st.getLsbD 4 || decide (v < -2 ^ 31 ∨ 2 ^ 31 ≤ v)) ∧ ∀ j < 4, st.getLsbD j = c0.st.getLsbD j
    gives 1 (.qadd t l d a b) (x + y) ∧ gives 1 (.qsub t l d a b) (x - y) ∧ gives 2 (.qmul t l d a b n) (near (x * y)) ∧ gives 1 (.qneg t l d a) (-x)
      ∧ gives 1 (.qabs t l d a) (max x (-x)) ∧ gives 1 (.qshl t l d a n) (x * 2 ^ n.val) ∧ gives 2 (.accrd t l d k n) (near (c0.ac k).toInt))
    ∧ (∀ (s : State) (t : Nat) (l : LaneId) (d a b : GReg) (n : Fin 64), Runs s t (.l l) →
    let x := (((s.cpu (.l l)).gr a).setWidth 32).toInt
    let y := (s.cpu (.l l)).gr b
    let gives (i : Instr) (v : Int) : Prop := ∃ r, exec i s = .next (s.after t (.l l) fun c => c.wrote 1 d r) ∧ r.toInt = v
    gives (.qshr t l d a n) ((2 * x + 2 ^ n.val) / 2 ^ (n.val + 1))
      ∧ gives (.qclip t l d a b) (min (max x (y.setWidth 32).toInt) ((y >>> 32).setWidth 32).toInt))
    ∧ (∀ (s : State) (t : Nat) (l : LaneId) (d a b : GReg) (k : Fin 8) (n : Fin 64), Runs s t (.l l) →
    let c0 := s.cpu (.l l)
    let x := ((c0.gr a).setWidth 32).toInt
    let y := ((c0.gr b).setWidth 32).toInt
    let z := (c0.ac k).toInt
    let sets (cyc : Nat) (i : Instr) (v : Int) : Prop :=
      ∃ r st, exec i s = .next (s.after t (.l l) fun c => { c with acc := c.acc.set k r, st := st, pc := c.pc + 4, cycles := c.cycles + cyc })
        ∧ r.toInt = min (max v (-2 ^ 71)) (2 ^ 71 - 1)
        ∧ st.getLsbD 4 = (c0.st.getLsbD 4 || decide (v < -2 ^ 71 ∨ 2 ^ 71 ≤ v)) ∧ ∀ j < 4, st.getLsbD j = c0.st.getLsbD j
    sets 2 (.macz t l k a b) (x * y) ∧ sets 2 (.mac t l k a b) (z + x * y) ∧ sets 2 (.msu t l k a b) (z - x * y)
      ∧ sets 1 (.accset t l k a n) ((c0.gr a).toInt * 2 ^ n.val)
      ∧ exec (.accget t l d k false) s = .next (s.after t (.l l) fun c => c.wrote 1 d (BitVec.ofInt 64 z))
      ∧ exec (.accget t l d k true) s = .next (s.after t (.l l) fun c => c.wrote 1 d (BitVec.ofInt 64 (z / 2 ^ 64)))
      ∧ (∃ r, exec (.accput t l k a false) s =
          .next (s.after t (.l l) fun c => { c with acc := c.acc.set k r, pc := c.pc + 4, cycles := c.cycles + 1 })
          ∧ r.toNat = (c0.ac k).toNat / 2 ^ 64 * 2 ^ 64 + (c0.gr a).toNat)
      ∧ (∃ r, exec (.accput t l k a true) s =
          .next (s.after t (.l l) fun c => { c with acc := c.acc.set k r, pc := c.pc + 4, cycles := c.cycles + 1 })
          ∧ r.toNat = (c0.gr a).toNat % 2 ^ 8 * 2 ^ 64 + (c0.ac k).toNat % 2 ^ 64))

/-! Memory of the units, floating point (R216-R232). -/

/-- A lane's loads of aligned clean bytes of its data TCM, outside a boundary block that a boundary has overtaken: the bytes little-endian, sign- or
zero-extended, in 2 cycles. An overtaken word of the boundary block is open (log 54). A lane's stores to aligned bytes of its data TCM, and of the
armed migration's mirror: the bytes stored, and every other byte of memory as it was. -/
def Obligations.LaneMemory : Prop :=
  (∀ (s : State) (t : Nat) (l : LaneId) (d base : GReg) (ofs : BitVec 16), Runs s t (.l l) →
    let ea := ((s.cpu (.l l)).gr base + BitVec.ofInt 64 ofs.toInt).toNat
    let reads (n : Nat) (i : Instr) (p : DWord → Nat → Prop) : Prop :=
      ea % n = 0 → ea < 2 ^ 16 → s.poisoned (dataTcm l.half l.lane + ea) n = false → (ea < 0xFF00 ∨ (s.ln l.half l.lane).prev = []) →
        ∃ r, exec i s = .next (s.after t (.l l) fun c => c.wrote 2 d r)
          ∧ p r (((List.range n).map (fun k => (s.byte (dataTcm l.half l.lane + ea + k)).toNat * 256 ^ k)).sum)
    reads 1 (.ldb t (.l l) d base ofs) (fun r v => r.toInt = (BitVec.ofNat 8 v).toInt) ∧ reads 1 (.ldbu t (.l l) d base ofs) (fun r v => r.toNat = v)
      ∧ reads 2 (.ldh t (.l l) d base ofs) (fun r v => r.toInt = (BitVec.ofNat 16 v).toInt) ∧ reads 2 (.ldhu t (.l l) d base ofs) (fun r v => r.toNat = v)
      ∧ reads 4 (.ldw t (.l l) d base ofs) (fun r v => r.toInt = (BitVec.ofNat 32 v).toInt) ∧ reads 4 (.ldwu t (.l l) d base ofs) (fun r v => r.toNat = v)
      ∧ reads 8 (.ldd t (.l l) d base ofs) (fun r v => r.toNat = v))
    ∧ (∀ (s : State) (t : Nat) (l : LaneId) (d base : GReg) (ofs : BitVec 16), Runs s t (.l l) →
    let ea := ((s.cpu (.l l)).gr base + BitVec.ofInt 64 ofs.toInt).toNat
    let v := ((s.cpu (.l l)).gr d).toNat
    let mirror : List Nat := match (s.ce l.half).mig with
      | some (src, dst) => if src = l.lane then [dataTcm l.half dst + ea] else []
      | none => []
    let stores (n : Nat) (i : Instr) : Prop :=
      ea % n = 0 → ea < 2 ^ 16 → ∃ s', exec i s = .next s'
        ∧ (∀ b ∈ (dataTcm l.half l.lane + ea) :: mirror, ∀ k < n, s'.byte (b + k) = BitVec.ofNat 8 (v / 256 ^ k) ∧ s'.poisoned (b + k) 1 = false)
        ∧ (∀ a, (∀ b ∈ (dataTcm l.half l.lane + ea) :: mirror, a < b ∨ b + n ≤ a) → s'.byte a = s.byte a)
        ∧ s'.lanes = s.lanes.modify (procIndex (.l l)) (fun c => { c with pc := c.pc + 4, cycles := c.cycles + 1 }) ∧ s'.regs = s.regs
    stores 1 (.stb t (.l l) d base ofs) ∧ stores 2 (.sth t (.l l) d base ofs) ∧ stores 4 (.stw t (.l l) d base ofs) ∧ stores 8 (.std t (.l l) d base ofs))

/-- An A-core's loads of aligned clean bytes of powered DRAM or MRAM, with no injected error waiting. An A-core's stores to aligned bytes of powered
DRAM: the bytes stored, every other byte as it was, the reservations of the other cores on the granule ended and the core's own kept (R228). An
A-core's store beyond the 48-bit space retires, and the bus error waits to arrive with SUB 1 (R217, R236); no memory changes. -/
def Obligations.CoreMemory : Prop :=
  (∀ (s : State) (t : Nat) (c : ACoreId) (d base : GReg) (ofs : BitVec 16), Runs s t (.a c) → s.armed false = false →
    let ea := ((s.cpu (.a c)).gr base + BitVec.ofInt 64 ofs.toInt).toNat
    let meets (n : Nat) (i : Instr) (f : Nat → Cpu → Cpu) : Prop :=
      ea % n = 0 → ea + n ≤ 0x302000000 → (s.atTime t).accessError (ea / 4 * 4) = none → (n = 8 → (s.atTime t).accessError (ea + 4) = none) →
        s.poisoned ea n = false →
        exec i s = .next (s.after t (.a c) (f (((List.range n).map (fun k => (s.byte (ea + k)).toNat * 256 ^ k)).sum)))
    meets 1 (.ldb t (.a c) d base ofs) (fun v x => x.wrote 2 d ((BitVec.ofNat 8 v).signExtend 64))
      ∧ meets 1 (.ldbu t (.a c) d base ofs) (fun v x => x.wrote 2 d (BitVec.ofNat 64 v))
      ∧ meets 2 (.ldh t (.a c) d base ofs) (fun v x => x.wrote 2 d ((BitVec.ofNat 16 v).signExtend 64))
      ∧ meets 2 (.ldhu t (.a c) d base ofs) (fun v x => x.wrote 2 d (BitVec.ofNat 64 v))
      ∧ meets 4 (.ldw t (.a c) d base ofs) (fun v x => x.wrote 2 d ((BitVec.ofNat 32 v).signExtend 64))
      ∧ meets 4 (.ldwu t (.a c) d base ofs) (fun v x => x.wrote 2 d (BitVec.ofNat 64 v))
      ∧ meets 8 (.ldd t (.a c) d base ofs) (fun v x => x.wrote 2 d (BitVec.ofNat 64 v))
      ∧ meets 4 (.fldw t c d base ofs) (fun v x => x.wroteF 2 d (BitVec.ofNat 64 (0xFFFFFFFF00000000 + v)) 0)
      ∧ meets 8 (.fldd t c d base ofs) (fun v x => x.wroteF 2 d (BitVec.ofNat 64 v) 0))
    ∧ (∀ (s : State) (t : Nat) (c : ACoreId) (d base : GReg) (ofs : BitVec 16), Runs s t (.a c) → s.armed true = false →
    let ea := ((s.cpu (.a c)).gr base + BitVec.ofInt 64 ofs.toInt).toNat
    let stores (n : Nat) (i : Instr) (v : Nat) : Prop :=
      ea % n = 0 → ea + n ≤ 3 * 2 ^ 32 → (s.atTime t).accessError ea = none →
        ∃ s', exec i s = .next s' ∧ (∀ k < n, s'.byte (ea + k) = BitVec.ofNat 8 (v / 256 ^ k)) ∧ (∀ a, a < ea ∨ ea + n ≤ a → s'.byte a = s.byte a)
          ∧ s'.regs = s.regs ∧ s'.lanes = s.lanes
          ∧ ∀ j x, s.aCores[j]? = some x → s'.aCores[j]? = some
            (if j = procIndex (.a c) then { x with pc := x.pc + 4, cycles := x.cycles + 1 }
             else if x.resv = some (ea / 64) then { x with resv := none } else x)
    stores 1 (.stb t (.a c) d base ofs) ((s.cpu (.a c)).gr d).toNat ∧ stores 2 (.sth t (.a c) d base ofs) ((s.cpu (.a c)).gr d).toNat
      ∧ stores 4 (.stw t (.a c) d base ofs) ((s.cpu (.a c)).gr d).toNat ∧ stores 8 (.std t (.a c) d base ofs) ((s.cpu (.a c)).gr d).toNat
      ∧ stores 4 (.fstw t c d base ofs) ((s.cpu (.a c)).fr d).toNat ∧ stores 8 (.fstd t c d base ofs) ((s.cpu (.a c)).fr d).toNat)
    ∧ (∀ (s : State) (t : Nat) (c : ACoreId) (d base : GReg) (ofs : BitVec 16), Runs s t (.a c) →
    let ea := ((s.cpu (.a c)).gr base + BitVec.ofInt 64 ofs.toInt).toNat
    2 ^ 48 ≤ ea → ∀ p ∈ [(1, Instr.stb t (.a c) d base ofs), (2, .sth t (.a c) d base ofs), (4, .stw t (.a c) d base ofs),
        (8, .std t (.a c) d base ofs), (4, .fstw t c d base ofs), (8, .fstd t c d base ofs)], ea % p.1 = 0 →
      exec p.2 s = .next (s.after t (.a c) fun x => { x with pc := x.pc + 4, cycles := x.cycles + 1, busErr := x.busErr ++ [(1, ea)] }))

/-- A load or store whose address is no multiple of its size raises the misaligned access exception and touches no memory, before any bus error or
poison (R216, R237). LR, AFADD and ASWAP on clean powered DRAM return the old value, a word sign-extended, and store the sum or B; LR reserves the
granule. SC stores and gives 0 where the core's reservation covers the address, and otherwise stores nothing and gives 1; either way the reservation
has ended. An ATOM access outside the three DRAM ranges raises the bus error exception with SUB 3 and touches no memory (R227). -/
def Obligations.AtomicsAndAlignment : Prop :=
  (∀ (s : State) (t : Nat) (u : Proc) (d base : GReg) (ofs : BitVec 16), Runs s t u → Free s u → Present s u →
    let ea := (s.cpu u).gr base + BitVec.ofInt 64 ofs.toInt
    let traps (n : Nat) (i : Instr) : Prop := ea.toNat % n ≠ 0 → ∃ s', exec i s = .next s' ∧ Entered s s' u 2 0 ea ∧ s'.mem = s.mem ∧ s'.poison = s.poison
    traps 2 (.ldh t u d base ofs) ∧ traps 2 (.ldhu t u d base ofs) ∧ traps 4 (.ldw t u d base ofs) ∧ traps 4 (.ldwu t u d base ofs)
      ∧ traps 8 (.ldd t u d base ofs) ∧ traps 2 (.sth t u d base ofs) ∧ traps 4 (.stw t u d base ofs) ∧ traps 8 (.std t u d base ofs))
    ∧ (∀ (s : State) (t : Nat) (c : ACoreId) (d a b : GReg) (w : Bool), Runs s t (.a c) → s.armed false = false → s.armed true = false →
    let x := ((s.cpu (.a c)).gr a).toNat
    let n := if w then 4 else 8
    x % n = 0 → x < 3 * 2 ^ 32 → (s.atTime t).accessError x = none → (n = 8 → (s.atTime t).accessError (x + 4) = none) → s.poisoned x n = false →
      let old := ((List.range n).map (fun k => (s.byte (x + k)).toNat * 256 ^ k)).sum
      let got : DWord := if w then (BitVec.ofNat 32 old).signExtend 64 else BitVec.ofNat 64 old
      let y := ((s.cpu (.a c)).gr b).toNat
      let swaps (i : Instr) (v : Nat) : Prop := ∃ s', exec i s = .next s' ∧ (∀ k < n, s'.byte (x + k) = BitVec.ofNat 8 (v / 256 ^ k))
        ∧ (∀ p, p < x ∨ x + n ≤ p → s'.byte p = s.byte p) ∧ s'.regs = s.regs
        ∧ ∀ j z, s.aCores[j]? = some z → s'.aCores[j]? = some
          (if j = procIndex (.a c) then z.wrote 1 d got else if z.resv = some (x / 64) then { z with resv := none } else z)
      exec (.lr t c d a w) s = .next (s.after t (.a c) fun z => { z.wrote 1 d got with resv := some (x / 64) })
        ∧ swaps (.afadd t c d a b w) (old + y) ∧ swaps (.aswap t c d a b w) y)
    ∧ (∀ (s : State) (t : Nat) (c : ACoreId) (d a b : GReg) (w : Bool), Runs s t (.a c) → s.armed true = false → Present s (.a c) →
    let x := ((s.cpu (.a c)).gr a).toNat
    let n := if w then 4 else 8
    x % n = 0 → x < 3 * 2 ^ 32 → (s.atTime t).accessError x = none →
      ((s.cpu (.a c)).resv ≠ some (x / 64) → exec (.sc t c d a b w) s = .next (s.after t (.a c) fun z => { z.wrote 1 d 1 with resv := none }))
        ∧ ((s.cpu (.a c)).resv = some (x / 64) → ∃ s', exec (.sc t c d a b w) s = .next s'
          ∧ (∀ k < n, s'.byte (x + k) = BitVec.ofNat 8 (((s.cpu (.a c)).gr b).toNat / 256 ^ k)) ∧ (∀ p, p < x ∨ x + n ≤ p → s'.byte p = s.byte p)
          ∧ (s'.cpu (.a c)).gr d = 0 ∧ (s'.cpu (.a c)).resv = none ∧ (s'.cpu (.a c)).pc = (s.cpu (.a c)).pc + 4))
    ∧ (∀ (s : State) (t : Nat) (c : ACoreId) (d a b : GReg) (w : Bool), Runs s t (.a c) → Free s (.a c) → Present s (.a c) →
    ((s.cpu (.a c)).gr a).toNat % (if w then 4 else 8) = 0 → 3 * 2 ^ 32 ≤ ((s.cpu (.a c)).gr a).toNat →
      ∀ i ∈ [Instr.lr t c d a w, .sc t c d a b w, .afadd t c d a b w, .aswap t c d a b w],
        ∃ s', exec i s = .next s' ∧ Entered s s' (.a c) 3 3 ((s.cpu (.a c)).gr a) ∧ s'.mem = s.mem)

/-- The fences, NOP and ISYNC only go on to the next word: the model runs every access in the order of the commands. That a fence only goes on is the
model's reading for one sequence of commands (log 50). WFI waits unless an unmasked interrupt is pending, and a waiting core goes on when one is,
whatever EN (R233). TIME reaching CMPTIME sets IPEND bit 4 once after each write of CMPTIME (R234). In which cores IPEND is set is the model's reading
(log 49). -/
def Obligations.FencesAndWaiting : Prop :=
  ((∀ (s : State) (t : Nat) (c : ACoreId), Runs s t (.a c) → ∀ i ∈ [Instr.fence t c, .facq t c, .frel t c, .isync t c],
      exec i s = .next (s.after t (.a c) fun x => { x with pc := x.pc + 4, cycles := x.cycles + 1 }))
    ∧ ∀ (s : State) (t : Nat) (u : Proc), Runs s t u → exec (.nop t u) s = .next (s.after t u fun x => { x with pc := x.pc + 4, cycles := x.cycles + 1 }))
    ∧ ((∀ (s : State) (t : Nat) (c : ACoreId), Runs s t (.a c) → exec (.wfi t c) s = .next (s.after t (.a c) fun x =>
      { x with waiting := x.ipend &&& x.imask == 0, pc := x.pc + 4, cycles := x.cycles + 1 }))
    ∧ ∀ (s : State) (t : Nat) (c : ACoreId), (s.cpu (.a c)).waiting = true → (s.cpu (.a c)).ipend &&& (s.cpu (.a c)).imask ≠ 0 →
      exec (.wfiWake t c) s = .next (s.after t (.a c) fun x => { x with waiting := false }))
    ∧ (∀ (s : State) (t : Nat) (c : ACoreId), (s.atTime t).halfPowered c.half = true → (s.cpu (.a c)).started = true → s.start.isSome = true →
    ((s.cpu (.a c)).cmpArmed = true → (s.cpu (.a c)).cmptime.toNat ≤ (s.atTime t).now →
        exec (.cmptimeMatch t c) s = .next (s.after t (.a c) fun x => { x with ipend := x.ipend ||| 16, cmpArmed := false }))
      ∧ ((s.cpu (.a c)).cmpArmed = false → exec (.cmptimeMatch t c) s = .next (s.atTime t)))

/-- The arithmetic of the FP group, in 1 cycle and with nothing else changed but the flags raised in FCSR: the result is boxed in fd. For finite
operands FADD, FSUB, FMUL, FMA, FCVTF and FCVTP give the exact value rounded once under FCSR:RM; FDIV and FSQRT give one that a directed rounding
keeps on its side and that is exact where no flag is raised; FMIN and FMAX give the operand that is less or greater, and the number where the other
operand is a NaN. The results for infinities, zeros and NaNs are those of the format's operations named here; what the IEEE standard leaves open in
them is a constant of Config (log 66). FNEG and FABS act on the sign alone, and give the canonical NaN for a NaN; FMVGF and FMVFG move bit patterns;
FCVTI rounds under FCSR:RM and saturates with NV, and gives 0 with NV for a NaN; FCMP sets N, Z, C and V for below, equal, above and unordered. The NV
of a compare of quiet NaNs and the NX of an inexact FCVTI are constants of Config (log 66). -/
def Obligations.FloatResults : Prop :=
  (∀ (s : State) (t : Nat) (c : ACoreId) (d a b : GReg) (p : Bool), Runs s t (.a c) →
    let c0 := s.cpu (.a c)
    let f := fmtOf p
    let rm := c0.rm
    let x := c0.fval p a
    let y := c0.fval p b
    let z := c0.fval p d
    let w := c0.fval (!p) a
    let gives (i : Instr) (r : FRes) (q : FRes → Prop) : Prop := exec i s = .next (s.after t (.a c) fun k => k.wroteF 1 d (fbox p r.1) r.2) ∧ q r
    let both (q : FRes → Prop) (r : FRes) : Prop := x.isFinite = true → y.isFinite = true → q r
    gives (.fadd t c d a b p) (f.add rm x y) (both fun r => RoundedOnce f rm (x.value + y.value) r)
      ∧ gives (.fsub t c d a b p) (f.add rm x y.negate) (both fun r => RoundedOnce f rm (x.value - y.value) r)
      ∧ gives (.fmul t c d a b p) (f.mul rm x y) (both fun r => RoundedOnce f rm (x.value * y.value) r)
      ∧ gives (.fdiv t c d a b p) (f.div rm x y) (both fun r => (f.unpack r.1).isFinite = true → y.value ≠ 0 →
          DirectedFrom rm (x.value / y.value) (f.unpack r.1).value r.2)
      ∧ gives (.fsqrt t c d a p) (f.sqrt rm x) (fun r => x.isFinite = true → 0 ≤ x.value →
          let v := (f.unpack r.1).value
          0 ≤ v ∧ DirectedFrom rm x.value (v * v) r.2)
      ∧ gives (.fma t c d a b p) (f.fma rm z x y) (both fun r => z.isFinite = true → RoundedOnce f rm (z.value + x.value * y.value) r)
      ∧ gives (.fmin t c d a b p) (f.pick false (fpattern p (c0.fr a)) (fpattern p (c0.fr b))) (fun r =>
          (both (fun r => (f.unpack r.1).value = min x.value y.value) r) ∧ (x.isNan = false → y.isNan = true → r.1 = fpattern p (c0.fr a))
            ∧ (x.isNan = true → y.isNan = false → r.1 = fpattern p (c0.fr b)))
      ∧ gives (.fmax t c d a b p) (f.pick true (fpattern p (c0.fr a)) (fpattern p (c0.fr b))) (fun r =>
          (both (fun r => (f.unpack r.1).value = max x.value y.value) r) ∧ (x.isNan = false → y.isNan = true → r.1 = fpattern p (c0.fr a))
            ∧ (x.isNan = true → y.isNan = false → r.1 = fpattern p (c0.fr b)))
      ∧ gives (.fcvtp t c d a p) (f.convert rm w) (fun r => w.isFinite = true → RoundedOnce f rm w.value r)
      ∧ gives (.fcvtf t c d a p) (f.roundInt rm (c0.gr a).toInt 0 false) (fun r => RoundedOnce f rm ((c0.gr a).toInt : Rat) r))
    ∧ (∀ (s : State) (t : Nat) (c : ACoreId) (d a b : GReg) (p : Bool), Runs s t (.a c) →
    let c0 := s.cpu (.a c)
    let rm := c0.rm
    let x := c0.fval p a
    let y := c0.fval p b
    let top := if p then 2 ^ 63 else 2 ^ 31
    let n := fpattern p (c0.fr a)
    exec (.fmvgf t c d a p) s = .next (s.after t (.a c) fun z => z.wroteF 1 d (if p then c0.gr a else BitVec.ofNat 64 (0xFFFFFFFF00000000 + (c0.gr a).toNat % 2 ^ 32)) 0)
      ∧ exec (.fmvfg t c d a p) s = .next (s.after t (.a c) fun z => z.wrote 1 d (if p then c0.fr a else (BitVec.ofNat 32 (c0.fr a).toNat).signExtend 64))
      ∧ (x.isNan = false → exec (.fabs t c d a p) s = .next (s.after t (.a c) fun z => z.wroteF 1 d (fbox p (n % top)) 0)
        ∧ exec (.fneg t c d a p) s = .next (s.after t (.a c) fun z => z.wroteF 1 d (fbox p (if n < top then n + top else n - top)) 0))
      ∧ (x.isNan = true → exec (.fabs t c d a p) s = .next (s.after t (.a c) fun z => z.wroteF 1 d (fbox p (fmtOf p).nanBits) 0)
        ∧ exec (.fneg t c d a p) s = .next (s.after t (.a c) fun z => z.wroteF 1 d (fbox p (fmtOf p).nanBits) 0))
      ∧ (∃ st fl, exec (.fcmp t c a b p) s =
          .next (s.after t (.a c) fun z => { z with st := st, fcsr := z.fcsr ||| BitVec.ofNat 64 fl, pc := z.pc + 4, cycles := z.cycles + 1 })
          ∧ FlagsAre st c0.st (x.lt y) (!(x.isNan || y.isNan) && !x.lt y && !y.lt x) (y.lt x) (x.isNan || y.isNan)
          ∧ (x.isFinite = true → y.isFinite = true → (x.lt y = true ↔ x.value < y.value) ∧ (y.lt x = true ↔ y.value < x.value))
          ∧ (x = .inf false → y.isFinite = true → x.lt y = false ∧ y.lt x = true) ∧ (x = .inf true → y.isFinite = true → x.lt y = true ∧ y.lt x = false)
          ∧ (fl = 0 ∨ fl = 16) ∧ (x.isSnan = true ∨ y.isSnan = true → fl = 16) ∧ (x.isNan = false → y.isNan = false → fl = 0))
      ∧ (∃ v fl, exec (.fcvti t c d a p) s =
          .next (s.after t (.a c) fun z => { z.wrote 1 d v with fcsr := z.fcsr ||| BitVec.ofNat 64 fl })
          ∧ (x.isNan = true → v = 0 ∧ fl = 16)
          ∧ (∀ neg, x = .inf neg → v.toInt = (if neg then -2 ^ 63 else 2 ^ 63 - 1) ∧ fl = 16)
          ∧ (x.isFinite = true → ∃ k : Int,
            (rm = 0 → -1 ≤ 2 * (x.value - k) ∧ 2 * (x.value - k) ≤ 1
                ∧ (2 * (x.value - k) = 1 ∨ 2 * (x.value - k) = -1 → k % 2 = 0))
              ∧ (rm = 1 → k = if x.value < 0 then x.value.ceil else x.value.floor) ∧ (rm = 2 → k = x.value.ceil) ∧ (rm = 3 → k = x.value.floor)
              ∧ v.toInt = min (max k (-2 ^ 63)) (2 ^ 63 - 1) ∧ (k < -2 ^ 63 ∨ 2 ^ 63 ≤ k → fl = 16)
              ∧ (-2 ^ 63 ≤ k → k < 2 ^ 63 → fl = 0 ∨ (fl = 256 ∧ x.value ≠ k)))))

/-- Rounding: a finite result under nearest-even has no representable value nearer to the exact one, and of two that are as near the even one; toward
zero never enlarges, toward +∞ never lowers and toward −∞ never raises the exact value; a result that raises no NX is exact. An overflow gives
infinity or the largest finite number as the direction says, and raises OF and NX. -/
def Obligations.RoundingDirections : Prop :=
  ∀ (p neg : Bool) (m : Nat) (e : Int) (rm : Nat), 0 < m → rm < 4 →
    let r := (fmtOf p).round rm neg m e
    let x : Rat := ratOf neg m e
    let v := (fmtOf p).unpack r.1
    let off (a : Rat) : Rat := (x - a) * (x - a)
    let top : Int := (fmtOf p).qmin + (2 ^ (fmtOf p).eb - 3 : Nat)
    let largest := ratOf false (2 ^ ((fmtOf p).mb + 1) - 1) top
    let size := ratOf false m e
    ((∀ n, v ≠ .inf n) →
      v.isNan = false ∧ (rm = 1 → (x ≤ v.value ∧ v.value ≤ 0) ∨ (0 ≤ v.value ∧ v.value ≤ x)) ∧ (rm = 2 → x ≤ v.value) ∧ (rm = 3 → v.value ≤ x)
        ∧ (r.2 = 0 → v.value = x)
        ∧ (rm = 0 → ∀ w, w < 2 ^ (1 + (fmtOf p).eb + (fmtOf p).mb) → ((fmtOf p).unpack w).isFinite = true →
          off v.value ≤ off ((fmtOf p).unpack w).value
            ∧ (off v.value = off ((fmtOf p).unpack w).value → ((fmtOf p).unpack w).value ≠ v.value → r.1 % 2 = 0))
        ∧ (largest < size → v.value = if neg then -largest else largest))
      ∧ (∀ n, v = .inf n → n = neg ∧ r.2 = fOF + fNX)
      ∧ (ratOf false (2 ^ ((fmtOf p).mb + 1)) top ≤ size → r.2 = fOF + fNX)
      ∧ (rm = 0 → (v = .inf neg ↔ ratOf false (2 ^ ((fmtOf p).mb + 2) - 1) (top - 1) ≤ size))
      ∧ (rm = 1 → v ≠ .inf neg) ∧ (rm = 2 → (v = .inf neg ↔ neg = false ∧ largest < size)) ∧ (rm = 3 → (v = .inf neg ↔ neg = true ∧ largest < size))

/-- Every NaN that an FP operation produces is the canonical quiet NaN of its precision, whatever the operands (R226). -/
def Obligations.NansAreCanonical : Prop :=
  ∀ (p : Bool) (rm : Nat) (x y z : FVal) (a b : Nat), rm < 4 →
    let f := fmtOf p
    ∀ r ∈ [f.add rm x y, f.mul rm x y, f.div rm x y, f.sqrt rm x, f.fma rm z x y, f.convert rm x, f.pick false a b, f.pick true a b],
      (f.unpack r.1).isNan = true → (∀ v ∈ [x, y, z], ∀ n m e, v = .fin n m e → 0 < m) → a < 2 ^ (1 + f.eb + f.mb) → b < 2 ^ (1 + f.eb + f.mb) → r.1 = f.nanBits

/-! Control registers and exceptions (R233-R243). -/

/-- MFC reads every control register of the unit's profile; TIME lies within 4 ns of module time, and RSDEPTH is the depth of the return stack. The
write-only SWI reads zero. -/
def Obligations.ControlRegisterReads : Prop :=
  ∀ (s : State) (t : Nat) (u : Proc) (d : GReg) (n : BitVec 16), Runs s t u →
    let c0 := s.cpu u
    let reads (v : DWord) : Prop := exec (.mfc t u d n) s = .next (s.after t u fun c => c.wrote 2 d v)
    let lane := procIsLane u
    (n = 0 → reads c0.vbase) ∧ (n = 1 → reads c0.epc) ∧ (n = 2 → reads c0.ecause) ∧ (n = 3 → reads c0.eaddr) ∧ (n = 4 → reads c0.estat)
      ∧ (n = 5 → reads (BitVec.ofNat 64 c0.st.toNat)) ∧ (n = 6 → reads (BitVec.ofNat 64 c0.ien.toNat)) ∧ (n = 7 → reads c0.scr0)
      ∧ (n = 8 → reads c0.scr1) ∧ (n = 9 → lane = true → reads (BitVec.ofNat 64 c0.cycles))
      ∧ (n = 9 → lane = false → ∃ s', exec (.mfc t u d n) s = .next s' ∧ (s'.cpu u).pc = if procIndex u < s.aCores.length then c0.pc + 4 else c0.pc)
      ∧ (n = 10 → ∃ v : Nat, (s.atTime t).now ≤ v + 4 ∧ v ≤ (s.atTime t).now + 4
        ∧ ∃ s', exec (.mfc t u d n) s = .next s' ∧ s' = { s.after t u (fun c => c.wrote 2 d (BitVec.ofNat 64 v)) with freeCtr := s.freeCtr + 1 })
      ∧ (n = 11 → reads (BitVec.ofNat 64 (match u with
        | .a c => (c.half + 1) * 2 ^ 28 + c.core * 2 ^ 16 + 0xFFFF
        | .l l => (l.half + 1) * 2 ^ 28 + 2 ^ 24 + (l.lane + 2) * 2 ^ 16 + 0xFFFF)))
      ∧ (lane = false → (n = 12 → reads c0.fcsr) ∧ (n = 13 → reads c0.ipend) ∧ (n = 14 → reads c0.imask) ∧ (n = 15 → reads 0) ∧ (n = 16 → reads c0.cmptime))
      ∧ (lane = true → n = 17 → reads (BitVec.ofNat 64 c0.rstack.length))

/-- MTC writes the control registers, where no overrun exception waits for the end of a handler: reserved bits stay zero, IPEND clears what is written
1, CMPTIME rearms its comparison, and the read-only registers take nothing. A write of SWI sets, in each core k of the writer's half whose bit is 1,
the IPEND bit of the writer's number, and nothing else (R234). In which cores SWI sets IPEND is the model's reading (log 49). A control register
number that the table does not list, or that the unit's profile lacks, is an illegal instruction with the word in EADDR (R234, R235). -/
def Obligations.ControlRegisterWrites : Prop :=
  (∀ (s : State) (t : Nat) (u : Proc) (a : GReg) (n : BitVec 16), Runs s t u → NoOverrunWaits s u →
    let v := (s.cpu u).gr a
    let lane := procIsLane u
    let sets (f : Cpu → Cpu) : Prop := exec (.mtc t u n a) s = .next (s.after t u fun c => { f c with pc := c.pc + 4, cycles := c.cycles + 2 })
    (n = 0 → sets fun c => { c with vbase := BitVec.ofNat 64 (v.toNat / 1024 * 1024) }) ∧ (n = 1 → sets fun c => { c with epc := v })
      ∧ (n = 2 → sets fun c => { c with ecause := BitVec.ofNat 64 (v.toNat % 512) }) ∧ (n = 3 → sets fun c => { c with eaddr := v })
      ∧ (n = 4 → sets fun c => { c with estat := v }) ∧ (n = 5 → sets fun c => { c with st := BitVec.ofNat 5 v.toNat })
      ∧ (n = 6 → sets fun c => { c with ien := BitVec.ofNat 3 v.toNat }) ∧ (n = 7 → sets fun c => { c with scr0 := v })
      ∧ (n = 8 → sets fun c => { c with scr1 := v }) ∧ (n = 9 ∨ n = 10 ∨ n = 11 → sets id)
      ∧ (lane = false → (n = 12 → ∃ w : DWord, w.toNat % 4 = v.toNat % 4 ∧ w.toNat / 16 = v.toNat / 16 % 32 ∧ w.toNat / 4 % 4 = 0 ∧ sets fun c => { c with fcsr := w })
        ∧ (n = 13 → sets fun c => { c with ipend := c.ipend &&& ~~~v }) ∧ (n = 14 → sets fun c => { c with imask := v })
        ∧ (n = 16 → sets fun c => { c with cmptime := v, cmpArmed := true }))
      ∧ (lane = true → n = 17 → sets id))
    ∧ (∀ (s : State) (t : Nat) (c : ACoreId) (a : GReg), Runs s t (.a c) → ∃ s', exec (.mtc t (.a c) 0x0F a) s = .next s'
    ∧ ∀ (j : Nat) (x : Cpu), s.aCores[j]? = some x → ∃ y, s'.aCores[j]? = some y
      ∧ y = { x with
        pc := if j = procIndex (.a c) then x.pc + 4 else x.pc
        cycles := if j = procIndex (.a c) then x.cycles + 2 else x.cycles
        ipend := if j / 4 = c.half ∧ ((s.cpu (.a c)).gr a).getLsbD (j % 4) = true then x.ipend ||| BitVec.ofNat 64 (2 ^ c.core.val) else x.ipend })
    ∧ (∀ (s : State) (t : Nat) (u : Proc) (r : GReg) (n : BitVec 16), Runs s t u → Free s u → Present s u →
    let traps (sub : Nat) : Prop :=
      (∃ s', exec (.mfc t u r n) s = .next s' ∧ Entered s s' u 1 sub (BitVec.ofNat 64 (5 * 2 ^ 26 + r * 2 ^ 21 + n.toNat)))
        ∧ ∃ s', exec (.mtc t u n r) s = .next s' ∧ Entered s s' u 1 sub (BitVec.ofNat 64 (6 * 2 ^ 26 + r * 2 ^ 16 + n.toNat))
    (0x12 ≤ n.toNat → traps 2) ∧ (procIsLane u = true → 12 ≤ n.toNat → n.toNat ≤ 16 → traps 1) ∧ (procIsLane u = false → n = 17 → traps 1))

/-- ERET in a handler to an EPC on a word boundary restores pc, st and EN, leaves the handler and ends the reservation; outside a handler it is
illegal with SUB 5 (R228, R239). A lane's overrun exception that waited for the end of the handler is entered at once, from the instruction that ERET
returned to (R237, R238). A handler that a BRK entered returns with ERET to the BRK, with st and EN as they were before it (R238, R239). -/
def Obligations.EntryAndReturn : Prop :=
  (∀ (s : State) (t : Nat) (u : Proc), Runs s t u → Present s u →
    let c0 := s.cpu u
    (NoOverrunWaits s u → c0.exl = true → c0.epc.toNat % 4 = 0 → ∃ s', exec (.eret t u) s = .next s'
        ∧ s' = s.after t u (fun c => { c with
          pc := c.epc
          st := BitVec.ofNat 5 c.estat.toNat
          ien := BitVec.ofNat 3 (c.ien.toNat / 4 * 5)
          resv := none
          cycles := c.cycles + 4 }))
      ∧ (c0.exl = false → ∃ s', exec (.eret t u) s = .next s' ∧ Entered s s' u 1 5 0xFC000002)
      ∧ (c0.exl = true → c0.epc.toNat % 4 ≠ 0 → ∃ s', exec (.eret t u) s = .next s' ∧ StoppedOn s s' u)
      ∧ ∀ l, u = .l l → (s.ln l.half l.lane).ovPend = true → c0.exl = true → c0.epc.toNat % 4 = 0 →
        ∃ s', exec (.eret t u) s = .next s' ∧ (s'.cpu u).epc = c0.epc ∧ (s'.cpu u).ecause = 6 ∧ (s'.cpu u).eaddr = 0
          ∧ (s'.cpu u).estat = BitVec.ofNat 64 (c0.estat.toNat % 32) ∧ (s'.cpu u).exl = true ∧ (s'.cpu u).pc = (c0.vbase &&& ~~~0x3FF) + 0x180
          ∧ (s'.ln l.half l.lane).ovPend = false ∧ s'.flag (F.LAN_STAT_EXC l.half l.lane) = true)
    ∧ (∀ (c : Cpu) (cause : Nat) (addr : DWord), c.exl = false →
    let r := (c.enter c.pc cause addr).eret
    r.pc = c.pc ∧ r.st = c.st ∧ r.ien.getLsbD 0 = c.ien.getLsbD 0 ∧ r.ien.getLsbD 1 = false ∧ r.g = c.g ∧ r.f = c.f ∧ r.acc = c.acc
      ∧ r.rstack = c.rstack ∧ r.vbase = c.vbase ∧ r.resv = none)

/-- BRK enters the breakpoint exception with its code, EPC at the BRK itself (R233, R238); in a handler it stops the unit (R240). A word that is no
instruction of the unit raises the illegal instruction exception with the word in EADDR: SUB 1 for a word of the other profile, 0 otherwise; in a
handler it stops the unit (R207, R208, R235, R240). That a word of the other profile takes SUB 1 whatever its fields is the model's reading (log 65).
A word that is an instruction has its meaning in its own command (log 3). A BRK while EXL = 1 stops an A-core: the event 0x9003 is reported with the
cause word in P1 and pc in P2, no register that entry saves changes, and the core executes nothing more (R240). A posted store's bus error arrives
with IMPRECISE = 1 and EPC at the next instruction not started, and an external interrupt is taken when enabled, pending and unmasked outside a
handler; both save st, leave the flags and general registers as they were, end the reservation and leave WFI (R236, R238, R242). When a store's error
arrives, and whether it stops a core in a handler or is entered there, is the model's reading (logs 50, 67). -/
def Obligations.StopsAndInterrupts : Prop :=
  (∀ (s : State) (t : Nat) (u : Proc) (code : BitVec 15), Runs s t u → Present s u →
    (Free s u → ∃ s', exec (.brk t u code) s = .next s' ∧ Entered s s' u 5 0 (BitVec.ofNat 64 code.toNat))
      ∧ ((s.cpu u).exl = true → ∃ s', exec (.brk t u code) s = .next s' ∧ StoppedOn s s' u))
    ∧ (∀ (s : State) (t : Nat) (u : Proc) (w : Word), Runs s t u → Present s u →
    (decodeJarug t u w = none →
        (Free s u → ∃ s', exec (.illegalInstruction t u w) s = .next s' ∧ Entered s s' u 1 (if otherProfile (procIsLane u) w.toNat then 1 else 0) (BitVec.ofNat 64 w.toNat))
          ∧ ((s.cpu u).exl = true → ∃ s', exec (.illegalInstruction t u w) s = .next s' ∧ StoppedOn s s' u))
      ∧ ((decodeJarug t u w).isSome = true → exec (.illegalInstruction t u w) s = .next (s.atTime t)))
    ∧ (∀ (s : State) (t : Nat) (c : ACoreId) (code : BitVec 15), Runs s t (.a c) → (s.cpu (.a c)).exl = true → Present s (.a c) →
    ∃ s', exec (.brk t (.a c) code) s = .next s' ∧ StoppedOn s s' (.a c)
      ∧ s' = ((s.after t (.a c) fun x => { x with cycles := x.cycles + 1 }).event 0x9003 (procPlace (.a c)) (p1 := 5)
          (p2 := (s.cpu (.a c)).pc.toNat % 2 ^ 32)).modCpu (.a c) (fun x => { x with stopped := true })
      ∧ ∀ t' i, issueOf i = some (t', .a c) → ∃ k, exec i s' = .next { s' with clock := k })
    ∧ (∀ (s : State) (t : Nat) (c : ACoreId), (s.atTime t).coreRuns c = true → Present s (.a c) →
    let c0 := s.cpu (.a c)
    let goes (s' : State) (cause ecause : Nat) (addr : DWord) : Prop :=
      let c' := s'.cpu (.a c)
      c'.epc = c0.pc ∧ c'.estat = c0.st.setWidth 64 ∧ c'.ecause = BitVec.ofNat 64 ecause ∧ c'.eaddr = addr ∧ c'.waiting = false
        ∧ c'.ien = BitVec.ofNat 3 (2 + 4 * (c0.ien.toNat % 2)) ∧ c'.pc = (c0.vbase &&& ~~~0x3FF) + BitVec.ofNat 64 (cause * 0x40)
        ∧ c'.resv = none ∧ c'.st = c0.st ∧ c'.g = c0.g ∧ c'.f = c0.f
    (∀ sub addr rest, c0.busErr = (sub, addr) :: rest → sub < 6 → ∃ s', exec (.impreciseBusError t c) s = .next s' ∧ (s'.cpu (.a c)).busErr = rest
        ∧ (Free s (.a c) → goes s' 3 (0x103 + 16 * sub) (BitVec.ofNat 64 addr))
        ∧ (c0.exl = true → goes s' 3 (0x103 + 16 * sub) (BitVec.ofNat 64 addr) ∨ StoppedOn s s' (.a c)))
      ∧ (c0.busErr = [] → exec (.impreciseBusError t c) s = .next (s.atTime t))
      ∧ (Free s (.a c) → c0.ien.getLsbD 0 = true → c0.ipend &&& c0.imask ≠ 0 → ∃ s', exec (.externalInterrupt t c) s = .next s' ∧ goes s' 8 8 0)
      ∧ (c0.ien.getLsbD 0 = false ∨ c0.exl = true ∨ c0.ipend &&& c0.imask = 0 → exec (.externalInterrupt t c) s = .next (s.atTime t)))

/-- The instructions of the lanes keep every unit's registers within what the spec allows: pc and return addresses on word boundaries, at most 8
return addresses, VBASE on a vector block. -/
def Obligations.LaneInstructionsKeepLegalUnits : Prop :=
  ∀ (s s' : State) (i : Instr) (t : Nat) (l : LaneId), issueOf i = some (t, .l l) → s.cpusLegal = true → exec i s = .next s' → s'.cpusLegal = true

/-! The fabric, the queues and the clear commands (R10-R12, R26, R35-R46, R593-R595). -/

/-- Register and memory accesses of a master: a word stored and read back by a local core in DRAM, an address that is no multiple of 4, the captured
pair of module time. The answers to an address that is no multiple of 4, and to one that nothing answers, are the model's reading (logs 28, 32). A
write that the fabric or the block refuses changes no register: the domain off, the block in reset, an address that nothing is assigned to, which is
noted as an event (the event's code is open, log 28), an owner's word written by another master; a value that the table does not allow sets the flag
of its block and is answered OK (R26, R511, R593, R594). -/
def Obligations.RegisterAccesses : Prop :=
  (∀ (s : State) (t : Nat) (m : Master) (a : Nat) (v : Word),
    let x := s.atTime t
    (a % 4 ≠ 0 → exec (.registerWrite t m a v) s = .next { x with reply := some (stBadAddr, []) }
        ∧ exec (.captureRead t m a) s = .next { x with reply := some (stBadAddr, []) })
      ∧ (a % 4 = 0 → a < 3 * 2 ^ 32 → midKind m = 0 → Reaches s t a → exec (.registerWrite t m a v) s = .next ((x.writeN a 4 v.toNat).answered a))
      ∧ (a % 4 = 0 → a < 3 * 2 ^ 32 → x.accessError a = none → s.armed false = false → s.poisoned a 4 = false →
        exec (.captureRead t m a) s = .next { x with reply := some (stOk, [s.readN a 4]) })
      ∧ (x.accessError R.HB_TIME_LO = none → s.armed false = false → s.poisoned R.HB_TIME_LO 4 = false →
        ∃ s', exec (.captureRead t m R.HB_TIME_LO) s = .next s' ∧ s'.reply = some (stOk, [x.now % 2 ^ 32])
          ∧ assoc (m, R.HB_TIME_HI) s'.held = some (BitVec.ofNat 32 (x.now / 2 ^ 32)) ∧ s'.regs = s.regs ∧ s'.mem = s.mem)
      ∧ (x.accessError R.HB_TIME_HI = none → s.armed false = false → s.poisoned R.HB_TIME_HI 4 = false → ∀ w, assoc (m, R.HB_TIME_HI) s.held = some w →
        exec (.captureRead t m R.HB_TIME_HI) s = .next { x with reply := some (stOk, [w.toNat]) }))
    ∧ (∀ (s : State) (t : Nat) (m : Master) (a : Nat) (v : Word),
    let x := s.atTime t
    (a % 4 = 0 → ∀ e, x.accessError a = some e → exec (.registerWrite t m a v) s = .next { x.noteAccess a with reply := some (e, []) }
        ∧ ((accessBlock a).isSome = true → x.noteAccess a = x))
      ∧ (s.isOwner m = false → Reaches s t R.PPS_CFG →
        exec (.registerWrite t m R.PPS_CFG v) s = .next { x with reply := some (stNotOwner, []) })
      ∧ (s.isOwner m = true → Reaches s t R.HB_FUSP → v.toNat % 2048 < 20 ∨ 2000 < v.toNat % 2048 →
        exec (.registerWrite t m R.HB_FUSP v) s = .next (Acc2.reply (x.raise F.HB_STAT_CFGERR, stOk)))
      ∧ (s.isOwner m = true → Reaches s t R.HB_FUSP → 20 ≤ v.toNat % 2048 → v.toNat % 2048 ≤ 2000 →
        exec (.registerWrite t m R.HB_FUSP v) s = .next ((x.put F.HB_FUSP_PER v.toNat).answered R.HB_FUSP)))

/-- Writes of a queue's indexes and status that reach QUE: an index that would hold more records than the ring or release more than it holds sets OVF
and changes nothing else; another is taken, EMPTY and FULL follow, and DISC adds to STALE; OVF is W1C, and CLR clears STALE and DROP (R38–R40, R42). A
hardware producer's record into a queue, with no injected error waiting (R37–R39): with room and powered DRAM the entry holds the header (TAG, KIND,
LEN and the queue's record count SEQ) and the payload, no other byte changes, SEQ and PIDX advance and the queue's interrupt is set; otherwise DROP
counts, OVF is set and memory stays; while QUE is in a block reset the record is lost (R511). That a dropped record does not advance SEQ is the
model's reading (log 34). -/
def Obligations.Queues : Prop :=
  (∀ (s : State) (t : Nat) (m : Master) (q : Fin 128) (v : Word),
    let x := s.atTime t
    let n := v.toNat % 2 ^ 16
    let full := 2 ^ s.get (F.QUE_CFG_LOG2N q)
    let held := (n + 2 ^ 16 - s.get (F.QUE_CIDX_CIDX q)) % 2 ^ 16
    let depth := (s.get (F.QUE_PIDX_PIDX q) + 2 ^ 16 - s.get (F.QUE_CIDX_CIDX q)) % 2 ^ 16
    let keeps (s' : State) (a : Nat) : Prop := s'.reply = some (stOk, []) ∧ s'.mem = s.mem ∧ ∀ b, b ≠ a → b ≠ R.QUE_STAT q → s'.word b = s.word b
    let same (s' : State) (f : Fld) : Prop := s'.get f = s.get f
    (Reaches s t (R.QUE_PIDX q) →
        (full < held → exec (.quePidxWrite t m q v) s = .next ((x.raise (F.QUE_STAT_OVF q)).answered (R.QUE_PIDX q)))
          ∧ (held ≤ full → ∃ s', exec (.quePidxWrite t m q v) s = .next s' ∧ keeps s' (R.QUE_PIDX q) ∧ s'.get (F.QUE_PIDX_PIDX q) = n
            ∧ s'.flag (F.QUE_STAT_EMPTY q) = (held == 0) ∧ s'.flag (F.QUE_STAT_FULL q) = (held == full)
            ∧ same s' (F.QUE_STAT_OVF q) ∧ same s' (F.QUE_STAT_STALE q) ∧ same s' (F.QUE_STAT_DROP q)))
      ∧ (Reaches s t (R.QUE_CIDX q) →
        (depth < held → exec (.queCidxWrite t m q v) s = .next ((x.raise (F.QUE_STAT_OVF q)).answered (R.QUE_CIDX q)))
          ∧ (held ≤ depth → ∃ s', exec (.queCidxWrite t m q v) s = .next s' ∧ keeps s' (R.QUE_CIDX q) ∧ s'.get (F.QUE_CIDX_CIDX q) = n
            ∧ s'.get (F.QUE_STAT_STALE q) = min (s.get (F.QUE_STAT_STALE q) + v.toNat / 2 ^ 16) (2 ^ (F.QUE_STAT_STALE q).width - 1)
            ∧ s'.flag (F.QUE_STAT_EMPTY q) = (held == depth) ∧ s'.flag (F.QUE_STAT_FULL q) = (depth - held == full)
            ∧ same s' (F.QUE_STAT_OVF q) ∧ same s' (F.QUE_STAT_DROP q)))
      ∧ (Reaches s t (R.QUE_STAT q) → ∃ s', exec (.queStatClr t m q v) s = .next s' ∧ keeps s' (R.QUE_STAT q)
        ∧ s'.get (F.QUE_STAT_OVF q) = (if v.getLsbD 28 then 0 else s.get (F.QUE_STAT_OVF q))
        ∧ s'.get (F.QUE_STAT_STALE q) = (if v.getLsbD 31 then 0 else s.get (F.QUE_STAT_STALE q))
        ∧ s'.get (F.QUE_STAT_DROP q) = (if v.getLsbD 31 then 0 else s.get (F.QUE_STAT_DROP q))
        ∧ same s' (F.QUE_STAT_EMPTY q) ∧ same s' (F.QUE_STAT_FULL q)))
    ∧ (∀ (s : State) (q : Fin 128) (kind : Nat) (payload : List Nat), (∀ w ∈ payload, w < 2 ^ 32) → s.armed true = false →
    let n := 2 ^ s.get (F.QUE_CFG_LOG2N q)
    let size := 32 * 2 ^ s.get (F.QUE_CFG_ESIZE q)
    let p := s.get (F.QUE_PIDX_PIDX q)
    let depth := (p + 2 ^ 16 - s.get (F.QUE_CIDX_CIDX q)) % 2 ^ 16
    let a := s.getAddr (R.QUE_BASE_LO q) (R.QUE_BASE_HI q) + p % n * size
    let room := s.flag (F.QUE_CFG_EN q) && decide (depth < n) && decide (payload.length * 4 + 8 ≤ size) && s.inDram a size
    let s' := s.quePush q kind payload
    (s.blockHeld quePlace = true → s' = s)
      ∧ (s.blockHeld quePlace = false → room = true → s'.readN a 4 = s.get (F.QUE_TAG_CUR q) + kind % 256 * 2 ^ 16 + payload.length * 2 ^ 24
        ∧ s'.readN (a + 4) 4 = s.queSeqOf q % 2 ^ 32 ∧ s'.readWords (a + 8) payload.length = payload
        ∧ s'.queSeqOf q = (s.queSeqOf q + 1) % 2 ^ 32 ∧ (∀ k, k ≠ q.val → s'.queSeqOf k = s.queSeqOf k)
        ∧ s'.get (F.QUE_PIDX_PIDX q) = (p + 1) % 2 ^ 16 ∧ (∀ b, b < a ∨ a + payload.length * 4 + 8 ≤ b → s'.byte b = s.byte b)
        ∧ s'.flag (F.QUE_STAT_EMPTY q) = false ∧ s'.flag (F.QUE_STAT_FULL q) = (depth + 1 == n)
        ∧ ∀ h, s.active = some h → ∀ i c, s.aCores[i]? = some c → i / 4 = h → ∀ c', s'.aCores[i]? = some c' → c'.ipend.getLsbD (16 + q % 32) = true)
      ∧ (s.blockHeld quePlace = false → room = false → s'.mem = s.mem ∧ s'.get (F.QUE_PIDX_PIDX q) = p ∧ s'.queSeqOf q = s.queSeqOf q ∧ s'.flag (F.QUE_STAT_OVF q) = true
        ∧ s'.get (F.QUE_STAT_DROP q) = min (s.get (F.QUE_STAT_DROP q) + 1) (2 ^ (F.QUE_STAT_DROP q).width - 1)))

/-- The clear commands with bit 0 of the word written set: each clears the counters that its block's table names and no other word; with bit 0 clear
they change nothing. -/
def Obligations.ClearCommands : Prop :=
  ∀ (s : State) (t : Nat) (m : Master) (v : Word) (h q : Fin 2) (p n : Fin 4) (c : Fin 8),
    let whole (a : Nat) : Fld := ⟨a, 31, 0⟩
    let each (k : Nat) (f : Nat → Fld) : List Fld := (List.range k).map f
    let clears (i : Instr) (a : Nat) (fs : List Fld) : Prop := Reaches s t a →
      (v.getLsbD 0 = false → exec i s = .next ((s.atTime t).answered a))
        ∧ (v.getLsbD 0 = true → ∃ s', exec i s = .next s' ∧ s'.reply = some (stOk, []) ∧ s'.mem = s.mem
          ∧ (∀ f ∈ fs, s'.word f.reg = withField f (s.word f.reg) 0) ∧ ∀ b, (∀ f ∈ fs, b ≠ f.reg) → s'.word b = s.word b)
    clears (.fabClr t m v) R.FAB_CLR [whole R.FAB_PCNT, whole R.FAB_RCNT, whole R.FAB_ECNT]
      ∧ clears (.lmpClr t m v) R.LMP_CLR [whole R.LMP_CRCCNT, whole R.LMP_REFCNT, whole R.LMP_RETRY] ∧ clears (.ethClr t m v) R.ETH_CLR [whole R.ETH_DROP]
      ∧ clears (.fngClr t m v) R.FNG_CLR (F.FNG_CALPOS_CALSKIP :: each 32 fun k => whole (R.FNG_CNT k))
      ∧ clears (.plmClr t m v) R.PLM_CLR (each 8 fun k => whole (R.PLM_DEF k)) ∧ clears (.ldsClr t m v) R.LDS_CLR (each 16 fun k => whole (R.LDS_CNT k))
      ∧ clears (.brmClr t m v) R.BRM_CLR [whole (R.BRM_DIVCNT 0), whole (R.BRM_DIVE 0), whole (R.BRM_DIVCNT 1), whole (R.BRM_DIVE 1)]
      ∧ clears (.snpClr t m v) R.SNP_CLR (each 8 F.SNP_STAT_FOLDCNT) ∧ clears (.mplClr t m q v) (R.MPL_CLR q) [whole (R.MPL_PCNT q)]
      ∧ clears (.csiClr t m p v) (R.CSI_CLR p) [whole (R.CSI_ECNT p), whole (R.CSI_DCNT p), F.CSI_FILL_PEAK p]
      ∧ clears (.vscCclr t m c v) (R.VSC_CCLR c) [whole (R.VSC_DCNT c), whole (R.VSC_UCNT c)]
      ∧ clears (.hraClr t m v) R.HRA_CLR (each 8 fun k => whole (R.HRA_XCNT k)) ∧ clears (.gpaClr t m v) R.GPA_CLR (each 4 fun k => whole (R.GPA_LOMIT k))
      ∧ clears (.fqiClr t m v) R.FQI_CLR (each 24 fun k => whole (R.FQI_OCNT k)) ∧ clears (.fexClr t m v) R.FEX_CLR [whole R.FEX_JDROP]
      ∧ clears (.prjClr t m v) R.PRJ_CLR [whole R.PRJ_OUT]
      ∧ clears (.fusClr t m v) R.FUS_CLR ((each 32 fun k => whole (R.FUS_SERR k)) ++ each 32 fun k => whole (R.FUS_SLOSS k))
      ∧ clears (.ytClr t m v) R.YT_CLR [whole R.YT_MISS, whole R.YT_SKIP] ∧ clears (.gnbClr t m v) R.GNB_CLR [whole R.GNB_DCNT]
      ∧ clears (.imuClr t m v) R.IMU_CLR [whole R.IMU_OCNT] ∧ clears (.canClr t m n v) (R.CAN_CLR n) [whole (R.CAN_RXNM n), whole (R.CAN_CNT n)]
      ∧ clears (.msgClr t m v) R.MSG_CLR (each 4 F.MSG_SCNT_ABORT) ∧ clears (.fltClr t m v) R.FLT_CLR [whole R.FLT_SUPP, whole R.FLT_QDROP]
      ∧ clears (.ceClr t m h v) (R.CE_CLR h) (whole (R.CE_PCONF h) :: whole (R.CE_OVCNT h)
        :: ((each 8 fun k => whole (R.LAN_OVCNT h k)) ++ each 8 fun k => whole (R.LAN_MAXC h k)))

/-! The timebase (R50-R78). -/

/-- The owner's writes of the timebase: reference selection, steps and slews of GNSS time, the oscillator adjustment, the tick periods, and the commit
of a trigger line's staged period, phase and width. That a reference selection acts at once is the model's reading (log 22). -/
def Obligations.TimebaseWrites : Prop :=
  ∀ (s : State) (t : Nat) (m : Master) (n : Fin 32) (v : Word), s.isOwner m = true →
    let x := s.atTime t
    let signed := v.toInt
    let locked (st : Nat) : Nat := if st = 2 ∧ s.flag F.GNB_STAT_TVALID ∧ s.flag F.HB_STAT_LOCK then 1 else st
    let first (st : Nat) : Nat := if st = 0 then 1 else st
    (Reaches s t R.HB_DISC → v.toNat / 16 % 16 ≠ 0 → ∃ s', exec (.refselChange t m v) s = .next s' ∧ s'.get F.HB_DISC_TMO = v.toNat / 16 % 16
        ∧ s'.flag F.HB_DISC_REFSEL = v.getLsbD 0 ∧ s'.flag F.HB_STAT_REFUSED = (v.getLsbD 0 && s.flag F.HB_STAT_OCXOOK)
        ∧ s'.flag F.HB_STAT_LOCK = ((v.getLsbD 0 && s.flag F.HB_STAT_OCXOOK) || s.flag F.HB_STAT_REFOK) ∧ s'.get F.HB_STAT_STATE = s.get F.HB_STAT_STATE)
      ∧ (Reaches s t R.HB_GSET_LO → ∃ s', exec (.hbGsetWrite t m v) s = .next s'
        ∧ s'.hb.pend = .set (signedOf 64 (v.toNat + s.word R.HB_GSET_HI * 2 ^ 32)) ∧ s'.get F.HB_STAT_STATE = first (s.get F.HB_STAT_STATE)
        ∧ s'.flag F.HB_STAT_STEPPEND = true ∧ s'.flag F.HB_STAT_SLEW = false ∧ s'.gofs = s.gofs)
      ∧ (Reaches s t R.HB_GCOR → ∃ s', exec (.hbGcorWrite t m v) s = .next s'
        ∧ s'.hb.pend = (if signed = 0 then .none else if signed.natAbs < 1000 then .slew signed (x.now + 10000000) else .add signed)
        ∧ s'.get F.HB_STAT_STATE = locked (first (s.get F.HB_STAT_STATE)) ∧ s'.getS F.HB_GCOR_COR = signed ∧ s'.hb.discAt = x.now ∧ s'.gofs = s.gofs)
      ∧ (Reaches s t R.HB_FADJ → ∃ s', exec (.hbFadjWrite t m v) s = .next s' ∧ s'.getS F.HB_FADJ_ADJ = min (max signed (-200000000)) 200000000
        ∧ s'.get F.HB_STAT_STATE = locked (s.get F.HB_STAT_STATE) ∧ s'.hb.discAt = x.now ∧ s'.hb.pend = s.hb.pend)
      ∧ (Reaches s t R.HB_FUSP → 20 ≤ v.toNat % 2048 → v.toNat % 2048 ≤ 2000 →
        exec (.hbFuspWrite t m v) s = .next ((x.put F.HB_FUSP_PER v.toNat).answered R.HB_FUSP))
      ∧ (Reaches s t R.HB_GNSP → 200 ≤ v.toNat % 2 ^ 15 → v.toNat % 2 ^ 15 ≤ 20000 →
        exec (.hbGnspWrite t m v) s = .next ((x.put F.HB_GNSP_PER v.toNat).answered R.HB_GNSP))
      ∧ (Reaches s t (R.HB_LCFG n) → n < s.hb.lines.length →
        let l := s.line n
        let mode := v.toNat % 4
        let good := 1000 ≤ l.perStaged ∧ l.perStaged ≤ 10000000000 ∧ l.phsStaged < l.perStaged
          ∧ (mode = 0 ∨ (mode = 2 ∧ n.val < 8) ∨ (mode = 1 ∧ (8 ≤ n.val ∨ (4 ≤ l.widStaged ∧ l.widStaged + 4 ≤ l.perStaged))))
        (¬good → exec (.hbLcfgCommit t m n v) s = .next ((x.raise F.HB_STAT_CFGERR).answered (R.HB_LCFG n)))
          ∧ (good → ∃ s', exec (.hbLcfgCommit t m n v) s = .next s' ∧ s'.get (F.HB_LCFG_MODE n) = mode ∧ s'.linePer n = l.perStaged % 2 ^ 34
            ∧ s'.linePhs n = l.phsStaged % 2 ^ 34 ∧ s'.word (R.HB_LWID n) = l.widStaged % 2 ^ 32 ∧ (mode ≠ 1 → (s'.line n).next = none)
            ∧ (mode = 1 → s.get (F.HB_LCFG_MODE n) ≠ 1 → ∃ k : Int, (s'.line n).next = some (l.phsStaged + l.perStaged * k) ∧ (s'.line n).nextSeq = bitsOf 32 k
              ∧ let from0 : Int := x.now + 2000 + (if v.getLsbD 3 then x.gnssOffset else 0)
                from0 ≤ l.phsStaged + l.perStaged * k ∧ l.phsStaged + l.perStaged * k < from0 + l.perStaged)))

/-- The events of the references and of the discipline: module time starts once, at the first lock or 10 ms after power-on; the loss of the reference
in use sets REFLOSS; 10 s of OCXO_IN bring it back; a slew moves GNSS time by 1 ns; TMO seconds without a correction and each second of holdover.
Where the timeouts count from is the model's reading (logs 22, 23, 24). -/
def Obligations.TimebaseEvents : Prop :=
  ∀ (s : State) (t : Nat) (n : Fin 8),
    let x := s.atTime t
    exec (.plltLock t) s = .next (if s.start = none ∧ s.flag F.HB_STAT_REFOK = true then
        ({ x with start := some x.clock }.raise F.HB_STAT_LOCK).put F.HB_STAT_STATE 0 else x)
      ∧ (s.start = none → ∃ s', exec (.refinAbsentTimeout t) s = .next s' ∧ s'.start = some x.clock ∧ s'.flag F.HB_STAT_LOCK = false
        ∧ s'.flag F.HB_STAT_REFOK = false ∧ s'.flag F.HB_STAT_REFLOSS = true)
      ∧ (s.flag F.HB_STAT_REFUSED = false → ∃ s', exec (.referenceLoss t false) s = .next s' ∧ s'.flag F.HB_STAT_REFOK = false
        ∧ s'.flag F.HB_STAT_REFLOSS = true ∧ s'.flag F.HB_STAT_LOCK = false
        ∧ s'.get F.HB_STAT_STATE = if s.get F.HB_STAT_STATE = 1 then 2 else s.get F.HB_STAT_STATE)
      ∧ (s.flag F.HB_STAT_REFUSED = false → ∃ s', exec (.referenceLoss t true) s = .next s' ∧ s'.flag F.HB_STAT_OCXOOK = false
        ∧ s'.hb.ocxoSince = none ∧ s'.get F.HB_STAT_STATE = s.get F.HB_STAT_STATE ∧ s'.evr = s.evr ∧ s'.flt = s.flt)
      ∧ (∃ s', exec (.referenceReturn t true) s = .next s' ∧ s'.flag F.HB_STAT_OCXOOK = true ∧ s'.hb.ocxoSince = some x.clock ∧ s'.flag F.HB_STAT_LOCK = s.flag F.HB_STAT_LOCK)
      ∧ (s.flag F.HB_STAT_REFUSED = false → exec (.referenceReturn t false) s = .next ((x.raise F.HB_STAT_REFOK).raise F.HB_STAT_LOCK))
      ∧ (∀ since, s.hb.ocxoSince = some since → s.flag F.HB_DISC_REFSEL = true → s.flag F.HB_STAT_REFUSED = false → s.flag F.HB_STAT_OCXOOK = true →
        exec (.ocxoReturn t) s = .next (if since + 10000000000 ≤ x.clock then (x.raise F.HB_STAT_REFUSED).raise F.HB_STAT_LOCK else x))
      ∧ (∀ left due, s.hb.pend = .slew left due → left ≠ 0 → due ≤ x.now → ∃ s', exec (.slewStep t) s = .next s'
        ∧ s'.gofs = signedOf 64 (bitsOf 64 (s.gofs + left.sign)) ∧ s'.hb.pend = if left.natAbs = 1 then .none else .slew (left - left.sign) (due + 10000000))
      ∧ exec (.disciplineTimeout t) s = .next (if s.hb.discAt + s.get F.HB_DISC_TMO * 1000000000 ≤ x.now ∧ s.get F.HB_STAT_STATE = 1 then
        (((x.put F.HB_STAT_STATE 2).raise F.HB_STAT_HOLD).withHb { s.hb with tuncSec := x.now / 1000000000 }).ppsCheck else x)
      ∧ (s.get F.HB_STAT_STATE = 2 → s.hb.tuncSec < x.now / 1000000000 → ∃ s', exec (.tuncGrowth t) s = .next s'
        ∧ s'.word R.HB_TUNC = min (s.word R.HB_TUNC + s.get F.HB_HRATE_RATE) (2 ^ 32 - 1) ∧ s'.hb.tuncSec = x.now / 1000000000)
      ∧ (s.start.isSome = true → x.now % 50000 = 0 → ∃ s', exec (.baseTick t) s = .next s' ∧ s'.hb.tick = x.now / 50000
        ∧ s'.hb.fusp = s.get F.HB_FUSP_PER ∧ s'.hb.gnsp = s.get F.HB_GNSP_PER ∧ s'.regs = s.regs)
      ∧ exec (.ppsPulseEnd t) s = .next (if s.flag F.PPS_STAT_ACTIVE = true ∧ s.hb.ppsEnds ≤ x.now then x.put F.PPS_STAT_ACTIVE 0 else x)
      ∧ (∀ rising, s.get (F.HB_LCFG_MODE n) = 2 → s.flag (F.HB_LCFG_POL n) ≠ rising → (s.line n).capFrom ≤ x.now → n < s.hb.lines.length →
        ((∀ e, (s.line n).lastEdge = some e → e + 1000 ≤ x.now) → ∃ s', exec (.trgCaptureEdge t n rising) s = .next s'
          ∧ s'.word (R.HB_LSEQ n) = (s.word (R.HB_LSEQ n) + 1) % 2 ^ 32 ∧ (s'.line n).lastEdge = some x.now)
        ∧ ∀ e, (s.line n).lastEdge = some e → x.now < e + 1000 → exec (.trgCaptureEdge t n rising) s = .next (x.countSat (F.HB_LOMIT_OMIT n)))

/-- A GNSS second boundary: the pending step of GNSS time is applied, the leap second count taken and, where PPS_OUT is driven, a pulse started; the
same boundary is taken once. A strike is numbered, recorded at its time of module time and followed by the next one of its configuration, whose number
is the quotient of its time by the period (R57, R61–R66, R76); a line with ALIGN = 1 counts in GNSS time, which differs from module time by the
offset. The order of pulse and step at one boundary is the model's reading (log 26). -/
def Obligations.BoundariesAndStrikes : Prop :=
  ∀ (s : State) (t : Nat) (n : Fin 32),
    let x := s.atTime t
    (s.start.isSome = true → x.gnss % 1000000000 = 0 → s.hb.bound ≠ some x.now →
        ∃ s', exec (.gnssSecondBoundary t) s = .next s' ∧ s'.hb.bound = some x.now ∧ s'.hb.leap = s.getS F.HB_LEAP_LEAP
          ∧ (∀ v, s.hb.pend = .set v → s'.gofs = signedOf 64 (bitsOf 64 v) ∧ s'.hb.pend = .none ∧ s'.flag F.HB_STAT_STEP = true)
          ∧ (∀ v, s.hb.pend = .add v → s'.gofs = signedOf 64 (bitsOf 64 (s.gofs + v)) ∧ s'.hb.pend = .none)
          ∧ (s.hb.pend = .none → s'.gofs = s.gofs)
          ∧ (s.hb.pend = .none → s.flag F.PPS_CFG_EN = true → s.get F.HB_STAT_STATE = 1 → s'.flag F.PPS_STAT_ACTIVE = true
            ∧ s'.word R.PPS_CNT = (s.word R.PPS_CNT + 1) % 2 ^ 32 ∧ s'.hb.ppsEnds = x.now + s.get F.PPS_CFG_WIDTH * 1000000))
      ∧ (s.hb.bound = some x.now → exec (.gnssSecondBoundary t) s = .next x)
      ∧ (∀ due, (s.line n).next = some due → s.start.isSome = true → s.get (F.HB_LCFG_MODE n) = 1 → s.restarting (fieldBlock 0 2) = false →
        n < s.hb.lines.length → 0 < s.linePer n →
        let tm : Int := if (s.line n).align then due - s.gnssOffset else due
        let offset : Int := if s.flag (F.HB_LCFG_ALIGN n) then s.gnssOffset else 0
        0 ≤ tm → tm ≤ x.now → ∃ s', exec (.strike t n) s = .next s' ∧ s'.word (R.HB_LSEQ n) = (s.line n).nextSeq % 2 ^ 32
          ∧ (s'.line n).strikes.head? = some ((s.line n).nextSeq, tm.toNat) ∧ (s'.line n).align = s.flag (F.HB_LCFG_ALIGN n)
          ∧ (s'.line n).per = s.linePer n ∧ (s'.line n).phs = s.linePhs n ∧ s'.gnssOffset = s.gnssOffset
          ∧ ∃ k : Int, (s'.line n).next = some (s.linePhs n + s.linePer n * k) ∧ (s'.line n).nextSeq = bitsOf 32 k
            ∧ tm + offset < s.linePhs n + s.linePer n * k ∧ s.linePhs n + s.linePer n * k ≤ tm + offset + s.linePer n)

/-! Cameras, inputs, fusion (R84-R202). -/

/-- The commands of the camera ports and the contexts. The grants of the pipelines, the completion of frames, and the owner's writes that release
buffers and enable, disable and migrate contexts. A complete frame with an image reaches field DRAM before WR counts it: the embedded data, the image,
the tap and the 1,152-byte statistics record, at the places that the context's registers name, and no other byte; with no injected error waiting, no
poison met and the notice off (R100, R102–R106). A frame without lines has no stated SHARP, and a ratio that does not fit Q8.24 no stated IRVR: the
model takes free values there (log 93). The stages of a pipeline on one pixel (R96, R98, R101), the parts of an image and the counts of the statistics
record (R99, R104). -/
def Obligations.CamerasAndPipelines : Prop :=
  (∀ (s : State) (t : Nat) (p vc : Fin 4) (k : Fin 2),
    let x := s.atTime t
    let c := 2 * p.val + k.val
    let taken := x.csiOn p = true ∧ s.slotOf p vc = some k.val ∧ s.flag (F.VSC_CCFG_EN c) = true ∧ c < s.ctxs.length
    (∀ deskew, x.csiOn p = true → exec (.highSpeedEntry t p deskew) s = .next ((x.raise (F.CSI_STAT_LINK p)).putB (F.CSI_STAT_DESKEW p) deskew))
      ∧ (x.awake (csiPlace p) = true → exec (.highSpeedExit t p) s = .next (x.put (F.CSI_STAT_LINK p) 0))
      ∧ (∀ fn : BitVec 16, taken → (s.ctx c).openFrame = none → ∃ s' f, exec (.frameStartPacket t p vc fn 0) s = .next s'
        ∧ (s'.ctx c).frames = (s.ctx c).frames ++ [f] ∧ f.isOpen = true ∧ f.csifn = fn.toNat ∧ f.ctxfn = s.word (R.VSC_FCNT c) ∧ f.tfs = x.now
        ∧ f.waiting = [] ∧ f.taken = [] ∧ s'.word (R.VSC_FCNT c) = (s.word (R.VSC_FCNT c) + 1) % 2 ^ 32 ∧ s'.flag (F.VSC_CSTAT_OPEN c) = true)
      ∧ (taken → (s.ctx c).openFrame ≠ none → ∃ s', exec (.frameEndPacket t p vc 0) s = .next s' ∧ (s'.ctx c).openFrame = none
        ∧ s'.flag (F.VSC_CSTAT_OPEN c) = false)
      ∧ (∀ (f : Frame) (payload : List Byte) (dt : BitVec 6), taken → (s.ctx c).openFrame = some f → f.discard = false →
        dt.toNat = 0x2B + s.get (F.VSC_CCFG_DT c) → payload.length = s.lineBytes c → s.portBytes p + payload.length ≤ 98304 →
        f.lines < s.get (F.VSC_CGEO_HEIGHT c) → s.flag (F.MPL_STAT_BUSY 0) = false → s.flag (F.MPL_STAT_BUSY 1) = false →
          ∃ s', exec (.longPacket t p vc dt 0 true payload 0) s = .next s' ∧ (s'.ctx c).openFrame = some { f with waiting := f.waiting ++ [(false, payload)] })
      ∧ (x.csiOn p = true → ∃ s', exec (.frameStartPacket t p vc 0 2) s = .next s'
        ∧ s'.get (F.CSI_ECNT_HDR p) = min (s.get (F.CSI_ECNT_HDR p) + 1) (2 ^ (F.CSI_ECNT_HDR p).width - 1) ∧ s'.flag (F.CSI_STAT_HDR p) = true
        ∧ s'.word (R.VSC_FCNT c) = s.word (R.VSC_FCNT c))
      ∧ (∀ (m : Master) (v : Word), s.isOwner m = true → Reaches s t (R.CSI_CFG p) → s.flag (F.CSI_CFG_EN p) = true →
        v.toNat / 2 = s.word (R.CSI_CFG p) / 2 → ∃ s', exec (.csiDisable t m p v) s = .next s' ∧ s'.flag (F.CSI_CFG_EN p) = false
          ∧ (s'.ctx c).openFrame = none ∧ s'.reply = some (stOk, [])))
    ∧ (∀ (s : State) (t : Nat) (q : Fin 2) (c : Fin 8) (m : Master) (v : Word),
    let x := s.atTime t
    let old := s.reg (R.VSC_CCFG c)
    let legal (w : Word) : Prop := w.toNat / 2 ^ 24 % 16 ≠ 0 ∧ w.toNat / 2 ^ 16 % 8 ≤ 5 ∧ w.toNat / 2 ^ 12 % 4 ≤ 2
    (c < s.ctxs.length → x.mplOn q = true → s.flag (F.MPL_STAT_BUSY q) = false →
        ((List.range 8).map (fun i => (s.get (F.MPL_STAT_PTR q) + 1 + i) % 8)).find?
          (fun d => s.boundTo d q && s.ready d q && decide (0 < (s.ctx d).credit)) = some c.val →
        ∃ s', exec (.pipelineGrant t q) s = .next s' ∧ s'.flag (F.MPL_STAT_BUSY q) = true ∧ s'.get (F.MPL_STAT_CTX q) = c ∧ s'.get (F.MPL_STAT_PTR q) = c
          ∧ (s'.ctx c).credit = (s.ctx c).credit - 1)
      ∧ (x.mplOn q = true → s.flag (F.MPL_STAT_BUSY q) = true → (s.ctx (s.get (F.MPL_STAT_CTX q))).frames = [] →
        exec (.grantEnd t q) s = .next (x.put (F.MPL_STAT_BUSY q) 0))
      ∧ (∀ f rest, c < s.ctxs.length → (s.ctx c).frames = f :: rest → f.isOpen = false → f.dropped = false → f.waiting = [] → x.mplOn (s.ctx c).pipe = true →
        ∃ s', exec (.frameComplete t c []) s = .next s' ∧ s'.get (F.VSC_WR_WR c) = (s.get (F.VSC_WR_WR c) + 1) % 2 ^ 16
          ∧ (s'.ctx c).frames.length ≤ rest.length)
      ∧ (Reaches s t (R.VSC_REL c) → exec (.vscRelWrite t m c v) s = .next
        ((if (s.get (F.VSC_WR_WR c) + 2 ^ 16 - v.toNat % 2 ^ 16) % 2 ^ 16 ≤ s.get (F.VSC_BUF_NBUF c) then x.put (F.VSC_REL_REL c) v.toNat else x).answered
          (R.VSC_REL c)))
      ∧ (s.isOwner m = true → Reaches s t (R.VSC_CCFG c) → c < s.ctxs.length →
        (s.flag (F.VSC_CCFG_EN c) = false → v.getLsbD 0 = true → legal v → ∃ s', exec (.contextEnable t m c v) s = .next s'
            ∧ s'.flag (F.VSC_CCFG_EN c) = true ∧ s'.word (R.VSC_FCNT c) = 0 ∧ s'.get (F.VSC_WR_WR c) = 0 ∧ s'.get (F.VSC_REL_REL c) = 0
            ∧ s'.ctx c = { credit := v.toNat / 2 ^ 24 % 16, pipe := fieldOf (F.VSC_CCFG_PIPE c) v.toNat })
          ∧ (s.flag (F.VSC_CCFG_EN c) = true → legal old → v.toNat / 2 = old.toNat / 2 → ∃ s', exec (.contextDisable t m c v) s = .next s'
            ∧ s'.flag (F.VSC_CCFG_EN c) = false ∧ s'.flag (F.VSC_CSTAT_OPEN c) = false ∧ (s'.ctx c).frames = []
            ∧ ∀ r < 2, s.get (F.MPL_STAT_CTX r) = c → s'.flag (F.MPL_STAT_BUSY r) = false)
          ∧ (s.flag (F.VSC_CCFG_EN c) = true → legal old → v = old ^^^ 2 → ∃ s', exec (.contextMigrate t m c v) s = .next s'
            ∧ s'.get (F.VSC_CCFG_PIPE c) = 1 - s.get (F.VSC_CCFG_PIPE c)
            ∧ ((s.ctx c).openFrame = none → (s'.ctx c).pipe = 1 - s.get (F.VSC_CCFG_PIPE c) ∧ s'.flag (F.VSC_CSTAT_MIGPEND c) = false)
            ∧ ((s.ctx c).openFrame ≠ none → (s'.ctx c).pipe = (s.ctx c).pipe ∧ (s'.ctx c).migAfter = (s.ctx c).frames.length
              ∧ s'.flag (F.VSC_CSTAT_MIGPEND c) = true))))
    ∧ (∀ (s : State) (t : Nat) (c : Fin 8) (f : Frame) (later : List Frame), c < s.ctxs.length →
    let x := s.atTime t
    let q := if f.processed then f.pipe else (s.ctx c).pipe
    let p := s.pipeOf c f.pb f.lsc
    let o := p.process f.taken
    let base := s.getAddr (R.VSC_OUT_LO c) (R.VSC_OUT_HI c) + f.buf * s.get (F.VSC_BUF_STRIDE c) * 256
    let image := base + (if s.flag (F.VSC_CCFG_EMB c) then 4096 else 0)
    let tap := s.getAddr (R.VSC_TAP_LO c) (R.VSC_TAP_HI c) + f.buf * s.get (F.VSC_TSTR_TSTR c) * 256
    let st := s.getAddr (R.VSC_ST_LO c) (R.VSC_ST_HI c) + f.buf * 0x480
    let areas := [(base, f.emb.length), (image, o.image.length), (tap, o.tap.length), (st, 1152)].filter (fun a => a.2 != 0)
    let visible := if p.recon = 0 then o.sums.getD 0 0 + o.sums.getD 1 0 + o.sums.getD 2 0 else o.sums.getD 3 0
    (s.ctx c).frames = f :: later → f.isOpen = false → f.dropped = false → f.waiting = [] → x.mplOn q = true → s.armed true = false →
      s.flag (F.VSC_NQ_EN c) = false → (∀ a ∈ areas, x.inDram a.1 a.2 = true) → areas.Pairwise (fun a b => a.1 + a.2 ≤ b.1 ∨ b.1 + b.2 ≤ a.1) →
      ∃ s', exec (.frameComplete t c []) s = .next s' ∧ s'.get (F.VSC_WR_WR c) = (s.get (F.VSC_WR_WR c) + 1) % 2 ^ 16
        ∧ s'.readBytes base f.emb.length = f.emb ∧ s'.readBytes image o.image.length = o.image ∧ s'.readBytes tap o.tap.length = o.tap
        ∧ s'.readWords st 12 = [c.val + q * 8 + f.buf * 16 + f.marks % 2 ^ 12 * 2 ^ 8, f.csifn, f.ctxfn, f.tseq, f.tstrike, f.tstrike / 2 ^ 32, f.tfs,
          f.tfs / 2 ^ 32, f.tfe, f.tfe / 2 ^ 32, f.taken.length + f.xlines * 2 ^ 16, f.crcErrs + f.lineLens * 2 ^ 16].map (· % 2 ^ 32)
        ∧ (f.taken ≠ [] → s'.readN (st + 48) 4 = o.sharp % 2 ^ 32)
        ∧ (p.has 4 = false → s'.readN (st + 52) 4 = 0) ∧ (p.has 4 = true → visible = 0 → s'.readN (st + 52) 4 = 2 ^ 32 - 1)
        ∧ (p.has 4 = true → 0 < visible → (rdiv (o.sums.getD 4 0 * 2 ^ 24 : Nat) visible) < 2 ^ 32 →
          (s'.readN (st + 52) 4 : Int) = rdiv (o.sums.getD 4 0 * 2 ^ 24 : Nat) visible)
        ∧ (∀ i < 5, s'.readN (st + 64 + 8 * i) 8 = o.sums.getD i 0 % 2 ^ 64) ∧ (∀ i < 256, s'.readN (st + 128 + 4 * i) 4 = o.hist.getD i 0 % 2 ^ 32)
        ∧ ∀ a, (∀ r ∈ areas, a < r.1 ∨ r.1 + r.2 ≤ a) → s'.byte a = s.byte a)
    ∧ (∀ (p : Pipe) (v k y x r h : Nat) (s : Plane) (px : Px),
    let near (a b : Nat) : Nat := (2 * a + b) / (2 * b)
    let same := ((window 2 h p.width y x).filter (fun e => e != (y, x) && p.code e.1 e.2 == p.code y x)).map (fun e => s.px e.1 e.2)
    let thr := p.par 12 2
    ((window r h p.width y x).Nodup ∧ ∀ e, e ∈ window r h p.width y x ↔ (e.1 < h ∧ e.1 ≤ y + r ∧ y ≤ e.1 + r) ∧ e.2 < p.width ∧ e.2 ≤ x + r ∧ x ≤ e.2 + r)
      ∧ p.blackLevel k v = min 65535 (near ((v - p.par (2 * k) 2) * p.par 10 2) (2 ^ 14))
      ∧ (((∃ a ∈ same, s.px y x ≤ a + thr) ∧ (∃ a ∈ same, a ≤ s.px y x + thr) ∨ same = []) → p.defect h s y x = s.px y x)
      ∧ (same ≠ [] → ((∀ a ∈ same, a + thr < s.px y x) ∨ ∀ a ∈ same, s.px y x + thr < a) →
        let m := p.defect h s y x
        m ∈ same ∧ same.countP (fun a => decide (a < m)) ≤ (same.length - 1) / 2 ∧ (same.length - 1) / 2 < same.countP (fun a => decide (a ≤ m)))
      ∧ (∀ g, 2 ≤ p.height → 2 ≤ p.width → y < p.height → x < p.width →
        ((∀ n < 289, leAt p.lsc ((k * 289 + n) * 2) 2 = g) → p.lens k y x v = min 65535 (near (v * g) (2 ^ 14)))
          ∧ ∀ i ≤ 16, ∀ j ≤ 16, y * 16 = i * (p.height - 1) → x * 16 = j * (p.width - 1) →
            p.lens k y x v = min 65535 (near (v * leAt p.lsc ((k * 289 + i * 17 + j) * 2) 2) (2 ^ 14)))
      ∧ (p.code y x = k → p.interpolate h s k y x = s.px y x)
      ∧ (p.code y x ≠ k → ∀ d, (d = 1 ∨ d = 2 ∧ ∀ e ∈ window 1 h p.width y x, p.code e.1 e.2 ≠ k) →
        let l := ((window d h p.width y x).filter (fun e => p.code e.1 e.2 == k)).map (fun e => s.px e.1 e.2)
        l ≠ [] → p.interpolate h s k y x = near l.sum l.length)
      ∧ ((p.reconstruct px).2 = (if p.recon = 3 then (p.reconstruct px).1.c else ((p.reconstruct px).1.r + 2 * (p.reconstruct px).1.g + (p.reconstruct px).1.b + 2) / 4))
      ∧ (p.recon = 0 → (∀ i < 3, p.has i = true) → (p.reconstruct px).1.r = px.r - near (p.par 24 2 * px.i) (2 ^ 15)
        ∧ (p.reconstruct px).1.g = px.g - near (p.par 26 2 * px.i) (2 ^ 15) ∧ (p.reconstruct px).1.b = px.b - near (p.par 28 2 * px.i) (2 ^ 15))
      ∧ (p.recon = 1 → (p.reconstruct px).1.g
        = (p.reconstruct px).1.c - near (p.par 32 2 * (p.reconstruct px).1.r + p.par 34 2 * (p.reconstruct px).1.b) (2 ^ 15))
      ∧ (p.recon = 2 → (p.reconstruct px).1.b
        = (p.reconstruct px).1.c - near (p.par 32 2 * (p.reconstruct px).1.r + p.par 34 2 * (p.reconstruct px).1.g) (2 ^ 15))
      ∧ ((p.recon = 3 ∨ p.flag 2 = false) → p.matrix px = px) ∧ ((p.matrix px).c = px.c ∧ (p.matrix px).i = px.i)
      ∧ (p.recon ≠ 3 → p.flag 2 = true → ∀ i < 3, (∀ j < 3, p.par (36 + 6 * i + 2 * j) 2 = if i = j then 2 ^ 12 else 0) → p.par (54 + 2 * i) 2 = 0 →
        (p.matrix px).plane 0 i = min 65535 (px.plane 0 i))
      ∧ (∀ n < 64, p.tone (1024 * n) = p.par (64 + 2 * n) 2 ∧ ∀ e < 1024, p.par (64 + 2 * n) 2 ≤ p.par (66 + 2 * n) 2 →
        p.tone (1024 * n + e) = p.par (64 + 2 * n) 2 + near ((p.par (66 + 2 * n) 2 - p.par (64 + 2 * n) 2) * e) 1024)
      ∧ (∀ lines : List (List Byte), lines.length ≤ p.height → p.height % 8 = 0 → p.width % 8 = 0 → 8 ≤ p.height → 8 ≤ p.width → (p.bits = 10 ∨ p.bits = 12 ∨ p.bits = 14) →
        let o := p.process lines
        let d := p.develop lines
        let pixels := (List.range lines.length).flatMap (fun a => (List.range p.width).map (fun b => (a, b)))
        (∀ z < 16, ∀ n < 16, o.hist.getD (16 * z + n) 0
            = pixels.countP (fun e => decide (4 * (e.1 / (p.height / 4)) + e.2 / (p.width / 4) = z) && decide (p.lumAt d e.1 e.2 / 4096 = n)))
          ∧ o.hist.length = 256 ∧ o.hist.sum = lines.length * p.width
          ∧ (∀ n < 5, o.sums.getD n 0 = (pixels.map (fun e => (d.at e.1 e.2).plane 0 n)).sum)
          ∧ (p.fmt = 0 → lines.length = p.height → o.image.length = p.height / p.vf * (p.width / p.hf) ∧
            (y < p.height / p.vf → x < p.width / p.hf → (o.image.getD (y * (p.width / p.hf) + x) 0).toNat = min 255 ((p.box (p.tonedAt d p.height 5) y x + 128) / 256)))
          ∧ (p.fmt ≤ 4 → lines.length = p.height → o.image.length = p.imageBytes) ∧ (p.tap ≤ 5 → lines.length = p.height → o.tap.length = p.tapBytes)))

/-- The high-rate channels: a strike's sample, and the rotation of their calibration. The impact detector takes one sample of a channel as R134 says;
a closed bin and a full sample record are laid out in their queue, with room there and no injected error waiting (R134–R137, R139). That a record's
flags are those that any of its samples has is the model's choice (log 94). The general inputs: runs of the scan lists, their calibration, and the
capacitance pairs. The frequency inputs: a change shorter than the glitch filter is ignored; an accepted edge is stamped with the start of the stable
interval and counted; one less than 10 µs after the last accepted one is excess; in variable-reluctance mode the negative-going crossing counts above
the threshold; a silent input goes stale. -/
def Obligations.Inputs : Prop :=
  (∀ (s : State) (t : Nat) (n : Fin 8) (seq stamp : Nat) (input : Analog) (gain ofs : Int) (rest : List Nat), n < s.inp.hrin.length →
    let x := s.atTime t
    let on := x.awake hraBlock = true
    let scale : Int := 2 ^ s.get (F.HRA_CFG_GAIN n)
    let ratio := s.flag (F.HRA_CFG_RAT n)
    let k : Int := if s.flag (F.SNP_CFG_V10 (s.get (F.HRA_CFG_RSP n))) then 4 else 2
    let raw := if ratio then rdiv (input.vin * (k * scale) * 2 ^ 23) (input.vsp * 1000000) else rdiv (input.vin * scale * 2 ^ 23) 2500000000000
    let v := min (max raw (-(2 ^ 23 - 1))) (2 ^ 23 - 1)
    let line := s.get (F.HRA_CFG_TLINE n)
    (s.flag (F.HRA_CFG_EN n) = true → on → s.strikeOf line seq (s.hrin n).after = some stamp → 3907 ≤ s.linePer line → s.linePer line ≤ 125000 →
        stamp + 3 * s.strikePer line stamp + 2000 ≤ x.now → (ratio = true → input.vsp ≠ 0) →
        ∃ s', exec (.hrinSample t n seq input) s = .next s' ∧ signedOf 24 (s'.word (R.HRA_DATA n) % 2 ^ 24) = v
          ∧ (s'.reg (R.HRA_DATA n)).getLsbD 26 = decide (v ≠ raw) ∧ (s'.hrin n).lastSeq = some seq)
      ∧ (let per := s.get F.HRA_CAL_PER * 1000000000
        let due := per ≠ 0 ∧ s.inp.rotAt + per ≤ x.now ∧ on
        (¬due → exec (.calRotationStart t none) s = .next x)
          ∧ (due → s.inp.calQueue = [] → ∃ s', exec (.calRotationStart t none) s = .next s' ∧ s'.inp.rotAt = x.now
            ∧ s'.inp.calQueue = (List.range 8).filter (fun k => s.flag (F.HRA_CFG_EN k)) ∧ (s'.inp.calQueue ≠ [] → s'.flag F.HRA_STAT_CALACT = true)))
      ∧ (∀ a, s.inp.calQueue = n.val :: rest → s.inp.rotWaits = false → on → (s.hrin n).calFrom = some a → a + 136 * s.linePer line + 20000000 ≤ x.now →
        (gain.natAbs ≤ 5000 → ofs.natAbs ≤ 1000 → ∃ s', exec (.hrinCalComplete t n gain ofs) s = .next s' ∧ (s'.hrin n).corr = (gain, ofs)
            ∧ (s'.hrin n).calAt = some x.now ∧ s'.inp.calQueue = rest.dropWhile (fun k => !s.flag (F.HRA_CFG_EN k)) ∧ s'.flag F.HRA_STAT_CALFAIL = s.flag F.HRA_STAT_CALFAIL)
          ∧ (5000 < gain.natAbs ∨ 1000 < ofs.natAbs → ∃ s', exec (.hrinCalComplete t n gain ofs) s = .next s' ∧ (s'.hrin n).corr = (s.hrin n).corr
            ∧ s'.flag F.HRA_STAT_CALFAIL = true ∧ s'.flag (F.HRA_CSTAT_CALFAIL n) = true
            ∧ s'.inp.calQueue = rest.dropWhile (fun k => !s.flag (F.HRA_CFG_EN k))))
      ∧ (s.flag F.HRA_CAL_TEMP = true → s.flag (F.HRA_CFG_EN n) = true → on → s.inp.calQueue = [] → (s.hrin n).calFrom = none → ∃ s', exec (.hrinTempCal t n) s = .next s'
        ∧ s'.inp.calQueue = [n.val] ∧ s'.flag F.HRA_STAT_CALACT = true ∧ s'.get F.HRA_STAT_CALCH = n))
    ∧ (∀ (s : State) (t : Nat) (n : Fin 8) (seq stamp j : Nat) (input : Analog) (v : Int), n < s.inp.hrin.length →
    let x := s.atTime t
    let c := s.hrin n
    let line := s.get (F.HRA_CFG_TLINE n)
    let bsh := c.imp / 2 ^ 11 % 16
    let eshift := c.imp / 2 ^ 5 % 64
    let kbin := c.imp / 2 % 16
    let thr := c.thr % 2 ^ 23
    let maxlen := c.hld / 2 ^ 16 % 2 ^ 16
    let hold := c.hld % 2 ^ 16
    let b := if bsh = 0 then 0 else if c.pulse then c.base else c.base + (v - c.base) / (2 ^ bsh : Nat)
    let y := v - b
    let e := min ((if c.pulse then c.energy else 0) + (y / 256 * (y / 256)).toNat) (2 ^ 48 - 1)
    let run := (if c.pulse then c.run else 0) + 1
    let quiet := if y.natAbs < thr then (if c.pulse then c.quiet else 0) + 1 else 0
    let k := if e = 0 then 0 else min 15 (e.log2 - eshift)
    let slot (q : Nat) : Nat := s.getAddr (R.QUE_BASE_LO q) (R.QUE_BASE_HI q) + s.get (F.QUE_PIDX_PIDX q) % 2 ^ s.get (F.QUE_CFG_LOG2N q) * (32 * 2 ^ s.get (F.QUE_CFG_ESIZE q))
    let room (q words : Nat) : Prop := s.flag (F.QUE_CFG_EN q) = true ∧ (s.get (F.QUE_PIDX_PIDX q) + 2 ^ 16 - s.get (F.QUE_CIDX_CIDX q)) % 2 ^ 16 < 2 ^ s.get (F.QUE_CFG_LOG2N q)
      ∧ words * 4 + 8 ≤ 32 * 2 ^ s.get (F.QUE_CFG_ESIZE q) ∧ s.inDram (slot q) (32 * 2 ^ s.get (F.QUE_CFG_ESIZE q)) = true ∧ s.blockHeld (fieldBlock 7 0) = false
      ∧ s.armed true = false
    (s.flag (F.HRA_CFG_EN n) = true → x.awake hraBlock = true → s.strikeOf line seq c.after = some stamp → 3907 ≤ s.linePer line → s.linePer line ≤ 125000 →
        stamp + 3 * s.strikePer line stamp + 2000 ≤ x.now → s.flag (F.HRA_CFG_RAT n) = false → s.flag (F.HRA_IMP_IEN n) = true →
        v = min (max (rdiv (input.vin * 2 ^ s.get (F.HRA_CFG_GAIN n) * 2 ^ 23) 2500000000000) (-(2 ^ 23 - 1))) (2 ^ 23 - 1) →
        (c.bin = some (stamp / 1000000) → ∃ s', exec (.hrinSample t n seq input) s = .next s' ∧ (s'.hrin n).base = b ∧ (s'.hrin n).bin = c.bin
          ∧ (c.pulse = false → y.natAbs < thr → (s'.hrin n).pulse = false ∧ (s'.hrin n).count = c.count ∧ (s'.hrin n).hist = c.hist ∧ (s'.hrin n).esum = c.esum)
          ∧ ((c.pulse = true ∨ thr ≤ y.natAbs) → quiet < hold → run < maxlen → (s'.hrin n).pulse = true ∧ (s'.hrin n).energy = e ∧ (s'.hrin n).run = run
            ∧ (s'.hrin n).quiet = quiet ∧ (s'.hrin n).count = c.count ∧ s'.word (R.HRA_ICNT n) = s.word (R.HRA_ICNT n))
          ∧ ((c.pulse = true ∨ thr ≤ y.natAbs) → (hold ≤ quiet ∨ maxlen ≤ run) → (s'.hrin n).pulse = false ∧ (s'.hrin n).count = min (c.count + 1) 0xFFFF
            ∧ (s'.hrin n).kcount = (if kbin ≤ k then min (c.kcount + 1) 0xFFFF else c.kcount) ∧ (s'.hrin n).esum = min (c.esum + e / 2 ^ eshift) (2 ^ 32 - 1)
            ∧ (s'.hrin n).hist = c.hist.set k (min (c.hist.getD k 0 + 1) 0xFFFF) ∧ s'.word (R.HRA_ICNT n) = (s.word (R.HRA_ICNT n) + 1) % 2 ^ 32
            ∧ (s'.hrin n).flags.testBit 3 = (decide (maxlen ≤ run) || c.flags.testBit 3)
            ∧ s'.get (F.HRA_XCNT_FORCED n) = if maxlen ≤ run then min (s.get (F.HRA_XCNT_FORCED n) + 1) (2 ^ (F.HRA_XCNT_FORCED n).width - 1) else s.get (F.HRA_XCNT_FORCED n)))
        ∧ (∀ i, c.bin = some i → i + 1 = stamp / 1000000 → ∃ s', exec (.hrinSample t n seq input) s = .next s' ∧ (s'.hrin n).bin = some (i + 1)
          ∧ (s'.hrin n).lastBin = c.count + c.kcount * 2 ^ 16 ∧ (s'.hrin n).count ≤ 1 ∧ (s'.hrin n).hist.sum ≤ 1))
      ∧ (s.flag (F.HRA_Q_IQEN n) = true → room (s.get (F.HRA_Q_IQUEUE n)) 13 → c.omits = [] → c.flags < 64 → c.count < 2 ^ 16 → c.kcount < 2 ^ 16 → c.esum < 2 ^ 32 →
        (∀ w ∈ c.hist, w < 2 ^ 16) → j < 2 ^ 40 →
        let q := s.get (F.HRA_Q_IQUEUE n)
        let s' := s.closeBin n j
        s'.readN (slot q) 4 = s.get (F.QUE_TAG_CUR q) + 0x20 * 2 ^ 16 + 13 * 2 ^ 24
          ∧ s'.readWords (slot q + 8) 13 = [n + c.flags * 2 ^ 8, c.count + c.kcount * 2 ^ 16, j * 1000000 % 2 ^ 32, j * 1000000 / 2 ^ 32, c.esum]
            ++ (List.range 8).map (fun i => c.hist.getD (2 * i) 0 + c.hist.getD (2 * i + 1) 0 * 2 ^ 16)
          ∧ s'.get (F.QUE_PIDX_PIDX q) = (s.get (F.QUE_PIDX_PIDX q) + 1) % 2 ^ 16 ∧ (s'.hrin n).count = 0 ∧ (s'.hrin n).esum = 0
          ∧ (s'.hrin n).hist = List.replicate 16 0 ∧ (s'.hrin n).pulse = c.pulse ∧ (s'.hrin n).energy = c.energy)
      ∧ (∀ flags, flags < 64 → c.recFlags < 64 → s.flag (F.HRA_Q_SQEN n) = true → room (s.get (F.HRA_Q_SQUEUE n)) 20 → c.samples.length = 15 → seq = (c.recSeq + 15) % 2 ^ 32 →
        c.recSeq < 2 ^ 32 → c.recTime < 2 ^ 64 →
        let q := s.get (F.HRA_Q_SQUEUE n)
        let s' := s.recordSample n seq stamp v flags
        s'.readN (slot q) 4 = s.get (F.QUE_TAG_CUR q) + 0x21 * 2 ^ 16 + 20 * 2 ^ 24
          ∧ s'.readWords (slot q + 8) 20 = [n + (c.recFlags ||| flags) * 2 ^ 8 + 16 * 2 ^ 16, c.recSeq, c.recTime % 2 ^ 32, c.recTime / 2 ^ 32]
            ++ (c.samples ++ [v]).map (bitsOf 32)
          ∧ (s'.hrin n).samples = [] ∧ s'.get (F.QUE_PIDX_PIDX q) = (s.get (F.QUE_PIDX_PIDX q) + 1) % 2 ^ 16))
    ∧ (∀ (s : State) (t : Nat) (n : Fin 4) (seq stamp : Nat), n < s.inp.lists.length → n < s.inp.pairs.length →
    let x := s.atTime t
    let on := x.awake gpaBlock = true
    let idle := s.flag F.GPA_STAT_BUSY = false ∧ s.inp.gcalEnds ≤ x.now
    let list := { s.scan n with after := some stamp }
    let pair := { s.pair n with after := some stamp }
    (s.flag (F.GPA_LCFG_EN n) = true → on → s.strikeOf (s.get (F.GPA_LCFG_TLINE n)) seq (s.scan n).after = some stamp →
        ((s.scan n).waiting = none → (s.scan n).running = none →
            exec (.gpaListStrike t n seq) s = .next (x.setScan n { list with waiting := some (seq, stamp) }))
          ∧ ((s.scan n).running ≠ none →
            exec (.gpaListStrike t n seq) s = .next (((x.setScan n list).countSat (F.GPA_LOMIT_OMIT n)).raise F.GPA_STAT_OMIT)))
      ∧ (idle → on → (∀ k < n, (s.scan k).waiting = none) → (s.scan n).waiting = some (seq, stamp) →
        exec (.gpaRunStart t) s = .next
          (((x.setScan n { s.scan n with waiting := none, running := some (seq, stamp), wait := nearest (x.now - stamp) 1000, began := x.now, chans := s.listChannels n }).raise
            F.GPA_STAT_BUSY).raiseIf ((s.listChannels n).length != s.get (F.GPA_LCFG_LEN n)) F.GPA_STAT_CFGERR))
      ∧ (∀ (c : Fin 32) (input : Analog), (s.scan n).running = some (seq, stamp) → (s.scan n).chans = [c.val] → (s.scan n).began + 1000 ≤ x.now → on →
        (s.flag (F.GPA_CCFG_RAT c) = true → input.vsp ≠ 0) →
        let v := if s.flag (F.GPA_CCFG_RAT c) then rdiv (input.vin * 2 ^ 18) (input.vsp * 1000)
          else rdiv (input.vin * 2 ^ 18) (2500000000 * 2 ^ s.get (F.GPA_CCFG_RANGE c))
        ∃ s', exec (.gpaRunComplete t n [input]) s = .next s' ∧ (s'.scan n).running = none ∧ s'.flag F.GPA_STAT_BUSY = false
          ∧ ((s'.word (R.GPA_CDATA c) % 2 ^ 18 : Nat) : Int) = min (max v 0) 0x3FFFF ∧ (s'.reg (R.GPA_CDATA c)).getLsbD 31 = true
          ∧ (s'.reg (R.GPA_CDATA c)).getLsbD 29 = decide (v < 0 ∨ 0x3FFFF < v))
      ∧ (s.inp.gcalNow = true → idle → on → (∀ l ∈ s.inp.lists, l.waiting = none) → exec (.gpaBackgroundCal t) s =
        .next (x.withInp { s.inp with gcalAt := x.now, gcalNow := false, gcalLate := false, gcalEnds := x.now + 2000 }))
      ∧ (∀ (m : Master) (v : Word), s.isOwner m = true → Reaches s t R.GPA_CAL → v.getLsbD 0 = true → ∃ s', exec (.gpaCalNow t m v) s = .next s'
        ∧ s'.inp = { s.inp with gcalNow := true } ∧ s'.get F.GPA_CAL_PER = v.toNat / 256 % 256 ∧ s'.reply = some (stOk, []))
      ∧ (s.flag (F.GPA_CAPCFG_EN n) = true → on → s.strikeOf (s.get (F.GPA_CAPCFG_TLINE n)) seq (s.pair n).after = some stamp →
        ((s.pair n).busy ≠ none →
            exec (.capMeasureStart t n seq) s = .next (((x.setPair n pair).countSat (F.GPA_LOMIT_OMIT n)).raise F.GPA_STAT_OMIT))
          ∧ ((s.pair n).busy = none → ∃ s', exec (.capMeasureStart t n seq) s = .next s' ∧ (s'.pair n).busy = some (seq, stamp)
            ∧ ((s.pair n).refAt = none → (s'.pair n).onRef = true ∧ (s'.pair n).refAt = some stamp)
            ∧ ∀ a, (s.pair n).refAt = some a → (s'.pair n).onRef = decide (a + 60000000000 ≤ stamp)))
      ∧ (∀ c g : Int, (s.pair n).busy = some (seq, stamp) → on →
        stamp + s.get (F.GPA_CAPCFG_NCYC n) * 1000000 / s.get (F.GPA_CAPCFG_FREQ n) + 10000 ≤ x.now →
          ((s.pair n).onRef = true → exec (.capMeasureDone t n c g) s =
            .next (x.setPair n { s.pair n with busy := none, onRef := false, corr := some (c, g) }))
          ∧ ((s.pair n).onRef = false → ∃ s', exec (.capMeasureDone t n c g) s = .next s' ∧ (s'.pair n).busy = none
            ∧ ((s'.word (R.GPA_CAPC n) % 2 ^ 31 : Nat) : Int) = min (max c 0) 100000 ∧ (s'.reg (R.GPA_CAPC n)).getLsbD 31 = decide (c < 0 ∨ 100000 < c)
            ∧ ((s'.word (R.GPA_CAPG n) % 2 ^ 31 : Nat) : Int) = min (max g 0) 100000)))
    ∧ (∀ (s : State) (t : Nat) (n : Fin 24), n < s.fins.length →
    let x := s.atTime t
    let y := s.fin n
    let on := x.awake fqiBlock = true
    (∀ e : FinChange, e.stable < s.get (F.FQI_CFG_GF n) * 100 → exec (.finEdge t n e) s = .next x)
      ∧ (∀ e : FinChange, s.flag (F.FQI_CFG_EN n) = true → s.flag (F.FQI_CFG_VR n) = true → on → s.get (F.FQI_CFG_GF n) * 100 ≤ e.stable →
        e.rising = false → 20 ≤ e.peak → 2 * s.get (F.FQI_VR_VRMIN n) < e.peak → (s.get (F.FQI_VR_VRFRAC n) + 1) * y.vrPeak < 4 * e.peak →
        (∀ p, y.last = some p → p + 10000 ≤ x.now - e.stable) → ∃ s', exec (.finEdge t n e) s = .next s' ∧ (s'.fin n).last = some (x.now - e.stable)
          ∧ (s'.fin n).vrPeak = e.peak ∧ s'.word (R.FQI_ECNT n) = (s.word (R.FQI_ECNT n) + 1) % 2 ^ 32)
      ∧ (∀ e : FinChange, s.flag (F.FQI_CFG_EN n) = true → s.flag (F.FQI_CFG_VR n) = false → on → s.get (F.FQI_CFG_GF n) * 100 ≤ e.stable →
        y.level ≠ some e.rising → (s.get (F.FQI_CFG_EDGE n) = 0 → e.rising = true) → (s.get (F.FQI_CFG_EDGE n) = 1 → e.rising = false) →
        let stamp := x.now - e.stable
        let z := { y with level := some e.rising }
        ((∀ p, y.last = some p → p + 10000 ≤ stamp) → ∃ s', exec (.finEdge t n e) s = .next s' ∧ (s'.fin n).last = some stamp
            ∧ (s'.fin n).stamps = (stamp :: y.stamps).take 64 ∧ s'.get64 (R.FQI_TLO n) (R.FQI_THI n) = stamp % 2 ^ 64
            ∧ s'.word (R.FQI_ECNT n) = (s.word (R.FQI_ECNT n) + 1) % 2 ^ 32 ∧ (y.stamps ≠ [] → s'.flag (staleBit n) = false))
          ∧ (∀ p, y.last = some p → stamp < p + 10000 → exec (.finEdge t n e) s =
            .next (((((x.setFin n z).countSat (F.FQI_OCNT_COUNT n)).raise (overBit n)).raise F.FQI_STAT_OVRS).setFin n { z with excessAt := x.now })))
      ∧ (∀ t0 r, y.stamps = t0 :: r →
        (x.now ≤ t0 + s.get (F.FQI_STALL_STALL n) * 1000 → exec (.finStall t n) s = .next x)
          ∧ (t0 + s.get (F.FQI_STALL_STALL n) * 1000 < x.now → on → ∃ s', exec (.finStall t n) s = .next s' ∧ s'.flag (staleBit n) = true
            ∧ (s'.fin n).stamps = [] ∧ s'.finFreq n = 0))
      ∧ exec (.finOvrClear t n) s = .next (if y.excessAt + 1000000 ≤ x.now ∧ on then x.put (overBit n) 0 else x))

/-- Work units and jobs of the executor, the close of an instant, the publication of a head. Writes of the sources, the grids and the yield position.
-/
def Obligations.Fusion : Prop :=
  (∀ (s : State) (t : Nat) (g : Fin 4) (h : Fin 32),
    let x := s.atTime t
    (∀ j rest d, s.fus.heads = [] → s.fus.started = none → s.fus.jobs = j :: rest → (s.src j.src).cur = some d →
        x.fexOn = true → ¬((x.instantOf d j.tstrike).2 = true ∧ (x.instantOf d j.tstrike).1 ≤ (s.grid d.grid).closed) →
        s.progValid d.prog = true → (j.width, j.height) = ((s.prog d.prog).inw, (s.prog d.prog).inh) →
        ∃ s', exec (.workUnitBoundary t) s = .next s' ∧ s'.fus.started = some j ∧ s'.fus.jobs = rest ∧ s'.flag F.FEX_STAT_BUSY = true
          ∧ s'.fus.lastUnit = x.now)
      ∧ (∀ j, x.fexOn = true → s.fus.started = some j → j.src < 32 → ∃ s', exec (.frameJobComplete t) s = .next s' ∧ s'.fus.started = none
        ∧ s'.word (R.FUS_SDONE j.src) = j.ctxfn % 2 ^ 32
        ∧ ∀ d, (s.src j.src).cur = some d → d.proj ≠ 2 →
          let read := s.poisoned j.addr (j.width * j.height * (s.prog d.prog).inch) || s.progPoisoned s.fus.setBase (s.progAddr s.fus.setBase d.prog)
          s'.get F.FEX_JCNT_COUNT = (if read || s.fus.jobBad then s.get F.FEX_JCNT_COUNT else (s.get F.FEX_JCNT_COUNT + 1) % 2 ^ F.FEX_JCNT_COUNT.width)
            ∧ ((read || s.fus.jobBad) = true → s'.get (F.FUS_SLOSS_DROP j.src) = min (s.get (F.FUS_SLOSS_DROP j.src) + 1) (2 ^ (F.FUS_SLOSS_DROP j.src).width - 1)
              ∧ s'.flag F.FEX_STAT_POISON = true))
      ∧ (s.start.isSome = true → x.awake fusPlace = true → x.fusDown = false → s.flag (F.FUS_GCFG_EN g) = true → x.now % (s.hb.fusp * 50000) = 0 → (s.grid g).closed < x.now → g < s.fus.grids.length →
        ((s.grid g).run = false → ∃ s', exec (.instantClose t g) s = .next s' ∧ s'.grid g = { run := true, first := true, closed := x.now, opens := (x.now / x.fusPeriod + 1) * x.fusPeriod })
          ∧ ((s.grid g).run = true → (s.grid g).opens ≤ x.now → ∃ s', exec (.instantClose t g) s = .next s' ∧ (s'.grid g).closed = x.now
            ∧ s'.word (R.FUS_GINST g) = x.now / 50000 % 2 ^ 32 ∧ s'.word R.FUS_INST = x.now / 50000 % 2 ^ 32
            ∧ s'.get (F.FUS_GLAST_BUF g) = x.now / 50000 % 2 ∧ (s'.grid g).set = 1 - ((x.skipTo g x.now).grid g).set ∧ ∀ c ∈ (s'.grid g).contribs, x.now < c.closes))
      ∧ (∀ j rest, s.fus.heads = j :: rest → j.head = h.val → s.poisoned j.addr (s.gridW j.grid * s.gridH j.grid * s.gridC j.grid * 2) = false →
        s.progPoisoned s.fus.setBase (s.progAddr s.fus.setBase j.prog) = false → s.fus.jobBad = false → x.fexOn = true →
        ∃ s', exec (.headPublish t h) s = .next s' ∧ s'.fus.heads = rest ∧ s'.word (R.FUS_HINST h) = j.closes / 50000 % 2 ^ 32
          ∧ s'.word (R.FUS_HOUT h) = bitsOf 32 (s.headValue j) ∧ s'.word (R.FUS_HSTAT h) = 1 ∧ s'.get F.FEX_JCNT_COUNT = (s.get F.FEX_JCNT_COUNT + 1) % 2 ^ F.FEX_JCNT_COUNT.width))
    ∧ (∀ (s : State) (t : Nat) (m : Master) (k : Fin 32) (g : Fin 4) (v : Word), k < s.fus.srcs.length → g < s.fus.grids.length →
    let x := s.atTime t
    (s.isOwner m = true → Reaches s t (R.FUS_SCTL k) →
        (v.getLsbD 0 = true → ∃ s', exec (.sourceEnable t m k v) s = .next s' ∧ s'.get (F.FUS_SCTL_ERR k) = s.srcErr k % 2 ^ (F.FUS_SCTL_ERR k).width
            ∧ s'.flag (F.FUS_SCTL_EN k) = decide (s.srcErr k = 0) ∧ (s'.src k).leaving = decide (s.srcErr k = 0 ∧ (s.readSrc k).kind = 0)
            ∧ (s.srcErr k ≠ 0 → (s'.src k).cur = none ∧ (s'.src k).next = none)
            ∧ (s.srcErr k = 0 → (s'.src k).cur = (s.src k).cur ∧ (s'.src k).next = if (s.readSrc k).kind = 0 then none else some (s.readSrc k)))
          ∧ exec (.sourceDisable t m k v) s = .next
            (((x.put (F.FUS_SCTL_EN k) 0).setSrc k { s.src k with next := none, leaving := true }).answered (R.FUS_SCTL k)))
      ∧ (Reaches s t (R.FUS_SPUT k) →
        ((s.src k).cur = none → exec (.fusSputWrite t m k v) s = .next ((x.setReg (R.FUS_SPUT k) v).answered (R.FUS_SPUT k)))
          ∧ ∀ d, (s.src k).cur = some d → d.kind = 7 → d.ten = false →
            exec (.fusSputWrite t m k v) s = .next (((x.setReg (R.FUS_SPUT k) v).contribute k x.now none [v.toInt]).answered (R.FUS_SPUT k)))
      ∧ (s.isOwner m = true → Reaches s t (R.FUS_GCFG g) →
        (s.flag (F.FUS_GCFG_EN g) = false → v.getLsbD 0 = true → 1 ≤ fieldOf (F.FUS_GCFG_C g) v.toNat → fieldOf (F.FUS_GCFG_C g) v.toNat ≤ 64 →
            ∃ s', exec (.gridEnable t m g v) s = .next s' ∧ s'.flag (F.FUS_GCFG_EN g) = true ∧ s'.gridC g = fieldOf (F.FUS_GCFG_C g) v.toNat
              ∧ s'.gridW g = fieldOf (F.FUS_GCFG_WM1 g) v.toNat + 1 ∧ s'.gridH g = fieldOf (F.FUS_GCFG_HM1 g) v.toNat + 1)
          ∧ (s.flag (F.FUS_GCFG_EN g) = true → v.toNat / 2 = s.word (R.FUS_GCFG g) / 2 → v.toNat < 2 ^ 24 → 1 ≤ s.gridC g → s.gridC g ≤ 64 →
            ∃ s', exec (.gridDisable t m g v) s = .next s' ∧ s'.flag (F.FUS_GCFG_EN g) = false ∧ s'.grid g = {}))
      ∧ (Reaches s t R.YT_COMMIT → v.getLsbD 0 = true → exec (.ytCommit t m v) s = .next
        ((x.withFus { s.fus with ytPos := some ((s.reg R.YT_X).toInt, (s.reg R.YT_Y).toInt, s.get F.YT_HDG_HDG, s.get F.YT_WID_WID) }).answered R.YT_COMMIT)))

/-! The control engine (R245-R282). -/

/-- The owner's commands to lanes, loops and migrations. -/
def Obligations.ControlWrites : Prop :=
  ∀ (s : State) (t : Nat) (m : Master) (h : Fin 2) (l : Fin 8) (n : Fin 256) (v : Word), s.isOwner m = true → h < s.ces.length → h.val * 8 + l < s.lns.length →
    let x := s.atTime t
    let idle := ¬(s.lnst h l = lnPending ∨ s.lnst h l = lnRunning ∨ s.lnst h l = lnWaiting)
    (Reaches s t (R.LAN_CTL h l) → v.getLsbD 0 = true → v.getLsbD 1 = false →
        (idle → ∃ s', exec (.laneStart t m h l v) s = .next s' ∧ s'.lnst h l = lnPending ∧ (s'.ln h l).staged = [] ∧ (s'.ln h l).startAt = x.now)
          ∧ (¬idle → exec (.laneStart t m h l v) s = .next ((x.raise (F.CE_STAT_CFGERR h)).answered (R.LAN_CTL h l))))
      ∧ (Reaches s t (R.LAN_CTL h l) → v.getLsbD 0 = false → v.getLsbD 1 = true → ∃ s', exec (.laneStop t m h l v) s = .next s' ∧ s'.lnst h l = lnIdle
        ∧ (s'.ln h l).staged = [] ∧ s'.get (F.LAN_STAT_RUNS h l) = s.get (F.LAN_STAT_RUNS h l))
      ∧ (Reaches s t (R.LPD_CTL h n) → s.flag (F.LPD_CTL_EN h n) = false → v.getLsbD 0 = true →
        let k := (v.getLsbD 2).toNat
        let good := s.bankValid h n k = true ∧ ¬(v.getLsbD 6 = true ∧ v.toNat / 2 ^ 16 % 256 = n)
        (good → ∃ s', exec (.loopEnable t m h n v) s = .next s' ∧ s'.flag (F.LPD_CTL_EN h n) = true ∧ s'.flag (loopBit h n 4) = true
            ∧ s'.get (F.LPD_CTL_OWNER h n) = v.toNat / 2 ^ 10 % 8 ∧ s'.flag (F.LPH_STAT_CFGERR h) = s.flag (F.LPH_STAT_CFGERR h))
          ∧ (¬good → ∃ s', exec (.loopEnable t m h n v) s = .next s' ∧ s'.flag (F.LPD_CTL_EN h n) = false ∧ s'.flag (F.LPH_STAT_CFGERR h) = true
            ∧ s'.get (F.LPH_STAT_LAST h) = n))
      ∧ (Reaches s t (R.LPH_SWAP h) → v.getLsbD 9 = true → v.toNat % 256 = n → ∃ s', exec (.lphSwapReq t m h v) s = .next s'
        ∧ s'.flag (loopBit h n 3) = (s.flag (F.LPD_CTL_EN h n) && decide (s.get (F.LPD_CTL_BANK h n) ≠ (v.getLsbD 8).toNat))
        ∧ s'.get (F.LPD_CTL_BANK h n) = s.get (F.LPD_CTL_BANK h n))
      ∧ (Reaches s t (R.CE_MIG h) → v.getLsbD 8 = true → v.getLsbD 9 = false →
        let src := v.toNat % 8
        let dst := v.toNat / 16 % 8
        let may := (s.lnst h src = lnRunning ∨ s.lnst h src = lnWaiting) ∧ s.lnst h dst = lnIdle ∧ src ≠ dst ∧ (s.ce h).mig = none
        (may → ∃ s', exec (.migrationArm t m h v) s = .next s' ∧ (s'.ce h).mig = some (src, dst) ∧ s'.flag (F.CE_STAT_MIGPEND h) = true
            ∧ s'.flag (F.CE_STAT_MIGRDY h) = false ∧ s'.laneClass h dst = s.laneClass h src ∧ s'.lnst h src = s.lnst h src)
          ∧ (¬may → exec (.migrationArm t m h v) s = .next ((x.raise (F.CE_STAT_MIGFAIL h)).answered (R.CE_MIG h))))
      ∧ (Reaches s t (R.CE_MIG h) → v.getLsbD 8 = false → v.getLsbD 9 = true → (s.ce h).mig ≠ none → ∃ s', exec (.migrationAbort t m h v) s = .next s'
        ∧ (s'.ce h).mig = none ∧ s'.flag (F.CE_STAT_MIGFAIL h) = true ∧ s'.flag (F.CE_STAT_MIGPEND h) = false)
      ∧ (∀ src dst, (s.ce h).mig = some (src, dst) → s.flag (F.CE_STAT_MIGRDY h) = false →
        exec (.migrationCopyDone t h) s = .next ((x.copyMem (instTcm h src) (instTcm h dst) 0x20000).raise (F.CE_STAT_MIGRDY h)))

/-- A lane boundary with no lane in a pass: a waiting lane whose class is due is released with nothing staged left, a pending one starts at address 0
with fresh registers, and a lane that is not due stays as it was. The order within a boundary is the model's reading (log 53). -/
def Obligations.LaneBoundaries : Prop :=
  ∀ (s : State) (t : Nat) (h : Fin 2) (l : Fin 8),
    let x := s.atTime t
    s.start.isSome = true → x.now % 50000 = 0 → s.isActive h = true → x.flushOver = false → (∀ b, (s.ce h).boundAt = some b → b < x.now) → (s.ce h).mig = none →
    (s.ce h).held = false → (∀ k : Fin 8, s.lnst h k ≠ lnRunning) → h < s.ces.length → h.val * 8 + l < s.lns.length → h.val * 8 + l < s.lanes.length →
      ∃ s', exec (.laneBoundary t h []) s = .next s' ∧ (s'.ce h).boundAt = some x.now
        ∧ (x.now / 50000 % classTicks (s.laneClass h l) = 0 → s.lnst h l = lnWaiting →
          s'.lnst h l = lnRunning ∧ (s'.ln h l).staged = [] ∧ (s'.ln h l).missed = 0 ∧ (s'.lanes.getD (h * 8 + l) {}).pc = (s.lanes.getD (h * 8 + l) {}).pc)
        ∧ (x.now / 50000 % classTicks (s.laneClass h l) = 0 → s.lnst h l = lnPending →
          s'.lnst h l = lnRunning ∧ (s'.lanes.getD (h * 8 + l) {}).pc = 0 ∧ (s'.lanes.getD (h * 8 + l) {}).started = true
            ∧ (s'.lanes.getD (h * 8 + l) {}).rstack = [])
        ∧ (x.now / 50000 % classTicks (s.laneClass h l) ≠ 0 → s'.lnst h l = s.lnst h l ∧ s'.ln h l = s.ln h l)

/-! The power die (R283-R379, R495-R497, R519, R520, R527). -/

/-- The regulator, the phases, the boost grants and the calibration of the fingers. Measured currents and voltages are operands (log 58); so are the
ends of phases. -/
def Obligations.FingerDrive : Prop :=
  ∀ (s : State) (t : Nat) (n : Fin 32) (p : Fin 8), n < s.drv.fngs.length → n.val / 4 < s.drv.palms.length →
    let x := s.atTime t
    let pos := s.get F.FNG_CALPOS_POS
    exec (.decayComplete t n) s = .next (if s.fst n = fDecay then (x.put (F.FNG_STAT_STATE n) fOff).gflt n else x)
      ∧ (∀ i ir vs vp vc, ∃ s', exec (.regulatorUpdate t n i ir vs vp vc none) s = .next s' ∧ s'.get (F.PLM_VP_VP (n / 4)) = min vp 65535
        ∧ s'.word (R.FNG_IMEAS n) % 2 ^ 20 = min ((2 * (i * 65536) + 3000000) / 6000000) 0xFFFFF ∧ s'.fst n = s.fst n)
      ∧ (∀ i : Nat, s.slave n = false → s.fst n = fRun → phEnd (s.phl n) = 0 → phTime (s.phh n) ≠ 0 →
        (x.clock < (s.fng n).phaseAt + phTime (s.phh n) * 1000 → exec (.phaseEnd t n i none) s = .next x)
          ∧ ((s.fng n).phaseAt + phTime (s.phh n) * 1000 ≤ x.clock → (s.fng n).phases.length ≤ s.get (F.FNG_STAT_PHASE n) + 1 →
            ∃ s', exec (.phaseEnd t n i none) s = .next s' ∧ s'.fst n = fDecay ∧ s'.flag (F.FNG_STAT_ENDED n) = true ∧ (s'.fng n).ended = true))
      ∧ ((s.palm (n / 4)).queue.contains n.val = true → (s.fng n).waitAt + (s.fng n).cfg (F.FNG_CFG_DEFER 0) * 20000 ≤ x.clock →
        ∃ s', exec (.boostDefer t n) s = .next s' ∧ s'.flag (F.FNG_STAT_DEFERRED n) = true ∧ s'.fst n = fRun ∧ (s'.fng n).deferred = true
          ∧ s'.get (F.FNG_CNT_DEFER n) = min (s.get (F.FNG_CNT_DEFER n) + 1) 65535 ∧ (s'.palm (n / 4)).queue.contains n.val = false)
      ∧ (∀ h, s.holder p = some h → (s.palm p).grantAt + 2000000 ≤ x.clock → ∃ s', exec (.boostTimeout t p) s = .next s'
        ∧ s'.flag (F.FNG_STAT_BTMO h) = true)
      ∧ (s.slave n = false → s.fst n = fRun → wbit (s.fng n).wcfg 2 = true → s.closedRise n = false →
        exec (.dzCurrentCut t n) s = .next (x.setFng n { s.fng n with cut := true, duty := 0, fast := s.openFast n }))
      ∧ (∀ gain ofs : Int, s.flag F.FNG_GCTL_CALEN = true → (s.drv.visitAt + 10000000 < x.clock → exec (.fingerCalVisit t gain ofs) s = .next x) ∧
        (x.clock ≤ s.drv.visitAt + 10000000 → (gain.natAbs ≤ 5000 → ofs.natAbs ≤ 500 → ∃ s', exec (.fingerCalVisit t gain ofs) s = .next s' ∧ s'.getS (F.FNG_CAL_GCOR pos) = gain
            ∧ s'.getS (F.FNG_CAL_OCOR pos) = ofs ∧ s'.get F.FNG_CALPOS_POS = (pos + 1) % 32 ∧ s'.drv.visitAt = x.clock)
          ∧ (5000 < gain.natAbs ∨ 500 < ofs.natAbs → ∃ s', exec (.fingerCalVisit t gain ofs) s = .next s' ∧ s'.flag (F.FNG_STAT_CALFAIL pos) = true
            ∧ s'.word (R.FNG_CAL pos) = s.word (R.FNG_CAL pos) ∧ s'.get F.FNG_CALPOS_POS = (pos + 1) % 32)))
      ∧ exec (.fingerCalSkip t) s = .next (if s.flag F.FNG_GCTL_CALEN = true ∧ s.drv.visitAt + 10000000 ≤ x.clock then
          ((x.countSat F.FNG_CALPOS_CALSKIP).put F.FNG_CALPOS_POS (pos + 1)).withDrv { s.drv with visitAt := x.clock } else x)
      ∧ ((s.fng n).stepAt + 10000000 ≤ x.clock → 100 ≤ (s.fng n).mN → ∃ s', exec (.resistanceStep t n) s = .next s'
        ∧ s'.flag (F.FNG_REST_RVALID n) = true ∧ (s'.fng n).va = 0 ∧ (s'.fng n).ia = 0 ∧ (s'.fng n).mN = 0 ∧ (s'.fng n).stepAt = x.clock)
      ∧ (s.drv.savedAt + 60000000000 ≤ x.clock → ∃ s', exec (.coilModelSave t) s = .next s' ∧ s'.drv.savedAt = x.clock
        ∧ s'.readN (0x3011F0000 + 16 * n) 4 = s.get (F.FNG_REST_REST n) ∧ s'.readN (0x3011F0004 + 16 * n) 4 = s.get (F.FNG_LEST_LEST n)
        ∧ ∀ a, a < 0x3011F0000 ∨ 0x3011F0200 ≤ a → s'.byte a = s.byte a)

/-- The protections of the fingers and the palms, and their rearming by the owner. -/
def Obligations.FingerProtection : Prop :=
  ∀ (s : State) (t : Nat) (n : Fin 32) (k : Fin 16) (p : Fin 8) (m : Master) (v : Word), n < s.drv.fngs.length →
    let x := s.atTime t
    let l := s.lead n
    let y := x.dutyMark n
    let lim := fieldOf (F.FNG_DUTY_DLIM 0) (y.fng n).dutyCfg
    (s.flag (F.FNG_STAT_DUTYLIM n) = false → fieldOf (F.FNG_DUTY_DEN 0) (y.fng n).dutyCfg = 1 → s.paired n = false → lim * (64 * (y.fng n).slotLen) ≤ (y.fng n).slots.sum * 100 →
        s.fst n ≠ fLatch → ∃ s', exec (.dutyLimit t n) s = .next s' ∧ s'.flag (F.FNG_STAT_DUTYLIM n) = true ∧ s'.fst n = fHeld)
      ∧ (s.flag (F.FNG_TH2_TEN (2 * k)) = false → ∀ irms, exec (.pairThermalStep t k irms) s = .next x)
      ∧ (∀ irms, s.flag (F.FNG_TH2_TEN (2 * k)) = true → s.paired (2 * k) = true → 2 * k.val < s.drv.fngs.length → ∃ s',
        exec (.pairThermalStep t k irms) s = .next s' ∧ s'.getS (F.FNG_TEMP_TMOD (2 * k)) = satS 16 (ratRound ((s'.fng (2 * k)).tw * 10)))
      ∧ (s.flag (F.FNG_STAT_OTEMP l) = false → s.fst l ≠ fLatch → ∃ s', exec (.switchOvertemp t (.inl n)) s = .next s'
        ∧ s'.flag (F.FNG_STAT_OTEMP l) = true ∧ s'.fst l = fHeld)
      ∧ (s.flag (F.PLM_STAT_OTEMP p) = false → ∃ s', exec (.switchOvertemp t (.inr p)) s = .next s' ∧ s'.flag (F.PLM_STAT_OTEMP p) = true
        ∧ s'.supplies p = false)
      ∧ (s.fst l ≠ fHeld → exec (.switchTempRecover t (.inl n)) s = .next (x.put (F.FNG_STAT_OTEMP l) 0))
      ∧ (∃ s', exec (.switchTempRecover t (.inr p)) s = .next s' ∧ s'.flag (F.PLM_STAT_OTEMP p) = false)
      ∧ (∃ s', exec (.fingerOvercurrent t n) s = .next s' ∧ s'.flag (F.FNG_STAT_OC l) = true ∧ s'.fst l = fLatch)
      ∧ (s.isOwner m = true → Reaches s t (R.FNG_CTL n) → v.getLsbD 0 = true →
        (s.fst n ≠ fLatch → exec (.fingerRearm t m n v) s = .next ((x.put (F.FNG_STAT_OC n) 0).answered (R.FNG_CTL n)))
          ∧ (s.fst n = fLatch → (s.fng n).code = 0 → ∃ s', exec (.fingerRearm t m n v) s = .next s' ∧ s'.flag (F.FNG_STAT_OC n) = false ∧ s'.fst n = fDecay))
      ∧ (250 ≤ (s.fng n).openN → s.flag (F.FNG_STAT_OPEN n) = false → ∃ s', exec (.openLoadDetect t n) s = .next s' ∧ s'.flag (F.FNG_STAT_OPEN n) = true
        ∧ s'.flag (F.FNG_REST_RVALID n) = false ∧ s'.flag (F.FNG_LEST_LVALID n) = false)
      ∧ exec (.shortToGround t n false) s = .next (x.put (F.FNG_STAT_SHGND l) 0)
      ∧ (s.get (F.PLM_STAT_SRC (l / 4)) ≠ 0 → s.flag (F.FNG_STAT_SHGND l) = false → ∃ s', exec (.shortToGround t n true) s = .next s'
        ∧ s'.flag (F.FNG_STAT_SHGND l) = true ∧ s'.flag (F.PLM_STAT_SGND (l / 4)) = true
        ∧ (s.flag (F.PLM_CFG_SGOFF (l / 4)) = true → s'.flag (F.PLM_STAT_OC (l / 4)) = true))
      ∧ (∃ s', exec (.palmOvercurrent t p) s = .next s' ∧ s'.flag (F.PLM_STAT_OC p) = true ∧ s'.supplies p = false)
      ∧ (s.isOwner m = true → Reaches s t (R.PLM_CTL p) → v.getLsbD 0 = true → ∃ s', exec (.palmRearm t m p v) s = .next s'
        ∧ s'.flag (F.PLM_STAT_OC p) = false ∧ s'.flag ⟨R.PLM_SUM, p, p⟩ = false ∧ s'.reply = some (stOk, []))
      ∧ (∀ iavg ipk, ∃ s', exec (.palmOverload t p iavg ipk) s = .next s' ∧ s'.get (F.PLM_I_IAVG p) = min iavg 65535
        ∧ s'.get (F.PLM_I_IPK p) = min ipk 65535 ∧ (9000 < iavg → s'.flag (F.PLM_STAT_OVLD p) = true)
        ∧ (iavg ≤ 9000 → s'.flag (F.PLM_STAT_OVLD p) = s.flag (F.PLM_STAT_OVLD p)))

/-- The load channels: the end of the inrush window, overcurrent with its counted restart or latch, where an under-voltage or a thermal trip of the
same test had opened the channel as well, the group's under-voltage and its end after 10 ms above 7.5 V, the thermal latch, the 10 µs restart test,
the owner's rearming, the millisecond's report, received once and within 20 µs. -/
def Obligations.LoadChannels : Prop :=
  ∀ (s : State) (t : Nat) (n : Fin 16) (g : Fin 2) (m : Master) (v : Word), n < s.lds.length → g < s.ldGroups.length →
    let x := s.atTime t
    let y := s.ld n
    let z := x.ocFinds n
    let alone := ∀ w, (s.ld n).test = some w → w.k ≠ x.ldTest
    let due := x.now % 1000000 ≤ 20000 ∧ y.repMs < x.now / 1000000
    let hard (i : Nat) : Prop := (if n.val < 8 then 40000000 else 20000000) < i
    (s.lst n = lInrush → (x.clock < y.startAt + fieldOf (F.LDS_CFG_INRW 0) y.wcfg * 1000000 → exec (.inrushEnd t n) s = .next x)
        ∧ (y.startAt + fieldOf (F.LDS_CFG_INRW 0) y.wcfg * 1000000 ≤ x.clock → ∃ s', exec (.inrushEnd t n) s = .next s' ∧ s'.lst n = lOn
          ∧ (s'.ld n).onAt = x.clock))
      ∧ (∀ i, (∀ w, y.test = some w → w.k = x.ldTest → w.oc = none ∧ w.restart = false ∧ w.therm = false) → z.closed n = true → hard i ∨ z.threshold n < i → ∃ s', exec (.loadOvercurrent t n i) s = .next s' ∧ s'.flag (F.LDS_STAT_OC n) = true
        ∧ (hard i → s'.flag (F.LDS_STAT_HWSC n) = true) ∧ s'.get (F.LDS_CNT_OCCNT n) = min (z.get (F.LDS_CNT_OCCNT n) + 1) (2 ^ (F.LDS_CNT_OCCNT n).width - 1)
        ∧ s'.closed n = false ∧ (fieldOf (F.LDS_CFG_ARST 0) (z.ld n).wcfg = 0 → s'.lst n = lLatch)
        ∧ (fieldOf (F.LDS_CFG_ARST 0) (z.ld n).wcfg = 1 → z.flag (F.LDS_STAT_THL n) = false → s'.lst n = lRetry))
      ∧ (∀ i, z.closed n = false → exec (.loadOvercurrent t n i) s = .next x)
      ∧ (∀ mv, mv < 7000 → s.flag (F.LDS_GV_UVNOW g) = false → ∃ s', exec (.groupUndervoltage t g mv) s = .next s' ∧ s'.flag (F.LDS_GV_UVNOW g) = true
        ∧ s'.get (F.LDS_GV_MV g) = mv ∧ (n.val / 8 = g.val → alone → s.closed n = true → s'.lst n = lUvoff ∧ s'.flag (F.LDS_STAT_UV n) = true)
        ∧ (n.val / 8 ≠ g.val → s'.lst n = s.lst n))
      ∧ (∀ mv, ∃ s', exec (.groupUvRecover t g mv) s = .next s' ∧ s'.get (F.LDS_GV_MV g) = min mv 65535
        ∧ (7500 < mv → (∀ a, (s.ldGroup g).lowAt = some a → a + 10000000 ≤ x.clock) → s'.flag (F.LDS_GV_UVNOW g) = false)
        ∧ (mv ≤ 7500 ∨ (∃ a, (s.ldGroup g).lowAt = some a ∧ x.clock < a + 10000000) → s'.flag (F.LDS_GV_UVNOW g) = s.flag (F.LDS_GV_UVNOW g)))
      ∧ exec (.retryBudgetRefill t n) s = .next (if s.lst n = lOn ∧ y.onAt + 1000000000 ≤ x.clock then x.put (F.LDS_STAT_RTUSED n) 0 else x)
      ∧ (s.flag (F.LDS_STAT_THL n) = true → exec (.loadThermalTrip t n) s = .next x)
      ∧ (s.flag (F.LDS_STAT_THL n) = false → ∃ s', exec (.loadThermalTrip t n) s = .next s' ∧ s'.flag (F.LDS_STAT_THL n) = true ∧ s'.closed n = false
        ∧ s'.flag (F.LDS_STAT_THTRIP n) = true)
      ∧ (∃ s', exec (.thermalLatchClear t n) s = .next s' ∧ s'.flag (F.LDS_STAT_THL n) = false ∧ (s.lst n ≠ lTherm → s'.lst n = s.lst n)
        ∧ (s.lst n = lTherm → s.uvnow n = false → s'.lst n = lRetry))
      ∧ (alone → s.outputsOff = false → s.flag (F.LDS_STAT_THL n) = false → s.uvnow n = false → x.groupOk (n / 8) = true → s.flag (F.LDS_STAT_CMD n) = true → s.lst n = lRetry →
        y.counted = true → y.byOc = true → y.latchAt + fieldOf (F.LDS_CFG_RTDLY 0) y.wcfg * 10000000 ≤ x.clock →
        let used := s.get (F.LDS_STAT_RTUSED n)
        let budget := fieldOf (F.LDS_CFG_RETRY 0) y.wcfg
        ∃ s', exec (.restartTest t) s = .next s'
          ∧ (budget = 0 ∨ used < budget → s'.lst n = lInrush ∧ s'.get (F.LDS_STAT_RTUSED n) = min (used + 1) (2 ^ (F.LDS_STAT_RTUSED n).width - 1))
          ∧ (budget ≠ 0 → budget ≤ used → s'.lst n = lLatch ∧ s'.flag (F.LDS_STAT_RTEXH n) = true))
      ∧ (s.isOwner m = true → Reaches s t (R.LDS_CTL n) → v.getLsbD 0 = true → ∃ s', exec (.loadRearm t m n v) s = .next s'
        ∧ s'.get (F.LDS_STAT_RTUSED n) = 0 ∧ s'.flag (F.LDS_STAT_OC n) = false ∧ s'.flag (F.LDS_STAT_HWSC n) = false
        ∧ (s.flag (F.LDS_STAT_CMD n) = true → s.lst n = lLatch → s.flag (F.LDS_STAT_THL n) = false → s.uvnow n = false → s'.lst n = lRetry))
      ∧ (∀ i low mv, ¬due → exec (.loadCurrentReport t n i low mv) s = .next x)
      ∧ (∀ i low mv, n.val < 8 → due → ∃ s', exec (.loadCurrentReport t n i low mv) s = .next s' ∧ s'.word (R.LDS_IMEAS n) % 4096 = min ((2 * i + 5000) / 10000) 4095
        ∧ s'.get (F.LDS_GV_MV (n / 8)) = min mv 65535 ∧ (s'.ld n).wcur = s.word (R.LDS_CUR n) ∧ (s'.ld n).wol = s.word (R.LDS_OL n) ∧ s'.lst n = s.lst n)
      ∧ (∀ isel, exec (.iselChange t isel) s = .next (x.put F.LDS_ISEL_ISEL isel.toNat))

/-- Energy, diversion, capacitance and bleeds of the reservoirs, the owner's ceiling, and the limits of the sensor ports and rails. -/
def Obligations.BrimEnergy : Prop :=
  ∀ (s : State) (t : Nat) (r : Fin 2) (k : Fin 8) (rail : Fin 4) (mv ua : Nat), r < s.drv.ress.length →
    let x := s.atTime t
    let y := x.publishV r mv
    let z := x.portMeas k mv ua
    let st := s.get (F.SNP_STAT_STATE k)
    let set := if s.flag (F.SNP_CFG_V10 k) then 10000 else 5000
    (∃ s', exec (.energyUpdate t r mv) s = .next s' ∧ s'.get (F.BRM_V_V r) = min mv 65535
        ∧ y.get (F.BRM_E_E r) = min ((s.cuNf r * mv * mv * 1010025 + (2 * 10 ^ 16 - 1)) / (2 * 10 ^ 16)) 65535
        ∧ ((∀ p < 4, (s.palm (4 * r + p)).queue = []) → s'.get (F.BRM_E_E r) = y.get (F.BRM_E_E r))
        ∧ (s.chargerOn r = true → 1000 * s.get (F.BRM_CFG_VSET r) ≤ mv → s'.flag (F.BRM_STAT_CHG r) = false ∧ s'.flag (F.BRM_STAT_FULL r) = true)
        ∧ (s.chargerOn r = false → s'.flag (F.BRM_STAT_CHG r) = false ∧ s'.flag (F.BRM_STAT_FULL r) = false))
      ∧ (65000 ≤ mv → s.flag (F.BRM_STAT_DIVNOW r) = false → exec (.diversionStart t r mv) s =
        .next ((((y.resCheck r).raise (F.BRM_STAT_DIVNOW r)).raise (F.BRM_STAT_DIV r)).countSat (F.BRM_DIVCNT_COUNT r)))
      ∧ (∀ uj, s.flag (F.BRM_STAT_DIVNOW r) = true → mv < 64000 → s.energyAt r mv < ofMicroJ (s.levelUj r 20) →
        exec (.diversionEnd t r mv uj) s = .next (((y.resCheck r).put (F.BRM_STAT_DIVNOW r) 0).count (F.BRM_DIVE_UJ r) uj))
      ∧ (∀ q dv, s.chargerOn r = true → s.resUsed r = false → 500 ≤ dv →
        (100 * q < s.get (F.BRM_CDECL_CDECL r) * dv → ∃ s', exec (.capacitanceSample t r (q, dv)) s = .next s' ∧ s'.flag (F.BRM_STAT_COPEN r) = true
            ∧ s'.flag (F.BRM_STAT_CHG r) = false)
          ∧ (s.get (F.BRM_CDECL_CDECL r) * dv ≤ 100 * q → let l := ((q, dv) :: (s.res r).samples).take 8
            ∃ s', exec (.capacitanceSample t r (q, dv)) s = .next s' ∧ (s'.res r).samples = l
              ∧ s'.get (F.BRM_C_CMEAS r) = min (ratRound ((l.map (fun e => ((10 * e.1 : Nat) : Rat) / ((e.2 : Nat) : Rat))).sum / ((l.length : Nat) : Rat))).toNat 65535 ∧ (l.length = 8 → s'.flag (F.BRM_C_CVALID r) = true)))
      ∧ (s.chargerOn r = true → (s.res r).sampleAt + 60000000000 ≤ x.clock → ∃ s', exec (.capSampleBleed t r) s = .next s'
        ∧ s'.flag (F.BRM_STAT_BLEED r) = true ∧ s'.flag (F.BRM_STAT_CHG r) = false ∧ (s'.res r).bleedTo = some (s.get (F.BRM_V_V r) - 2000))
      ∧ (∀ lo, s.flag (F.BRM_STAT_BLEED r) = true → (s.res r).bleedTo = some lo → mv ≤ lo → ∃ s', exec (.bleedEnd t r mv) s = .next s'
        ∧ s'.flag (F.BRM_STAT_BLEED r) = false ∧ (s'.res r).bleedTo = none)
      ∧ (∀ (m : Master) (v : Word), s.isOwner m = true → Reaches s t (R.BRM_CEIL r) → s.get (F.BRM_LOCK_LOCK r) = 0 ∨ v.toNat % 256 ≤ s.get (F.BRM_LOCK_LOCK r) →
        1 ≤ v.toNat % 256 → v.toNat % 256 ≤ 200 → ∃ s', exec (.brmCeilWrite t m r v) s = .next s' ∧ s'.get (F.BRM_CEIL_CEIL r) = v.toNat % 256)
      ∧ exec (.portLimit t k mv ua) s = .next (if st = pReg then (z.put (F.SNP_STAT_STATE k) pLimit).setSnp k { s.snp k with limAt := x.clock } else z)
      ∧ exec (.portLimitEnd t k mv ua) s = .next (if st = pLimit then z.put (F.SNP_STAT_STATE k) pReg else z)
      ∧ (st = pLimit → 10 * mv < 8 * set → (s.snp k).limAt + 1000000 ≤ x.clock → ∃ s', exec (.portFold t k mv ua) s = .next s' ∧ s'.get (F.SNP_STAT_STATE k) = pFold
        ∧ s'.flag (F.SNP_STAT_FOLDED k) = true ∧ s'.get (F.SNP_STAT_FOLDCNT k) = min (s.get (F.SNP_STAT_FOLDCNT k) + 1) (2 ^ (F.SNP_STAT_FOLDCNT k).width - 1))
      ∧ exec (.portUnfold t k mv ua) s = .next (if st = pFold ∧ 9 * set < 10 * mv ∧ ua < max 2000 (100 * s.get (F.SNP_CFG_ILIM k)) ∧ (s.snp k).foldAt + 10000000 ≤ x.clock then z.put (F.SNP_STAT_STATE k) pReg else z)
      ∧ (∀ present, ∃ s', exec (.railOvercurrent t rail present) s = .next s' ∧ s'.flag ⟨R.SNP_RAIL, 4 + rail, 4 + rail⟩ = present
        ∧ s'.flag ⟨R.SNP_RAIL, rail, rail⟩ = !present)

/-- Mitten: HOLD ms after it engages its holds end, the palms and loads at once, the fingers by a ramp of RAMP steps to their posture (R495, R496).
The code a ramp starts from is the model's reading (log 80). The power die: over-voltage and its end, a failed clock check and its recovery, SAFE_N.
-/
def Obligations.MittenAndPosture : Prop :=
  (∀ (s : State) (t : Nat),
    let x := s.atTime t
    let k := s.mit.step + 1
    (∀ a, s.mit.engagedAt = some a → s.get F.MIT_STAT_STATE = mHold →
        (x.clock < a + s.get F.MIT_CFG_HOLD * 1000000 → exec (.mittenExpire t) s = .next x)
          ∧ (a + s.get F.MIT_CFG_HOLD * 1000000 ≤ x.clock → ∃ s', exec (.mittenExpire t) s = .next s' ∧ s'.flag F.MIT_STAT_EXP = true
            ∧ s'.get F.MIT_CNT_EXP = min (s.get F.MIT_CNT_EXP + 1) (2 ^ 16 - 1) ∧ s'.word R.MIT_FHELD = 0 ∧ s'.word R.MIT_OHELD = 0
            ∧ s'.get F.MIT_STAT_STATE = (if s.word R.MIT_FHELD = 0 ∨ s.get F.MIT_CFG_RAMP = 0 then mIdle else mRamp)))
      ∧ (s.get F.MIT_STAT_STATE ≠ mHold → exec (.mittenExpire t) s = .next x)
      ∧ (s.get F.MIT_STAT_STATE = mRamp → s.mit.expiredAt + k * 1000000 ≤ x.clock → ∃ s', exec (.mittenRampStep t) s = .next s' ∧ s'.mit.step = k
        ∧ s'.mit.fingers = (if s.mit.ramp ≤ k then [] else s.mit.fingers)
        ∧ ∀ n c, s.mit.fingers = [(n, c)] → n < s.drv.fngs.length → s.mitReaches ⟨R.PST_FHELD, n, n⟩ = true → (s'.fng n).code = s.rampCode n c k s.mit.ramp)
      ∧ (s.get F.MIT_STAT_STATE ≠ mRamp ∨ x.clock < s.mit.expiredAt + k * 1000000 → exec (.mittenRampStep t) s = .next x))
    ∧ (∀ (s : State) (t : Nat),
    let x := s.atTime t
    let up := x.down = false ∧ s.inBeanie = false
    (∀ mv, (¬up ∨ s.drv.ovv = true → exec (.overvoltage t mv) s = .next x)
        ∧ (up → s.drv.ovv = false → ∃ s', exec (.overvoltage t mv) s = .next s' ∧ s'.drv.ovv = true ∧ s'.flag F.PST_STAT_OVV = true
          ∧ ∀ n : Fin 16, s'.closed n = false))
      ∧ (s.drv.ovv = false → exec (.overvoltageRecover t) s = .next x)
      ∧ (s.drv.ovv = true → ∃ s', exec (.overvoltageRecover t) s = .next s' ∧ s'.drv.ovv = false)
      ∧ (∀ ppm ao, (¬up ∨ s.flag F.PST_STAT_CLKF = true → exec (.clockCheckFail t ppm ao) s = .next x)
        ∧ (up → s.flag F.PST_STAT_CLKF = false → ∃ s', exec (.clockCheckFail t ppm ao) s = .next s' ∧ s'.flag F.PST_STAT_CLKF = true
          ∧ ∀ n : Fin 16, s'.closed n = false))
      ∧ (s.flag F.PST_STAT_CLKF = false → exec (.clockCheckRecover t) s = .next x)
      ∧ (s.flag F.PST_STAT_CLKF = true → ∃ s', exec (.clockCheckRecover t) s = .next s' ∧ s'.flag F.PST_STAT_CLKF = false
        ∧ (s.flag F.PST_STAT_BENCH = false → s'.flag F.PST_STAT_APPLIED = true))
      ∧ (¬up → exec (.safeNAssert t) s = .next (x.raise F.RST_STAT_SAFE))
      ∧ (up → ∃ s', exec (.safeNAssert t) s = .next s' ∧ s'.flag F.PST_STAT_SAFE = true ∧ s'.flag F.PST_STAT_SAFEL = true
        ∧ s'.word R.PST_FHELD = 0xFFFFFFFF ∧ s'.word R.PST_OHELD = 0x00FFFFFF ∧ s'.flag F.PST_STAT_HOLDS = true)
      ∧ exec (.safeNRelease t) s = .next ((x.put F.PST_STAT_SAFE 0).put F.RST_STAT_SAFE 0))

/-! GNSS and CAN (R380-R445). -/

/-- The channels of the baseband: enabled from an acquisition or a prediction, locked, lost, and hurt by the loss of GCLK; the acquisition. What a
restart keeps is the model's reading (log 70). Measurement epochs and their blocks, symbols, the committed predictions and navigation words, the front
end, the Beanie bursts, the IMU port. How predictions are counted is the model's reading (log 69). -/
def Obligations.Gnss : Prop :=
  (∀ (s : State) (t : Nat) (m : Master) (c : Fin 96) (v : Word), c < s.gnb.chans.length →
    let x := s.atTime t
    let up := x.gnbUp = true
    let age := x.now - (s.gch c).since
    let sig := v.toNat / 2 % 16
    let prn := v.toNat / 32 % 64
    (s.isOwner m = true → Reaches s t (R.GNB_CHCFG c) → v.getLsbD 0 = true → s.gst c = gIdle ∨ s.gst c = gLost →
        (s.canStart c sig prn = true → ∃ s', exec (.channelEnable t m c v) s = .next s' ∧ s'.gst c = gPull ∧ (s'.gch c).since = x.now
            ∧ s'.get (F.GNB_CHCFG_SIG c) = sig ∧ s'.get (F.GNB_CHCFG_PRN c) = prn ∧ s'.flag (F.GNB_CHCFG_EN c) = true)
          ∧ (s.canStart c sig prn = false → exec (.channelEnable t m c v) s = .next ((x.raise F.GNB_STAT_CFGERR).answered (R.GNB_CHCFG c))))
      ∧ (up → s.gst c = gPull ∨ s.gst c = gReacq → s.flag F.GNB_STAT_FECLK = true → s.flag (F.GNB_BCFG_EN (sigBand (s.get (F.GNB_CHCFG_SIG c)))) = true →
        ∃ s', exec (.channelLock t c) s = .next s' ∧ s'.gst c = gTrack ∧ (s'.gch c).slipAt = x.now)
      ∧ (up → s.gst c = gTrack → ∃ s', exec (.channelLockLoss t c) s = .next s' ∧ s'.gst c = gReacq ∧ (s'.gch c).codeLock = false)
      ∧ (s.gst c ≠ gTrack → exec (.channelLockLoss t c) s = .next x)
      ∧ exec (.channelLost t c) s = .next (if up ∧ ((s.gst c = gPull ∧ 500000000 ≤ age) ∨ (s.gst c = gReacq ∧ 1000000000 ≤ age)) then x.setGst c gLost else x)
      ∧ (∃ s', exec (.gclkLoss t) s = .next s' ∧ s'.flag F.GNB_STAT_FECLK = false ∧ s'.gst c = if s.gst c = gTrack then gReacq else s.gst c)
      ∧ exec (.gclkReturn t) s = .next (x.raise F.GNB_STAT_FECLK)
      ∧ (let k := v.toNat / 2 ^ 10 % 128
        let sg := v.toNat % 16
        let p := v.toNat / 16 % 64
        s.isOwner m = true → Reaches s t R.GNB_AQ0 → v.getLsbD 31 = true → k < 96 → s.flag F.GNB_STAT_ACQBUSY = false → sigOk sg p = true →
        tcOk sg (s.get F.GNB_AQ4_TC) = true → ∃ s' a, exec (.acqStart t m v) s = .next s' ∧ s'.gnb.acq = some a ∧ a.sig = sg ∧ a.prn = p ∧ a.chan = k
          ∧ a.auto = v.getLsbD 17 ∧ a.thr = s.get F.GNB_AQ4_THR ∧ a.best = none ∧ s'.gnb.found = (sg, p) ∧ s'.flag F.GNB_STAT_ACQBUSY = true
          ∧ s'.get F.GNB_AQR0_RES = 1)
      ∧ (∀ (a : Acq) (ratio : Nat) (peak : Fin 1024), s.gnb.acq = some a → up → a.stepAt + a.tc * a.nnc * 1000000 ≤ x.now →
        (a.thr ≤ ratio → a.auto = false → ∃ s', exec (.acqStep t ratio peak) s = .next s' ∧ s'.gnb.acq = none ∧ s'.flag F.GNB_STAT_ACQBUSY = false
            ∧ s'.get F.GNB_AQR0_RES = 2 ∧ s'.get F.GNB_AQR0_RATIO = min ratio 65535 ∧ s'.word R.GNB_AQR1 = a.phase peak % 2 ^ 32)
          ∧ (ratio < a.thr → a.nb ≤ a.blk + 1 → a.nbin ≤ a.bin + 1 → ∃ s', exec (.acqStep t ratio peak) s = .next s' ∧ s'.gnb.acq = none
            ∧ s'.get F.GNB_AQR0_RES = 3)
          ∧ (ratio < a.thr → a.blk + 1 < a.nb → ∃ s' b, exec (.acqStep t ratio peak) s = .next s' ∧ s'.gnb.acq = some b ∧ b.blk = a.blk + 1
            ∧ b.bin = a.bin ∧ b.stepAt = x.now ∧ s'.regs = s.regs)))
    ∧ (∀ (s : State) (t : Nat) (m : Master) (c : Fin 96) (v : Word), c < s.gnb.chans.length →
    let x := s.atTime t
    let up := x.gnbUp = true
    let room := (s.get F.GNB_WR_WR + 2 ^ 16 - s.get F.GNB_REL_REL) % 2 ^ 16 < s.get F.GNB_CFG_NBUF
    (∀ drops agc, s.start.isSome = true → s.flag F.GNB_CFG_EN = true → s.inBeanie = false → up → x.now % 50000 = 0 → x.now / 50000 % s.hb.gnsp = 0 →
        ∃ s' b, exec (.measurementEpoch t [] drops agc) s = .next s' ∧ s'.word R.GNB_EPOCH = (s.word R.GNB_EPOCH + 1) % 2 ^ 32
          ∧ s'.gnb.block = some b ∧ b.words[0]? = some ((s.word R.GNB_EPOCH + 1) % 2 ^ 32) ∧ b.words[2]? = some (x.now % 2 ^ 32)
          ∧ s'.word (R.GNB_AGC 0) = agc.1.toNat)
      ∧ (∀ b, s.gnb.block = some b → s.inBeanie = false → up →
        (room → ∃ s', exec (.epochBlockWrite t) s = .next s' ∧ s'.gnb.block = none ∧ s'.get F.GNB_WR_WR = (s.get F.GNB_WR_WR + 1) % 2 ^ 16
            ∧ s'.gnb.lastBlock = b.words.getD 0 0 ∧ s'.gnb.omitted = s.gnb.omitted)
          ∧ (¬room → ∃ s', exec (.epochBlockWrite t) s = .next s' ∧ s'.gnb.block = none ∧ s'.gnb.omitted = true ∧ s'.regs = s.regs ∧ s'.mem = s.mem
            ∧ s'.gnb.drops = min (s.gnb.drops + b.drops) (2 ^ 32 - 1) ∧ s'.hb.stepped = (s.hb.stepped || b.stepped)
            ∧ (b.slips.contains c.val = true → (s'.gch c).slip = true)))
      ∧ (∀ (n : Fin 33) syms at0 cpcnt, (s.gch c).bitSync = true → s.gst c = gTrack → 1 ≤ n.val → s.flag F.GNB_CFG_SQEN = true → s.inBeanie = false → up →
        ∃ s', exec (.symbolRecord t c n syms at0 cpcnt) s = .next s' ∧ s'.word R.GNB_SYMW = (s.word R.GNB_SYMW + 1) % 2 ^ 32
          ∧ s'.readN (0x400508004 + s.word R.GNB_SYMW % 1024 * 32) 4 = syms.toNat % 2 ^ n.val)
      ∧ (Reaches s t (R.GNB_PRD c) → ∃ s', exec (.prdWrite t m c v) s = .next s'
        ∧ (s'.gch c).pred = some (s.gnb.ticks, s.word (R.GNB_PRR c), v.toInt) ∧ s'.reg (R.GNB_PRD c) = v)
      ∧ (s.isOwner m = true → Reaches s t R.GNB_CLKE → ∃ s', exec (.clkeWrite t m v) s = .next s'
        ∧ s'.gnb.clk = some (s.getS F.GNB_CLKB_BIAS, s.getS F.GNB_CLKD_DRIFT, v.toNat))
      ∧ (Reaches s t R.GNB_NAVC → v.getLsbD 0 = true → exec (.navCommit t m v) s = .next
        ((x.withGnb { s.gnb with navp := (List.range 32).map (fun k => s.word (R.GNB_NAVP k)) }).answered R.GNB_NAVC))
      ∧ (∃ s', exec (.tvalidLoss t) s = .next s' ∧ s'.flag F.GNB_STAT_TVALID = (s.flag F.GNB_STAT_TVALID
        && (decide (x.now < s.gnb.codeAt + 1000000000) || s.gnb.chans.any (fun y => y.codeLock))))
      ∧ (Reaches s t R.GNB_REL → exec (.gnbRelWrite t m v) s = .next
        ((if (s.get F.GNB_WR_WR + 2 ^ 16 - v.toNat % 2 ^ 16) % 2 ^ 16 ≤ s.get F.GNB_CFG_NBUF then x.put F.GNB_REL_REL v.toNat else x).answered R.GNB_REL))
      ∧ (s.isOwner m = true → Reaches s t R.GNB_FECMD → v.getLsbD 31 = true →
        (s.flag F.GNB_FERD_BUSY = true → exec (.feFrame t m v) s = .next ((x.raise F.GNB_STAT_FEERR).answered R.GNB_FECMD))
          ∧ (s.flag F.GNB_FERD_BUSY = false → ∃ s', exec (.feFrame t m v) s = .next s' ∧ s'.flag F.GNB_FERD_BUSY = true
            ∧ s'.flag F.GNB_FECMD_RD = v.getLsbD 30 ∧ s'.gnb.feRead = v.getLsbD 30))
      ∧ (∀ data, s.flag F.GNB_FERD_BUSY = true → ∃ s', exec (.feFrameDone t data) s = .next s' ∧ s'.flag F.GNB_FERD_BUSY = false
        ∧ s'.get F.GNB_FERD_DATA = if s.gnb.feRead then data.toNat else s.get F.GNB_FERD_DATA)
      ∧ (s.inBeanie = true → up → s.start.isSome = true → s.flag F.GNB_CFG_EN = true → s.gnb.burst = none → x.now % 1000000000 = 0 →
        ∃ s' long, exec (.beanieBurst t) s = .next s' ∧ s'.gnb.burst = some (x.now, long))
      ∧ (∀ t0 agc, s.gnb.burst = some (t0, false) → up → t0 + 50000000 ≤ x.now → ∃ s', exec (.beanieBurstEnd t [] ((0, 0), agc)) s = .next s' ∧ s'.gnb.burst = none
        ∧ s'.gnb.lastBlock = s.word R.GNB_EPOCH ∧ s'.readN 0x400501000 4 = s.word R.GNB_EPOCH)
      ∧ (let due (p : Nat × Nat) : Bool := decide (p.2 ≤ x.now) && !s.imu.after.any (fun a => decide (p.2 ≤ a))
        let oldest := (s.line (s.get F.IMU_CFG_TLINE)).strikes.reverse.find? due
        s.flag F.IMU_CFG_EN = true → x.awake imuPlace = true →
        (oldest = none → exec (.imuTransaction t) s = .next x)
          ∧ (∀ q t0, oldest = some (q, t0) →
            (s.flag F.IMU_STAT_BUSY = true →
                exec (.imuTransaction t) s = .next { (x.countSat F.IMU_OCNT_COUNT).raise F.IMU_STAT_OMIT with imu := { s.imu with after := some t0 } })
              ∧ (s.flag F.IMU_STAT_BUSY = false → exec (.imuTransaction t) s = .next { x.raise F.IMU_STAT_BUSY with
                imu := { seq := q, time := t0, cfg := s.word R.IMU_CFG, after := some t0, sdo := s.imuOut (s.get F.IMU_CFG_NBYTE), bad := s.poisoned (R.IMU_TX 0) ((s.get F.IMU_CFG_NBYTE + 3) / 4 * 4) } })))
      ∧ (∀ rx, s.flag F.IMU_STAT_BUSY = true → x.awake imuPlace = true → ∃ s', exec (.imuTransactionDone t rx []) s = .next s'
        ∧ s'.flag F.IMU_STAT_BUSY = false ∧ s'.word R.IMU_SEQ = s.imu.seq % 2 ^ 32 ∧ s'.get64 R.IMU_TLO R.IMU_THI = s.imu.time % 2 ^ 64))

/-- CAN channels: a stuck dominant transmitter is released, a sleeping bus biased, bus-off left, error frames counted, a wake recorded. Objects: a
request becomes pending or waits for the frame in a buffer, a repeat falls due, a receive object goes stale, a read of STAT through the window
captures stamp and data. Waiting requests and short frames follow the model's reading (log 71). -/
def Obligations.CanChannelsAndObjects : Prop :=
  (∀ (s : State) (t : Nat) (m : Master) (n : Fin 4) (v : Word), n.val < s.cans.length →
    let x := s.atTime t
    let off := s.get (F.CAN_STAT_ESTATE n) = 2
    (x.canOn n = true → s.get (F.CAN_TRX_MODE n) = 1 → (s.can n).released = false → ∃ s', exec (.dominantTimeout t n) s = .next s'
        ∧ s'.flag (F.CAN_STAT_TXDTO n) = true ∧ (s'.can n).released = true ∧ s'.get (F.CAN_STAT_ESTATE n) = s.get (F.CAN_STAT_ESTATE n))
      ∧ (x.canOn n = false ∨ s.get (F.CAN_TRX_MODE n) ≠ 1 → exec (.dominantTimeout t n) s = .next x)
      ∧ exec (.autonomousBiasing t n true) s = .next (if s.get (F.CAN_TRX_MODE n) = 0 then x.setCan n { s.can n with biased := true, heard := x.clock } else x)
      ∧ exec (.autonomousBiasing t n false) s = .next (if s.get (F.CAN_TRX_MODE n) = 0 ∧ (s.can n).heard + 1000000000 ≤ x.clock then
          x.setCan n { s.can n with biased := false } else x)
      ∧ exec (.busOffRecoveryStart t n) s = .next (if x.canOn n = true ∧ off ∧ s.flag (F.CAN_CFG_BOREC n) = true
          ∧ (s.can n).boffAt + s.get (F.CAN_CFG_BODLY n) * 10000000 ≤ x.clock then x.setCan n { s.can n with recovering := true } else x)
      ∧ (s.isOwner m = true → Reaches s t (R.CAN_CTL n) → exec (.canRecov t m n v) s = .next ((if v.getLsbD 0 = true ∧ off then
          x.setCan n { s.can n with recovering := true } else x).answered (R.CAN_CTL n)))
      ∧ (x.canOn n = true → off → (s.can n).recovering = true → ∃ s', exec (.busOffRejoin t n) s = .next s' ∧ s'.get (F.CAN_STAT_ESTATE n) = 0
        ∧ s'.get (F.CAN_ERR_TEC n) = 0 ∧ s'.get (F.CAN_ERR_REC n) = 0 ∧ (s'.can n).recovering = false)
      ∧ (∀ lec first, x.canOn n = true → ¬off →
        let tec := s.get (F.CAN_ERR_TEC n)
        let rec' := s.get (F.CAN_ERR_REC n) + (if first then 9 else 1)
        ∃ s', exec (.errorFrame t n lec first) s = .next s' ∧ s'.get (F.CAN_CNT_ERRF n) = min (s.get (F.CAN_CNT_ERRF n) + 1) (2 ^ (F.CAN_CNT_ERRF n).width - 1)
          ∧ s'.get (F.CAN_ERR_LEC n) = lec ∧ s'.get (F.CAN_ERR_TEC n) = tec ∧ s'.get (F.CAN_ERR_REC n) = min rec' 255
          ∧ s'.get (F.CAN_STAT_ESTATE n) = (if 128 ≤ tec ∨ 128 ≤ rec' then 1 else 0) ∧ s'.mem = s.mem
          ∧ s'.cans = s.cans.set n { s.can n with released := false })
      ∧ (∀ w, s.get (F.CAN_TRX_MODE n) ≠ 0 → exec (.canWakeDetect t n w) s = .next x)
      ∧ (∀ w src, s.get (F.CAN_TRX_MODE n) = 0 → s.inBeanie = false →
        (s.get (F.CAN_WAKE_WMODE n) = 1 ∧ w = .dominant ∧ src = 1) ∨ (s.get (F.CAN_WAKE_WMODE n) = 2 ∧ w = .wup ∧ src = 2)
          ∨ (s.get (F.CAN_WAKE_WMODE n) = 3 ∧ (∃ f, w = .frame f ∧ s.wakeFrame n f = true) ∧ src = 3)
          ∨ (s.get (F.CAN_WAKE_WMODE n) = 3 ∧ w = .badFrame ∧ 31 ≤ (s.can n).wakeErr ∧ src = 4) →
        ∃ s', exec (.canWakeDetect t n w) s = .next s' ∧ s'.flag (F.CAN_STAT_WKPEND n) = true ∧ s'.get (F.CAN_STAT_WKSRC n) = src))
    ∧ (∀ (s : State) (t : Nat) (m : Master) (n : Fin 2048) (k : Fin 512) (v : Word),
    let x := s.atTime t
    let o := v.toNat % 2048
    let dlc := v.toNat / 2 ^ 12 % 16
    let rpt := s.get (F.OBJ_TXP_RPT n)
    let rmax := s.get (F.OBJ_TXP_RPTMAX n)
    let due (i : Nat) : Option Nat := if s.get (F.OBJ_TXP_DEADLINE i) = 0 then none else some (x.now + s.get (F.OBJ_TXP_DEADLINE i) * 100000)
    (Reaches s t R.OBJ_TXREQ → v.getLsbD 31 = true →
        (s.objTx o = false → ∃ s', exec (.objTxreq t m v) s = .next s' ∧ s'.objs = s.objs ∧ s'.mem = s.mem ∧ ∀ b, b ≠ R.OBJ_TXREQ → s'.word b = s.word b)
          ∧ (s.objTx o = true → s.flag (F.OBJ_CTL_SAS o) = false → (s.obj o).inBuf = false → ∃ s', exec (.objTxreq t m v) s = .next s'
            ∧ (s'.obj o).pend = some dlc ∧ (s'.obj o).rpts = 0 ∧ (s'.obj o).deadline = due o ∧ s'.flag (F.OBJ_ESTAT_TXPEND o) = true
            ∧ ∀ c, s.get (F.OBJ_CTL_CH o) = c → c < s.cans.length → (s.obj o).pend = none → (s'.can c).items = (s.can c).items ++ [{ src := .obj o }])
          ∧ (s.objTx o = true → (s.obj o).inBuf = true → ∃ s', exec (.objTxreq t m v) s = .next s' ∧ (s'.obj o).wait = some dlc
            ∧ (s'.obj o).pend = (s.obj o).pend ∧ s'.cans = s.cans))
      ∧ (∀ a, (s.obj n).rptFrom = some a → x.awake objPlace = true → s.objTx n = true → rpt ≠ 0 → a + rpt * 10000000 ≤ x.clock → rmax = 0 ∨ (s.obj n).rpts < rmax →
        s.flag (F.OBJ_CTL_SAS n) = false → ∃ s', exec (.objectRepeat t n) s = .next s' ∧ (s'.obj n).rpts = (s.obj n).rpts + 1
          ∧ (s'.obj n).rptFrom = some (a + rpt * 10000000) ∧ s'.flag (F.OBJ_ESTAT_TXPEND n) = true ∧ s'.mem = s.mem)
      ∧ (∀ a, (s.obj n).rptFrom = some a → x.clock < a + rpt * 10000000 ∨ s.objTx n = false ∨ (rmax ≠ 0 ∧ rmax ≤ (s.obj n).rpts) → exec (.objectRepeat t n) s = .next x)
      ∧ exec (.objectStale t n) s = .next (if x.awake objPlace = true ∧ s.flag (F.OBJ_CTL_EN n) = true ∧ s.flag (F.OBJ_CTL_DIR n) = false ∧ s.get (F.OBJ_CTL_TMO n) ≠ 0
          ∧ (s.obj n).since + s.get (F.OBJ_CTL_TMO n) * 10000000 ≤ x.clock then x.raise (F.OBJ_ESTAT_STALE n) else x)
      ∧ (let a := 0x40065400C + 0x20 * k.val
        let i := s.objPage m * 512 + k
        x.accessError a = none → s.armed false = false → s.poison = [] → ∃ s', exec (.objStatRead t m k) s = .next s'
          ∧ s'.reply = some (stOk, [s.word (R.OBJ_ESTAT i)]) ∧ s'.regs = s.regs ∧ s'.mem = s.mem
          ∧ assoc (m, objHold 4) s'.held = some (s.reg (R.OBJ_TLO i)) ∧ assoc (m, objHold 5) s'.held = some (s.reg (R.OBJ_THI i))
          ∧ assoc (m, objHold 6) s'.held = some (s.reg (R.OBJ_DLO i)) ∧ assoc (m, objHold 7) s'.held = some (s.reg (R.OBJ_DHI i))
          ∧ ∀ (j : Fin 512) (w : Fin 4), ((s'.regRead m (0x400654010 + 0x20 * j.val + 4 * w.val)).1) = ((assoc (m, objHold (4 + w)) s'.held).getD 0).toNat))

/-- Frames on a channel: a received data frame goes to the lowest-numbered object that accepts it; a buffer is filled; a frame's end frees its buffer;
lost arbitration and errors are counted. -/
def Obligations.CanFrames : Prop :=
  ∀ (s : State) (t : Nat) (n : Fin 4) (b : Fin 3) (f : CanFrame),
    let x := s.atTime t
    let off := s.get (F.CAN_STAT_ESTATE n) = 2
    let sat (g : Fld) : Nat := min (s.get g + 1) (2 ^ g.width - 1)
    (x.canOn n = false ∨ off ∨ (f.fdf = true ∧ s.flag (F.CAN_CFG_FDEN n) = false) → ∀ bad, exec (.frameReceived t n f bad) s = .next x)
      ∧ (x.canOn n = true → ¬off → f.fdf = false ∨ s.flag (F.CAN_CFG_FDEN n) = true →
        (f.rtr = true → ∀ bad, ∃ s', exec (.frameReceived t n f bad) s = .next s' ∧ s'.get (F.CAN_RXNM_COUNT n) = sat (F.CAN_RXNM_COUNT n)
            ∧ s'.objs = s.objs ∧ s'.mem = s.mem)
          ∧ (x.awake objPlace = true → f.rtr = false → f.ide = false → ∀ o : Fin 2048, s.objMatches o n f = true → (∀ j < o.val, s.objMatches j n f = false) →
            ∃ s', exec (.frameReceived t n f false) s = .next s' ∧ s'.flag (F.OBJ_ESTAT_NEW o) = true ∧ s'.flag (F.OBJ_ESTAT_STALE o) = false
              ∧ (s.flag (F.OBJ_ESTAT_NEW o) = true → s'.flag (F.OBJ_ESTAT_LOST o) = true) ∧ s'.get (F.OBJ_ESTAT_DLC o) = f.dlc % 16
              ∧ s'.get64 (R.OBJ_TLO o) (R.OBJ_THI o) = (x.now - f.sof) % 2 ^ 64 ∧ (s'.obj o).since = x.clock ∧ s'.get (F.CAN_RXNM_COUNT n) = s.get (F.CAN_RXNM_COUNT n)
              ∧ (s.flag (F.OBJ_CTL_QEN o) = false → s.inDram (s.objData o) 64 = true → f.data.length ≤ 64 →
                s'.readBytes (s.objData o) f.data.length = f.data ∧ ∀ a, a < s.objData o ∨ s.objData o + f.data.length ≤ a → s'.byte a = s.byte a))
          ∧ (x.awake objPlace = true → f.rtr = false → f.ide = false → (∀ j < 2048, s.objMatches j n f = false) → ∃ s', exec (.frameReceived t n f false) s = .next s'
            ∧ s'.get (F.CAN_RXNM_COUNT n) = sat (F.CAN_RXNM_COUNT n) ∧ s'.objs = s.objs))
      ∧ (∀ won, (s.can n).items = [] → exec (.txBufferFill t n won) s = .next x)
      ∧ (∀ won i g rest, x.awake msgPlace = true → x.awake (canPlace n) = true → s.flag (F.CAN_CFG_TXORD n) = true → (s.can n).items = i :: rest → s.waitsForAddr n i = false → s.itemFrame n i = some g →
        (∀ o, i.src ≠ .obj o) → (s.can n).nextBuf = b → (s.can n).bufs.length = 3 → s.buf n b = none → ∃ s', exec (.txBufferFill t n won) s = .next s'
          ∧ s'.buf n b = some { item := i, frame := g } ∧ (s'.can n).items = rest ∧ (s'.can n).nextBuf = (b + 1) % 3)
      ∧ (∀ won i, s.flag (F.CAN_CFG_TXORD n) = false → s.nextItem n = some i →
        (∀ j : Fin 3, ∃ y, s.buf n j = some y ∧ frameRank y.frame ≤ s.itemRank n i) → exec (.txBufferFill t n won) s = .next x)
      ∧ (∀ y, s.buf n b = some y → x.offers n b = true → ∃ s', exec (.frameSent t n b) s = .next s' ∧ s'.buf n b = none ∧ (s'.can n).released = false
        ∧ s'.get (F.CAN_TXCNT_COUNT n) = (s.get (F.CAN_TXCNT_COUNT n) + 1) % 2 ^ (F.CAN_TXCNT_COUNT n).width ∧ s'.get (F.CAN_ERR_LEC n) = 0
        ∧ s'.get (F.CAN_ERR_TEC n) = s.get (F.CAN_ERR_TEC n) - 1 ∧ ∀ id, y.item.src = .msg id → s.lmpRes = [] → s'.msgOf n id = none)
      ∧ (s.flag (F.CAN_CFG_TXORD n) = false → s.canSends n = true → (s.can n).offered = [] → ∀ y z (j : Fin 3), s.buf n b = some y → s.buf n j = some z →
        frameRank z.frame < frameRank y.frame → exec (.frameSent t n b) s = .next x)
      ∧ (∀ y, s.buf n b = some y → x.offers n b = true → ∃ s', exec (.frameTxError t n b none) s = .next s' ∧ s'.get (F.CAN_CNT_ALOST n) = sat (F.CAN_CNT_ALOST n)
        ∧ s'.buf n b = some y ∧ s'.get (F.CAN_ERR_TEC n) = s.get (F.CAN_ERR_TEC n))
      ∧ (∀ y e spared, s.buf n b = some y → x.offers n b = true → y.cancel = none → s.get (F.CAN_STAT_ESTATE n) = 0 → e.val ≠ 1 ∨ spared = false →
        let tec := s.get (F.CAN_ERR_TEC n) + 8
        ∃ s', exec (.frameTxError t n b (some (e, spared))) s = .next s' ∧ s'.buf n b = some y ∧ s'.get (F.CAN_CNT_ERRF n) = sat (F.CAN_CNT_ERRF n)
          ∧ s'.get (F.CAN_ERR_LEC n) = e ∧ s'.get (F.CAN_ERR_TEC n) = min tec 255 ∧ (256 ≤ tec → s'.get (F.CAN_STAT_ESTATE n) = 2
            ∧ s'.flag (F.CAN_STAT_BOFF n) = true ∧ (s'.can n).boffAt = x.clock))

/-- Messages: the oldest request of TXQ, its deadline and its withdrawal, a record that is none (log 72); the sessions' timers; pool blocks; the claim
of an address. Sessions and claims follow the model's reading (log 72). -/
def Obligations.CanMessages : Prop :=
  ∀ (s : State) (t : Nat) (m : Master) (n : Fin 4) (k : Fin 64) (v : Word),
    let x := s.atTime t
    let q := s.get F.MSG_CFG_TXQ
    let on := x.awake msgPlace = true ∧ x.blockHeld msgPlace = false
    let room := ∀ c < 4, (s.can c).msgs.length < 64
    (s.flag F.MSG_CFG_TXEN = false → exec (.txRequestConsume t) s = .next x)
      ∧ ((∃ c < 4, s.listFull c = true) → exec (.txRequestConsume t) s = .next x)
      ∧ (∀ w bad, room → on → s.flag F.MSG_CFG_TXEN = true → s.queHead q = some (false, w, bad) → exec (.txRequestConsume t) s = .next (x.quePop q true))
      ∧ (∀ w, room → on → s.flag F.MSG_CFG_TXEN = true → s.queHead q = some (true, w, false) → x.isRequest q = false → ∃ s', exec (.txRequestConsume t) s = .next s'
        ∧ s'.flag F.MSG_STAT_BADREQ = true ∧ s'.cans = s.cans)
      ∧ (∀ w c, on → s.flag F.MSG_CFG_TXEN = true → s.queHead q = some (true, w, false) → x.isRequest q = true → w.getD 0 0 % 4 = c → c < s.cans.length →
        (64 ≤ (s.can c).msgs.length → exec (.txRequestConsume t) s = .next x)
          ∧ (room → s.acState c ≠ 3 → (w.getD 0 0).testBit 7 = false → w.getD 2 0 ≤ 8 → (w.getD 1 0 / 2 ^ 8 % 2 ^ 8 < 0xF0) →
            ∃ s' y, exec (.txRequestConsume t) s = .next s' ∧ (s'.can c).msgs = (s.can c).msgs ++ [y] ∧ y.tag = w.getD 6 0 ∧ y.len = w.getD 2 0
              ∧ y.pgn = w.getD 1 0 % 2 ^ 18 ∧ y.da = w.getD 0 0 / 2 ^ 8 % 2 ^ 8 ∧ y.transport = false
              ∧ y.deadline = (if w.getD 5 0 = 0 then none else some (x.now + w.getD 5 0 * 1000))
              ∧ (s'.can c).items = (s.can c).items ++ [{ src := .msg y.id }]
              ∧ s'.get (F.QUE_CIDX_CIDX q) = (s.get (F.QUE_CIDX_CIDX q) + 1) % 2 ^ 16))
      ∧ (on → s.lmpRes = [] → ∃ s', exec (.messageDeadline t n none) s = .next s' ∧ ∀ y ∈ (s.can n).msgs, ∀ d, y.deadline = some d → d ≤ x.now → s'.msgOf n y.id = none)
      ∧ (Reaches s t R.MSG_CANCEL → v.getLsbD 31 = true →
        let c := v.toNat % 4
        let tagged (y : Msg) : Bool := y.tag == s.word R.MSG_CTAG
        (∀ y, s.lmpRes = [] → (s.can c).msgs.find? tagged = some y → ∃ s', exec (.msgCancel t m v none) s = .next s' ∧ s'.msgOf c y.id = none)
          ∧ ((s.can c).msgs.find? tagged = none → (∀ j ∈ sesOf c, s.sesTx j = true → (s.ses j).tag ≠ s.word R.MSG_CTAG) →
            ∃ s', exec (.msgCancel t m v none) s = .next s' ∧ s'.cans = s.cans ∧ s'.sess = s.sess))
      ∧ (∀ due, (s.ses k).timer = some due → x.now < due → exec (.transportTimeout t k) s = .next x)
      ∧ (∀ due, (s.ses k).timer = some due → due ≤ x.now → on → s.sesKind k = 2 ∨ s.sesKind k = 4 →
        (∀ y ∈ (s.can (k / 16)).msgs, y.transport = false) → ∃ s', exec (.transportTimeout t k) s = .next s'
        ∧ s'.sesKind k = 0 ∧ s'.blocks = s.blocks.filter (· != (s.ses k).block)
        ∧ s'.get (F.MSG_SCNT_ABORT (k / 16)) = min (s.get (F.MSG_SCNT_ABORT (k / 16)) + 1) (2 ^ (F.MSG_SCNT_ABORT (k / 16)).width - 1))
      ∧ (∀ due, (s.ses k).timer = some due → exec (.bamPacketSend t k) s = .next (if s.sesKind k = 3 ∧ due ≤ x.now ∧ on then
          (x.setSes k { s.ses k with timer := none }).queuePacket k else x))
      ∧ (Reaches s t R.MSG_PREL → exec (.msgPrel t m v) s = .next ({ x with blocks := s.blocks.filter (· != v.toNat % 2 ^ 10) }.answered R.MSG_PREL))
      ∧ (s.isOwner m = true → Reaches s t (R.MSG_AC n) → n.val < s.cans.length →
        (v.getLsbD 8 = true → s.flag (F.MSG_AC_EN n) = false → ∃ s', exec (.addressClaimStart t m n v) s = .next s' ∧ s'.acState n = 1
            ∧ s'.get (F.MSG_AC_ADDR n) = 0xFE ∧ s'.get (F.MSG_AC_PREF n) = v.toNat % 256 ∧ (s'.can n).cand = v.toNat % 256
            ∧ ((∀ j : Fin 3, s.buf n j = none) → (s'.can n).items = (s.can n).items ++ [{ src := .claim, ident := 0x18EEFF00 + v.toNat % 256, data := leBytes 8 (s.nameOf n) }]))
          ∧ (v.getLsbD 8 = false → s.flag (F.MSG_AC_EN n) = true → ∃ s', exec (.addressClaimStart t m n v) s = .next s' ∧ s'.acState n = 0
            ∧ s'.get (F.MSG_AC_ADDR n) = 0xFE ∧ (s'.can n).claimAt = none))
      ∧ (∀ a, (s.can n).claimAt = some a → s.acState n = 1 →
        (x.now < a + 250000000 → exec (.claimSettled t n) s = .next x)
          ∧ (a + 250000000 ≤ x.now → on → ∃ s', exec (.claimSettled t n) s = .next s' ∧ s'.acState n = 2 ∧ s'.get (F.MSG_AC_ADDR n) = (s.can n).cand % 256
            ∧ (s'.can n).claimAt = none))
      ∧ (on → (s.can n).cannotDue = true → s.acState n = 3 → ∃ s', exec (.cannotClaimSend t n) s = .next s' ∧ (s'.can n).cannotDue = false
        ∧ (s'.can n).items = (s.can n).items ++ [{ src := .claim, ident := 0x18EEFFFE, data := leBytes 8 (s.nameOf n) }])
      ∧ ((s.can n).cannotDue = false → exec (.cannotClaimSend t n) s = .next x)

/-! Lamip, ownership, Ethernet, the event log (R446-R473, R534-R551). -/

/-- Lamip transactions of a master that is not on CAN: a request that R455 and R456 refuse is answered at once and does nothing else; a READ answers
the words; a WRITE's response waits for its epoch, and goes at once where none can run (log 74); RESET, SUBSCRIBE and EVLOG. The order of the checks
is the model's reading (log 74). -/
def Obligations.LampTransactions : Prop :=
  ∀ (s : State) (t : Nat) (m : Master) (q : LampReq) (v : Word), (s.atTime t).lampUp = true → midKind m ≠ 2 →
    let x := s.atTime t
    let a := q.addr.toNat
    let n := q.word 0
    let sent (s' : State) (ty st : Nat) (data : List Nat) : Prop := s'.net.sent = s.net.sent ++ [q.answer m ty st data]
    (∀ i ty st, (i, ty) ∈ [(Instr.read t m q, tyRead), (.write t m q, tyWrite), (.reset t m q, tyReset), (.subscribe t m q, tySubscribe),
        (.claim t m (some q) v, tyClaim), (.renew t m (some q) v, tyRenew), (.release t m (some q) v, tyRelease), (.handover t m (some q) v, tyHandover),
        (.stage t m (some q) v, tyStage), (.commit t m (some q) v, tyCommit)] → s.lampRefuse m ty q = some st →
        ∃ s', exec i s = .next s' ∧ sent s' ty st [] ∧ s'.net.claims = s.net.claims ∧ s'.net.subs = s.net.subs
          ∧ (midKind m ≠ 1 → s'.mem = s.mem ∧ ∀ b, b ≠ R.LMP_REFCNT → b ≠ R.LMP_STAT → s'.word b = s.word b)
          ∧ (∀ mac tag, midKind m = 1 → assoc (m / 2 ^ 16 % 2 ^ 32) s.net.hosts = some (mac, tag) → x.ethUp = true → s.net.egress = [] → ∃ f,
            s'.net.ethOut = s.net.ethOut ++ (s.ethPorts mac 4).map (fun p => (p, s.lampDatagram f mac (m / 2 ^ 16 % 2 ^ 32) (m % 2 ^ 16) tag (q.answer m ty st).bytes))))
      ∧ (s.lampRefuse m tyRead q = none →
        (∀ st, readRefuse q n = some st → ∃ s', exec (.read t m q) s = .next s' ∧ sent s' tyRead st [] ∧ (midKind m ≠ 1 → s'.mem = s.mem))
          ∧ (readRefuse q n = none → a + n ≤ 3 * 2 ^ 32 → s.armed false = false → s.poison = [] → (∀ i < n / 4, x.accessError (a + 4 * i) = none) →
            ∃ s', exec (.read t m q) s = .next s' ∧ sent s' tyRead stOk (s.readWords a (n / 4)) ∧ (midKind m ≠ 1 → s'.mem = s.mem ∧ s'.regs = s.regs)))
      ∧ (s.lampRefuse m tyWrite q = none → inPlace q.at a (4 * q.payload.length) = true → 0 < q.payload.length →
        ((∃ i < q.payload.length, s.wordRefused m (a + 4 * i) = true) → ∃ s', exec (.write t m q) s = .next s' ∧ sent s' tyWrite stNotOwner []
            ∧ (midKind m ≠ 1 → s'.mem = s.mem ∧ ∀ b, b ≠ R.LMP_REFCNT → s'.word b = s.word b))
          ∧ (s.isOwner m = true → a + 4 * q.payload.length ≤ 3 * 2 ^ 32 → s.armed true = false → s.epochless = true →
            (∀ i < q.payload.length, x.accessError (a + 4 * i) = none) → ∃ s', exec (.write t m q) s = .next s' ∧ sent s' tyWrite stOk [])
          ∧ (s.isOwner m = true → a + 4 * q.payload.length ≤ 3 * 2 ^ 32 → s.armed true = false → s.epochless = false →
            (∀ i < q.payload.length, x.accessError (a + 4 * i) = none) → ∃ s', exec (.write t m q) s = .next s'
              ∧ s'.net.heldResps = s.net.heldResps ++ [{ frame := q.answer m tyWrite stOk, epoch := s.jnl.next }] ∧ s'.net.sent = s.net.sent
              ∧ s'.readWords a q.payload.length = q.payload.map (·.toNat) ∧ (∀ b, b < a ∨ a + 4 * q.payload.length ≤ b → s'.byte b = s.byte b)
              ∧ s'.regs = s.regs))
      ∧ (s.lampRefuse m tyReset q = none → (reachOk q.at = true → s.epochless = false → ∃ s', exec (.reset t m q) s = .next s' ∧ s'.regs = s.regs
          ∧ s'.net.heldResps = s.net.heldResps ++ [{ frame := q.answer m tyReset stOk, epoch := s.jnl.next }])
        ∧ (reachOk q.at = true → s.epochless = true → ∃ s', exec (.reset t m q) s = .next s' ∧ sent s' tyReset stOk []
          ∧ s'.net.resets = s.net.resets ++ [(canonPlace q.at, x.clock + 1000000)])
        ∧ (reachOk q.at = false → ∃ s', exec (.reset t m q) s = .next s' ∧ sent s' tyReset stBadPlace []))
      ∧ (s.lampRefuse m tySubscribe q = none →
        let others := s.net.subs.filter (fun y => !y.is m q.tid.toNat)
        (n = 0 → ∃ s', exec (.subscribe t m q) s = .next s' ∧ sent s' tySubscribe stOk [] ∧ s'.net.subs = others)
          ∧ (1 ≤ n → n < 10 ∨ 60000 < n → ∃ s', exec (.subscribe t m q) s = .next s' ∧ sent s' tySubscribe stBadLen [] ∧ s'.net.subs = s.net.subs)
          ∧ (10 ≤ n → n ≤ 60000 → readRefuse q (q.word 1) = none → others.length < 32 → ∃ s', exec (.subscribe t m q) s = .next s'
            ∧ sent s' tySubscribe stOk [] ∧ s'.net.subs = others ++
              [{ mid := m, tid := q.tid.toNat, place := q.at, addr := a, bytes := q.word 1, period := n, at1 := x.clock }])
          ∧ (10 ≤ n → n ≤ 60000 → readRefuse q (q.word 1) = none → 32 ≤ others.length → ∃ s', exec (.subscribe t m q) s = .next s'
            ∧ sent s' tySubscribe stBusy [] ∧ s'.net.subs = s.net.subs))
      ∧ (s.lampRefuse m tyEvlog (q.withOp 0) = none →
        (1 ≤ q.word 2 → q.word 2 ≤ 32 → s.poison = [] → ∃ s' data, exec (.evlogRead t m q) s = .next s' ∧ sent s' tyEvlog stOk data
            ∧ data = ((s.recordsFrom (q.word 1)).take (q.word 2)).flatMap (fun r => (List.range 8).map (fun i => r.word / 2 ^ (32 * i) % 2 ^ 32))
            ∧ s'.evr = s.evr ∧ (midKind m ≠ 1 → s'.mem = s.mem))
          ∧ (q.word 2 = 0 ∨ 32 < q.word 2 → ∃ s', exec (.evlogRead t m q) s = .next s' ∧ sent s' tyEvlog stBadLen []))

/-- Lamip frames and the engine's timers: a frame whose CRC or length fails is counted and dropped; a repeated TID gets the cached response again; a
new one executes and enters the cache; pushes, and the ends of subscriptions and cache entries; a RESET takes effect when its time has come. What a
cached refusal is, is the model's reading (log 74). -/
def Obligations.LampFrames : Prop :=
  ∀ (s : State) (t : Nat) (m : Master) (tid : Word) (b : List Byte),
    let x := s.atTime t
    let usb : Master := 3 * 2 ^ 56
    let q := frameReq b
    (x.lampUp = false → ∀ src, exec (.lamipFrameReceive t src) s = .next x)
      ∧ (x.lampUp = true → s.flag F.LMP_CFG_USBEN = true → s.flag F.USB_CFG_EN = true → s.flag F.USB_STAT_CFGD = true → s.net.usbOff ≤ x.clock →
        (frameOk b = false → exec (.lamipFrameReceive t (.usb b)) s = .next ((x.countSat F.LMP_CRCCNT_COUNT).raise F.LMP_STAT_CRCERR))
          ∧ (frameOk b = true → q.tid ≠ 0 → ∀ e, s.net.cache.find? (fun e => e.mid == usb && e.tid == q.tid.toNat) = some e →
            (e.answer = none → exec (.lamipFrameReceive t (.usb b)) s = .next (x.count F.LMP_RXCNT_COUNT))
              ∧ ∀ f, e.answer = some f → midKind f.mid ≠ 2 → ∃ s', exec (.lamipFrameReceive t (.usb b)) s = .next s' ∧ s'.net.sent = s.net.sent ++ [f]
                ∧ s'.word R.LMP_RETRY = min (s.word R.LMP_RETRY + 1) (2 ^ 32 - 1) ∧ s'.net.heldResps = s.net.heldResps
                ∧ (midKind f.mid ≠ 1 → s'.mem = s.mem))
          ∧ (frameOk b = true → q.tid ≠ 0 → s.net.cache.find? (fun e => e.mid == usb && e.tid == q.tid.toNat) = none → s.net.cache.length < 512 →
            leAt b 2 2 = 0 → leAt b 20 4 % 4 = 0 → leAt b 20 4 ≤ 1024 → lampWords (leAt b 1 1) ≠ none →
            exec (.lamipFrameReceive t (.usb b)) s = .next (((x.count F.LMP_RXCNT_COUNT).withNet
              { s.net with cache := s.net.cache ++ [{ mid := usb, tid := q.tid.toNat }] }).lampTransact usb (leAt b 1 1) q)))
      ∧ (x.lampUp = true → s.net.lmpUdp = [] → exec (.lamipFrameReceive t .udp) s = .next x)
      ∧ (∀ ip port rest, x.lampUp = true → s.net.lmpUdp = (ip, port, b) :: rest → s.flag F.LMP_CFG_UDPEN = true → s.word R.ETH_IP ≠ 0 → frameOk b = false →
        ∃ s', exec (.lamipFrameReceive t .udp) s = .next s' ∧ s'.net.lmpUdp = rest ∧ s'.flag F.LMP_STAT_CRCERR = true ∧ s'.net.sent = s.net.sent)
      ∧ (s.net.subs.find? (fun y => y.is m tid.toNat) = none → exec (.subscriptionPush t m tid) s = .next x)
      ∧ (∀ y, s.net.subs.find? (fun y => y.is m tid.toNat) = some y → x.lampUp = true → s.start.isSome = true → midKind y.mid ≠ 2 →
        (x.now % (y.period * 1000000) ≠ 0 → exec (.subscriptionPush t m tid) s = .next x)
          ∧ (x.now % (y.period * 1000000) = 0 → y.pushed ≠ some x.now → y.addr + y.bytes ≤ 3 * 2 ^ 32 → s.armed false = false → s.poison = [] →
            (∀ i < y.bytes / 4, x.accessError (y.addr + 4 * i) = none) → ∃ s', exec (.subscriptionPush t m tid) s = .next s'
              ∧ (midKind y.mid ≠ 1 → s'.mem = s.mem ∧ s'.regs = s.regs) ∧ ∃ f, s'.net.sent = s.net.sent ++ [f] ∧ f.mid = y.mid ∧ f.push = true ∧ f.type = tySubscribe
              ∧ f.status = stOk ∧ f.tid = y.tid ∧ f.place = y.place ∧ f.addr = y.addr ∧ f.payload = s.readWords y.addr (y.bytes / 4)))
      ∧ exec (.subscriptionExpire t m tid) s = .next (x.withNet { s.net with subs := s.net.subs.filter (fun y => !(y.is m tid.toNat
          && decide (y.at1 + 30000000000 ≤ x.clock))) })
      ∧ exec (.cacheEntryExpire t m tid) s = .next (x.withNet { s.net with cache := s.net.cache.filter (fun e => !(e.mid == m && e.tid == tid.toNat
          && e.answer.isSome && decide (e.at1 + 10000000000 ≤ x.clock))) })
      ∧ ((∀ e ∈ s.net.resets, x.clock < e.2) → ∃ s', exec (.lamipResetApply t) s = .next s' ∧ s'.net.resets = s.net.resets ∧ s'.regs = s.regs ∧ s'.rst = s.rst)
      ∧ (∀ p due, s.net.resets = [(p, due)] → due ≤ x.clock → exec (.lamipResetApply t) s = .next ((x.withNet { s.net with resets := [] }).resetReach p 6))

/-- OWN: a claim waits, renews the owner's lease, or finds it held; renewal, release and handover by the owner alone; the settle window's winner by
class, arrival and MID; the lease of 3 s, at the end of its last millisecond. Each change of owner sets CHG, OWN_LAST and counts. The answer to a
claim that another replaces is the model's reading (log 75). -/
def Obligations.Ownership : Prop :=
  ∀ (s : State) (t : Nat) (m : Master) (q : LampReq) (v : Word), midKind m ≠ 2 →
    let x := s.atTime t
    let succ := q.word 0 + q.word 1 * 2 ^ 32
    let answered (s' : State) (ty st : Nat) : Prop := s'.net.sent = s.net.sent ++ [q.answer m ty st]
    let changed (s' : State) (why : Nat) : Prop := s'.flag F.OWN_STAT_CHG = true ∧ s'.get F.OWN_LAST_WHY = why ∧ s'.flag F.TLY_STAT_ARMED = false
      ∧ s'.word R.OWN_CCNT = (s.word R.OWN_CCNT + 1) % 2 ^ 32 ∧ ∀ k, 1 ≤ k → k ≤ 5 → s.get (F.UPD_KSTAT_STG k) = 1 ∨ s.get (F.UPD_KSTAT_STG k) = 5 → s'.get (F.UPD_KSTAT_STG k) = 4
    (x.lampUp = true → x.ownUp = true → s.lampRefuse m tyClaim q = none →
        (s.ownState = oOwned → s.isOwner m = true → ∃ s', exec (.claim t m (some q) v) s = .next s' ∧ answered s' tyClaim stOk
            ∧ s'.net.leaseAt = some x.clock ∧ s'.net.claims = s.net.claims)
          ∧ (s.ownState = oOwned → s.isOwner m = false → ∃ s', exec (.claim t m (some q) v) s = .next s' ∧ answered s' tyClaim stHeld ∧ s'.net.claims = s.net.claims)
          ∧ (s.ownState ≠ oOwned → (∀ c ∈ s.net.claims, c.mid ≠ m) → s.net.claims.length < 32 → ∃ s', exec (.claim t m (some q) v) s = .next s'
            ∧ s'.net.claims = s.net.claims ++ [{ mid := m, cls := q.word 0 % 8, frame := some (q.answer m tyClaim stOk), at1 := x.clock }]
            ∧ s'.net.sent = s.net.sent ∧ s'.get F.OWN_STAT_NCLAIM = s.net.claims.length + 1
            ∧ (s.ownState = oFree → s'.ownState = oSettle ∧ s'.net.settleAt = x.clock + 50000000)))
      ∧ (x.lampUp = true → x.ownUp = true → s.lampRefuse m tyRenew q = none → ∃ s', exec (.renew t m (some q) v) s = .next s' ∧ answered s' tyRenew stOk
        ∧ s'.net.leaseAt = some x.clock ∧ s'.ownMid = s.ownMid)
      ∧ (x.lampUp = true → x.ownUp = true → s.lampRefuse m tyRelease q = none → ∃ s', exec (.release t m (some q) v) s = .next s' ∧ answered s' tyRelease stOk
        ∧ s'.ownState = oFree ∧ s'.net.leaseAt = none ∧ changed s' 2)
      ∧ (x.lampUp = true → x.ownUp = true → s.lampRefuse m tyHandover q = none →
        (midKind succ ≤ 3 → ∃ s', exec (.handover t m (some q) v) s = .next s' ∧ answered s' tyHandover stOk ∧ s'.ownState = oOwned
            ∧ s'.ownMid = succ ∧ s'.net.leaseAt = some x.clock ∧ changed s' 3)
          ∧ (3 < midKind succ → ∃ s', exec (.handover t m (some q) v) s = .next s' ∧ answered s' tyHandover stBadLen ∧ s'.ownMid = s.ownMid))
      ∧ (∀ i ty, (i, ty) ∈ [(Instr.claim t m (some q) v, tyClaim), (.renew t m (some q) v, tyRenew), (.release t m (some q) v, tyRelease),
          (.handover t m (some q) v, tyHandover)] → x.lampUp = true → x.ownUp = false → s.lampRefuse m ty q = none → ∃ s', exec i s = .next s'
            ∧ s'.net.sent = s.net.sent ∧ s'.net.claims = s.net.claims ∧ s'.net.leaseAt = s.net.leaseAt ∧ s'.regs = s.regs)
      ∧ (Reaches s t R.OWN_CTL →
        (s.isActiveCore m = false → ∀ i, i ∈ [Instr.claim t m none v, .renew t m none v, .release t m none v, .handover t m none v] →
            exec i s = .next { x with reply := some (stNotOwner, []) })
          ∧ (s.isActiveCore m = true → s.isOwner m = true → v.toNat % 16 = 1 → exec (.renew t m none v) s = .next (x.ownLease.answered R.OWN_CTL))
          ∧ (s.isActiveCore m = true → s.isOwner m = true → v.toNat % 16 = 2 → ∃ s', exec (.release t m none v) s = .next s'
            ∧ s'.ownState = oFree ∧ s'.reply = some (stOk, []) ∧ changed s' 2)
          ∧ (s.isActiveCore m = true → s.isOwner m = true → v.toNat % 16 = 8 → s.word R.OWN_HSUCC_HI < 2 ^ 26 → ∃ s', exec (.handover t m none v) s = .next s'
            ∧ s'.ownMid = s.word R.OWN_HSUCC_LO + s.word R.OWN_HSUCC_HI * 2 ^ 32 ∧ s'.reply = some (stOk, []) ∧ changed s' 3)
          ∧ (s.isActiveCore m = true → s.ownState = oFree → s.net.claims = [] → v.toNat % 16 = 4 → ∃ s', exec (.claim t m none v) s = .next s'
            ∧ s'.net.claims = [{ mid := m, cls := v.toNat / 16 % 8, at1 := x.clock }] ∧ s'.ownState = oSettle))
      ∧ (x.ownUp = true → s.ownState = oSettle → s.net.settleAt ≤ x.clock →
        (s.net.claims = [] → exec (.settleWindowEnd t) s = .next (x.put F.OWN_STAT_STATE oFree))
          ∧ (s.net.claims ≠ [] → ∃ s' w, exec (.settleWindowEnd t) s = .next s' ∧ w ∈ s.net.claims ∧ (∀ c ∈ s.net.claims, c.beats w = false)
            ∧ s'.ownState = oOwned ∧ s'.ownMid = w.mid % 2 ^ 64 ∧ s'.get F.OWN_STAT_CLASS = w.cls % 8 ∧ s'.net.claims = []
            ∧ s'.net.leaseAt = some x.clock ∧ changed s' 1))
      ∧ (x.ownUp = false ∨ s.ownState ≠ oSettle ∨ x.clock < s.net.settleAt → exec (.settleWindowEnd t) s = .next x)
      ∧ (x.ownUp = false → exec (.leaseExpire t) s = .next x)
      ∧ (∀ l, x.ownUp = true → s.net.leaseAt = some l → s.ownState = oOwned →
        (x.clock / 1000000 ≤ (l + 3000000000) / 1000000 → exec (.leaseExpire t) s = .next x)
          ∧ ((l + 3000000000) / 1000000 < x.clock / 1000000 → ∃ s', exec (.leaseExpire t) s = .next s' ∧ s'.ownState = oFree ∧ s'.net.leaseAt = none ∧ changed s' 4))

/-- The switch: a frame for a known station goes to its port, one for an unknown or a group address to every other port that is up; a full egress
queue drops it and counts, a port that sends another queues it, and the highest queue goes first; its source is learned; ARP for ETH_IP is answered
and a datagram for LMP reaches it; links and ageing; the service port shows a host only while it is enabled. The queue of a PCP and what is answered
but not forwarded are the model's reading (log 76). -/
def Obligations.Ethernet : Prop :=
  ∀ (s : State) (t : Nat) (p : Fin 4) (k : Fin 3) (b : List Byte) (load : EthLoad),
    let x := s.atTime t
    let dst := beAt b 0 6
    let src := beAt b 6 6
    let known := s.net.macs.find? (fun e => e.1 == dst)
    let up := x.ethUp = true ∧ s.portUp p = true
    let plain := s.isArp b = false ∧ ipAt b = none ∧ ptpAt b = none
    (x.ethUp = false ∨ s.portUp p = false → exec (.switchFrame t p b load) s = .next x)
      ∧ (up → plain → src ≠ dst → s.net.egress = [] → ∃ s', exec (.switchFrame t p b {}) s = .next s' ∧ s'.mem = s.mem
        ∧ s'.net.ethOut = s.net.ethOut ++ ((x.ethLearn src p).ethPorts dst p).map (fun j => (j, b))
        ∧ (isGroup dst = true ∨ known = none → (x.ethLearn src p).ethPorts dst p = (List.range 4).filter (fun j => j != p.val && s.portUp j))
        ∧ (isGroup dst = false → ∀ e, known = some e → (x.ethLearn src p).ethPorts dst p = if e.2.1 ≠ p ∧ s.portUp e.2.1 = true then [e.2.1] else [])
        ∧ ∀ j, j < 3 → j = p.val → s'.word (R.ETH_PRX j) = (s.word (R.ETH_PRX j) + 1) % 2 ^ 32)
      ∧ (up → plain → load.cuffFull = false → s.net.egress = [] → ∃ s', exec (.switchFrame t p b load) s = .next s'
        ∧ s'.net.macs = if isGroup src = true ∨ (1024 ≤ s.net.macs.length ∧ ∀ e ∈ s.net.macs, e.1 ≠ src) then s.net.macs
            else s.net.macs.filter (fun e => e.1 != src) ++ [(src, p.val, x.clock)])
      ∧ (up → plain → src ≠ dst → load.cuffFull = false → s.net.egress = [] → isGroup dst = false → ∀ e, known = some e → e.2.1 ≠ p → s.portUp e.2.1 = true →
        ∃ s', exec (.switchFrame t p b load) s = .next s' ∧
          (if load.isFull e.2.1 (ethQueue b) = true then
            s'.net.ethOut = s.net.ethOut ∧ s'.net.egress = [] ∧ s'.word R.ETH_DROP = min (s.word R.ETH_DROP + 1) (2 ^ 32 - 1)
          else if load.isBusy e.2.1 = true then s'.net.ethOut = s.net.ethOut ∧ s'.net.egress = [{ port := e.2.1, queue := ethQueue b, bytes := b }]
          else s'.net.ethOut = s.net.ethOut ++ [(e.2.1, b)] ∧ s'.net.egress = []))
      ∧ (∀ (l : List EgressFrame) (j : Nat), (∀ f, nextEgress j l = some f → f ∈ l ∧ f.port = j ∧ ∀ g ∈ l, g.port = j → g.queue ≤ f.queue)
        ∧ ((∃ g ∈ l, g.port = j) → (nextEgress j l).isSome = true))
      ∧ (up → s.isArp b = true → ptpAt b = none → s.net.egress = [] → ∃ s', exec (.switchFrame t p b {}) s = .next s' ∧ s'.net.ethOut = s.net.ethOut ++ [(p.val, s.arpReply b)])
      ∧ (∀ u, up → s.isArp b = false → ptpAt b = none → s.forLamp b = some u → s.net.egress = [] → ∃ s', exec (.switchFrame t p b {}) s = .next s'
        ∧ s'.net.ethOut = s.net.ethOut ∧
          (if u.v6 = true ∨ u.frag = true then s'.word R.LMP_REFCNT = min (s.word R.LMP_REFCNT + 1) (2 ^ 32 - 1) ∧ s'.net.lmpUdp = s.net.lmpUdp
          else x.lampUp = true → s'.net.lmpUdp = s.net.lmpUdp ++ [(u.src, beAt b u.body 2, (b.drop (u.body + 8)).take (beAt b (u.body + 4) 2 - 8))]))
      ∧ (x.ethUp = true → s.flag (F.ETH_PSTAT_LINK k) = true → ∃ s', exec (.linkLoss t k) s = .next s' ∧ s'.flag (F.ETH_PSTAT_LINK k) = false
        ∧ s'.net.macs = s.net.macs.filter (fun e => e.2.1 != k.val))
      ∧ (x.ethUp = true → s.flag (F.ETH_PSTAT_LINK k) = false → exec (.linkLoss t k) s = .next x)
      ∧ exec (.linkUp t k) s = .next (if x.ethUp = true ∧ s.flag (F.ETH_PCFG_EN k) = true then x.raise (F.ETH_PSTAT_LINK k) else x)
      ∧ (x.ethUp = false → exec (.macAddressAgeing t) s = .next x)
      ∧ (x.ethUp = true → ∃ s', exec (.macAddressAgeing t) s = .next s' ∧ s'.net.macs = s.net.macs.filter (fun e => decide (x.clock < e.2.2 + 300000000000))
        ∧ s'.mem = s.mem ∧ s'.net.ethOut = s.net.ethOut)
      ∧ ∀ conn hs cfgd, ∃ s', exec (.usbBusChange t conn hs cfgd) s = .next s' ∧ (s.flag F.USB_CFG_EN = false →
          s'.flag F.USB_STAT_CONN = false ∧ s'.flag F.USB_STAT_HS = false ∧ s'.flag F.USB_STAT_CFGD = false)
        ∧ (s.flag F.USB_CFG_EN = true → s.net.usbOff ≤ x.clock → x.down = false → s.inBeanie = false →
          s'.flag F.USB_STAT_CONN = conn ∧ s'.flag F.USB_STAT_HS = (conn && hs) ∧ s'.flag F.USB_STAT_CFGD = (conn && cfgd))

/-- EVR's commands: clear, freeze, unfreeze, flush, the freeze's timeout; a refusal sets REFUSED. With an injected error waiting for a write (`calm`
fails) a clear and a flush bring a report of their own, which is left aside. Reports: one opens a window of 1 ms for its code and place at the level
of FLT_CFG, or joins the window that is open; a window's end emits its record; one whose end has passed is emitted when the next report comes. A
parameter that the table does not list for the code is zero. A code that is never emitted, a place that does not exist or a die below 160 °C makes
none. An injected error waiting for a write is left aside, as it brings a report of its own. When windows are looked at is the model's reading (log
83). -/
def Obligations.EventsAndReports : Prop :=
  (∀ (s : State) (t : Nat) (m : Master),
    let x := s.atTime t
    let frozen := s.flag F.EVR_STAT_FROZEN = true
    let calm := s.armed true = false ∧ s.flt.own = []
    (Reaches s t R.EVR_CTL →
        (frozen → exec (.logClear t m none) s = .next ((x.raise F.EVR_STAT_REFUSED).answered R.EVR_CTL)
            ∧ exec (.logFlushCmd t m) s = .next (x.answered R.EVR_CTL)
            ∧ ∃ s', exec (.logUnfreeze t m none) s = .next s' ∧ s'.flag F.EVR_STAT_FROZEN = false ∧ s'.flt.queue = [] ∧ s'.reply = some (stOk, []))
          ∧ (¬frozen → (calm → ∃ s' e, exec (.logClear t m none) s = .next s' ∧ s'.get F.EVR_LCNT_LCNT = 0 ∧ s'.flag F.EVR_STAT_FULL = false
              ∧ s'.evr.buf.getLast? = some e ∧ e.entry.code = 0x200C ∧ e.flushed = false ∧ s'.reply = some (stOk, []))
            ∧ (calm → ∃ s', exec (.logFlushCmd t m) s = .next s' ∧ (∀ e ∈ s'.evr.buf, e.flushed = true) ∧ s'.get F.EVR_BCNT_BCNT = 0
              ∧ s'.evr.buf.length = s.evr.buf.length)
            ∧ exec (.logUnfreeze t m none) s = .next (x.answered R.EVR_CTL))
          ∧ (s.freezable = true → exec (.logFreeze t m none) s = .next (((x.raise F.EVR_STAT_FROZEN).withEvr
            { s.evr with freezeEnds := x.now + s.get F.EVR_FRZ_TMO * 1000000 }).answered R.EVR_CTL))
          ∧ (s.freezable = false → exec (.logFreeze t m none) s = .next ((x.raise F.EVR_STAT_REFUSED).answered R.EVR_CTL)))
      ∧ (∀ q, x.lampUp = true → midKind m ≠ 2 → s.lampRefuse m tyEvlog q = none →
        let sent (s' : State) (op st : Nat) : Prop := s'.net.sent = s.net.sent ++ [(q.withOp op).answer m tyEvlog st]
        (frozen → ∃ s', exec (.logClear t m (some q)) s = .next s' ∧ sent s' 1 stBusy ∧ s'.flag F.EVR_STAT_REFUSED = true ∧ s'.mem = s.mem)
          ∧ (¬frozen → calm → ∃ s', exec (.logClear t m (some q)) s = .next s' ∧ sent s' 1 stOk ∧ s'.get F.EVR_LCNT_LCNT = 0)
          ∧ (∃ s', exec (.logFreeze t m (some q)) s = .next s' ∧ sent s' 2 (if s.freezable then stOk else stBusy)
            ∧ s'.flag F.EVR_STAT_FROZEN = (s.freezable || s.flag F.EVR_STAT_FROZEN))
          ∧ ∃ s', exec (.logUnfreeze t m (some q)) s = .next s' ∧ sent s' 3 stOk ∧ s'.flag F.EVR_STAT_FROZEN = false)
      ∧ (frozen → s.evr.freezeEnds ≤ x.now → ∃ s', exec (.freezeTimeout t) s = .next s' ∧ s'.flag F.EVR_STAT_FROZEN = false ∧ s'.flt.queue = [])
      ∧ (¬frozen ∨ x.now < s.evr.freezeEnds → exec (.freezeTimeout t) s = .next x))
    ∧ (∀ (s : State) (t : Nat) (code : BitVec 16) (p p0 p1 p2 p3 : Word) (die : Fin 2) (temp : Int),
    let x := s.atTime t
    let pl := canonPlace p.toNat
    let a := ancestorOf (s.get F.FLT_CFG_LEVEL) pl
    let die0 := place 0 0 1 0xFFFF
    let live := s.flt.windows.filter (fun w => decide (x.now - 1 < w.ends))
    let calm := s.armed true = false ∧ s.flt.own = []
    let par (k : Nat) (v : Word) : Nat := if k ∈ eventParams code.toNat then v.toNat else 0
    (eventCodes.contains code.toNat = false ∨ placeExists pl = false → exec (.faultReport t code p p0 p1 p2 p3) s = .next x)
      ∧ (eventCodes.contains code.toNat = true → placeExists pl = true → s.evr.running = true → calm → code ≠ 0xA701 → code ≠ 0x9004 →
        (live.any (fun w => w.keyed code.toNat a) = false → live.length < 32 →
          ∃ s' w, exec (.faultReport t code p p0 p1 p2 p3) s = .next s' ∧ s'.flt.windows = live ++ [w] ∧ w.ancestor = a ∧ w.count = 1
            ∧ w.ends = x.now + 1000000 ∧ w.first = { code := code.toNat, place := pl, time := x.now, p0 := par 0 p0, p1 := par 1 p1, p2 := par 2 p2, p3 := par 3 p3 })
          ∧ (live.any (fun w => w.keyed code.toNat a) = true → ∃ s', exec (.faultReport t code p p0 p1 p2 p3) s = .next s'
            ∧ s'.flt.windows.length = live.length ∧ s'.word R.FLT_COAL = (s.word R.FLT_COAL + 1) % 2 ^ 32
            ∧ ∀ (i : Nat) (w w' : FltWindow), live[i]? = some w → s'.flt.windows[i]? = some w' → w'.count = w.count + if w.keyed code.toNat a then 1 else 0))
      ∧ (s.evr.running = false → exec (.windowEnd t) s = .next x)
      ∧ (s.evr.running = true → calm → ∃ s', exec (.windowEnd t) s = .next s' ∧ s'.flt.windows = s.flt.windows.filter (fun w => decide (x.now < w.ends))
        ∧ (∀ w, s.flt.windows = [w] → w.ends ≤ x.now → s.flt.sec = x.now / 1000000000 → s.flt.inSec < 256 →
          s'.word R.FLT_RCNT = (s.word R.FLT_RCNT + 1) % 2 ^ 32))
      ∧ (temp < 1600 → exec (.dieTemperatureHigh t die temp) s = .next x)
      ∧ (1600 ≤ temp → s.evr.running = true → calm → live.any (fun w => w.keyed 0x0001 (ancestorOf (s.get F.FLT_CFG_LEVEL) die0)) = false →
        live.length < 32 → ∃ s' w, exec (.dieTemperatureHigh t die temp) s = .next s' ∧ s'.flt.windows = live ++ [w]
          ∧ w.first.code = 0x0001 ∧ w.first.place = die0 ∧ w.first.p1 = die.val ∧ w.first.time = x.now))

/-! The halves (R474-R505). -/

/-- An epoch boundary numbers and captures an epoch into its slot and leaves it open; a heartbeat later than the boundary lets the commit record be
written; a poisoned copy gets none. The first epoch and the capture follow the model's reading (log 78). -/
def Obligations.Epochs : Prop :=
  ∀ (s : State) (t : Nat) (h : Nat), s.active = some h →
    let x := s.atTime t
    let n := s.jnl.next
    let slot := slotBase (n % 64)
    (x.epochDue = false → exec (.epochBoundary t) s = .next x)
      ∧ (x.epochDue = true → s.flag F.RST_STAT_FLUSH = false → s.rst.entering = false → s.roleState ≠ rSwap → ∃ s', exec (.epochBoundary t) s = .next s'
        ∧ s'.jnl.pend = some (n, x.now, false, false) ∧ s'.jnl.next = n + 1 ∧ s'.jnl.bound = some x.now ∧ s'.jnl.ems = s.get F.ROLE_JCFG_EMS
        ∧ s'.flag F.ROLE_JSTAT_BUSY = true ∧ (s.jnl.pend ≠ none → s'.flag F.ROLE_JSTAT_NOCOMMIT = true
          ∧ s'.get F.ROLE_JSTAT_SKIP = min (s.get F.ROLE_JSTAT_SKIP + 1) (2 ^ 16 - 1))
        ∧ s'.readN slot 4 = 0x4B484A53 ∧ s'.readN (slot + 8) 8 = n % 2 ^ 64 ∧ (s.armed true = false → ∀ a, a < slot ∨ slot + 0x30000 ≤ a → s'.byte a = s.byte a))
      ∧ (∀ k b pf y, s.jnl.pend = some (k, b, pf, false) → s.role.hbAt = some y → s.rst.entering = false → s.flushing = false →
        (s.jnl.bad = false → b < y → ∃ s', exec (.epochCommit t) s = .next s' ∧ s'.jnl.pend = none ∧ s'.get64 R.ROLE_CEP_LO R.ROLE_CEP_HI = k % 2 ^ 64
            ∧ s'.flag F.ROLE_JSTAT_BUSY = false ∧ s'.net.heldResps = s.net.heldResps.filter (fun r => decide (k < r.epoch))
            ∧ s'.readN (slotBase (k % 64) + slotBody) 4 = 0x434D5431 ∧ s'.readN (slotBase (k % 64) + slotBody + 8) 8 = k % 2 ^ 64
            ∧ s'.readN (slotBase (k % 64) + slotBody + 16) 8 = b % 2 ^ 64)
          ∧ (s.jnl.bad = true → ∃ s', exec (.epochCommit t) s = .next s' ∧ s'.jnl.pend = none ∧ s'.flag F.ROLE_JSTAT_NOCOMMIT = true ∧ s'.mem = s.mem
            ∧ s'.get64 R.ROLE_CEP_LO R.ROLE_CEP_HI = s.get64 R.ROLE_CEP_LO R.ROLE_CEP_HI)
          ∧ (s.jnl.bad = false → y ≤ b → exec (.epochCommit t) s = .next x))

/-- Failover: heartbeats, their loss, the A-cores' watchdogs and FAIL raise sources; acting on them in NORMAL cuts the active half off, engages Mitten
and boots the standby; in SINGLE it restarts the half in place, once in 60 s. Parity escalation of the standby clears its OK. The end of a takeover or
of a restart in place (R489–R493). What the states between hold is the model's reading (log 77). -/
def Obligations.Failover : Prop :=
  (∀ (s : State) (t : Nat) (m : Master) (c : ACoreId) (v : Word) (h : Nat), s.active = some h →
    let x := s.atTime t
    let ph := x.now % 1000000
    let actives := ∀ e ∈ s.role.srcs, e.1 ≠ 4 ∨ bitField e.2 31 28 = h + 1
    (s.role.bootAt.isSome = true → x.flushOver = false → 490000 ≤ ph → ph ≤ 510000 → (∀ b, s.role.beatAt = some b → b / 1000000 ≠ x.now / 1000000) → ∃ s', exec (.heartbeat t) s = .next s' ∧ s'.role.hbAt = some x.now
        ∧ s'.get64 R.ROLE_LHB_LO R.ROLE_LHB_HI = x.now % 2 ^ 64 ∧ s'.word (R.HMN_HBCNT h) = (s.word (R.HMN_HBCNT h) + 1) % 2 ^ 32 ∧ s'.mem = s.mem)
      ∧ (ph < 490000 ∨ 510000 < ph → exec (.heartbeat t) s = .next x)
      ∧ (∀ last, s.role.hbAt = some last → s.role.bootAt.isSome = true →
        (x.now < last + 2000000 → exec (.heartbeatLoss t) s = .next x)
          ∧ (last + 2000000 ≤ x.now → ∃ s', exec (.heartbeatLoss t) s = .next s' ∧ s'.role.srcs = s.role.srcs ++ [(5, hmnPlace h)] ∧ s'.regs = s.regs))
      ∧ (c.half.val = h → (s.get (F.HMN_WDCFG_EN h)).testBit c.core = true → (s.get (F.HMN_STAT_EXP h)).testBit c.core = false →
        let due := s.role.kicks.getD (h * 4 + c.core.val) 0 + s.get (F.HMN_WDCFG_TMO h) * 1000000
        (x.clock < due → exec (.acoreWatchdogExpire t c) s = .next x)
          ∧ (due ≤ x.clock → ∃ s', exec (.acoreWatchdogExpire t c) s = .next s' ∧ s'.role.srcs = s.role.srcs ++ [(1, hmnPlace h)]
            ∧ s'.get (F.HMN_STAT_EXP h) = s.get (F.HMN_STAT_EXP h) + 2 ^ c.core.val))
      ∧ (Reaches s t (R.HMN_KICK c.half c.core) → exec (.hmnKick t m c v) s = .next ((x.withRole
        { s.role with kicks := s.role.kicks.set (c.half.val * 4 + c.core.val) x.clock }).answered (R.HMN_KICK c.half c.core)))
      ∧ (Reaches s t R.ROLE_CTL → v.toNat % 16 = 1 →
        (s.isOwner m = false → s.isActiveCore m = false → exec (.roleFail t m v) s = .next { x with reply := some (stNotOwner, []) })
          ∧ (s.isOwner m = true ∨ s.isActiveCore m = true → ∃ s', exec (.roleFail t m v) s = .next s' ∧ s'.role.fcode = v.toNat / 2 ^ 16
            ∧ s'.role.srcs = s.role.srcs ++ [(6, if s.isActiveCore m then place (h + 1) 0 0xFF 0xFFFF else rolePlace)] ∧ s'.regs = s.regs
            ∧ s'.reply = some (stOk, [])))
      ∧ (s.role.srcs = [] → exec (.failoverDetect t) s = .next x)
      ∧ (∀ p, h < 2 → s.role.srcs = [(4, p)] → bitField p 31 28 = 2 - h → s.role.booting = none → exec (.failoverDetect t) s
        = .next ((x.withRole { s.role with srcs := [] }).halfFails (1 - h) 4 p))
      ∧ (s.role.srcs ≠ [] → actives → s.flag F.RST_STAT_FLUSH = false → s.rst.entering = false → s.roleState = rNormal → ∃ s', exec (.failoverDetect t) s = .next s'
        ∧ s'.active = none ∧ s'.roleState = rTakeover ∧ s'.role.booting = some (1 - h) ∧ s'.role.failed = h ∧ s'.role.srcs = [] ∧ s'.role.detectAt = x.clock
        ∧ s'.get F.ROLE_STAT_SRC = (lowestSource s.role.srcs).1 % 16 ∧ s'.word R.ROLE_LAST = (lowestSource s.role.srcs).2 % 2 ^ 32 ∧ s'.rst.faultN = true
        ∧ s'.get F.ROLE_FCNT_FAIL = min (s.get F.ROLE_FCNT_FAIL + 1) (2 ^ 16 - 1) ∧ s'.get F.MIT_STAT_STATE = mHold ∧ s'.word R.MIT_FHELD = 2 ^ 32 - 1
        ∧ s'.mit.engagedAt = some x.clock)
      ∧ (s.role.srcs ≠ [] → actives → s.flag F.RST_STAT_FLUSH = false → s.rst.entering = false → s.roleState = rSingle →
        (s.role.restartAt = none → ∃ s', exec (.failoverDetect t) s = .next s' ∧ s'.active = none ∧ s'.roleState = rRestart ∧ s'.role.booting = some h
            ∧ s'.role.restartAt = some x.clock)
          ∧ ∀ r, s.role.restartAt = some r → x.clock < r + 60000000000 → ∃ s', exec (.failoverDetect t) s = .next s' ∧ s'.active = none
            ∧ s'.roleState = rNohalf ∧ s'.rst.faultN = true ∧ s'.role.booting = none))
    ∧ (∀ (s : State) (t : Nat) (img : BootImages),
    let x := s.atTime t
    (s.role.booting = none → exec (.takeoverComplete t img) s = .next x)
      ∧ (∀ (m : Master) (v : Word), s.active = none → s.roleState = rRestart → s.isOwner m = true → Reaches s t R.ROLE_CTL → v.toNat % 16 = 1 →
        ∃ s', exec (.roleFail t m v) s = .next s' ∧ s'.role.srcs = s.role.srcs ++ [(6, rolePlace)] ∧ s'.role.fcode = v.toNat / 2 ^ 16 ∧ s'.reply = some (stOk, []))
      ∧ (∀ h, s.active = none → s.role.booting = some h → s.role.srcs ≠ [] → (∀ e ∈ s.role.srcs, e.1 ≠ 4) → s.flag F.RST_STAT_FLUSH = false → s.rst.entering = false →
        ∃ s', exec (.failoverDetect t) s = .next s' ∧ s'.active = none ∧ s'.roleState = rNohalf ∧ s'.role.srcs = [] ∧ s'.role.booting = none)
      ∧ (∀ h, s.role.booting = some h → (x.recoverBoot h img).2 = false ∨ s.role.detectAt + 150000000 < x.clock →
        ∃ s', exec (.takeoverComplete t img) s = .next s' ∧ s'.active = none ∧ s'.roleState = rNohalf ∧ s'.rst.faultN = true ∧ s'.role.booting = none
          ∧ s'.net.port3 = none ∧ (h < 2 → s'.flag (F.ROLE_HEALTH_IMGOK (h + 1)) = (x.recoverBoot h img).2))
      ∧ (∀ h, h < 2 → s.role.booting = some h → (x.recoverBoot h img).2 = true → x.clock ≤ s.role.detectAt + 150000000 →
        ∃ s', exec (.takeoverComplete t img) s = .next s' ∧ s'.active = some h ∧ (s'.roleState = rNormal ∨ s'.roleState = rSingle) ∧ s'.rst.faultN = false
          ∧ s'.role.booting = none ∧ s'.role.bootAt = some x.clock ∧ s'.word R.ROLE_TKT = nearest (x.clock - s.role.detectAt) 1000 ∧ s'.net.port3 = some h
          ∧ s'.sbst = sbOff ∧ s'.flag (F.ROLE_HEALTH_IMGOK (h + 1)) = true))

/-- The standby: self-tests, each with its result in ROLE_HEALTH, and the swap with its READY half, its abandonment and its abort. -/
def Obligations.StandbyAndSwap : Prop :=
  ∀ (s : State) (t : Nat) (m : Master) (v : Word) (img : BootImages) (h : Nat), s.active = some h → s.role.tested.length = 2 →
    let x := s.atTime t
    let b := 1 - h
    let back (s' : State) : Prop := (s'.roleState = rNormal ∨ s'.roleState = rSingle) ∧ s'.sbst = sbOff ∧ s'.active = some h
    (∀ mw, s.testAllowed = true → s.testDue ≤ x.clock → s.role.tryAt ≤ x.clock →
        (mw + 5450 ≤ 45000 → ∃ s', exec (.selfTestStart t mw) s = .next s' ∧ s'.sbst = sbTest ∧ s'.flag (F.ROLE_HEALTH_RUNNING (b + 1)) = true
            ∧ s'.role.asked = none ∧ s'.role.testBase = x.clock)
          ∧ (45000 < mw + 5450 → exec (.selfTestStart t mw) s = .next (x.withRole { s.role with tryAt := x.clock + 10000000000 })))
      ∧ (∀ mw, s.testAllowed = false ∨ x.clock < s.testDue → exec (.selfTestStart t mw) s = .next x)
      ∧ (∀ r : Fin 4, s.sbst = sbTest → r ≠ 0 → ∃ s', exec (.selfTestComplete t r img) s = .next s' ∧ s'.sbst = sbOff ∧ s'.active = some h
        ∧ s'.flag (F.ROLE_HEALTH_RUNNING (b + 1)) = false ∧ s'.get (F.ROLE_HEALTH_RESULT (b + 1)) = r.val ∧ s'.flag (F.ROLE_HEALTH_OVERDUE (b + 1)) = false
        ∧ s'.role.tested.getD b none = some x.clock ∧ s'.flag (F.ROLE_HEALTH_IMGOK (b + 1)) = (x.standbyImage h img).2
        ∧ s'.flag (F.ROLE_HEALTH_OK (b + 1)) = (r == 1 && (x.standbyImage h img).2)
        ∧ s'.get (F.ROLE_HEALTH_FAILS (b + 1)) = if r = 1 ∧ (x.standbyImage h img).2 = true then s.get (F.ROLE_HEALTH_FAILS (b + 1))
          else min (s.get (F.ROLE_HEALTH_FAILS (b + 1)) + 1) (2 ^ 8 - 1))
      ∧ (s.testAllowed = true → s.testDue + 3600000000000 ≤ x.clock → s.flag (F.ROLE_HEALTH_OVERDUE (b + 1)) = false →
        ∃ s', exec (.selfTestOverdue t) s = .next s' ∧ s'.flag (F.ROLE_HEALTH_OVERDUE (b + 1)) = true ∧ s'.sbst = s.sbst)
      ∧ (s.testAllowed = false ∨ x.clock < s.testDue + 3600000000000 → exec (.selfTestOverdue t) s = .next x)
      ∧ (s.isOwner m = true → Reaches s t R.ROLE_CTL →
        (v.toNat % 16 = 4 → exec (.stest t m v) s = .next ((if s.testAllowed then x.withRole { s.role with asked := some (s.role.asked.getD x.clock), tryAt := x.clock }
            else x.raise F.ROLE_STAT_CFGERR).answered R.ROLE_CTL))
          ∧ (v.toNat % 16 = 2 → (s.roleState ≠ rNormal → exec (.swap t m v) s = .next ((x.raise F.ROLE_STAT_CFGERR).answered R.ROLE_CTL))
            ∧ (s.roleState = rNormal → ∃ s', exec (.swap t m v) s = .next s' ∧ s'.roleState = rSwap ∧ s'.sbst = sbBoot ∧ s'.role.swapAt = x.clock
              ∧ s'.role.swapMiss = 0 ∧ s'.role.swapB = none ∧ s'.active = some h))
          ∧ (v.toNat % 16 = 8 → (s.roleState ≠ rSwap ∨ s.role.swapB ≠ none → exec (.swapAbort t m v) s = .next (x.answered R.ROLE_CTL))
            ∧ (s.roleState = rSwap → s.role.swapB = none → ∃ s', exec (.swapAbort t m v) s = .next s' ∧ back s')))
      ∧ (s.roleState = rSwap → s.sbst = sbBoot → x.clock ≤ s.role.swapAt + 200000000 →
        ((x.imgBoot 1 img).2.isSome = true → ∃ s', exec (.standbyReady t img) s = .next s' ∧ s'.sbst = sbReady ∧ s'.roleState = rSwap
            ∧ s'.flag (F.ROLE_HEALTH_IMGOK (b + 1)) = true)
          ∧ ((x.imgBoot 1 img).2 = none → ∃ s', exec (.standbyReady t img) s = .next s' ∧ back s' ∧ s'.flag (F.ROLE_HEALTH_OK (b + 1)) = false))
      ∧ (s.roleState ≠ rSwap → ∀ c, exec (.swapAbandon t c) s = .next x)
      ∧ (s.roleState = rSwap → (s.role.swapB = none → ∃ s', exec (.swapAbandon t 0) s = .next s' ∧ back s' ∧ s'.flag (F.ROLE_HEALTH_OK (b + 1)) = false)
        ∧ (∀ at', s.role.swapB = some at' → at' + 1500000 ≤ x.now → ∃ s', exec (.swapAbandon t 2) s = .next s' ∧ back s' ∧ s'.jnl.pend = none)
        ∧ (s.role.swapB = none → 10 ≤ s.role.swapMiss → ∃ s', exec (.swapAbandon t 3) s = .next s' ∧ back s'))

/-! Reset and power (R506-R533, R590-R592, R601). -/

/-- The state before power: nothing waits, memory and registers are canonical, every unit is one that the spec allows, no half is active, DRAM reads 0
(the model's choice, log 6), and the registers of every block hold the reset values of their tables. -/
def Obligations.ResetState : Prop :=
  let s := State.reset
  s.pending = [] ∧ s.canonical = true ∧ s.cpusLegal = true ∧ s.active = none ∧ s.rst.powered = false ∧ s.poison = []
    ∧ (∀ a, a < 3 * 2 ^ 32 → s.byte a = 0)
    ∧ (∀ q : Fin 128, s.get (F.QUE_CFG_LOG2N q) = 4 ∧ s.flag (F.QUE_STAT_EMPTY q) = true)
    ∧ s.get F.HB_FUSP_PER = 200 ∧ s.get F.HB_GNSP_PER = 1000 ∧ s.get F.HB_DISC_TMO = 2 ∧ s.word R.HB_TUNC = 2 ^ 32 - 1 ∧ s.get F.PPS_CFG_WIDTH = 100
    ∧ (∀ n : Fin 32, s.word (R.HB_LPER_LO n) = 1000000)
    ∧ (∀ c : Fin 8, s.get (F.VSC_CGEO_WIDTH c) = 64 ∧ s.get (F.VSC_BUF_NBUF c) = 2) ∧ s.get F.HRA_CAL_PER = 10 ∧ (∀ n : Fin 8, s.word (R.HRA_CALAGE n) = 65535)
    ∧ (∀ n : Fin 24, s.get (F.FQI_STALL_STALL n) = 1000000) ∧ s.get F.FEX_CFG_ARENA = 16 ∧ s.get F.YT_CFG_CELL = 4
    ∧ (∀ (h : Fin 2) (n : Fin 256), s.word (R.LPD_CSCL h n) = 2 ^ 24 ∧ s.flag (F.LPD_CTL_EN h n) = false)
    ∧ (∀ n : Fin 32, s.get (F.FNG_CFG_PWMF n) = 20 ∧ s.get (F.FNG_DUTY_DLIM n) = 100 ∧ s.get (F.FNG_TH2_TTRIP n) = 180) ∧ (∀ p : Fin 8, s.get (F.PLM_CFG_ILIM p) = 20)
    ∧ (∀ n : Fin 16, s.get (F.LDS_CFG_RETRY n) = 3 ∧ s.get (F.LDS_CUR_ILAT n) = if n.val < 8 then 0x32 else 0x19)
    ∧ (∀ h : Fin 2, s.get (F.BRM_CEIL_CEIL h) = 50) ∧ s.get F.GNB_CFG_NBUF = 2 ∧ s.get F.GNB_FS_FS = 40000000 ∧ s.get F.GNB_AQ4_THR = 160
    ∧ (∀ n : Fin 4, s.get (F.CAN_NBT_NTSEG1 n) = 68 ∧ s.get (F.CAN_CFG_BODLY n) = 10 ∧ s.flag (F.CAN_CFG_EN n) = false ∧ s.get (F.MSG_AC_ADDR n) = 0xFE)
    ∧ s.ownState = oOwned ∧ s.flag F.OWN_STAT_INT = true ∧ s.flag F.LMP_CFG_UDPEN = true ∧ s.roleState = rSingle ∧ s.get F.ROLE_CFG_PESC = 16
    ∧ s.get F.ROLE_JCFG_EMS = 10 ∧ s.flag F.ROLE_JCFG_EN = false ∧ s.get F.MIT_CFG_HOLD = 250 ∧ s.get F.MIT_LOCK_CEIL = 1000 ∧ s.get F.RST_IDLE_TMO = 100
    ∧ s.word R.RST_PLACE = 0x0FFFFFFF ∧ s.get F.EVR_FRZ_TMO = 100 ∧ s.get F.UPD_ID_BUILD = 0xB0

/-- Module resets: what starts one, its cause and its release; DRAM of the halves is lost, MRAM stays. What a module reset keeps is the model's
reading (log 81). The release of a module reset 10 ms after its last source, RESET_N's low as its outside ends it, and once that ball is not held low
from outside (R509); and the end of the boot: the strap's half is named active, its internal owner and SINGLE set; the half runs once its image
verifies, else the golden path. -/
def Obligations.ModuleResets : Prop :=
  (∀ (s : State) (t : Nat),
    let x := s.atTime t
    let holds (s' : State) (cause : Nat) : Prop := s'.rst.hold = some (cause, x.clock) ∧ s'.get F.RST_CAUSE_CAUSE = cause % 16 ∧ s'.pending = s.pending
      ∧ s'.active = none ∧ s'.rst.resetN = true ∧ (∀ a, a < 0x200000000 → s'.byte a = 0)
      ∧ (s.tly.burn = none → ∀ a, 0x300000000 ≤ a → a < 0x500000000 → s'.byte a = s.byte a)
    (s.rst.powered = true → s.flushing = false →
        (s.rst.resetN = false → ∃ s', exec (.resetNAssert t) s = .next s' ∧ holds s' 3 ∧ s'.rst.released = none ∧ s'.start = s.start)
          ∧ (s.rst.resetN = true → exec (.resetNAssert t) s = .next x)
          ∧ (∃ s', exec (.brownOut t) s = .next s' ∧ holds s' 2 ∧ s'.rst.powered = false ∧ s'.rst.nextCause = 2 ∧ s'.rst.released = none ∧ s'.start = none)
          ∧ ∃ s', exec (.thermalShutdown t) s = .next s' ∧ holds s' 4 ∧ s'.rst.released = none ∧ s'.rst.powered = true)
      ∧ (s.rst.powered = false → exec (.brownOut t) s = .next x ∧ exec (.resetNAssert t) s = .next x)
      ∧ (s.rst.powered = true → exec (.powerOn t) s = .next x)
      ∧ (s.rst.powered = false → s.flushing = false → ∃ s', exec (.powerOn t) s = .next s' ∧ s'.rst.hold = some (s.rst.nextCause, x.clock)
        ∧ s'.get F.RST_CAUSE_CAUSE = s.rst.nextCause % 16 ∧ s'.rst.powered = true ∧ s'.rst.released = some x.clock ∧ s'.tly.since = some x.clock
        ∧ s'.readN 0x3010FFF10 4 = 0 ∧ s'.pending = s.pending)
      ∧ exec (.thermalRelease t) s = .next (if s.hot then x.withRst { s.rst with released := some x.clock } else x)
      ∧ (s.rst.powered = false → s.flushing = true → x.flushOver = false → ∃ s', exec (.thermalShutdown t) s = .next s' ∧ holds s' 4 ∧ s'.rst.released = none
        ∧ s'.rst.powered = true ∧ s'.rst.nextCause = 1 ∧ s'.flushing = false)
      ∧ (s.flushing = true → x.flushOver = true → exec (.flushAbandon t) s = .next x)
      ∧ (s.flushing = true → x.flushOver = false → ∃ s', exec (.flushAbandon t) s = .next s' ∧ s'.rst.powered = false ∧ s'.rst.nextCause = 1 ∧ s'.flushing = false)
      ∧ (s.flushing = false → exec (.flushAbandon t) s = .next x)
      ∧ (∀ vbat, s.down = false → s.flushing = false → ∃ s', exec (.powerFailFlush t vbat) s = .next s' ∧ s'.flushing = true ∧ s'.rst.powered = false
        ∧ s'.rst.nextCause = 8 ∧ s'.rst.flushAt = some x.clock ∧ (vbat = false → s'.flag F.RST_STAT_PWRF = true))
      ∧ exec (.vholdCharged t) s = .next (if s.rst.powered then x.raise F.RST_STAT_VHOK else x))
    ∧ (∀ (s : State) (t : Nat) (strap : Byte) (safe : Bool) (pins : ResetPins) (clk : Option (Int × Bool)) (pfw cal img : BootImages) (plain : List Byte),
    let x := s.atTime t
    (x.sourceEnd pins.resetHigh = none ∨ x.clock < pins.resetHigh → exec (.resetRelease t strap safe pins clk pfw cal plain) s = .next x)
      ∧ (s.rst.hold = none → x.sourceEnd pins.resetHigh = none)
      ∧ (∀ c a, s.rst.hold = some (c, a) → x.sourceEnd pins.resetHigh = match s.rst.released with
        | some r => some r
        | none => if c = 3 then some (max a pins.resetHigh) else none)
      ∧ (∀ a, x.sourceEnd pins.resetHigh = some a → pins.resetHigh ≤ x.clock →
        (x.clock < a + 10000000 ∨ s.rst.powered = false → exec (.resetRelease t strap safe pins clk pfw cal plain) s = .next x)
          ∧ (a + 10000000 ≤ x.clock → s.rst.powered = true → tapHolds s.tap.ir = false →
            ∃ s' h, exec (.resetRelease t strap safe pins clk pfw cal plain) s = .next s' ∧ s'.rst.hold = none ∧ s'.rst.booting = true ∧ s'.evr.running = true
              ∧ h = s'.get F.RST_STRAP_CODE % 2 ∧ s'.active = some h ∧ s'.role.booting = some h ∧ s'.roleState = rSingle ∧ s'.ownState = oOwned
              ∧ s'.ownMid = halfMid h ∧ s'.get F.RST_STRAP_N = strap.toNat ∧ s'.flag F.RST_STAT_IGN = pins.ign ∧ s'.net.port3 = some h))
      ∧ (s.rst.booting = false → exec (.bootComplete t img) s = .next x)
      ∧ (∀ h, s.rst.booting = true → s.active = some h → s.roleState = rSingle →
        let y := (x.withRst { s.rst with booting := false }).dropIncomplete
        ((y.imgBoot 1 img).2.isSome = true → ∃ s', exec (.bootComplete t img) s = .next s' ∧ s'.role.bootAt = some x.clock ∧ s'.rst.faultN = false
            ∧ s'.rst.booting = false ∧ s'.active = some h ∧ s'.flag (F.HMN_STAT_HB h) = true ∧ (s'.roleState = rNormal ∨ s'.roleState = rSingle)
            ∧ s'.flag (F.ROLE_HEALTH_IMGOK (h + 1)) = true)
          ∧ ((y.imgBoot 1 img).2 = none → ∃ s', exec (.bootComplete t img) s = .next s' ∧ s'.rst.golden = true ∧ s'.rst.faultN = true
            ∧ s'.ownState = oFree ∧ s'.flag F.USB_CFG_EN = true ∧ s'.role.booting = none)))

/-- RST_CTL and the blocks' idle protocol; Beanie is entered at once where no journal runs, and left at its wake. The wait for a final epoch is the
model's reading (log 82). -/
def Obligations.BlockResetsAndBeanie : Prop :=
  ∀ (s : State) (t : Nat) (m : Master) (v : Word) (p : Nat) (ign : Bool),
    let x := s.atTime t
    let pl := canonPlace (s.word R.RST_PLACE)
    (s.isOwner m = true → Reaches s t R.RST_CTL → v.toNat % 4 = 1 →
        (reachOk pl = false → ∃ s', exec (.softwareReset t m v) s = .next s' ∧ s'.rst = s.rst ∧ s'.reply = some (stOk, []))
          ∧ (pl = plModule → s.flushing = false → ∃ s', exec (.softwareReset t m v) s = .next s' ∧ s'.rst.hold = some (5, x.clock)
            ∧ s'.rst.released = some x.clock ∧ s'.get F.RST_CAUSE_CAUSE = 5)
          ∧ (reachOk pl = true → pl ≠ plModule → halfReach pl = none → s.flushing = false → ∃ s', exec (.softwareReset t m v) s = .next s'
            ∧ ∀ b ∈ reachBlocks pl, b ∉ resetProof → s'.blockWaits b ≠ none))
      ∧ (s.isOwner m = true → Reaches s t R.RST_CTL → v.toNat % 4 = 2 →
        (s.flushing = true → exec (.beanieEnter t m v) s = .next (x.answered R.RST_CTL))
          ∧ (s.flushing = false → s.inBeanie = false →
            (s.flag F.ROLE_JCFG_EN = true ∧ s.role.bootAt.isSome = true ∧ s.start.isSome = true → exec (.beanieEnter t m v) s =
                .next ((x.withRst { s.rst with entering := true }).answered R.RST_CTL))
              ∧ (s.flag F.ROLE_JCFG_EN = false → ∃ s', exec (.beanieEnter t m v) s = .next s' ∧ s'.inBeanie = true ∧ s'.active = none
                ∧ s'.evr.running = false ∧ s'.reply = some (stOk, []))))
      ∧ (s.blockWaits p = none → exec (.blockIdle t p) s = .next x ∧ exec (.blockResetForce t p) s = .next x)
      ∧ (∀ a, s.blockWaits p = some a →
        (p = fieldBlock 0 4 ∨ x.clock ≤ a + s.get F.RST_IDLE_TMO * 1000 → ∃ s', exec (.blockIdle t p) s = .next s' ∧ s'.blockWaits p = none
            ∧ s'.blockHeld p = true)
          ∧ (p ≠ fieldBlock 0 4 → a + s.get F.RST_IDLE_TMO * 1000 < x.clock → exec (.blockIdle t p) s = .next x))
      ∧ (∀ a, s.blockWaits p = some a →
        (p = fieldBlock 0 4 ∨ x.clock < a + s.get F.RST_IDLE_TMO * 1000 → exec (.blockResetForce t p) s = .next x)
          ∧ (p ≠ fieldBlock 0 4 → a + s.get F.RST_IDLE_TMO * 1000 ≤ x.clock → ∃ s', exec (.blockResetForce t p) s = .next s'
            ∧ s'.blockWaits p = none ∧ s'.blockHeld p = true ∧ s'.flag F.RST_STAT_TFORCE = true
            ∧ s'.word R.RST_FCNT = min (s.word R.RST_FCNT + 1) (2 ^ 32 - 1)))
      ∧ (s.inBeanie = true → s.flushing = false → x.beanieDue ign = true → ∃ s', exec (.beanieWake t ign) s = .next s' ∧ s'.inBeanie = false
        ∧ s'.rst.hold = some (9, x.clock) ∧ s'.rst.released = some x.clock ∧ s'.get F.RST_CAUSE_CAUSE = 9)
      ∧ (s.inBeanie = false ∨ x.beanieDue ign = false → exec (.beanieWake t ign) s = .next x)

/-- The boundary scan: with DBG_EN high each instruction is selected with its data register, with DBG_EN low the port is in Test-Logic-Reset and
DBG_TDO floats; EXTEST, HIGHZ and CLAMP hold the module in reset, and leaving them releases it; the boundary register has 88 cells, captures the
levels that come with its command where no function of the module drives the ball, and at EXTEST and CLAMP drives the TRG balls. The polarity of an
enable cell, and that the level of DBG_EN comes with an instruction, are the model's reading (log 85). -/
def Obligations.BoundaryScan : Prop :=
  ∀ (s : State) (e : TapEdge) (levels cells : BitVec 88) (k : Fin 251),
    let x := s.atTime e.time
    let off : TapSt := { s.tap with dbgEn := false, ir := 0x02, out := none }
    let lands (i : Instr) (y : TapSt) : Prop := ∃ s', exec i s = .next s' ∧ s'.tap = y
      ∧ (tapHolds y.ir = tapHolds s.tap.ir → s' = x.withTap y)
      ∧ (s.rst.powered = true → s.hot = false →
        (tapHolds y.ir = true → tapHolds s.tap.ir = false → s'.rst.hold = some (3, x.clock) ∧ s'.rst.released = none)
          ∧ (tapHolds y.ir = false → tapHolds s.tap.ir = true → s' = (x.withTap y).withRst { s.rst with released := some x.clock }))
    let takes (i : Instr) (y : TapSt) : Prop := lands i (if e.dbgEn then y else off)
    takes (.extest e (some (levels, cells))) { dbgEn := true, ir := 0x00, cells := cells, out := some (x.captureCells levels) }
      ∧ takes (.extest e none) { dbgEn := true, ir := 0x00, cells := s.tap.cells, out := s.tap.out }
      ∧ takes (.samplePreload e levels cells) { dbgEn := true, ir := 0x01, cells := cells, out := some (x.captureCells levels) }
      ∧ takes (.idcode e) { dbgEn := true, ir := 0x02, cells := s.tap.cells, out := some 0x04B0774B }
      ∧ takes (.highz e) { dbgEn := true, ir := 0x03, cells := s.tap.cells, out := some 0 }
      ∧ takes (.clamp e) { dbgEn := true, ir := 0x04, cells := s.tap.cells, out := some 0 }
      ∧ takes (.bypass e k) { dbgEn := true, ir := BitVec.ofNat 8 (5 + k), cells := s.tap.cells, out := some 0 }
      ∧ lands (.tapResetRelease e.time) { s.tap with ir := 0x02 } ∧ lands (.dbgEnFall e.time) off
      ∧ scanCells.length = 88
      ∧ (∀ i c, scanCells[i]? = some c → s.ballFunction c.1 = none → (s.captureCells levels).testBit i = levels.getLsbD i)
      ∧ ∀ n : Fin 8, (s.tap.dbgEn = true → s.tap.ir = 0x00 ∨ s.tap.ir = 0x04 →
          s.trgLevel n = if s.tap.cells.getLsbD (38 + 3 * n) then some (s.tap.cells.getLsbD (37 + 3 * n)) else none)
        ∧ (s.tap.dbgEn = true → s.tap.ir = 0x03 → s.trgLevel n = none)
        ∧ (s.tap.dbgEn = false → s.trgLevel n = s.trgLine n)

/-! Images and the tally (R552-R573). -/

/-- Staging: by Lamip the frame's bytes go to the staged slot, by UPD_SCMD a copy from DRAM runs; what neither may take is refused; ABORT discards the
image. Image contents come with the commands (log 47); corners follow the model's reading (log 84). -/
def Obligations.Staging : Prop :=
  ∀ (s : State) (t : Nat) (m : Master) (q : LampReq) (v : Word) (k : Fin 6), k ≠ 0 →
    let x := s.atTime t
    let o := q.addr.toNat
    let bytes := q.payload.flatMap (fun w => leBytes 4 w.toNat)
    let src := s.getAddr R.UPD_SSRC_LO R.UPD_SSRC_HI
    let so := s.word R.UPD_SOFS
    let n := s.word R.UPD_SLEN
    (x.lampUp = true → midKind m ≠ 2 → s.lampRefuse m tyStage q = none →
        (imagePlace q.at = none → ∃ s', exec (.stage t m (some q) v) s = .next s' ∧ s'.net.sent = s.net.sent ++ [q.answer m tyStage stBadPlace] ∧ s'.upd = s.upd)
          ∧ (imagePlace q.at = some k.val → s.stageCheck k o bytes.length ≠ stOk → ∃ s', exec (.stage t m (some q) v) s = .next s'
            ∧ s'.net.sent = s.net.sent ++ [q.answer m tyStage (s.stageCheck k o bytes.length)] ∧ s'.upd = s.upd)
          ∧ (imagePlace q.at = some k.val → s.stageCheck k o bytes.length = stOk → ∃ s', exec (.stage t m (some q) v) s = .next s'
            ∧ (s.epochless = false → s'.net.heldResps = s.net.heldResps ++ [{ frame := q.answer m tyStage stOk, epoch := s.jnl.next }])
            ∧ (s.epochless = true → s'.net.sent = s.net.sent ++ [q.answer m tyStage stOk]) ∧ s'.stg k = stgOpen
            ∧ s'.word (R.UPD_SRCV k) = o + bytes.length ∧ s'.nandBytes k (s.stagedSlot k) o bytes.length = bytes))
      ∧ (s.isOwner m = true → Reaches s t R.UPD_SCMD → v.toNat % 8 = k.val → v.getLsbD 31 = true →
        (s.stageCheck k so n = stOk → s.inDram src n = true → ∃ s', exec (.stage t m none v) s = .next s'
            ∧ s'.upd.staging = s.upd.staging ++ [(k.val, src, so, n)] ∧ s'.flag F.UPD_STAT_SBUSY = true ∧ s'.stg k = stgOpen)
          ∧ (s.stageCheck k so n ≠ stOk ∨ s.inDram src n = false → ∃ s', exec (.stage t m none v) s = .next s' ∧ s'.flag F.UPD_STAT_CFGERR = true
            ∧ s'.upd = s.upd ∧ s'.stg k = s.stg k))
      ∧ (x.awake updPlace = false ∨ s.upd.staging.find? (fun e => e.1 == k.val) = none → exec (.stageDone t k) s = .next x)
      ∧ (x.awake updPlace = true → ∀ a b c d, s.upd.staging.find? (fun e => e.1 == k.val) = some (a, b, c, d) → ∃ s', exec (.stageDone t k) s = .next s'
        ∧ s'.upd.staging = s.upd.staging.filter (fun e => e.1 != k.val) ∧ (s.stg k = stgOpen → s'.word (R.UPD_SRCV k) = (c + d) % 2 ^ 32
          ∧ s'.nandBytes k (s.stagedSlot k) c d = s.readBytes b d) ∧ (s.stg k ≠ stgOpen → s'.upd.nand = s.upd.nand))
      ∧ (s.isOwner m = true → Reaches s t R.UPD_CTL → v.toNat % 8 = 4 → v.toNat / 2 ^ 16 % 8 = k.val →
        ((s.stg k = stgOpen ∨ s.stg k = stgComplete) ∧ s.imgBusy k = false → ∃ s', exec (.imageAbort t m v) s = .next s' ∧ s'.stg k = stgEmpty
            ∧ s'.word (R.UPD_SRCV k) = 0 ∧ s'.word (R.UPD_TVER k) = 0 ∧ s'.reply = some (stOk, []))
          ∧ (¬((s.stg k = stgOpen ∨ s.stg k = stgComplete) ∧ s.imgBusy k = false) → ∃ s', exec (.imageAbort t m v) s = .next s'
            ∧ s'.flag F.UPD_STAT_CFGERR = true ∧ s'.stg k = s.stg k ∧ s'.upd = s.upd))

/-- COMMIT selects the trial of a whole staged image, after its copy into the program store for an A-image; CONFIRM within 600 s makes it current, and
no confirmation falls back; UPD_FRST restarts a block of the field domain. Where the boot selector stands is the model's reading (log 46). -/
def Obligations.ImageTrials : Prop :=
  ∀ (s : State) (t : Nat) (m : Master) (q : LampReq) (v : Word) (k : Fin 6) (img : BootImages) (plain : List Byte), k ≠ 0 → s.upd.kinds.length = 6 →
    let x := s.atTime t
    let head := s.nandBytes k (s.stagedSlot k) 0 512
    let may := s.imgTrial k = false ∧ s.imgBusy k = false ∧ (s.stg k = stgOpen ∨ s.stg k = stgComplete) ∧ s.word (R.UPD_SRCV k) = leAt head 8 4
      ∧ headerOk k head = true
    let selected (s' : State) (k : Nat) : Prop := s'.flag (F.UPD_KSTAT_TRY k) = true ∧ s'.get (F.UPD_KSTAT_TRIES k) = 0 ∧ s'.stg k = stgTrial
      ∧ s'.word R.UPD_BSEQ = (s.word R.UPD_BSEQ + 1) % 2 ^ 32
    (x.lampUp = true → midKind m ≠ 2 → s.lampRefuse m tyCommit q = none → imagePlace q.at = some k.val →
        (¬may → ∃ s' st, exec (.commit t m (some q) v) s = .next s' ∧ st ≠ stOk ∧ s'.net.sent = s.net.sent ++ [q.answer m tyCommit st] ∧ s'.upd = s.upd)
          ∧ (may → k ≠ 1 → ∃ s', exec (.commit t m (some q) v) s = .next s' ∧ selected s' k
            ∧ (s.epochless = false → s'.net.heldResps = s.net.heldResps ++ [{ frame := q.answer m tyCommit stOk, epoch := s.jnl.next }]))
          ∧ (may → k = 1 → ∃ s', exec (.commit t m (some q) v) s = .next s' ∧ (s'.img 1).committing = true ∧ s'.stg 1 = stgComplete
            ∧ (s'.img 1).resp = some (q.answer m tyCommit stOk) ∧ s'.flag F.UPD_STAT_SBUSY = true))
      ∧ (s.isOwner m = true → Reaches s t R.UPD_CTL → v.toNat / 2 ^ 16 % 8 = k.val →
        (v.toNat % 8 = 2 → may → k ≠ 1 → ∃ s', exec (.commit t m none v) s = .next s' ∧ selected s' k ∧ s'.reply = some (stOk, []))
          ∧ (v.toNat % 8 = 2 → ¬may → ∃ s', exec (.commit t m none v) s = .next s' ∧ s'.flag F.UPD_STAT_CFGERR = true ∧ s'.upd = s.upd)
          ∧ (let can := s.flag (F.UPD_KSTAT_TRY k) = true ∧ s.flag (F.UPD_KSTAT_RUNTRY k) = true ∧ x.runTime k < 600 ∧ s.imgBusy k = false
            (v.toNat % 8 = 1 → can → ∃ s', exec (.confirm t m v) s = .next s' ∧ s'.get (F.UPD_KSTAT_CUR k) = s.stagedSlot k
                ∧ s'.flag (F.UPD_KSTAT_TRY k) = false ∧ s'.flag (F.UPD_KSTAT_RUNTRY k) = false ∧ s'.stg k = stgEmpty
                ∧ s'.word (R.UPD_CVER k) = s.word (R.UPD_TVER k))
              ∧ (v.toNat % 8 = 1 → ¬can → ∃ s', exec (.confirm t m v) s = .next s' ∧ s'.flag F.UPD_STAT_CFGERR = true
                ∧ s'.get (F.UPD_KSTAT_CUR k) = s.get (F.UPD_KSTAT_CUR k))))
      ∧ (x.awake updPlace = false ∨ (s.img 1).committing = false → exec (.commitCopyDone t) s = .next x)
      ∧ (x.awake updPlace = true → (s.img 1).committing = true → ∃ s', exec (.commitCopyDone t) s = .next s' ∧ (s'.img 1).committing = false ∧ selected s' 1
        ∧ ∀ f, (s.img 1).resp = some f → s.epochless = false → s'.net.heldResps = s.net.heldResps ++ [{ frame := f, epoch := s.jnl.next }])
      ∧ (x.awake updPlace = true → s.flag (F.UPD_KSTAT_TRY k) = true → s.flag (F.UPD_KSTAT_RUNTRY k) = true → 600 ≤ x.runTime k → ∃ s', exec (.trialTimeout t k) s = .next s'
        ∧ s'.flag (F.UPD_KSTAT_TRY k) = false ∧ s'.flag (F.UPD_KSTAT_FALLBK k) = true ∧ (s.stg k = stgTrial → s'.stg k = stgComplete))
      ∧ (x.awake updPlace = false ∨ s.flag (F.UPD_KSTAT_TRY k) = false ∨ x.runTime k < 600 → exec (.trialTimeout t k) s = .next x)
      ∧ (s.isOwner m = true → Reaches s t R.UPD_FRST →
        let may := plDomain v.toNat = 3 ∧ plCluster v.toNat ≠ 4 ∧ isBlockPlace v.toNat = true ∧ placeExists v.toNat = true
        (may → ∃ s', exec (.blockRestart t m v) s = .next s' ∧ v.toNat ∈ s'.upd.restarting ∧ s'.reply = some (stOk, []))
          ∧ (¬may → exec (.blockRestart t m v) s = .next ((x.raise F.UPD_STAT_CFGERR).answered R.UPD_FRST)))
      ∧ (v.toNat ∉ s.upd.restarting ∨ s.inBeanie = true → exec (.blockRestartDone t v img plain) s = .next x)
      ∧ (v.toNat ∈ s.upd.restarting → s.inBeanie = false → ∃ s', exec (.blockRestartDone t v img plain) s = .next s' ∧ v.toNat ∉ s'.upd.restarting)

/-- The tally: the key arms for 1 ms; a burn starts armed, idle, at 8.0 V or more and with an allowed value in a free row, else it is REFUSED; its end
leaves the header and the value in the row (R569, R570) and sets DONE, or marks the row BAD; no other byte changes, but where the event of the burn
brings older records to the log. -/
def Obligations.TallyBurns : Prop :=
  ∀ (s : State) (t : Nat) (m : Master) (v : Word) (vbat : Nat) (got : List Byte),
    let x := s.atTime t
    let c := v.toNat % 16
    (s.isOwner m = true → Reaches s t R.TLY_ARM → exec (.tallyArm t m v) s = .next ((if v = 0x54414C59 then
        (x.raise F.TLY_STAT_ARMED).withTly { s.tly with armEnds := x.clock + 1000000 } else x).answered R.TLY_ARM))
      ∧ exec (.tallyArmExpire t) s = .next (if s.flag F.TLY_STAT_ARMED = true ∧ s.tly.armEnds ≤ x.clock then x.put F.TLY_STAT_ARMED 0 else x)
      ∧ (s.isOwner m = true → Reaches s t R.TLY_CMD → v.getLsbD 31 = true →
        let may := s.flag F.TLY_STAT_ARMED = true ∧ x.clock ≤ s.tly.armEnds ∧ s.flag F.TLY_STAT_BUSY = false ∧ 8000 ≤ vbat ∧ s.flushing = false
          ∧ s.tallyAllowed c = true
        (∀ r, s.tallyNext c = some r → may → ∃ s', exec (.tallyBurn t m v vbat) s = .next s' ∧ s'.flag F.TLY_STAT_BUSY = true
            ∧ s'.tly.burn = some (c, r, s.tallyData c, s.get F.OWN_STAT_CLASS, m) ∧ s'.mem = s.mem)
          ∧ (s.tallyNext c = none ∨ ¬may → ∃ s', exec (.tallyBurn t m v vbat) s = .next s' ∧ s'.flag F.TLY_STAT_REFUSED = true ∧ s'.tly = s.tly ∧ s'.mem = s.mem))
      ∧ (x.awake tlyPlace = false ∨ s.tly.burn = none → exec (.tallyBurnDone t got) s = .next x)
      ∧ (x.awake tlyPlace = true → ∀ d r value cls w, s.tly.burn = some (d, r, value, cls, w) → 1 ≤ d → d ≤ 8 → r < 8 →
          let img := tallyImage r x.tallyHours cls w value
          let a := tallyRow d r
          ∃ s', exec (.tallyBurnDone t got) s = .next s' ∧ s'.tly.burn = none ∧ s'.flag F.TLY_STAT_BUSY = false ∧ s'.get F.TLY_STAT_LASTROW = r
            ∧ s'.get F.TLY_STAT_LASTSET = d
            ∧ (got = img → s'.flag F.TLY_STAT_DONE = true
              ∧ (∀ i, i < img.length → i < 8 + tallyLen d → s'.byte (a + i) = img.getD i 0)
              ∧ (∀ b, b < a ∨ a + 8 + tallyLen d ≤ b → b < 0x300C00000 ∨ 0x301400000 ≤ b → s'.byte b = s.byte b)
              ∧ (s.evr.running = true → s.flt.windows = [] → s.flt.own = [] → ∀ b, b < a ∨ a + 8 + tallyLen d ≤ b → s'.byte b = s.byte b))
            ∧ (got ≠ img → s'.flag F.TLY_STAT_BURNFAIL = true ∧ (s'.byte a).getLsbD 1 = true
              ∧ (∀ i, 1 ≤ i → i < got.length → i < 8 + tallyLen d → s'.byte (a + i) = got.getD i 0)
              ∧ ∀ b, b < a ∨ a + 8 + tallyLen d ≤ b → s'.byte b = s.byte b))
end

