-- ==== Sys2Proof/Laws/Sparse.lean ====
section
/-! SUPPORT. The laws of sparse tables: what a key reads as after each operation, and that each operation keeps the canonical form. -/

namespace Sys2Proof.Machine

variable {α : Type}

/-! Reading. -/

/-- The entry at the front answers for its own key. -/
theorem sparseGet_cons_same (d : Nat → α) (k : Nat) (v : α) (r : List (Nat × α)) : sparseGet d ((k, v) :: r) k = v := by
  simp [sparseGet]

/-- The entry at the front answers for no other key. -/
theorem sparseGet_cons_other (d : Nat → α) {j k : Nat} (h : j ≠ k) (v : α) (r : List (Nat × α)) :
    sparseGet d ((j, v) :: r) k = sparseGet d r k := by
  simp [sparseGet, h]

/-- A key that no entry has reads its default. -/
theorem sparseGet_of_unlisted (d : Nat → α) (l : List (Nat × α)) (k : Nat) (h : ∀ e ∈ l, e.1 ≠ k) : sparseGet d l k = d k := by
  induction l with
  | nil => rfl
  | cons e r ih => rw [sparseGet_cons_other d (h e (by simp)), ih fun x hx => h x (by simp [hx])]

/-- After inserting, the key reads the new value. -/
theorem sparseGet_insert_same (d : Nat → α) (l : List (Nat × α)) (k : Nat) (v : α) : sparseGet d (sparseInsert k v l) k = v := by
  induction l with
  | nil => simp [sparseInsert, sparseGet]
  | cons e r ih =>
    obtain ⟨j, w⟩ := e
    unfold sparseInsert
    split
    · exact sparseGet_cons_same ..
    · split
      · exact sparseGet_cons_same ..
      · rename_i h
        rw [sparseGet_cons_other d (Ne.symm h), ih]

/-- Inserting changes what no other key reads as. -/
theorem sparseGet_insert_other (d : Nat → α) (l : List (Nat × α)) {k j : Nat} (v : α) (h : j ≠ k) :
    sparseGet d (sparseInsert k v l) j = sparseGet d l j := by
  induction l with
  | nil => simp [sparseInsert, sparseGet, h.symm]
  | cons e r ih =>
    obtain ⟨i, w⟩ := e
    unfold sparseInsert
    split
    · exact sparseGet_cons_other d h.symm ..
    · split
      · rename_i hk
        rw [sparseGet_cons_other d h.symm, sparseGet_cons_other d (hk ▸ h.symm)]
      · by_cases hi : i = j
        · subst hi; rw [sparseGet_cons_same, sparseGet_cons_same]
        · rw [sparseGet_cons_other d hi, sparseGet_cons_other d hi, ih]

/-- Keeping the entries whose key satisfies `p`: those keys read as before, the others their default. -/
theorem sparseGet_filter (d : Nat → α) (p : Nat → Bool) (l : List (Nat × α)) (k : Nat) :
    sparseGet d (l.filter (fun e => p e.1)) k = if p k then sparseGet d l k else d k := by
  induction l with
  | nil => simp [sparseGet]
  | cons e r ih =>
    obtain ⟨j, w⟩ := e
    by_cases hj : j = k
    · subst hj
      cases hp : p j <;> simp [hp, ih, sparseGet]
    · cases hp : p j <;> simp [hp, ih, sparseGet, hj]

/-- After erasing, the key reads its default and every other key as before. -/
theorem sparseGet_erase (d : Nat → α) (l : List (Nat × α)) (k j : Nat) :
    sparseGet d (sparseErase k l) j = if j = k then d j else sparseGet d l j := by
  rw [sparseErase, sparseGet_filter d (fun x => x != k)]
  by_cases h : j = k <;> simp [h]

/-- A key reads the value put there. -/
@[simp] theorem sparseGet_put_same [DecidableEq α] (d : Nat → α) (l : List (Nat × α)) (k : Nat) (v : α) : sparseGet d (sparsePut d l k v) k = v := by
  unfold sparsePut
  split
  · rename_i h; rw [sparseGet_erase, if_pos rfl, h]
  · exact sparseGet_insert_same ..

/-- Putting changes what no other key reads as. -/
theorem sparseGet_put_other [DecidableEq α] (d : Nat → α) (l : List (Nat × α)) {k j : Nat} (v : α) (h : j ≠ k) :
    sparseGet d (sparsePut d l k v) j = sparseGet d l j := by
  unfold sparsePut
  split
  · rw [sparseGet_erase, if_neg h]
  · exact sparseGet_insert_other d l v h

/-- What any key reads as after a value is put. -/
theorem sparseGet_put [DecidableEq α] (d : Nat → α) (l : List (Nat × α)) (k j : Nat) (v : α) :
    sparseGet d (sparsePut d l k v) j = if j = k then v else sparseGet d l j := by
  split
  · rename_i h; rw [h, sparseGet_put_same]
  · rename_i h; exact sparseGet_put_other d l v h

/-- Joined tables: a key that the first does not list reads as in the second. -/
theorem sparseGet_append_right (d : Nat → α) (l m : List (Nat × α)) (k : Nat) (h : ∀ e ∈ l, e.1 ≠ k) :
    sparseGet d (l ++ m) k = sparseGet d m k := by
  induction l with
  | nil => rfl
  | cons e r ih => rw [List.cons_append, sparseGet_cons_other d (h e (by simp)), ih fun x hx => h x (by simp [hx])]

/-- Joined tables: a key that the second does not list reads as in the first. -/
theorem sparseGet_append_left (d : Nat → α) (l m : List (Nat × α)) (k : Nat) (h : ∀ e ∈ m, e.1 ≠ k) :
    sparseGet d (l ++ m) k = sparseGet d l k := by
  induction l with
  | nil => exact sparseGet_of_unlisted d m k h
  | cons e r ih =>
    obtain ⟨j, w⟩ := e
    by_cases hj : j = k
    · subst hj; simp [sparseGet]
    · rw [List.cons_append, sparseGet_cons_other d hj, sparseGet_cons_other d hj, ih]

/-- A table whose keys are all moved up by `a`, with a default that does not depend on the key. -/
theorem sparseGet_shift (d : Nat → α) (hd : ∀ x y, d x = d y) (l : List (Nat × α)) (a k : Nat) :
    sparseGet d (l.map (fun e => (e.1 + a, e.2))) (k + a) = sparseGet d l k := by
  induction l with
  | nil => exact hd ..
  | cons e r ih => simp [sparseGet, ih]

/-- What a key reads as after a blit: the image inside the range, the old table outside it. -/
theorem sparseGet_blit (d : Nat → α) (hd : ∀ x y, d x = d y) (a n : Nat) (img l : List (Nat × α)) (k : Nat) :
    sparseGet d (sparseBlit a n img l) k = if a ≤ k ∧ k < a + n then sparseGet d img (k - a) else sparseGet d l k := by
  unfold sparseBlit
  split
  · rename_i h
    rw [sparseGet_append_left, sparseGet_append_right]
    · obtain ⟨j, rfl⟩ : ∃ j, k = j + a := ⟨k - a, by omega⟩
      rw [sparseGet_shift d hd, sparseGet_filter d (fun x => decide (x < n))]
      simp [show j < n by omega]
    · intro e he; simp at he; omega
    · intro e he; simp at he; omega
  · rename_i h
    by_cases hk : k < a
    · rw [sparseGet_append_left, sparseGet_append_left, sparseGet_filter d (fun x => decide (x < a))]
      · simp [hk]
      · intro e he
        simp only [List.mem_map] at he
        obtain ⟨x, -, rfl⟩ := he
        show x.1 + a ≠ k
        omega
      · intro e he; simp at he; omega
    · rw [sparseGet_append_right, sparseGet_filter d (fun x => decide (a + n ≤ x))]
      · simp [show a + n ≤ k by omega]
      · intro e he
        rcases List.mem_append.1 he with he | he
        · simp at he; omega
        · simp only [List.mem_map, List.mem_filter] at he
          obtain ⟨x, ⟨-, hx⟩, rfl⟩ := he
          simp at hx
          show x.1 + a ≠ k
          omega

/-- What a key of a part of a table reads as. -/
theorem sparseGet_cut (d : Nat → α) (hd : ∀ x y, d x = d y) (a n : Nat) (l : List (Nat × α)) (k : Nat) :
    sparseGet d (sparseCut a n l) k = if k < n then sparseGet d l (k + a) else d k := by
  unfold sparseCut
  have hs := sparseGet_shift d hd ((l.filter (fun e => decide (a ≤ e.1) && decide (e.1 < a + n))).map (fun e => (e.1 - a, e.2))) a k
  rw [← hs, List.map_map]
  have hm : ((l.filter (fun e => decide (a ≤ e.1) && decide (e.1 < a + n))).map ((fun e => (e.1 + a, e.2)) ∘ (fun e => (e.1 - a, e.2))))
      = l.filter (fun e => decide (a ≤ e.1) && decide (e.1 < a + n)) := by
    refine (List.map_congr_left (g := id) fun e he => ?_).trans (List.map_id _)
    simp at he
    exact Prod.ext (by simp; omega) rfl
  rw [hm, sparseGet_filter d (fun x => decide (a ≤ x) && decide (x < a + n))]
  by_cases h : k < n
  · simp [h, show k + a < a + n by omega]
  · simp [h, show ¬ k + a < a + n by omega, hd (k + a) k]

/-! The canonical form. -/

/-- The canonical form, said of entries: keys rise strictly from `lo` and no entry is at its default. -/
theorem sparseWfFrom_iff [DecidableEq α] (d : Nat → α) (lo : Nat) (l : List (Nat × α)) :
    sparseWfFrom d lo l = true ↔ l.Pairwise (fun a b => a.1 < b.1) ∧ ∀ e ∈ l, lo ≤ e.1 ∧ e.2 ≠ d e.1 := by
  induction l generalizing lo with
  | nil => simp [sparseWfFrom]
  | cons e r ih =>
    obtain ⟨k, v⟩ := e
    simp only [sparseWfFrom, Bool.and_eq_true, decide_eq_true_eq, ih, List.pairwise_cons, List.mem_cons, forall_eq_or_imp]
    constructor
    · rintro ⟨⟨h1, h2⟩, h3, h4⟩
      exact ⟨⟨fun e he => (h4 e he).1, h3⟩, ⟨h1, h2⟩, fun e he => ⟨by have := (h4 e he).1; omega, (h4 e he).2⟩⟩
    · rintro ⟨⟨h1, h2⟩, ⟨h3, h4⟩, h5⟩
      exact ⟨⟨h3, h4⟩, h2, fun e he => ⟨h1 e he, (h5 e he).2⟩⟩

/-- The canonical form of a whole table. -/
theorem sparseWf_iff [DecidableEq α] (d : Nat → α) (l : List (Nat × α)) :
    sparseWf d l = true ↔ l.Pairwise (fun a b => a.1 < b.1) ∧ ∀ e ∈ l, e.2 ≠ d e.1 := by
  simp [sparseWf, sparseWfFrom_iff]

/-- The keys of a table after inserting. -/
theorem mem_sparseInsert (l : List (Nat × α)) (k : Nat) (v : α) (e : Nat × α) (h : e ∈ sparseInsert k v l) : e = (k, v) ∨ e ∈ l := by
  induction l with
  | nil => simpa [sparseInsert] using h
  | cons x r ih =>
    obtain ⟨j, w⟩ := x
    unfold sparseInsert at h
    split at h
    · simpa using h
    · split at h
      · rcases List.mem_cons.1 h with h | h
        · exact .inl h
        · exact .inr (List.mem_cons_of_mem _ h)
      · rcases List.mem_cons.1 h with h | h
        · exact .inr (by simp [h])
        · exact (ih h).imp_right (List.mem_cons_of_mem _)

/-- Inserting keeps the keys in order. -/
theorem sparseInsert_pairwise (l : List (Nat × α)) (k : Nat) (v : α) (h : l.Pairwise (fun a b => a.1 < b.1)) :
    (sparseInsert k v l).Pairwise (fun a b => a.1 < b.1) := by
  induction l with
  | nil => simp [sparseInsert]
  | cons x r ih =>
    obtain ⟨j, w⟩ := x
    have hr := List.pairwise_cons.1 h
    unfold sparseInsert
    split
    · rename_i hk
      refine List.pairwise_cons.2 ⟨fun e he => ?_, h⟩
      rcases List.mem_cons.1 he with rfl | he
      · exact hk
      · have := hr.1 e he; simp at this ⊢; omega
    · split
      · rename_i hk
        subst hk
        exact List.pairwise_cons.2 ⟨hr.1, hr.2⟩
      · refine List.pairwise_cons.2 ⟨fun e he => ?_, ih hr.2⟩
        rcases mem_sparseInsert r k v e he with rfl | he
        · simp; omega
        · exact hr.1 e he

/-- The empty table is canonical. -/
@[simp] theorem sparseWf_nil [DecidableEq α] (d : Nat → α) : sparseWf d [] = true := rfl

/-- Keeping some entries keeps the canonical form. -/
theorem sparseWf_filter [DecidableEq α] (d : Nat → α) (p : Nat × α → Bool) (l : List (Nat × α)) (h : sparseWf d l = true) :
    sparseWf d (l.filter p) = true := by
  rw [sparseWf_iff] at h ⊢
  exact ⟨h.1.filter p, fun e he => h.2 e (List.mem_filter.1 he).1⟩

/-- Putting a value keeps the canonical form. -/
theorem sparseWf_put [DecidableEq α] (d : Nat → α) (l : List (Nat × α)) (k : Nat) (v : α) (h : sparseWf d l = true) :
    sparseWf d (sparsePut d l k v) = true := by
  unfold sparsePut
  split
  · exact sparseWf_filter d _ l h
  · rename_i hv
    rw [sparseWf_iff] at h ⊢
    refine ⟨sparseInsert_pairwise l k v h.1, fun e he => ?_⟩
    rcases mem_sparseInsert l k v e he with rfl | he
    · exact hv
    · exact h.2 e he

/-- A part of a canonical table is canonical. -/
theorem sparseWf_cut [DecidableEq α] (d : Nat → α) (hd : ∀ x y, d x = d y) (a n : Nat) (l : List (Nat × α)) (h : sparseWf d l = true) :
    sparseWf d (sparseCut a n l) = true := by
  have hf := (sparseWf_iff d _).1 (sparseWf_filter d (fun e => decide (a ≤ e.1) && decide (e.1 < a + n)) l h)
  rw [sparseWf_iff]
  unfold sparseCut
  refine ⟨List.pairwise_map.2 (hf.1.imp_of_mem fun {x y} hx hy hxy => ?_), fun e he => ?_⟩
  · simp at hx hy ⊢; omega
  · obtain ⟨x, hx, rfl⟩ := List.mem_map.1 he
    have := hf.2 x hx
    rwa [hd _ x.1]

/-- Laying one canonical table over a range of another gives a canonical table. -/
theorem sparseWf_blit [DecidableEq α] (d : Nat → α) (hd : ∀ x y, d x = d y) (a n : Nat) (img l : List (Nat × α)) (hi : sparseWf d img = true)
    (h : sparseWf d l = true) : sparseWf d (sparseBlit a n img l) = true := by
  have h1 := (sparseWf_iff d _).1 (sparseWf_filter d (fun e => decide (e.1 < a)) l h)
  have h2 := (sparseWf_iff d _).1 (sparseWf_filter d (fun e => decide (e.1 < n)) img hi)
  have h3 := (sparseWf_iff d _).1 (sparseWf_filter d (fun e => decide (a + n ≤ e.1)) l h)
  rw [sparseWf_iff]
  unfold sparseBlit
  refine ⟨List.pairwise_append.2 ⟨List.pairwise_append.2 ⟨h1.1, List.pairwise_map.2 (h2.1.imp fun {x y} hxy => ?_), ?_⟩, h3.1, ?_⟩, ?_⟩
  · simpa using hxy
  · intro x hx y hy
    obtain ⟨z, -, rfl⟩ := List.mem_map.1 hy
    simp at hx
    show x.1 < z.1 + a
    omega
  · intro x hx y hy
    simp at hy
    rcases List.mem_append.1 hx with hx | hx
    · simp at hx; omega
    · obtain ⟨z, hz, rfl⟩ := List.mem_map.1 hx
      simp at hz
      show z.1 + a < y.1
      omega
  · intro e he
    rcases List.mem_append.1 he with he | he
    · rcases List.mem_append.1 he with he | he
      · exact h1.2 e he
      · obtain ⟨x, hx, rfl⟩ := List.mem_map.1 he
        have := h2.2 x hx
        rwa [hd _ x.1]
    · exact h3.2 e he

end Sys2Proof.Machine
end

