-- ==== Sys2Proof/Laws/Memory.lean ====
section
/-! SUPPORT. The laws of memory: a byte reads as it was last written, an operation leaves every byte outside its range alone, and every operation
keeps the canonical form. -/

namespace Sys2Proof.Machine

/-! What a byte reads as. -/

/-- A byte reads the value put there. -/
@[simp] theorem byte_setByte_same (s : State) (a : Nat) (v : Byte) : (s.setByte a v).byte a = v := by
  simp [State.byte, State.setByte]

/-- Putting a byte changes no other. -/
theorem byte_setByte_other (s : State) {a x : Nat} (v : Byte) (h : x ≠ a) : (s.setByte a v).byte x = s.byte x :=
  sparseGet_put_other _ _ v h

/-- Reading from a state with the same memory. -/
theorem byte_congr {s s' : State} (h : s'.mem = s.mem) (a : Nat) : s'.byte a = s.byte a := by
  simp [State.byte, h]

/-- Marking poison changes no byte. -/
@[simp] theorem mem_markPoison (s : State) (a n : Nat) : (s.markPoison a n).mem = s.mem := by
  induction n generalizing s a with
  | zero => rfl
  | succ n ih => rw [State.markPoison, ih]

/-- Ending reservations changes no byte. -/
@[simp] theorem mem_loseResv (s : State) (a n : Nat) : (s.loseResv a n).mem = s.mem := rfl

/-- Putting a number leaves the bytes outside its range alone. -/
theorem byte_putN_outside (n : Nat) (s : State) (a v x : Nat) (h : x < a ∨ a + n ≤ x) : (s.putN a n v).byte x = s.byte x := by
  induction n generalizing s a v with
  | zero => rfl
  | succ n ih => rw [State.putN, ih _ _ _ (by omega), byte_setByte_other _ _ (by omega)]

/-- Byte `i` of a number that was put is the number's byte `i`. -/
theorem byte_putN_inside (n : Nat) (s : State) (a v i : Nat) (h : i < n) :
    (s.putN a n v).byte (a + i) = BitVec.ofNat 8 (v / 256 ^ i) := by
  induction n generalizing s a v i with
  | zero => omega
  | succ n ih =>
    rw [State.putN]
    cases i with
    | zero => rw [byte_putN_outside _ _ _ _ _ (by omega)]; simp
    | succ i =>
      rw [show a + (i + 1) = a + 1 + i by omega, ih _ _ _ _ (by omega), Nat.div_div_eq_div_mul, ← Nat.pow_succ']

/-- Two states whose bytes agree over a range read the same number there. -/
theorem readN_congr (n : Nat) {s s' : State} (a : Nat) (h : ∀ x, a ≤ x → x < a + n → s'.byte x = s.byte x) : s'.readN a n = s.readN a n := by
  induction n generalizing a with
  | zero => rfl
  | succ n ih => rw [State.readN, State.readN, h a (by omega) (by omega), ih (a + 1) fun x h1 h2 => h x (by omega) (by omega)]

/-- A number that was put reads back, to its width. -/
theorem readN_putN_same (n : Nat) (s : State) (a v : Nat) : (s.putN a n v).readN a n = v % 256 ^ n := by
  induction n generalizing s a v with
  | zero => simp [State.readN, Nat.mod_one]
  | succ n ih =>
    have h0 := byte_putN_inside (n + 1) s a v 0 (by omega)
    rw [State.readN, show (s.putN a (n + 1) v).byte a = BitVec.ofNat 8 v by simpa using h0, State.putN, ih, BitVec.toNat_ofNat]
    rw [show (2 : Nat) ^ 8 = 256 from rfl, Nat.pow_succ' (m := 256), Nat.mod_mul]

/-- A number put elsewhere does not change what is read here. -/
theorem readN_putN_disjoint (s : State) (a n v b m : Nat) (h : b + m ≤ a ∨ a + n ≤ b) : (s.putN a n v).readN b m = s.readN b m :=
  readN_congr m b fun x _ _ => byte_putN_outside n s a v x (by omega)

/-- Putting bytes leaves the bytes outside their range alone. -/
theorem byte_putBytes_outside (l : List Byte) (s : State) (a x : Nat) (h : x < a ∨ a + l.length ≤ x) : (s.putBytes a l).byte x = s.byte x := by
  induction l generalizing s a with
  | nil => rfl
  | cons b r ih =>
    rw [List.length_cons] at h
    rw [State.putBytes, ih _ _ (by omega), byte_setByte_other _ _ (by omega)]

/-- Byte `i` of a list that was put. -/
theorem byte_putBytes_inside (l : List Byte) (s : State) (a i : Nat) (h : i < l.length) : (s.putBytes a l).byte (a + i) = l[i] := by
  induction l generalizing s a i with
  | nil => simp at h
  | cons b r ih =>
    rw [State.putBytes]
    cases i with
    | zero => rw [byte_putBytes_outside _ _ _ _ (by omega)]; simp
    | succ i => rw [show a + (i + 1) = a + 1 + i by omega, ih _ _ _ (by simpa using h)]; rfl

/-- Putting words leaves the bytes outside their range alone. -/
theorem byte_putWords_outside (l : List Nat) (s : State) (a x : Nat) (h : x < a ∨ a + 4 * l.length ≤ x) : (s.putWords a l).byte x = s.byte x := by
  induction l generalizing s a with
  | nil => rfl
  | cons w r ih =>
    rw [List.length_cons] at h
    rw [State.putWords, ih _ _ (by omega), byte_putN_outside _ _ _ _ _ (by omega)]

/-- Writing a number leaves the bytes outside its range alone. -/
theorem byte_writeN_outside (s : State) (a n v x : Nat) (h : x < a ∨ a + n ≤ x) : (s.writeN a n v).byte x = s.byte x :=
  byte_putN_outside n s a v x h

/-- A number that was written reads back, to its width. -/
theorem readN_writeN_same (s : State) (a n v : Nat) : (s.writeN a n v).readN a n = v % 256 ^ n :=
  (readN_congr (s := s.putN a n v) (s' := s.writeN a n v) n a fun _ _ _ => rfl).trans (readN_putN_same n s a v)

/-- Writing bytes leaves the bytes outside their range alone. -/
theorem byte_writeBytes_outside (s : State) (a : Nat) (l : List Byte) (x : Nat) (h : x < a ∨ a + l.length ≤ x) : (s.writeBytes a l).byte x = s.byte x :=
  byte_putBytes_outside l s a x h

/-- Byte `i` of a list that was written. -/
theorem byte_writeBytes_inside (s : State) (a : Nat) (l : List Byte) (i : Nat) (h : i < l.length) : (s.writeBytes a l).byte (a + i) = l[i] :=
  byte_putBytes_inside l s a i h

/-- Writing words leaves the bytes outside their range alone. -/
theorem byte_writeWords_outside (s : State) (a : Nat) (l : List Nat) (x : Nat) (h : x < a ∨ a + 4 * l.length ≤ x) :
    (s.writeWords a l).byte x = s.byte x :=
  byte_putWords_outside l s a x h

/-- What an unlisted byte reads as does not depend on where it is. -/
theorem memDefault_const (x y : Nat) : memDefault x = memDefault y := rfl

/-- After a copy the destination holds what the source held, and every byte outside it what it held. -/
theorem byte_copyMem (s : State) (src dst n x : Nat) :
    (s.copyMem src dst n).byte x = if dst ≤ x ∧ x < dst + n then s.byte (x - dst + src) else s.byte x := by
  unfold State.byte State.copyMem
  rw [sparseGet_blit memDefault memDefault_const]
  split
  · rw [sparseGet_cut memDefault memDefault_const, if_pos (by omega)]
  · rfl

/-- After a blit the range holds the image, zero where the image lists nothing, and every byte outside it what it held. -/
theorem byte_blit (s : State) (a n : Nat) (img : List (Nat × Byte)) (x : Nat) :
    (s.blit a n img).byte x = if a ≤ x ∧ x < a + n then sparseGet memDefault img (x - a) else s.byte x :=
  sparseGet_blit memDefault memDefault_const a n img s.mem x

/-! Poison marks. -/

/-- Erasing an address leaves the others. -/
theorem mem_poisonErase (a x : Nat) (l : List Nat) : x ∈ poisonErase a l ↔ x ∈ l ∧ x ≠ a := by
  simp [poisonErase]

/-- Inserting an address adds it and nothing else. -/
theorem mem_poisonInsert (a x : Nat) (l : List Nat) : x ∈ poisonInsert a l ↔ x = a ∨ x ∈ l := by
  induction l with
  | nil => simp [poisonInsert]
  | cons y r ih =>
    unfold poisonInsert
    split
    · simp
    · split
      · rename_i h; subst h; simp
      · simp only [List.mem_cons, ih]; exact or_left_comm

/-- The canonical form of a list of addresses, said of its members. -/
theorem risingFrom_iff (lo : Nat) (l : List Nat) : risingFrom lo l = true ↔ l.Pairwise (· < ·) ∧ ∀ x ∈ l, lo ≤ x := by
  induction l generalizing lo with
  | nil => simp [risingFrom]
  | cons a r ih =>
    simp only [risingFrom, Bool.and_eq_true, decide_eq_true_eq, ih, List.pairwise_cons, List.mem_cons, forall_eq_or_imp]
    constructor
    · rintro ⟨h1, h2, h3⟩
      exact ⟨⟨fun x hx => h3 x hx, h2⟩, h1, fun x hx => by have := h3 x hx; omega⟩
    · rintro ⟨⟨h1, h2⟩, h3, -⟩
      exact ⟨h3, h2, fun x hx => h1 x hx⟩

/-- Keeping some addresses keeps the canonical form. -/
theorem rising_filter (p : Nat → Bool) (l : List Nat) (h : risingFrom 0 l = true) : risingFrom 0 (l.filter p) = true := by
  rw [risingFrom_iff] at h ⊢
  exact ⟨h.1.filter p, fun x _ => Nat.zero_le x⟩

/-- Erasing an address keeps the canonical form. -/
theorem rising_poisonErase (a : Nat) (l : List Nat) (h : risingFrom 0 l = true) : risingFrom 0 (poisonErase a l) = true := rising_filter _ l h

/-- Inserting an address keeps the canonical form. -/
theorem rising_poisonInsert (a lo : Nat) (l : List Nat) (hlo : lo ≤ a) (h : risingFrom lo l = true) : risingFrom lo (poisonInsert a l) = true := by
  induction l generalizing lo with
  | nil => simp [poisonInsert, risingFrom, hlo]
  | cons y r ih =>
    simp only [risingFrom, Bool.and_eq_true, decide_eq_true_eq] at h
    unfold poisonInsert
    split
    · rename_i hy
      simp only [risingFrom, Bool.and_eq_true, decide_eq_true_eq]
      exact ⟨hlo, by omega, h.2⟩
    · split
      · simp only [risingFrom, Bool.and_eq_true, decide_eq_true_eq]
        exact h
      · simp only [risingFrom, Bool.and_eq_true, decide_eq_true_eq]
        exact ⟨h.1, ih (y + 1) (by omega) h.2⟩

/-! The canonical form of memory. -/

/-- Memory and poison marks are in canonical form. -/
def State.memWf (s : State) : Bool := Memory.wf s.mem && risingFrom 0 s.poison

/-- A change that reaches neither memory nor the marks. -/
theorem memWf_congr {s s' : State} (hm : s'.mem = s.mem) (hp : s'.poison = s.poison) : s'.memWf = s.memWf := by
  simp [State.memWf, hm, hp]

/-- Putting a byte keeps the canonical form. -/
theorem memWf_setByte (s : State) (a : Nat) (v : Byte) (h : s.memWf = true) : (s.setByte a v).memWf = true := by
  simp only [State.memWf, Bool.and_eq_true] at h ⊢
  exact ⟨sparseWf_put memDefault s.mem a v h.1, rising_poisonErase a s.poison h.2⟩

/-- Putting a number keeps the canonical form. -/
theorem memWf_putN (n : Nat) (s : State) (a v : Nat) (h : s.memWf = true) : (s.putN a n v).memWf = true := by
  induction n generalizing s a v with
  | zero => exact h
  | succ n ih => exact ih _ _ _ (memWf_setByte s a _ h)

/-- Putting bytes keeps the canonical form. -/
theorem memWf_putBytes (l : List Byte) (s : State) (a : Nat) (h : s.memWf = true) : (s.putBytes a l).memWf = true := by
  induction l generalizing s a with
  | nil => exact h
  | cons b r ih => exact ih _ _ (memWf_setByte s a b h)

/-- Putting words keeps the canonical form. -/
theorem memWf_putWords (l : List Nat) (s : State) (a : Nat) (h : s.memWf = true) : (s.putWords a l).memWf = true := by
  induction l generalizing s a with
  | nil => exact h
  | cons w r ih => exact ih _ _ (memWf_putN 4 s a w h)

/-- Writing a number keeps the canonical form. -/
theorem memWf_writeN (s : State) (a n v : Nat) (h : s.memWf = true) : (s.writeN a n v).memWf = true := memWf_putN n s a v h

/-- Writing bytes keeps the canonical form. -/
theorem memWf_writeBytes (s : State) (a : Nat) (l : List Byte) (h : s.memWf = true) : (s.writeBytes a l).memWf = true := memWf_putBytes l s a h

/-- Writing words keeps the canonical form. -/
theorem memWf_writeWords (s : State) (a : Nat) (l : List Nat) (h : s.memWf = true) : (s.writeWords a l).memWf = true := memWf_putWords l s a h

/-- Marking poison keeps the canonical form. -/
theorem memWf_markPoison (n : Nat) (s : State) (a : Nat) (h : s.memWf = true) : (s.markPoison a n).memWf = true := by
  induction n generalizing s a with
  | zero => exact h
  | succ n ih =>
    simp only [State.memWf, Bool.and_eq_true] at h
    exact ih _ _ (by simp only [State.memWf, Bool.and_eq_true]; exact ⟨h.1, rising_poisonInsert a 0 s.poison (Nat.zero_le a) h.2⟩)

/-- Copying keeps the canonical form. -/
theorem memWf_copyMem (s : State) (src dst n : Nat) (h : s.memWf = true) : (s.copyMem src dst n).memWf = true := by
  simp only [State.memWf, Bool.and_eq_true] at h ⊢
  refine ⟨sparseWf_blit memDefault memDefault_const dst n _ _ (sparseWf_cut memDefault memDefault_const src n _ h.1) h.1, ?_⟩
  have hp := ((risingFrom_iff 0 s.poison).1 h.2).1
  rw [risingFrom_iff]
  refine ⟨List.pairwise_append.2 ⟨List.pairwise_append.2 ⟨hp.filter _, List.pairwise_map.2 ((hp.filter _).imp_of_mem ?_), ?_⟩, hp.filter _, ?_⟩,
    fun x _ => Nat.zero_le x⟩
  · intro x y hx hy hxy
    simp at hx hy
    omega
  · intro x hx y hy
    obtain ⟨z, -, rfl⟩ := List.mem_map.1 hy
    simp at hx
    omega
  · intro x hx y hy
    simp at hy
    rcases List.mem_append.1 hx with hx | hx
    · simp at hx; omega
    · obtain ⟨z, hz, rfl⟩ := List.mem_map.1 hx
      simp at hz
      omega

/-- A blit of a canonical image keeps the canonical form. -/
theorem memWf_blit (s : State) (a n : Nat) (img : List (Nat × Byte)) (hi : sparseWf memDefault img = true) (h : s.memWf = true) :
    (s.blit a n img).memWf = true := by
  simp only [State.memWf, Bool.and_eq_true] at h ⊢
  exact ⟨sparseWf_blit memDefault memDefault_const a n img s.mem hi h.1, rising_filter _ s.poison h.2⟩

/-- Memory right after reset is in canonical form. -/
theorem memWf_reset : State.reset.memWf = true := by decide +kernel

end Sys2Proof.Machine
end

