-- ==== Sys2Proof/Laws/Registers.lean ====
section
/-! SUPPORT. The laws of the register file: a register and a field read as they were last set, setting one leaves every other alone, and the
file keeps its canonical form. -/

namespace Sys2Proof.Machine

/-! Words. -/

/-- A register reads the value it was set to. -/
@[simp] theorem reg_setReg_same (s : State) (a : Nat) (v : Word) : (s.setReg a v).reg a = v := by
  simp [State.reg, State.setReg]

/-- Setting a register changes no other. -/
theorem reg_setReg_other (s : State) {a x : Nat} (v : Word) (h : x ≠ a) : (s.setReg a v).reg x = s.reg x :=
  sparseGet_put_other _ _ v h

/-- A word reads the low 32 bits of what it was set to. -/
@[simp] theorem word_setWord_same (s : State) (a n : Nat) : (s.setWord a n).word a = n % 2 ^ 32 := by
  simp [State.word, State.setWord]

/-- Setting a word changes no other. -/
theorem word_setWord_other (s : State) {a x : Nat} (n : Nat) (h : x ≠ a) : (s.setWord a n).word x = s.word x := by
  simp only [State.word, State.setWord, reg_setReg_other s _ h]

/-- A word is below 2^32. -/
theorem word_lt (s : State) (a : Nat) : s.word a < 2 ^ 32 := (s.reg a).isLt

/-- Two states with the same register file read the same words. -/
theorem word_congr {s s' : State} (h : s'.regs = s.regs) (a : Nat) : s'.word a = s.word a := by
  simp [State.word, State.reg, h]

/-- Two states with the same register file read the same fields. -/
theorem get_congr {s s' : State} (h : s'.regs = s.regs) (f : Fld) : s'.get f = s.get f := by
  simp [State.get, word_congr h]

/-! Fields of a word. -/

/-- A field is below its range. -/
theorem fieldOf_lt (f : Fld) (w : Nat) : fieldOf f w < 2 ^ f.width := Nat.mod_lt _ (Nat.two_pow_pos _)

/-- A word with a field set, divided by the field's place. -/
theorem withField_div_lo (f : Fld) (w v : Nat) (h : f.lo ≤ f.hi) :
    withField f w v / 2 ^ f.lo = v % 2 ^ f.width + w / 2 ^ (f.hi + 1) * 2 ^ f.width := by
  have hw : 2 ^ (f.hi + 1) = 2 ^ f.width * 2 ^ f.lo := by rw [← Nat.pow_add]; congr 1; unfold Fld.width; omega
  unfold withField
  rw [hw, ← Nat.mul_assoc, Nat.add_assoc, ← Nat.add_mul, Nat.add_mul_div_right _ _ (Nat.two_pow_pos _), Nat.div_eq_of_lt (Nat.mod_lt _ (Nat.two_pow_pos _)),
    Nat.zero_add]

/-- A field reads the low bits of what it was set to. -/
theorem fieldOf_withField_same (f : Fld) (w v : Nat) (h : f.lo ≤ f.hi) : fieldOf f (withField f w v) = v % 2 ^ f.width := by
  unfold fieldOf
  rw [withField_div_lo f w v h, Nat.add_mul_mod_self_right, Nat.mod_mod]

/-- Setting a field does not change a field below it. -/
theorem fieldOf_withField_below (f g : Fld) (w v : Nat) (hf : f.lo ≤ f.hi) (hg : g.hi < f.lo) (h : g.lo ≤ g.hi) :
    fieldOf g (withField f w v) = fieldOf g w := by
  unfold fieldOf
  have e : withField f w v % 2 ^ f.lo = w % 2 ^ f.lo := by
    have hw : 2 ^ (f.hi + 1) = 2 ^ f.width * 2 ^ f.lo := by rw [← Nat.pow_add]; congr 1; unfold Fld.width; omega
    unfold withField
    rw [hw, ← Nat.mul_assoc, Nat.add_assoc, ← Nat.add_mul, Nat.add_mul_mod_self_right, Nat.mod_mod]
  have split : ∀ x : Nat, x / 2 ^ g.lo % 2 ^ g.width = x % 2 ^ f.lo / 2 ^ g.lo % 2 ^ g.width := by
    intro x
    have hp : 2 ^ f.lo = 2 ^ g.lo * (2 ^ g.width * 2 ^ (f.lo - (g.hi + 1))) := by
      rw [← Nat.pow_add, ← Nat.pow_add]; congr 1; unfold Fld.width; omega
    rw [hp, Nat.mod_mul_right_div_self, Nat.mod_mod_of_dvd _ (Nat.dvd_mul_right _ _)]
  rw [split, e, ← split]

/-- Setting a field does not change a field above it. -/
theorem fieldOf_withField_above (f g : Fld) (w v : Nat) (hf : f.lo ≤ f.hi) (hg : f.hi < g.lo) : fieldOf g (withField f w v) = fieldOf g w := by
  unfold fieldOf
  have e : withField f w v / 2 ^ (f.hi + 1) = w / 2 ^ (f.hi + 1) := by
    have hw : f.hi + 1 = f.lo + f.width := by unfold Fld.width; omega
    have hv : (v % 2 ^ f.width) / 2 ^ f.width = 0 := Nat.div_eq_of_lt (Nat.mod_lt _ (Nat.two_pow_pos _))
    rw [hw, Nat.pow_add, ← Nat.div_div_eq_div_mul, withField_div_lo f w v hf, Nat.add_mul_div_right _ _ (Nat.two_pow_pos _), hv, Nat.zero_add, hw, Nat.pow_add]
  have hp : 2 ^ g.lo = 2 ^ (f.hi + 1) * 2 ^ (g.lo - (f.hi + 1)) := by rw [← Nat.pow_add]; congr 1; omega
  rw [hp, ← Nat.div_div_eq_div_mul, e, Nat.div_div_eq_div_mul]

/-- A word below 2^32 stays below it when one of its fields is set. -/
theorem withField_lt (f : Fld) (w v : Nat) (h : f.lo ≤ f.hi) (h32 : f.hi < 32) (hw : w < 2 ^ 32) : withField f w v < 2 ^ 32 := by
  have e : withField f w v / 2 ^ 32 = w / 2 ^ 32 := by
    have := fieldOf_withField_above f ⟨f.reg, 63, 32⟩ w v h h32
    have d : withField f w v / 2 ^ (f.hi + 1) = w / 2 ^ (f.hi + 1) := by
      have hw' : f.hi + 1 = f.lo + f.width := by unfold Fld.width; omega
      have hv : (v % 2 ^ f.width) / 2 ^ f.width = 0 := Nat.div_eq_of_lt (Nat.mod_lt _ (Nat.two_pow_pos _))
      rw [hw', Nat.pow_add, ← Nat.div_div_eq_div_mul, withField_div_lo f w v h, Nat.add_mul_div_right _ _ (Nat.two_pow_pos _), hv, Nat.zero_add, hw',
        Nat.pow_add]
    have hp : 2 ^ 32 = 2 ^ (f.hi + 1) * 2 ^ (32 - (f.hi + 1)) := by rw [← Nat.pow_add]; congr 1; omega
    rw [hp, ← Nat.div_div_eq_div_mul, d, Nat.div_div_eq_div_mul]
  rw [Nat.div_eq_of_lt hw] at e
  exact Nat.lt_of_div_eq_zero (Nat.two_pow_pos _) e

/-! Fields of the state. -/

/-- A field reads the low bits of what it was put at. -/
theorem get_put_same (s : State) (f : Fld) (v : Nat) (h : f.lo ≤ f.hi) (h32 : f.hi < 32) : (s.put f v).get f = v % 2 ^ f.width := by
  unfold State.get State.put
  rw [word_setWord_same, Nat.mod_eq_of_lt (withField_lt f _ v h h32 (word_lt s f.reg)), fieldOf_withField_same f _ v h]

/-- Putting a field changes no field of another register. -/
theorem get_put_other (s : State) (f g : Fld) (v : Nat) (h : g.reg ≠ f.reg) : (s.put f v).get g = s.get g := by
  unfold State.get State.put
  rw [word_setWord_other s _ h]

/-- Putting a field changes no other field of its register. -/
theorem get_put_disjoint (s : State) (f g : Fld) (v : Nat) (h : f.lo ≤ f.hi) (h32 : f.hi < 32) (hg : g.lo ≤ g.hi) (hr : g.reg = f.reg)
    (hd : g.hi < f.lo ∨ f.hi < g.lo) : (s.put f v).get g = s.get g := by
  unfold State.get State.put
  rw [hr, word_setWord_same, Nat.mod_eq_of_lt (withField_lt f _ v h h32 (word_lt s f.reg))]
  rcases hd with hd | hd
  · exact fieldOf_withField_below f g _ v h hd hg
  · exact fieldOf_withField_above f g _ v h hd

/-- Putting a field changes no word of another register. -/
theorem word_put_other (s : State) (f : Fld) (v a : Nat) (h : a ≠ f.reg) : (s.put f v).word a = s.word a := word_setWord_other s _ h

/-- A flag that was raised is set. -/
theorem flag_raise_same (s : State) (f : Fld) (h : f.lo ≤ f.hi) (h32 : f.hi < 32) : (s.raise f).flag f = true := by
  unfold State.flag State.raise
  rw [get_put_same s f 1 h h32, Nat.mod_eq_of_lt (Nat.one_lt_two_pow (by unfold Fld.width; omega))]
  rfl

/-! The canonical form of the register file. -/

/-- Setting a register keeps the canonical form. -/
theorem regsWf_setReg (s : State) (a : Nat) (v : Word) (h : RegFile.wf s.regs = true) : RegFile.wf (s.setReg a v).regs = true :=
  sparseWf_put regReset s.regs a v h

/-- Setting a word keeps the canonical form. -/
theorem regsWf_setWord (s : State) (a n : Nat) (h : RegFile.wf s.regs = true) : RegFile.wf (s.setWord a n).regs = true := regsWf_setReg s a _ h

/-- Putting a field keeps the canonical form. -/
theorem regsWf_put (s : State) (f : Fld) (v : Nat) (h : RegFile.wf s.regs = true) : RegFile.wf (s.put f v).regs = true := regsWf_setWord s f.reg _ h

/-- Putting a signed field keeps the canonical form. -/
theorem regsWf_putS (s : State) (f : Fld) (v : Int) (h : RegFile.wf s.regs = true) : RegFile.wf (s.putS f v).regs = true := regsWf_put s f _ h

/-- Raising a flag keeps the canonical form. -/
theorem regsWf_raise (s : State) (f : Fld) (h : RegFile.wf s.regs = true) : RegFile.wf (s.raise f).regs = true := regsWf_put s f 1 h

/-- Counting keeps the canonical form. -/
theorem regsWf_count (s : State) (f : Fld) (n : Nat) (h : RegFile.wf s.regs = true) : RegFile.wf (s.count f n).regs = true := regsWf_put s f _ h

/-- Counting to a limit keeps the canonical form. -/
theorem regsWf_countSat (s : State) (f : Fld) (n : Nat) (h : RegFile.wf s.regs = true) : RegFile.wf (s.countSat f n).regs = true := regsWf_put s f _ h

/-- Setting a pair of words keeps the canonical form. -/
theorem regsWf_put64 (s : State) (lo hi n : Nat) (h : RegFile.wf s.regs = true) : RegFile.wf (s.put64 lo hi n).regs = true :=
  regsWf_setWord _ hi _ (regsWf_setWord s lo n h)

/-- Returning registers to their reset values keeps the canonical form. -/
theorem regsWf_clearRegs (s : State) (lo hi : Nat) (h : RegFile.wf s.regs = true) : RegFile.wf (s.clearRegs lo hi).regs = true :=
  sparseWf_filter regReset _ s.regs h

/-- A register whose window was cleared reads its reset value, and every other as before. -/
theorem reg_clearRegs (s : State) (lo hi a : Nat) : (s.clearRegs lo hi).reg a = if a < lo ∨ hi ≤ a then s.reg a else regReset a := by
  unfold State.reg State.clearRegs
  rw [sparseGet_filter regReset (fun x => decide (x < lo) || decide (hi ≤ x))]
  simp

end Sys2Proof.Machine
end

