-- ==== Sys2Proof/Laws/State.lean ====
section
/-! SUPPORT. One lemma for each field and each named update of the state: what the update leaves of the field. All are true by unfolding, so no
later proof unfolds a record update. -/

set_option Elab.async false

namespace Sys2Proof.Machine

variable (s : State)

/-! atTime -/

@[simp] theorem State.atTime_clock (t : Nat) : (s.atTime t).clock = max s.clock t := rfl
@[simp] theorem State.atTime_pending (t : Nat) : (s.atTime t).pending = s.pending := rfl
@[simp] theorem State.atTime_start (t : Nat) : (s.atTime t).start = s.start := rfl
@[simp] theorem State.atTime_freeCtr (t : Nat) : (s.atTime t).freeCtr = s.freeCtr := rfl
@[simp] theorem State.atTime_regs (t : Nat) : (s.atTime t).regs = s.regs := rfl
@[simp] theorem State.atTime_mem (t : Nat) : (s.atTime t).mem = s.mem := rfl
@[simp] theorem State.atTime_poison (t : Nat) : (s.atTime t).poison = s.poison := rfl
@[simp] theorem State.atTime_fabBad (t : Nat) : (s.atTime t).fabBad = s.fabBad := rfl
@[simp] theorem State.atTime_held (t : Nat) : (s.atTime t).held = s.held := rfl
@[simp] theorem State.atTime_fabAt (t : Nat) : (s.atTime t).fabAt = s.fabAt := rfl
@[simp] theorem State.atTime_perMaster (t : Nat) : (s.atTime t).perMaster = s.perMaster := rfl
@[simp] theorem State.atTime_queSeq (t : Nat) : (s.atTime t).queSeq = s.queSeq := rfl
@[simp] theorem State.atTime_reply (t : Nat) : (s.atTime t).reply = s.reply := rfl
@[simp] theorem State.atTime_inBeanie (t : Nat) : (s.atTime t).inBeanie = s.inBeanie := rfl
@[simp] theorem State.atTime_aCores (t : Nat) : (s.atTime t).aCores = s.aCores := rfl
@[simp] theorem State.atTime_lanes (t : Nat) : (s.atTime t).lanes = s.lanes := rfl
@[simp] theorem State.atTime_flt (t : Nat) : (s.atTime t).flt = s.flt := rfl
@[simp] theorem State.atTime_evr (t : Nat) : (s.atTime t).evr = s.evr := rfl
@[simp] theorem State.atTime_hb (t : Nat) : (s.atTime t).hb = s.hb := rfl
@[simp] theorem State.atTime_ctxs (t : Nat) : (s.atTime t).ctxs = s.ctxs := rfl
@[simp] theorem State.atTime_mplLines (t : Nat) : (s.atTime t).mplLines = s.mplLines := rfl
@[simp] theorem State.atTime_mplStripe (t : Nat) : (s.atTime t).mplStripe = s.mplStripe := rfl
@[simp] theorem State.atTime_mplReadyl (t : Nat) : (s.atTime t).mplReadyl = s.mplReadyl := rfl
@[simp] theorem State.atTime_inp (t : Nat) : (s.atTime t).inp = s.inp := rfl
@[simp] theorem State.atTime_fins (t : Nat) : (s.atTime t).fins = s.fins := rfl
@[simp] theorem State.atTime_fus (t : Nat) : (s.atTime t).fus = s.fus := rfl
@[simp] theorem State.atTime_lns (t : Nat) : (s.atTime t).lns = s.lns := rfl
@[simp] theorem State.atTime_ces (t : Nat) : (s.atTime t).ces = s.ces := rfl
@[simp] theorem State.atTime_mit (t : Nat) : (s.atTime t).mit = s.mit := rfl
@[simp] theorem State.atTime_drv (t : Nat) : (s.atTime t).drv = s.drv := rfl
@[simp] theorem State.atTime_lds (t : Nat) : (s.atTime t).lds = s.lds := rfl
@[simp] theorem State.atTime_ldGroups (t : Nat) : (s.atTime t).ldGroups = s.ldGroups := rfl
@[simp] theorem State.atTime_gnb (t : Nat) : (s.atTime t).gnb = s.gnb := rfl
@[simp] theorem State.atTime_imu (t : Nat) : (s.atTime t).imu = s.imu := rfl
@[simp] theorem State.atTime_cans (t : Nat) : (s.atTime t).cans = s.cans := rfl
@[simp] theorem State.atTime_objs (t : Nat) : (s.atTime t).objs = s.objs := rfl
@[simp] theorem State.atTime_sess (t : Nat) : (s.atTime t).sess = s.sess := rfl
@[simp] theorem State.atTime_msgNext (t : Nat) : (s.atTime t).msgNext = s.msgNext := rfl
@[simp] theorem State.atTime_blocks (t : Nat) : (s.atTime t).blocks = s.blocks := rfl
@[simp] theorem State.atTime_lmpCan (t : Nat) : (s.atTime t).lmpCan = s.lmpCan := rfl
@[simp] theorem State.atTime_lmpRes (t : Nat) : (s.atTime t).lmpRes = s.lmpRes := rfl
@[simp] theorem State.atTime_net (t : Nat) : (s.atTime t).net = s.net := rfl
@[simp] theorem State.atTime_jnl (t : Nat) : (s.atTime t).jnl = s.jnl := rfl
@[simp] theorem State.atTime_role (t : Nat) : (s.atTime t).role = s.role := rfl
@[simp] theorem State.atTime_rst (t : Nat) : (s.atTime t).rst = s.rst := rfl
@[simp] theorem State.atTime_upd (t : Nat) : (s.atTime t).upd = s.upd := rfl
@[simp] theorem State.atTime_tly (t : Nat) : (s.atTime t).tly = s.tly := rfl
@[simp] theorem State.atTime_tap (t : Nat) : (s.atTime t).tap = s.tap := rfl

/-! setReg -/

@[simp] theorem State.setReg_pending (a : Nat) (v : Word) : (s.setReg a v).pending = s.pending := rfl
@[simp] theorem State.setReg_clock (a : Nat) (v : Word) : (s.setReg a v).clock = s.clock := rfl
@[simp] theorem State.setReg_start (a : Nat) (v : Word) : (s.setReg a v).start = s.start := rfl
@[simp] theorem State.setReg_freeCtr (a : Nat) (v : Word) : (s.setReg a v).freeCtr = s.freeCtr := rfl
@[simp] theorem State.setReg_mem (a : Nat) (v : Word) : (s.setReg a v).mem = s.mem := rfl
@[simp] theorem State.setReg_poison (a : Nat) (v : Word) : (s.setReg a v).poison = s.poison := rfl
@[simp] theorem State.setReg_fabBad (a : Nat) (v : Word) : (s.setReg a v).fabBad = s.fabBad := rfl
@[simp] theorem State.setReg_held (a : Nat) (v : Word) : (s.setReg a v).held = s.held := rfl
@[simp] theorem State.setReg_fabAt (a : Nat) (v : Word) : (s.setReg a v).fabAt = s.fabAt := rfl
@[simp] theorem State.setReg_perMaster (a : Nat) (v : Word) : (s.setReg a v).perMaster = s.perMaster := rfl
@[simp] theorem State.setReg_queSeq (a : Nat) (v : Word) : (s.setReg a v).queSeq = s.queSeq := rfl
@[simp] theorem State.setReg_reply (a : Nat) (v : Word) : (s.setReg a v).reply = s.reply := rfl
@[simp] theorem State.setReg_inBeanie (a : Nat) (v : Word) : (s.setReg a v).inBeanie = s.inBeanie := rfl
@[simp] theorem State.setReg_aCores (a : Nat) (v : Word) : (s.setReg a v).aCores = s.aCores := rfl
@[simp] theorem State.setReg_lanes (a : Nat) (v : Word) : (s.setReg a v).lanes = s.lanes := rfl
@[simp] theorem State.setReg_flt (a : Nat) (v : Word) : (s.setReg a v).flt = s.flt := rfl
@[simp] theorem State.setReg_evr (a : Nat) (v : Word) : (s.setReg a v).evr = s.evr := rfl
@[simp] theorem State.setReg_hb (a : Nat) (v : Word) : (s.setReg a v).hb = s.hb := rfl
@[simp] theorem State.setReg_ctxs (a : Nat) (v : Word) : (s.setReg a v).ctxs = s.ctxs := rfl
@[simp] theorem State.setReg_mplLines (a : Nat) (v : Word) : (s.setReg a v).mplLines = s.mplLines := rfl
@[simp] theorem State.setReg_mplStripe (a : Nat) (v : Word) : (s.setReg a v).mplStripe = s.mplStripe := rfl
@[simp] theorem State.setReg_mplReadyl (a : Nat) (v : Word) : (s.setReg a v).mplReadyl = s.mplReadyl := rfl
@[simp] theorem State.setReg_inp (a : Nat) (v : Word) : (s.setReg a v).inp = s.inp := rfl
@[simp] theorem State.setReg_fins (a : Nat) (v : Word) : (s.setReg a v).fins = s.fins := rfl
@[simp] theorem State.setReg_fus (a : Nat) (v : Word) : (s.setReg a v).fus = s.fus := rfl
@[simp] theorem State.setReg_lns (a : Nat) (v : Word) : (s.setReg a v).lns = s.lns := rfl
@[simp] theorem State.setReg_ces (a : Nat) (v : Word) : (s.setReg a v).ces = s.ces := rfl
@[simp] theorem State.setReg_mit (a : Nat) (v : Word) : (s.setReg a v).mit = s.mit := rfl
@[simp] theorem State.setReg_drv (a : Nat) (v : Word) : (s.setReg a v).drv = s.drv := rfl
@[simp] theorem State.setReg_lds (a : Nat) (v : Word) : (s.setReg a v).lds = s.lds := rfl
@[simp] theorem State.setReg_ldGroups (a : Nat) (v : Word) : (s.setReg a v).ldGroups = s.ldGroups := rfl
@[simp] theorem State.setReg_gnb (a : Nat) (v : Word) : (s.setReg a v).gnb = s.gnb := rfl
@[simp] theorem State.setReg_imu (a : Nat) (v : Word) : (s.setReg a v).imu = s.imu := rfl
@[simp] theorem State.setReg_cans (a : Nat) (v : Word) : (s.setReg a v).cans = s.cans := rfl
@[simp] theorem State.setReg_objs (a : Nat) (v : Word) : (s.setReg a v).objs = s.objs := rfl
@[simp] theorem State.setReg_sess (a : Nat) (v : Word) : (s.setReg a v).sess = s.sess := rfl
@[simp] theorem State.setReg_msgNext (a : Nat) (v : Word) : (s.setReg a v).msgNext = s.msgNext := rfl
@[simp] theorem State.setReg_blocks (a : Nat) (v : Word) : (s.setReg a v).blocks = s.blocks := rfl
@[simp] theorem State.setReg_lmpCan (a : Nat) (v : Word) : (s.setReg a v).lmpCan = s.lmpCan := rfl
@[simp] theorem State.setReg_lmpRes (a : Nat) (v : Word) : (s.setReg a v).lmpRes = s.lmpRes := rfl
@[simp] theorem State.setReg_net (a : Nat) (v : Word) : (s.setReg a v).net = s.net := rfl
@[simp] theorem State.setReg_jnl (a : Nat) (v : Word) : (s.setReg a v).jnl = s.jnl := rfl
@[simp] theorem State.setReg_role (a : Nat) (v : Word) : (s.setReg a v).role = s.role := rfl
@[simp] theorem State.setReg_rst (a : Nat) (v : Word) : (s.setReg a v).rst = s.rst := rfl
@[simp] theorem State.setReg_upd (a : Nat) (v : Word) : (s.setReg a v).upd = s.upd := rfl
@[simp] theorem State.setReg_tly (a : Nat) (v : Word) : (s.setReg a v).tly = s.tly := rfl
@[simp] theorem State.setReg_tap (a : Nat) (v : Word) : (s.setReg a v).tap = s.tap := rfl

/-! setWord -/

@[simp] theorem State.setWord_pending (a n : Nat) : (s.setWord a n).pending = s.pending := rfl
@[simp] theorem State.setWord_clock (a n : Nat) : (s.setWord a n).clock = s.clock := rfl
@[simp] theorem State.setWord_start (a n : Nat) : (s.setWord a n).start = s.start := rfl
@[simp] theorem State.setWord_freeCtr (a n : Nat) : (s.setWord a n).freeCtr = s.freeCtr := rfl
@[simp] theorem State.setWord_mem (a n : Nat) : (s.setWord a n).mem = s.mem := rfl
@[simp] theorem State.setWord_poison (a n : Nat) : (s.setWord a n).poison = s.poison := rfl
@[simp] theorem State.setWord_fabBad (a n : Nat) : (s.setWord a n).fabBad = s.fabBad := rfl
@[simp] theorem State.setWord_held (a n : Nat) : (s.setWord a n).held = s.held := rfl
@[simp] theorem State.setWord_fabAt (a n : Nat) : (s.setWord a n).fabAt = s.fabAt := rfl
@[simp] theorem State.setWord_perMaster (a n : Nat) : (s.setWord a n).perMaster = s.perMaster := rfl
@[simp] theorem State.setWord_queSeq (a n : Nat) : (s.setWord a n).queSeq = s.queSeq := rfl
@[simp] theorem State.setWord_reply (a n : Nat) : (s.setWord a n).reply = s.reply := rfl
@[simp] theorem State.setWord_inBeanie (a n : Nat) : (s.setWord a n).inBeanie = s.inBeanie := rfl
@[simp] theorem State.setWord_aCores (a n : Nat) : (s.setWord a n).aCores = s.aCores := rfl
@[simp] theorem State.setWord_lanes (a n : Nat) : (s.setWord a n).lanes = s.lanes := rfl
@[simp] theorem State.setWord_flt (a n : Nat) : (s.setWord a n).flt = s.flt := rfl
@[simp] theorem State.setWord_evr (a n : Nat) : (s.setWord a n).evr = s.evr := rfl
@[simp] theorem State.setWord_hb (a n : Nat) : (s.setWord a n).hb = s.hb := rfl
@[simp] theorem State.setWord_ctxs (a n : Nat) : (s.setWord a n).ctxs = s.ctxs := rfl
@[simp] theorem State.setWord_mplLines (a n : Nat) : (s.setWord a n).mplLines = s.mplLines := rfl
@[simp] theorem State.setWord_mplStripe (a n : Nat) : (s.setWord a n).mplStripe = s.mplStripe := rfl
@[simp] theorem State.setWord_mplReadyl (a n : Nat) : (s.setWord a n).mplReadyl = s.mplReadyl := rfl
@[simp] theorem State.setWord_inp (a n : Nat) : (s.setWord a n).inp = s.inp := rfl
@[simp] theorem State.setWord_fins (a n : Nat) : (s.setWord a n).fins = s.fins := rfl
@[simp] theorem State.setWord_fus (a n : Nat) : (s.setWord a n).fus = s.fus := rfl
@[simp] theorem State.setWord_lns (a n : Nat) : (s.setWord a n).lns = s.lns := rfl
@[simp] theorem State.setWord_ces (a n : Nat) : (s.setWord a n).ces = s.ces := rfl
@[simp] theorem State.setWord_mit (a n : Nat) : (s.setWord a n).mit = s.mit := rfl
@[simp] theorem State.setWord_drv (a n : Nat) : (s.setWord a n).drv = s.drv := rfl
@[simp] theorem State.setWord_lds (a n : Nat) : (s.setWord a n).lds = s.lds := rfl
@[simp] theorem State.setWord_ldGroups (a n : Nat) : (s.setWord a n).ldGroups = s.ldGroups := rfl
@[simp] theorem State.setWord_gnb (a n : Nat) : (s.setWord a n).gnb = s.gnb := rfl
@[simp] theorem State.setWord_imu (a n : Nat) : (s.setWord a n).imu = s.imu := rfl
@[simp] theorem State.setWord_cans (a n : Nat) : (s.setWord a n).cans = s.cans := rfl
@[simp] theorem State.setWord_objs (a n : Nat) : (s.setWord a n).objs = s.objs := rfl
@[simp] theorem State.setWord_sess (a n : Nat) : (s.setWord a n).sess = s.sess := rfl
@[simp] theorem State.setWord_msgNext (a n : Nat) : (s.setWord a n).msgNext = s.msgNext := rfl
@[simp] theorem State.setWord_blocks (a n : Nat) : (s.setWord a n).blocks = s.blocks := rfl
@[simp] theorem State.setWord_lmpCan (a n : Nat) : (s.setWord a n).lmpCan = s.lmpCan := rfl
@[simp] theorem State.setWord_lmpRes (a n : Nat) : (s.setWord a n).lmpRes = s.lmpRes := rfl
@[simp] theorem State.setWord_net (a n : Nat) : (s.setWord a n).net = s.net := rfl
@[simp] theorem State.setWord_jnl (a n : Nat) : (s.setWord a n).jnl = s.jnl := rfl
@[simp] theorem State.setWord_role (a n : Nat) : (s.setWord a n).role = s.role := rfl
@[simp] theorem State.setWord_rst (a n : Nat) : (s.setWord a n).rst = s.rst := rfl
@[simp] theorem State.setWord_upd (a n : Nat) : (s.setWord a n).upd = s.upd := rfl
@[simp] theorem State.setWord_tly (a n : Nat) : (s.setWord a n).tly = s.tly := rfl
@[simp] theorem State.setWord_tap (a n : Nat) : (s.setWord a n).tap = s.tap := rfl

/-! put -/

@[simp] theorem State.put_pending (f : Fld) (v : Nat) : (s.put f v).pending = s.pending := rfl
@[simp] theorem State.put_clock (f : Fld) (v : Nat) : (s.put f v).clock = s.clock := rfl
@[simp] theorem State.put_start (f : Fld) (v : Nat) : (s.put f v).start = s.start := rfl
@[simp] theorem State.put_freeCtr (f : Fld) (v : Nat) : (s.put f v).freeCtr = s.freeCtr := rfl
@[simp] theorem State.put_mem (f : Fld) (v : Nat) : (s.put f v).mem = s.mem := rfl
@[simp] theorem State.put_poison (f : Fld) (v : Nat) : (s.put f v).poison = s.poison := rfl
@[simp] theorem State.put_fabBad (f : Fld) (v : Nat) : (s.put f v).fabBad = s.fabBad := rfl
@[simp] theorem State.put_held (f : Fld) (v : Nat) : (s.put f v).held = s.held := rfl
@[simp] theorem State.put_fabAt (f : Fld) (v : Nat) : (s.put f v).fabAt = s.fabAt := rfl
@[simp] theorem State.put_perMaster (f : Fld) (v : Nat) : (s.put f v).perMaster = s.perMaster := rfl
@[simp] theorem State.put_queSeq (f : Fld) (v : Nat) : (s.put f v).queSeq = s.queSeq := rfl
@[simp] theorem State.put_reply (f : Fld) (v : Nat) : (s.put f v).reply = s.reply := rfl
@[simp] theorem State.put_inBeanie (f : Fld) (v : Nat) : (s.put f v).inBeanie = s.inBeanie := rfl
@[simp] theorem State.put_aCores (f : Fld) (v : Nat) : (s.put f v).aCores = s.aCores := rfl
@[simp] theorem State.put_lanes (f : Fld) (v : Nat) : (s.put f v).lanes = s.lanes := rfl
@[simp] theorem State.put_flt (f : Fld) (v : Nat) : (s.put f v).flt = s.flt := rfl
@[simp] theorem State.put_evr (f : Fld) (v : Nat) : (s.put f v).evr = s.evr := rfl
@[simp] theorem State.put_hb (f : Fld) (v : Nat) : (s.put f v).hb = s.hb := rfl
@[simp] theorem State.put_ctxs (f : Fld) (v : Nat) : (s.put f v).ctxs = s.ctxs := rfl
@[simp] theorem State.put_mplLines (f : Fld) (v : Nat) : (s.put f v).mplLines = s.mplLines := rfl
@[simp] theorem State.put_mplStripe (f : Fld) (v : Nat) : (s.put f v).mplStripe = s.mplStripe := rfl
@[simp] theorem State.put_mplReadyl (f : Fld) (v : Nat) : (s.put f v).mplReadyl = s.mplReadyl := rfl
@[simp] theorem State.put_inp (f : Fld) (v : Nat) : (s.put f v).inp = s.inp := rfl
@[simp] theorem State.put_fins (f : Fld) (v : Nat) : (s.put f v).fins = s.fins := rfl
@[simp] theorem State.put_fus (f : Fld) (v : Nat) : (s.put f v).fus = s.fus := rfl
@[simp] theorem State.put_lns (f : Fld) (v : Nat) : (s.put f v).lns = s.lns := rfl
@[simp] theorem State.put_ces (f : Fld) (v : Nat) : (s.put f v).ces = s.ces := rfl
@[simp] theorem State.put_mit (f : Fld) (v : Nat) : (s.put f v).mit = s.mit := rfl
@[simp] theorem State.put_drv (f : Fld) (v : Nat) : (s.put f v).drv = s.drv := rfl
@[simp] theorem State.put_lds (f : Fld) (v : Nat) : (s.put f v).lds = s.lds := rfl
@[simp] theorem State.put_ldGroups (f : Fld) (v : Nat) : (s.put f v).ldGroups = s.ldGroups := rfl
@[simp] theorem State.put_gnb (f : Fld) (v : Nat) : (s.put f v).gnb = s.gnb := rfl
@[simp] theorem State.put_imu (f : Fld) (v : Nat) : (s.put f v).imu = s.imu := rfl
@[simp] theorem State.put_cans (f : Fld) (v : Nat) : (s.put f v).cans = s.cans := rfl
@[simp] theorem State.put_objs (f : Fld) (v : Nat) : (s.put f v).objs = s.objs := rfl
@[simp] theorem State.put_sess (f : Fld) (v : Nat) : (s.put f v).sess = s.sess := rfl
@[simp] theorem State.put_msgNext (f : Fld) (v : Nat) : (s.put f v).msgNext = s.msgNext := rfl
@[simp] theorem State.put_blocks (f : Fld) (v : Nat) : (s.put f v).blocks = s.blocks := rfl
@[simp] theorem State.put_lmpCan (f : Fld) (v : Nat) : (s.put f v).lmpCan = s.lmpCan := rfl
@[simp] theorem State.put_lmpRes (f : Fld) (v : Nat) : (s.put f v).lmpRes = s.lmpRes := rfl
@[simp] theorem State.put_net (f : Fld) (v : Nat) : (s.put f v).net = s.net := rfl
@[simp] theorem State.put_jnl (f : Fld) (v : Nat) : (s.put f v).jnl = s.jnl := rfl
@[simp] theorem State.put_role (f : Fld) (v : Nat) : (s.put f v).role = s.role := rfl
@[simp] theorem State.put_rst (f : Fld) (v : Nat) : (s.put f v).rst = s.rst := rfl
@[simp] theorem State.put_upd (f : Fld) (v : Nat) : (s.put f v).upd = s.upd := rfl
@[simp] theorem State.put_tly (f : Fld) (v : Nat) : (s.put f v).tly = s.tly := rfl
@[simp] theorem State.put_tap (f : Fld) (v : Nat) : (s.put f v).tap = s.tap := rfl

/-! putS -/

@[simp] theorem State.putS_pending (f : Fld) (v : Int) : (s.putS f v).pending = s.pending := rfl
@[simp] theorem State.putS_clock (f : Fld) (v : Int) : (s.putS f v).clock = s.clock := rfl
@[simp] theorem State.putS_start (f : Fld) (v : Int) : (s.putS f v).start = s.start := rfl
@[simp] theorem State.putS_freeCtr (f : Fld) (v : Int) : (s.putS f v).freeCtr = s.freeCtr := rfl
@[simp] theorem State.putS_mem (f : Fld) (v : Int) : (s.putS f v).mem = s.mem := rfl
@[simp] theorem State.putS_poison (f : Fld) (v : Int) : (s.putS f v).poison = s.poison := rfl
@[simp] theorem State.putS_fabBad (f : Fld) (v : Int) : (s.putS f v).fabBad = s.fabBad := rfl
@[simp] theorem State.putS_held (f : Fld) (v : Int) : (s.putS f v).held = s.held := rfl
@[simp] theorem State.putS_fabAt (f : Fld) (v : Int) : (s.putS f v).fabAt = s.fabAt := rfl
@[simp] theorem State.putS_perMaster (f : Fld) (v : Int) : (s.putS f v).perMaster = s.perMaster := rfl
@[simp] theorem State.putS_queSeq (f : Fld) (v : Int) : (s.putS f v).queSeq = s.queSeq := rfl
@[simp] theorem State.putS_reply (f : Fld) (v : Int) : (s.putS f v).reply = s.reply := rfl
@[simp] theorem State.putS_inBeanie (f : Fld) (v : Int) : (s.putS f v).inBeanie = s.inBeanie := rfl
@[simp] theorem State.putS_aCores (f : Fld) (v : Int) : (s.putS f v).aCores = s.aCores := rfl
@[simp] theorem State.putS_lanes (f : Fld) (v : Int) : (s.putS f v).lanes = s.lanes := rfl
@[simp] theorem State.putS_flt (f : Fld) (v : Int) : (s.putS f v).flt = s.flt := rfl
@[simp] theorem State.putS_evr (f : Fld) (v : Int) : (s.putS f v).evr = s.evr := rfl
@[simp] theorem State.putS_hb (f : Fld) (v : Int) : (s.putS f v).hb = s.hb := rfl
@[simp] theorem State.putS_ctxs (f : Fld) (v : Int) : (s.putS f v).ctxs = s.ctxs := rfl
@[simp] theorem State.putS_mplLines (f : Fld) (v : Int) : (s.putS f v).mplLines = s.mplLines := rfl
@[simp] theorem State.putS_mplStripe (f : Fld) (v : Int) : (s.putS f v).mplStripe = s.mplStripe := rfl
@[simp] theorem State.putS_mplReadyl (f : Fld) (v : Int) : (s.putS f v).mplReadyl = s.mplReadyl := rfl
@[simp] theorem State.putS_inp (f : Fld) (v : Int) : (s.putS f v).inp = s.inp := rfl
@[simp] theorem State.putS_fins (f : Fld) (v : Int) : (s.putS f v).fins = s.fins := rfl
@[simp] theorem State.putS_fus (f : Fld) (v : Int) : (s.putS f v).fus = s.fus := rfl
@[simp] theorem State.putS_lns (f : Fld) (v : Int) : (s.putS f v).lns = s.lns := rfl
@[simp] theorem State.putS_ces (f : Fld) (v : Int) : (s.putS f v).ces = s.ces := rfl
@[simp] theorem State.putS_mit (f : Fld) (v : Int) : (s.putS f v).mit = s.mit := rfl
@[simp] theorem State.putS_drv (f : Fld) (v : Int) : (s.putS f v).drv = s.drv := rfl
@[simp] theorem State.putS_lds (f : Fld) (v : Int) : (s.putS f v).lds = s.lds := rfl
@[simp] theorem State.putS_ldGroups (f : Fld) (v : Int) : (s.putS f v).ldGroups = s.ldGroups := rfl
@[simp] theorem State.putS_gnb (f : Fld) (v : Int) : (s.putS f v).gnb = s.gnb := rfl
@[simp] theorem State.putS_imu (f : Fld) (v : Int) : (s.putS f v).imu = s.imu := rfl
@[simp] theorem State.putS_cans (f : Fld) (v : Int) : (s.putS f v).cans = s.cans := rfl
@[simp] theorem State.putS_objs (f : Fld) (v : Int) : (s.putS f v).objs = s.objs := rfl
@[simp] theorem State.putS_sess (f : Fld) (v : Int) : (s.putS f v).sess = s.sess := rfl
@[simp] theorem State.putS_msgNext (f : Fld) (v : Int) : (s.putS f v).msgNext = s.msgNext := rfl
@[simp] theorem State.putS_blocks (f : Fld) (v : Int) : (s.putS f v).blocks = s.blocks := rfl
@[simp] theorem State.putS_lmpCan (f : Fld) (v : Int) : (s.putS f v).lmpCan = s.lmpCan := rfl
@[simp] theorem State.putS_lmpRes (f : Fld) (v : Int) : (s.putS f v).lmpRes = s.lmpRes := rfl
@[simp] theorem State.putS_net (f : Fld) (v : Int) : (s.putS f v).net = s.net := rfl
@[simp] theorem State.putS_jnl (f : Fld) (v : Int) : (s.putS f v).jnl = s.jnl := rfl
@[simp] theorem State.putS_role (f : Fld) (v : Int) : (s.putS f v).role = s.role := rfl
@[simp] theorem State.putS_rst (f : Fld) (v : Int) : (s.putS f v).rst = s.rst := rfl
@[simp] theorem State.putS_upd (f : Fld) (v : Int) : (s.putS f v).upd = s.upd := rfl
@[simp] theorem State.putS_tly (f : Fld) (v : Int) : (s.putS f v).tly = s.tly := rfl
@[simp] theorem State.putS_tap (f : Fld) (v : Int) : (s.putS f v).tap = s.tap := rfl

/-! putB -/

@[simp] theorem State.putB_pending (f : Fld) (b : Bool) : (s.putB f b).pending = s.pending := rfl
@[simp] theorem State.putB_clock (f : Fld) (b : Bool) : (s.putB f b).clock = s.clock := rfl
@[simp] theorem State.putB_start (f : Fld) (b : Bool) : (s.putB f b).start = s.start := rfl
@[simp] theorem State.putB_freeCtr (f : Fld) (b : Bool) : (s.putB f b).freeCtr = s.freeCtr := rfl
@[simp] theorem State.putB_mem (f : Fld) (b : Bool) : (s.putB f b).mem = s.mem := rfl
@[simp] theorem State.putB_poison (f : Fld) (b : Bool) : (s.putB f b).poison = s.poison := rfl
@[simp] theorem State.putB_fabBad (f : Fld) (b : Bool) : (s.putB f b).fabBad = s.fabBad := rfl
@[simp] theorem State.putB_held (f : Fld) (b : Bool) : (s.putB f b).held = s.held := rfl
@[simp] theorem State.putB_fabAt (f : Fld) (b : Bool) : (s.putB f b).fabAt = s.fabAt := rfl
@[simp] theorem State.putB_perMaster (f : Fld) (b : Bool) : (s.putB f b).perMaster = s.perMaster := rfl
@[simp] theorem State.putB_queSeq (f : Fld) (b : Bool) : (s.putB f b).queSeq = s.queSeq := rfl
@[simp] theorem State.putB_reply (f : Fld) (b : Bool) : (s.putB f b).reply = s.reply := rfl
@[simp] theorem State.putB_inBeanie (f : Fld) (b : Bool) : (s.putB f b).inBeanie = s.inBeanie := rfl
@[simp] theorem State.putB_aCores (f : Fld) (b : Bool) : (s.putB f b).aCores = s.aCores := rfl
@[simp] theorem State.putB_lanes (f : Fld) (b : Bool) : (s.putB f b).lanes = s.lanes := rfl
@[simp] theorem State.putB_flt (f : Fld) (b : Bool) : (s.putB f b).flt = s.flt := rfl
@[simp] theorem State.putB_evr (f : Fld) (b : Bool) : (s.putB f b).evr = s.evr := rfl
@[simp] theorem State.putB_hb (f : Fld) (b : Bool) : (s.putB f b).hb = s.hb := rfl
@[simp] theorem State.putB_ctxs (f : Fld) (b : Bool) : (s.putB f b).ctxs = s.ctxs := rfl
@[simp] theorem State.putB_mplLines (f : Fld) (b : Bool) : (s.putB f b).mplLines = s.mplLines := rfl
@[simp] theorem State.putB_mplStripe (f : Fld) (b : Bool) : (s.putB f b).mplStripe = s.mplStripe := rfl
@[simp] theorem State.putB_mplReadyl (f : Fld) (b : Bool) : (s.putB f b).mplReadyl = s.mplReadyl := rfl
@[simp] theorem State.putB_inp (f : Fld) (b : Bool) : (s.putB f b).inp = s.inp := rfl
@[simp] theorem State.putB_fins (f : Fld) (b : Bool) : (s.putB f b).fins = s.fins := rfl
@[simp] theorem State.putB_fus (f : Fld) (b : Bool) : (s.putB f b).fus = s.fus := rfl
@[simp] theorem State.putB_lns (f : Fld) (b : Bool) : (s.putB f b).lns = s.lns := rfl
@[simp] theorem State.putB_ces (f : Fld) (b : Bool) : (s.putB f b).ces = s.ces := rfl
@[simp] theorem State.putB_mit (f : Fld) (b : Bool) : (s.putB f b).mit = s.mit := rfl
@[simp] theorem State.putB_drv (f : Fld) (b : Bool) : (s.putB f b).drv = s.drv := rfl
@[simp] theorem State.putB_lds (f : Fld) (b : Bool) : (s.putB f b).lds = s.lds := rfl
@[simp] theorem State.putB_ldGroups (f : Fld) (b : Bool) : (s.putB f b).ldGroups = s.ldGroups := rfl
@[simp] theorem State.putB_gnb (f : Fld) (b : Bool) : (s.putB f b).gnb = s.gnb := rfl
@[simp] theorem State.putB_imu (f : Fld) (b : Bool) : (s.putB f b).imu = s.imu := rfl
@[simp] theorem State.putB_cans (f : Fld) (b : Bool) : (s.putB f b).cans = s.cans := rfl
@[simp] theorem State.putB_objs (f : Fld) (b : Bool) : (s.putB f b).objs = s.objs := rfl
@[simp] theorem State.putB_sess (f : Fld) (b : Bool) : (s.putB f b).sess = s.sess := rfl
@[simp] theorem State.putB_msgNext (f : Fld) (b : Bool) : (s.putB f b).msgNext = s.msgNext := rfl
@[simp] theorem State.putB_blocks (f : Fld) (b : Bool) : (s.putB f b).blocks = s.blocks := rfl
@[simp] theorem State.putB_lmpCan (f : Fld) (b : Bool) : (s.putB f b).lmpCan = s.lmpCan := rfl
@[simp] theorem State.putB_lmpRes (f : Fld) (b : Bool) : (s.putB f b).lmpRes = s.lmpRes := rfl
@[simp] theorem State.putB_net (f : Fld) (b : Bool) : (s.putB f b).net = s.net := rfl
@[simp] theorem State.putB_jnl (f : Fld) (b : Bool) : (s.putB f b).jnl = s.jnl := rfl
@[simp] theorem State.putB_role (f : Fld) (b : Bool) : (s.putB f b).role = s.role := rfl
@[simp] theorem State.putB_rst (f : Fld) (b : Bool) : (s.putB f b).rst = s.rst := rfl
@[simp] theorem State.putB_upd (f : Fld) (b : Bool) : (s.putB f b).upd = s.upd := rfl
@[simp] theorem State.putB_tly (f : Fld) (b : Bool) : (s.putB f b).tly = s.tly := rfl
@[simp] theorem State.putB_tap (f : Fld) (b : Bool) : (s.putB f b).tap = s.tap := rfl

/-! raise -/

@[simp] theorem State.raise_pending (f : Fld) : (s.raise f).pending = s.pending := rfl
@[simp] theorem State.raise_clock (f : Fld) : (s.raise f).clock = s.clock := rfl
@[simp] theorem State.raise_start (f : Fld) : (s.raise f).start = s.start := rfl
@[simp] theorem State.raise_freeCtr (f : Fld) : (s.raise f).freeCtr = s.freeCtr := rfl
@[simp] theorem State.raise_mem (f : Fld) : (s.raise f).mem = s.mem := rfl
@[simp] theorem State.raise_poison (f : Fld) : (s.raise f).poison = s.poison := rfl
@[simp] theorem State.raise_fabBad (f : Fld) : (s.raise f).fabBad = s.fabBad := rfl
@[simp] theorem State.raise_held (f : Fld) : (s.raise f).held = s.held := rfl
@[simp] theorem State.raise_fabAt (f : Fld) : (s.raise f).fabAt = s.fabAt := rfl
@[simp] theorem State.raise_perMaster (f : Fld) : (s.raise f).perMaster = s.perMaster := rfl
@[simp] theorem State.raise_queSeq (f : Fld) : (s.raise f).queSeq = s.queSeq := rfl
@[simp] theorem State.raise_reply (f : Fld) : (s.raise f).reply = s.reply := rfl
@[simp] theorem State.raise_inBeanie (f : Fld) : (s.raise f).inBeanie = s.inBeanie := rfl
@[simp] theorem State.raise_aCores (f : Fld) : (s.raise f).aCores = s.aCores := rfl
@[simp] theorem State.raise_lanes (f : Fld) : (s.raise f).lanes = s.lanes := rfl
@[simp] theorem State.raise_flt (f : Fld) : (s.raise f).flt = s.flt := rfl
@[simp] theorem State.raise_evr (f : Fld) : (s.raise f).evr = s.evr := rfl
@[simp] theorem State.raise_hb (f : Fld) : (s.raise f).hb = s.hb := rfl
@[simp] theorem State.raise_ctxs (f : Fld) : (s.raise f).ctxs = s.ctxs := rfl
@[simp] theorem State.raise_mplLines (f : Fld) : (s.raise f).mplLines = s.mplLines := rfl
@[simp] theorem State.raise_mplStripe (f : Fld) : (s.raise f).mplStripe = s.mplStripe := rfl
@[simp] theorem State.raise_mplReadyl (f : Fld) : (s.raise f).mplReadyl = s.mplReadyl := rfl
@[simp] theorem State.raise_inp (f : Fld) : (s.raise f).inp = s.inp := rfl
@[simp] theorem State.raise_fins (f : Fld) : (s.raise f).fins = s.fins := rfl
@[simp] theorem State.raise_fus (f : Fld) : (s.raise f).fus = s.fus := rfl
@[simp] theorem State.raise_lns (f : Fld) : (s.raise f).lns = s.lns := rfl
@[simp] theorem State.raise_ces (f : Fld) : (s.raise f).ces = s.ces := rfl
@[simp] theorem State.raise_mit (f : Fld) : (s.raise f).mit = s.mit := rfl
@[simp] theorem State.raise_drv (f : Fld) : (s.raise f).drv = s.drv := rfl
@[simp] theorem State.raise_lds (f : Fld) : (s.raise f).lds = s.lds := rfl
@[simp] theorem State.raise_ldGroups (f : Fld) : (s.raise f).ldGroups = s.ldGroups := rfl
@[simp] theorem State.raise_gnb (f : Fld) : (s.raise f).gnb = s.gnb := rfl
@[simp] theorem State.raise_imu (f : Fld) : (s.raise f).imu = s.imu := rfl
@[simp] theorem State.raise_cans (f : Fld) : (s.raise f).cans = s.cans := rfl
@[simp] theorem State.raise_objs (f : Fld) : (s.raise f).objs = s.objs := rfl
@[simp] theorem State.raise_sess (f : Fld) : (s.raise f).sess = s.sess := rfl
@[simp] theorem State.raise_msgNext (f : Fld) : (s.raise f).msgNext = s.msgNext := rfl
@[simp] theorem State.raise_blocks (f : Fld) : (s.raise f).blocks = s.blocks := rfl
@[simp] theorem State.raise_lmpCan (f : Fld) : (s.raise f).lmpCan = s.lmpCan := rfl
@[simp] theorem State.raise_lmpRes (f : Fld) : (s.raise f).lmpRes = s.lmpRes := rfl
@[simp] theorem State.raise_net (f : Fld) : (s.raise f).net = s.net := rfl
@[simp] theorem State.raise_jnl (f : Fld) : (s.raise f).jnl = s.jnl := rfl
@[simp] theorem State.raise_role (f : Fld) : (s.raise f).role = s.role := rfl
@[simp] theorem State.raise_rst (f : Fld) : (s.raise f).rst = s.rst := rfl
@[simp] theorem State.raise_upd (f : Fld) : (s.raise f).upd = s.upd := rfl
@[simp] theorem State.raise_tly (f : Fld) : (s.raise f).tly = s.tly := rfl
@[simp] theorem State.raise_tap (f : Fld) : (s.raise f).tap = s.tap := rfl

/-! count -/

@[simp] theorem State.count_pending (f : Fld) (n : Nat) : (s.count f n).pending = s.pending := rfl
@[simp] theorem State.count_clock (f : Fld) (n : Nat) : (s.count f n).clock = s.clock := rfl
@[simp] theorem State.count_start (f : Fld) (n : Nat) : (s.count f n).start = s.start := rfl
@[simp] theorem State.count_freeCtr (f : Fld) (n : Nat) : (s.count f n).freeCtr = s.freeCtr := rfl
@[simp] theorem State.count_mem (f : Fld) (n : Nat) : (s.count f n).mem = s.mem := rfl
@[simp] theorem State.count_poison (f : Fld) (n : Nat) : (s.count f n).poison = s.poison := rfl
@[simp] theorem State.count_fabBad (f : Fld) (n : Nat) : (s.count f n).fabBad = s.fabBad := rfl
@[simp] theorem State.count_held (f : Fld) (n : Nat) : (s.count f n).held = s.held := rfl
@[simp] theorem State.count_fabAt (f : Fld) (n : Nat) : (s.count f n).fabAt = s.fabAt := rfl
@[simp] theorem State.count_perMaster (f : Fld) (n : Nat) : (s.count f n).perMaster = s.perMaster := rfl
@[simp] theorem State.count_queSeq (f : Fld) (n : Nat) : (s.count f n).queSeq = s.queSeq := rfl
@[simp] theorem State.count_reply (f : Fld) (n : Nat) : (s.count f n).reply = s.reply := rfl
@[simp] theorem State.count_inBeanie (f : Fld) (n : Nat) : (s.count f n).inBeanie = s.inBeanie := rfl
@[simp] theorem State.count_aCores (f : Fld) (n : Nat) : (s.count f n).aCores = s.aCores := rfl
@[simp] theorem State.count_lanes (f : Fld) (n : Nat) : (s.count f n).lanes = s.lanes := rfl
@[simp] theorem State.count_flt (f : Fld) (n : Nat) : (s.count f n).flt = s.flt := rfl
@[simp] theorem State.count_evr (f : Fld) (n : Nat) : (s.count f n).evr = s.evr := rfl
@[simp] theorem State.count_hb (f : Fld) (n : Nat) : (s.count f n).hb = s.hb := rfl
@[simp] theorem State.count_ctxs (f : Fld) (n : Nat) : (s.count f n).ctxs = s.ctxs := rfl
@[simp] theorem State.count_mplLines (f : Fld) (n : Nat) : (s.count f n).mplLines = s.mplLines := rfl
@[simp] theorem State.count_mplStripe (f : Fld) (n : Nat) : (s.count f n).mplStripe = s.mplStripe := rfl
@[simp] theorem State.count_mplReadyl (f : Fld) (n : Nat) : (s.count f n).mplReadyl = s.mplReadyl := rfl
@[simp] theorem State.count_inp (f : Fld) (n : Nat) : (s.count f n).inp = s.inp := rfl
@[simp] theorem State.count_fins (f : Fld) (n : Nat) : (s.count f n).fins = s.fins := rfl
@[simp] theorem State.count_fus (f : Fld) (n : Nat) : (s.count f n).fus = s.fus := rfl
@[simp] theorem State.count_lns (f : Fld) (n : Nat) : (s.count f n).lns = s.lns := rfl
@[simp] theorem State.count_ces (f : Fld) (n : Nat) : (s.count f n).ces = s.ces := rfl
@[simp] theorem State.count_mit (f : Fld) (n : Nat) : (s.count f n).mit = s.mit := rfl
@[simp] theorem State.count_drv (f : Fld) (n : Nat) : (s.count f n).drv = s.drv := rfl
@[simp] theorem State.count_lds (f : Fld) (n : Nat) : (s.count f n).lds = s.lds := rfl
@[simp] theorem State.count_ldGroups (f : Fld) (n : Nat) : (s.count f n).ldGroups = s.ldGroups := rfl
@[simp] theorem State.count_gnb (f : Fld) (n : Nat) : (s.count f n).gnb = s.gnb := rfl
@[simp] theorem State.count_imu (f : Fld) (n : Nat) : (s.count f n).imu = s.imu := rfl
@[simp] theorem State.count_cans (f : Fld) (n : Nat) : (s.count f n).cans = s.cans := rfl
@[simp] theorem State.count_objs (f : Fld) (n : Nat) : (s.count f n).objs = s.objs := rfl
@[simp] theorem State.count_sess (f : Fld) (n : Nat) : (s.count f n).sess = s.sess := rfl
@[simp] theorem State.count_msgNext (f : Fld) (n : Nat) : (s.count f n).msgNext = s.msgNext := rfl
@[simp] theorem State.count_blocks (f : Fld) (n : Nat) : (s.count f n).blocks = s.blocks := rfl
@[simp] theorem State.count_lmpCan (f : Fld) (n : Nat) : (s.count f n).lmpCan = s.lmpCan := rfl
@[simp] theorem State.count_lmpRes (f : Fld) (n : Nat) : (s.count f n).lmpRes = s.lmpRes := rfl
@[simp] theorem State.count_net (f : Fld) (n : Nat) : (s.count f n).net = s.net := rfl
@[simp] theorem State.count_jnl (f : Fld) (n : Nat) : (s.count f n).jnl = s.jnl := rfl
@[simp] theorem State.count_role (f : Fld) (n : Nat) : (s.count f n).role = s.role := rfl
@[simp] theorem State.count_rst (f : Fld) (n : Nat) : (s.count f n).rst = s.rst := rfl
@[simp] theorem State.count_upd (f : Fld) (n : Nat) : (s.count f n).upd = s.upd := rfl
@[simp] theorem State.count_tly (f : Fld) (n : Nat) : (s.count f n).tly = s.tly := rfl
@[simp] theorem State.count_tap (f : Fld) (n : Nat) : (s.count f n).tap = s.tap := rfl

/-! countSat -/

@[simp] theorem State.countSat_pending (f : Fld) (n : Nat) : (s.countSat f n).pending = s.pending := rfl
@[simp] theorem State.countSat_clock (f : Fld) (n : Nat) : (s.countSat f n).clock = s.clock := rfl
@[simp] theorem State.countSat_start (f : Fld) (n : Nat) : (s.countSat f n).start = s.start := rfl
@[simp] theorem State.countSat_freeCtr (f : Fld) (n : Nat) : (s.countSat f n).freeCtr = s.freeCtr := rfl
@[simp] theorem State.countSat_mem (f : Fld) (n : Nat) : (s.countSat f n).mem = s.mem := rfl
@[simp] theorem State.countSat_poison (f : Fld) (n : Nat) : (s.countSat f n).poison = s.poison := rfl
@[simp] theorem State.countSat_fabBad (f : Fld) (n : Nat) : (s.countSat f n).fabBad = s.fabBad := rfl
@[simp] theorem State.countSat_held (f : Fld) (n : Nat) : (s.countSat f n).held = s.held := rfl
@[simp] theorem State.countSat_fabAt (f : Fld) (n : Nat) : (s.countSat f n).fabAt = s.fabAt := rfl
@[simp] theorem State.countSat_perMaster (f : Fld) (n : Nat) : (s.countSat f n).perMaster = s.perMaster := rfl
@[simp] theorem State.countSat_queSeq (f : Fld) (n : Nat) : (s.countSat f n).queSeq = s.queSeq := rfl
@[simp] theorem State.countSat_reply (f : Fld) (n : Nat) : (s.countSat f n).reply = s.reply := rfl
@[simp] theorem State.countSat_inBeanie (f : Fld) (n : Nat) : (s.countSat f n).inBeanie = s.inBeanie := rfl
@[simp] theorem State.countSat_aCores (f : Fld) (n : Nat) : (s.countSat f n).aCores = s.aCores := rfl
@[simp] theorem State.countSat_lanes (f : Fld) (n : Nat) : (s.countSat f n).lanes = s.lanes := rfl
@[simp] theorem State.countSat_flt (f : Fld) (n : Nat) : (s.countSat f n).flt = s.flt := rfl
@[simp] theorem State.countSat_evr (f : Fld) (n : Nat) : (s.countSat f n).evr = s.evr := rfl
@[simp] theorem State.countSat_hb (f : Fld) (n : Nat) : (s.countSat f n).hb = s.hb := rfl
@[simp] theorem State.countSat_ctxs (f : Fld) (n : Nat) : (s.countSat f n).ctxs = s.ctxs := rfl
@[simp] theorem State.countSat_mplLines (f : Fld) (n : Nat) : (s.countSat f n).mplLines = s.mplLines := rfl
@[simp] theorem State.countSat_mplStripe (f : Fld) (n : Nat) : (s.countSat f n).mplStripe = s.mplStripe := rfl
@[simp] theorem State.countSat_mplReadyl (f : Fld) (n : Nat) : (s.countSat f n).mplReadyl = s.mplReadyl := rfl
@[simp] theorem State.countSat_inp (f : Fld) (n : Nat) : (s.countSat f n).inp = s.inp := rfl
@[simp] theorem State.countSat_fins (f : Fld) (n : Nat) : (s.countSat f n).fins = s.fins := rfl
@[simp] theorem State.countSat_fus (f : Fld) (n : Nat) : (s.countSat f n).fus = s.fus := rfl
@[simp] theorem State.countSat_lns (f : Fld) (n : Nat) : (s.countSat f n).lns = s.lns := rfl
@[simp] theorem State.countSat_ces (f : Fld) (n : Nat) : (s.countSat f n).ces = s.ces := rfl
@[simp] theorem State.countSat_mit (f : Fld) (n : Nat) : (s.countSat f n).mit = s.mit := rfl
@[simp] theorem State.countSat_drv (f : Fld) (n : Nat) : (s.countSat f n).drv = s.drv := rfl
@[simp] theorem State.countSat_lds (f : Fld) (n : Nat) : (s.countSat f n).lds = s.lds := rfl
@[simp] theorem State.countSat_ldGroups (f : Fld) (n : Nat) : (s.countSat f n).ldGroups = s.ldGroups := rfl
@[simp] theorem State.countSat_gnb (f : Fld) (n : Nat) : (s.countSat f n).gnb = s.gnb := rfl
@[simp] theorem State.countSat_imu (f : Fld) (n : Nat) : (s.countSat f n).imu = s.imu := rfl
@[simp] theorem State.countSat_cans (f : Fld) (n : Nat) : (s.countSat f n).cans = s.cans := rfl
@[simp] theorem State.countSat_objs (f : Fld) (n : Nat) : (s.countSat f n).objs = s.objs := rfl
@[simp] theorem State.countSat_sess (f : Fld) (n : Nat) : (s.countSat f n).sess = s.sess := rfl
@[simp] theorem State.countSat_msgNext (f : Fld) (n : Nat) : (s.countSat f n).msgNext = s.msgNext := rfl
@[simp] theorem State.countSat_blocks (f : Fld) (n : Nat) : (s.countSat f n).blocks = s.blocks := rfl
@[simp] theorem State.countSat_lmpCan (f : Fld) (n : Nat) : (s.countSat f n).lmpCan = s.lmpCan := rfl
@[simp] theorem State.countSat_lmpRes (f : Fld) (n : Nat) : (s.countSat f n).lmpRes = s.lmpRes := rfl
@[simp] theorem State.countSat_net (f : Fld) (n : Nat) : (s.countSat f n).net = s.net := rfl
@[simp] theorem State.countSat_jnl (f : Fld) (n : Nat) : (s.countSat f n).jnl = s.jnl := rfl
@[simp] theorem State.countSat_role (f : Fld) (n : Nat) : (s.countSat f n).role = s.role := rfl
@[simp] theorem State.countSat_rst (f : Fld) (n : Nat) : (s.countSat f n).rst = s.rst := rfl
@[simp] theorem State.countSat_upd (f : Fld) (n : Nat) : (s.countSat f n).upd = s.upd := rfl
@[simp] theorem State.countSat_tly (f : Fld) (n : Nat) : (s.countSat f n).tly = s.tly := rfl
@[simp] theorem State.countSat_tap (f : Fld) (n : Nat) : (s.countSat f n).tap = s.tap := rfl

/-! put64 -/

@[simp] theorem State.put64_pending (lo hi n : Nat) : (s.put64 lo hi n).pending = s.pending := rfl
@[simp] theorem State.put64_clock (lo hi n : Nat) : (s.put64 lo hi n).clock = s.clock := rfl
@[simp] theorem State.put64_start (lo hi n : Nat) : (s.put64 lo hi n).start = s.start := rfl
@[simp] theorem State.put64_freeCtr (lo hi n : Nat) : (s.put64 lo hi n).freeCtr = s.freeCtr := rfl
@[simp] theorem State.put64_mem (lo hi n : Nat) : (s.put64 lo hi n).mem = s.mem := rfl
@[simp] theorem State.put64_poison (lo hi n : Nat) : (s.put64 lo hi n).poison = s.poison := rfl
@[simp] theorem State.put64_fabBad (lo hi n : Nat) : (s.put64 lo hi n).fabBad = s.fabBad := rfl
@[simp] theorem State.put64_held (lo hi n : Nat) : (s.put64 lo hi n).held = s.held := rfl
@[simp] theorem State.put64_fabAt (lo hi n : Nat) : (s.put64 lo hi n).fabAt = s.fabAt := rfl
@[simp] theorem State.put64_perMaster (lo hi n : Nat) : (s.put64 lo hi n).perMaster = s.perMaster := rfl
@[simp] theorem State.put64_queSeq (lo hi n : Nat) : (s.put64 lo hi n).queSeq = s.queSeq := rfl
@[simp] theorem State.put64_reply (lo hi n : Nat) : (s.put64 lo hi n).reply = s.reply := rfl
@[simp] theorem State.put64_inBeanie (lo hi n : Nat) : (s.put64 lo hi n).inBeanie = s.inBeanie := rfl
@[simp] theorem State.put64_aCores (lo hi n : Nat) : (s.put64 lo hi n).aCores = s.aCores := rfl
@[simp] theorem State.put64_lanes (lo hi n : Nat) : (s.put64 lo hi n).lanes = s.lanes := rfl
@[simp] theorem State.put64_flt (lo hi n : Nat) : (s.put64 lo hi n).flt = s.flt := rfl
@[simp] theorem State.put64_evr (lo hi n : Nat) : (s.put64 lo hi n).evr = s.evr := rfl
@[simp] theorem State.put64_hb (lo hi n : Nat) : (s.put64 lo hi n).hb = s.hb := rfl
@[simp] theorem State.put64_ctxs (lo hi n : Nat) : (s.put64 lo hi n).ctxs = s.ctxs := rfl
@[simp] theorem State.put64_mplLines (lo hi n : Nat) : (s.put64 lo hi n).mplLines = s.mplLines := rfl
@[simp] theorem State.put64_mplStripe (lo hi n : Nat) : (s.put64 lo hi n).mplStripe = s.mplStripe := rfl
@[simp] theorem State.put64_mplReadyl (lo hi n : Nat) : (s.put64 lo hi n).mplReadyl = s.mplReadyl := rfl
@[simp] theorem State.put64_inp (lo hi n : Nat) : (s.put64 lo hi n).inp = s.inp := rfl
@[simp] theorem State.put64_fins (lo hi n : Nat) : (s.put64 lo hi n).fins = s.fins := rfl
@[simp] theorem State.put64_fus (lo hi n : Nat) : (s.put64 lo hi n).fus = s.fus := rfl
@[simp] theorem State.put64_lns (lo hi n : Nat) : (s.put64 lo hi n).lns = s.lns := rfl
@[simp] theorem State.put64_ces (lo hi n : Nat) : (s.put64 lo hi n).ces = s.ces := rfl
@[simp] theorem State.put64_mit (lo hi n : Nat) : (s.put64 lo hi n).mit = s.mit := rfl
@[simp] theorem State.put64_drv (lo hi n : Nat) : (s.put64 lo hi n).drv = s.drv := rfl
@[simp] theorem State.put64_lds (lo hi n : Nat) : (s.put64 lo hi n).lds = s.lds := rfl
@[simp] theorem State.put64_ldGroups (lo hi n : Nat) : (s.put64 lo hi n).ldGroups = s.ldGroups := rfl
@[simp] theorem State.put64_gnb (lo hi n : Nat) : (s.put64 lo hi n).gnb = s.gnb := rfl
@[simp] theorem State.put64_imu (lo hi n : Nat) : (s.put64 lo hi n).imu = s.imu := rfl
@[simp] theorem State.put64_cans (lo hi n : Nat) : (s.put64 lo hi n).cans = s.cans := rfl
@[simp] theorem State.put64_objs (lo hi n : Nat) : (s.put64 lo hi n).objs = s.objs := rfl
@[simp] theorem State.put64_sess (lo hi n : Nat) : (s.put64 lo hi n).sess = s.sess := rfl
@[simp] theorem State.put64_msgNext (lo hi n : Nat) : (s.put64 lo hi n).msgNext = s.msgNext := rfl
@[simp] theorem State.put64_blocks (lo hi n : Nat) : (s.put64 lo hi n).blocks = s.blocks := rfl
@[simp] theorem State.put64_lmpCan (lo hi n : Nat) : (s.put64 lo hi n).lmpCan = s.lmpCan := rfl
@[simp] theorem State.put64_lmpRes (lo hi n : Nat) : (s.put64 lo hi n).lmpRes = s.lmpRes := rfl
@[simp] theorem State.put64_net (lo hi n : Nat) : (s.put64 lo hi n).net = s.net := rfl
@[simp] theorem State.put64_jnl (lo hi n : Nat) : (s.put64 lo hi n).jnl = s.jnl := rfl
@[simp] theorem State.put64_role (lo hi n : Nat) : (s.put64 lo hi n).role = s.role := rfl
@[simp] theorem State.put64_rst (lo hi n : Nat) : (s.put64 lo hi n).rst = s.rst := rfl
@[simp] theorem State.put64_upd (lo hi n : Nat) : (s.put64 lo hi n).upd = s.upd := rfl
@[simp] theorem State.put64_tly (lo hi n : Nat) : (s.put64 lo hi n).tly = s.tly := rfl
@[simp] theorem State.put64_tap (lo hi n : Nat) : (s.put64 lo hi n).tap = s.tap := rfl

/-! answered -/

@[simp] theorem State.answered_pending (a : Nat) : (s.answered a).pending = s.pending := rfl
@[simp] theorem State.answered_clock (a : Nat) : (s.answered a).clock = s.clock := rfl
@[simp] theorem State.answered_start (a : Nat) : (s.answered a).start = s.start := rfl
@[simp] theorem State.answered_freeCtr (a : Nat) : (s.answered a).freeCtr = s.freeCtr := rfl
@[simp] theorem State.answered_regs (a : Nat) : (s.answered a).regs = s.regs := rfl
@[simp] theorem State.answered_mem (a : Nat) : (s.answered a).mem = s.mem := rfl
@[simp] theorem State.answered_fabBad (a : Nat) : (s.answered a).fabBad = s.fabBad := rfl
@[simp] theorem State.answered_held (a : Nat) : (s.answered a).held = s.held := rfl
@[simp] theorem State.answered_fabAt (a : Nat) : (s.answered a).fabAt = s.fabAt := rfl
@[simp] theorem State.answered_perMaster (a : Nat) : (s.answered a).perMaster = s.perMaster := rfl
@[simp] theorem State.answered_queSeq (a : Nat) : (s.answered a).queSeq = s.queSeq := rfl
@[simp] theorem State.answered_inBeanie (a : Nat) : (s.answered a).inBeanie = s.inBeanie := rfl
@[simp] theorem State.answered_aCores (a : Nat) : (s.answered a).aCores = s.aCores := rfl
@[simp] theorem State.answered_lanes (a : Nat) : (s.answered a).lanes = s.lanes := rfl
@[simp] theorem State.answered_flt (a : Nat) : (s.answered a).flt = s.flt := rfl
@[simp] theorem State.answered_evr (a : Nat) : (s.answered a).evr = s.evr := rfl
@[simp] theorem State.answered_hb (a : Nat) : (s.answered a).hb = s.hb := rfl
@[simp] theorem State.answered_ctxs (a : Nat) : (s.answered a).ctxs = s.ctxs := rfl
@[simp] theorem State.answered_mplLines (a : Nat) : (s.answered a).mplLines = s.mplLines := rfl
@[simp] theorem State.answered_mplStripe (a : Nat) : (s.answered a).mplStripe = s.mplStripe := rfl
@[simp] theorem State.answered_mplReadyl (a : Nat) : (s.answered a).mplReadyl = s.mplReadyl := rfl
@[simp] theorem State.answered_inp (a : Nat) : (s.answered a).inp = s.inp := rfl
@[simp] theorem State.answered_fins (a : Nat) : (s.answered a).fins = s.fins := rfl
@[simp] theorem State.answered_fus (a : Nat) : (s.answered a).fus = s.fus := rfl
@[simp] theorem State.answered_lns (a : Nat) : (s.answered a).lns = s.lns := rfl
@[simp] theorem State.answered_ces (a : Nat) : (s.answered a).ces = s.ces := rfl
@[simp] theorem State.answered_mit (a : Nat) : (s.answered a).mit = s.mit := rfl
@[simp] theorem State.answered_drv (a : Nat) : (s.answered a).drv = s.drv := rfl
@[simp] theorem State.answered_lds (a : Nat) : (s.answered a).lds = s.lds := rfl
@[simp] theorem State.answered_ldGroups (a : Nat) : (s.answered a).ldGroups = s.ldGroups := rfl
@[simp] theorem State.answered_gnb (a : Nat) : (s.answered a).gnb = s.gnb := rfl
@[simp] theorem State.answered_imu (a : Nat) : (s.answered a).imu = s.imu := rfl
@[simp] theorem State.answered_cans (a : Nat) : (s.answered a).cans = s.cans := rfl
@[simp] theorem State.answered_objs (a : Nat) : (s.answered a).objs = s.objs := rfl
@[simp] theorem State.answered_sess (a : Nat) : (s.answered a).sess = s.sess := rfl
@[simp] theorem State.answered_msgNext (a : Nat) : (s.answered a).msgNext = s.msgNext := rfl
@[simp] theorem State.answered_blocks (a : Nat) : (s.answered a).blocks = s.blocks := rfl
@[simp] theorem State.answered_lmpCan (a : Nat) : (s.answered a).lmpCan = s.lmpCan := rfl
@[simp] theorem State.answered_lmpRes (a : Nat) : (s.answered a).lmpRes = s.lmpRes := rfl
@[simp] theorem State.answered_net (a : Nat) : (s.answered a).net = s.net := rfl
@[simp] theorem State.answered_jnl (a : Nat) : (s.answered a).jnl = s.jnl := rfl
@[simp] theorem State.answered_role (a : Nat) : (s.answered a).role = s.role := rfl
@[simp] theorem State.answered_rst (a : Nat) : (s.answered a).rst = s.rst := rfl
@[simp] theorem State.answered_upd (a : Nat) : (s.answered a).upd = s.upd := rfl
@[simp] theorem State.answered_tly (a : Nat) : (s.answered a).tly = s.tly := rfl
@[simp] theorem State.answered_tap (a : Nat) : (s.answered a).tap = s.tap := rfl

/-! setByte -/

@[simp] theorem State.setByte_pending (a : Nat) (v : Byte) : (s.setByte a v).pending = s.pending := rfl
@[simp] theorem State.setByte_clock (a : Nat) (v : Byte) : (s.setByte a v).clock = s.clock := rfl
@[simp] theorem State.setByte_start (a : Nat) (v : Byte) : (s.setByte a v).start = s.start := rfl
@[simp] theorem State.setByte_freeCtr (a : Nat) (v : Byte) : (s.setByte a v).freeCtr = s.freeCtr := rfl
@[simp] theorem State.setByte_regs (a : Nat) (v : Byte) : (s.setByte a v).regs = s.regs := rfl
@[simp] theorem State.setByte_fabBad (a : Nat) (v : Byte) : (s.setByte a v).fabBad = s.fabBad := rfl
@[simp] theorem State.setByte_held (a : Nat) (v : Byte) : (s.setByte a v).held = s.held := rfl
@[simp] theorem State.setByte_fabAt (a : Nat) (v : Byte) : (s.setByte a v).fabAt = s.fabAt := rfl
@[simp] theorem State.setByte_perMaster (a : Nat) (v : Byte) : (s.setByte a v).perMaster = s.perMaster := rfl
@[simp] theorem State.setByte_queSeq (a : Nat) (v : Byte) : (s.setByte a v).queSeq = s.queSeq := rfl
@[simp] theorem State.setByte_reply (a : Nat) (v : Byte) : (s.setByte a v).reply = s.reply := rfl
@[simp] theorem State.setByte_inBeanie (a : Nat) (v : Byte) : (s.setByte a v).inBeanie = s.inBeanie := rfl
@[simp] theorem State.setByte_aCores (a : Nat) (v : Byte) : (s.setByte a v).aCores = s.aCores := rfl
@[simp] theorem State.setByte_lanes (a : Nat) (v : Byte) : (s.setByte a v).lanes = s.lanes := rfl
@[simp] theorem State.setByte_flt (a : Nat) (v : Byte) : (s.setByte a v).flt = s.flt := rfl
@[simp] theorem State.setByte_evr (a : Nat) (v : Byte) : (s.setByte a v).evr = s.evr := rfl
@[simp] theorem State.setByte_hb (a : Nat) (v : Byte) : (s.setByte a v).hb = s.hb := rfl
@[simp] theorem State.setByte_ctxs (a : Nat) (v : Byte) : (s.setByte a v).ctxs = s.ctxs := rfl
@[simp] theorem State.setByte_mplLines (a : Nat) (v : Byte) : (s.setByte a v).mplLines = s.mplLines := rfl
@[simp] theorem State.setByte_mplStripe (a : Nat) (v : Byte) : (s.setByte a v).mplStripe = s.mplStripe := rfl
@[simp] theorem State.setByte_mplReadyl (a : Nat) (v : Byte) : (s.setByte a v).mplReadyl = s.mplReadyl := rfl
@[simp] theorem State.setByte_inp (a : Nat) (v : Byte) : (s.setByte a v).inp = s.inp := rfl
@[simp] theorem State.setByte_fins (a : Nat) (v : Byte) : (s.setByte a v).fins = s.fins := rfl
@[simp] theorem State.setByte_fus (a : Nat) (v : Byte) : (s.setByte a v).fus = s.fus := rfl
@[simp] theorem State.setByte_lns (a : Nat) (v : Byte) : (s.setByte a v).lns = s.lns := rfl
@[simp] theorem State.setByte_ces (a : Nat) (v : Byte) : (s.setByte a v).ces = s.ces := rfl
@[simp] theorem State.setByte_mit (a : Nat) (v : Byte) : (s.setByte a v).mit = s.mit := rfl
@[simp] theorem State.setByte_drv (a : Nat) (v : Byte) : (s.setByte a v).drv = s.drv := rfl
@[simp] theorem State.setByte_lds (a : Nat) (v : Byte) : (s.setByte a v).lds = s.lds := rfl
@[simp] theorem State.setByte_ldGroups (a : Nat) (v : Byte) : (s.setByte a v).ldGroups = s.ldGroups := rfl
@[simp] theorem State.setByte_gnb (a : Nat) (v : Byte) : (s.setByte a v).gnb = s.gnb := rfl
@[simp] theorem State.setByte_imu (a : Nat) (v : Byte) : (s.setByte a v).imu = s.imu := rfl
@[simp] theorem State.setByte_cans (a : Nat) (v : Byte) : (s.setByte a v).cans = s.cans := rfl
@[simp] theorem State.setByte_objs (a : Nat) (v : Byte) : (s.setByte a v).objs = s.objs := rfl
@[simp] theorem State.setByte_sess (a : Nat) (v : Byte) : (s.setByte a v).sess = s.sess := rfl
@[simp] theorem State.setByte_msgNext (a : Nat) (v : Byte) : (s.setByte a v).msgNext = s.msgNext := rfl
@[simp] theorem State.setByte_blocks (a : Nat) (v : Byte) : (s.setByte a v).blocks = s.blocks := rfl
@[simp] theorem State.setByte_lmpCan (a : Nat) (v : Byte) : (s.setByte a v).lmpCan = s.lmpCan := rfl
@[simp] theorem State.setByte_lmpRes (a : Nat) (v : Byte) : (s.setByte a v).lmpRes = s.lmpRes := rfl
@[simp] theorem State.setByte_net (a : Nat) (v : Byte) : (s.setByte a v).net = s.net := rfl
@[simp] theorem State.setByte_jnl (a : Nat) (v : Byte) : (s.setByte a v).jnl = s.jnl := rfl
@[simp] theorem State.setByte_role (a : Nat) (v : Byte) : (s.setByte a v).role = s.role := rfl
@[simp] theorem State.setByte_rst (a : Nat) (v : Byte) : (s.setByte a v).rst = s.rst := rfl
@[simp] theorem State.setByte_upd (a : Nat) (v : Byte) : (s.setByte a v).upd = s.upd := rfl
@[simp] theorem State.setByte_tly (a : Nat) (v : Byte) : (s.setByte a v).tly = s.tly := rfl
@[simp] theorem State.setByte_tap (a : Nat) (v : Byte) : (s.setByte a v).tap = s.tap := rfl

/-! loseResv -/

@[simp] theorem State.loseResv_pending (a n : Nat) : (s.loseResv a n).pending = s.pending := rfl
@[simp] theorem State.loseResv_clock (a n : Nat) : (s.loseResv a n).clock = s.clock := rfl
@[simp] theorem State.loseResv_start (a n : Nat) : (s.loseResv a n).start = s.start := rfl
@[simp] theorem State.loseResv_freeCtr (a n : Nat) : (s.loseResv a n).freeCtr = s.freeCtr := rfl
@[simp] theorem State.loseResv_regs (a n : Nat) : (s.loseResv a n).regs = s.regs := rfl
@[simp] theorem State.loseResv_mem (a n : Nat) : (s.loseResv a n).mem = s.mem := rfl
@[simp] theorem State.loseResv_poison (a n : Nat) : (s.loseResv a n).poison = s.poison := rfl
@[simp] theorem State.loseResv_fabBad (a n : Nat) : (s.loseResv a n).fabBad = s.fabBad := rfl
@[simp] theorem State.loseResv_held (a n : Nat) : (s.loseResv a n).held = s.held := rfl
@[simp] theorem State.loseResv_fabAt (a n : Nat) : (s.loseResv a n).fabAt = s.fabAt := rfl
@[simp] theorem State.loseResv_perMaster (a n : Nat) : (s.loseResv a n).perMaster = s.perMaster := rfl
@[simp] theorem State.loseResv_queSeq (a n : Nat) : (s.loseResv a n).queSeq = s.queSeq := rfl
@[simp] theorem State.loseResv_reply (a n : Nat) : (s.loseResv a n).reply = s.reply := rfl
@[simp] theorem State.loseResv_inBeanie (a n : Nat) : (s.loseResv a n).inBeanie = s.inBeanie := rfl
@[simp] theorem State.loseResv_lanes (a n : Nat) : (s.loseResv a n).lanes = s.lanes := rfl
@[simp] theorem State.loseResv_flt (a n : Nat) : (s.loseResv a n).flt = s.flt := rfl
@[simp] theorem State.loseResv_evr (a n : Nat) : (s.loseResv a n).evr = s.evr := rfl
@[simp] theorem State.loseResv_hb (a n : Nat) : (s.loseResv a n).hb = s.hb := rfl
@[simp] theorem State.loseResv_ctxs (a n : Nat) : (s.loseResv a n).ctxs = s.ctxs := rfl
@[simp] theorem State.loseResv_mplLines (a n : Nat) : (s.loseResv a n).mplLines = s.mplLines := rfl
@[simp] theorem State.loseResv_mplStripe (a n : Nat) : (s.loseResv a n).mplStripe = s.mplStripe := rfl
@[simp] theorem State.loseResv_mplReadyl (a n : Nat) : (s.loseResv a n).mplReadyl = s.mplReadyl := rfl
@[simp] theorem State.loseResv_inp (a n : Nat) : (s.loseResv a n).inp = s.inp := rfl
@[simp] theorem State.loseResv_fins (a n : Nat) : (s.loseResv a n).fins = s.fins := rfl
@[simp] theorem State.loseResv_fus (a n : Nat) : (s.loseResv a n).fus = s.fus := rfl
@[simp] theorem State.loseResv_lns (a n : Nat) : (s.loseResv a n).lns = s.lns := rfl
@[simp] theorem State.loseResv_ces (a n : Nat) : (s.loseResv a n).ces = s.ces := rfl
@[simp] theorem State.loseResv_mit (a n : Nat) : (s.loseResv a n).mit = s.mit := rfl
@[simp] theorem State.loseResv_drv (a n : Nat) : (s.loseResv a n).drv = s.drv := rfl
@[simp] theorem State.loseResv_lds (a n : Nat) : (s.loseResv a n).lds = s.lds := rfl
@[simp] theorem State.loseResv_ldGroups (a n : Nat) : (s.loseResv a n).ldGroups = s.ldGroups := rfl
@[simp] theorem State.loseResv_gnb (a n : Nat) : (s.loseResv a n).gnb = s.gnb := rfl
@[simp] theorem State.loseResv_imu (a n : Nat) : (s.loseResv a n).imu = s.imu := rfl
@[simp] theorem State.loseResv_cans (a n : Nat) : (s.loseResv a n).cans = s.cans := rfl
@[simp] theorem State.loseResv_objs (a n : Nat) : (s.loseResv a n).objs = s.objs := rfl
@[simp] theorem State.loseResv_sess (a n : Nat) : (s.loseResv a n).sess = s.sess := rfl
@[simp] theorem State.loseResv_msgNext (a n : Nat) : (s.loseResv a n).msgNext = s.msgNext := rfl
@[simp] theorem State.loseResv_blocks (a n : Nat) : (s.loseResv a n).blocks = s.blocks := rfl
@[simp] theorem State.loseResv_lmpCan (a n : Nat) : (s.loseResv a n).lmpCan = s.lmpCan := rfl
@[simp] theorem State.loseResv_lmpRes (a n : Nat) : (s.loseResv a n).lmpRes = s.lmpRes := rfl
@[simp] theorem State.loseResv_net (a n : Nat) : (s.loseResv a n).net = s.net := rfl
@[simp] theorem State.loseResv_jnl (a n : Nat) : (s.loseResv a n).jnl = s.jnl := rfl
@[simp] theorem State.loseResv_role (a n : Nat) : (s.loseResv a n).role = s.role := rfl
@[simp] theorem State.loseResv_rst (a n : Nat) : (s.loseResv a n).rst = s.rst := rfl
@[simp] theorem State.loseResv_upd (a n : Nat) : (s.loseResv a n).upd = s.upd := rfl
@[simp] theorem State.loseResv_tly (a n : Nat) : (s.loseResv a n).tly = s.tly := rfl
@[simp] theorem State.loseResv_tap (a n : Nat) : (s.loseResv a n).tap = s.tap := rfl

/-! modACore -/

@[simp] theorem State.modACore_pending (i : Nat) (f : Cpu → Cpu) : (s.modACore i f).pending = s.pending := rfl
@[simp] theorem State.modACore_clock (i : Nat) (f : Cpu → Cpu) : (s.modACore i f).clock = s.clock := rfl
@[simp] theorem State.modACore_start (i : Nat) (f : Cpu → Cpu) : (s.modACore i f).start = s.start := rfl
@[simp] theorem State.modACore_freeCtr (i : Nat) (f : Cpu → Cpu) : (s.modACore i f).freeCtr = s.freeCtr := rfl
@[simp] theorem State.modACore_regs (i : Nat) (f : Cpu → Cpu) : (s.modACore i f).regs = s.regs := rfl
@[simp] theorem State.modACore_mem (i : Nat) (f : Cpu → Cpu) : (s.modACore i f).mem = s.mem := rfl
@[simp] theorem State.modACore_poison (i : Nat) (f : Cpu → Cpu) : (s.modACore i f).poison = s.poison := rfl
@[simp] theorem State.modACore_fabBad (i : Nat) (f : Cpu → Cpu) : (s.modACore i f).fabBad = s.fabBad := rfl
@[simp] theorem State.modACore_held (i : Nat) (f : Cpu → Cpu) : (s.modACore i f).held = s.held := rfl
@[simp] theorem State.modACore_fabAt (i : Nat) (f : Cpu → Cpu) : (s.modACore i f).fabAt = s.fabAt := rfl
@[simp] theorem State.modACore_perMaster (i : Nat) (f : Cpu → Cpu) : (s.modACore i f).perMaster = s.perMaster := rfl
@[simp] theorem State.modACore_queSeq (i : Nat) (f : Cpu → Cpu) : (s.modACore i f).queSeq = s.queSeq := rfl
@[simp] theorem State.modACore_reply (i : Nat) (f : Cpu → Cpu) : (s.modACore i f).reply = s.reply := rfl
@[simp] theorem State.modACore_inBeanie (i : Nat) (f : Cpu → Cpu) : (s.modACore i f).inBeanie = s.inBeanie := rfl
@[simp] theorem State.modACore_lanes (i : Nat) (f : Cpu → Cpu) : (s.modACore i f).lanes = s.lanes := rfl
@[simp] theorem State.modACore_flt (i : Nat) (f : Cpu → Cpu) : (s.modACore i f).flt = s.flt := rfl
@[simp] theorem State.modACore_evr (i : Nat) (f : Cpu → Cpu) : (s.modACore i f).evr = s.evr := rfl
@[simp] theorem State.modACore_hb (i : Nat) (f : Cpu → Cpu) : (s.modACore i f).hb = s.hb := rfl
@[simp] theorem State.modACore_ctxs (i : Nat) (f : Cpu → Cpu) : (s.modACore i f).ctxs = s.ctxs := rfl
@[simp] theorem State.modACore_mplLines (i : Nat) (f : Cpu → Cpu) : (s.modACore i f).mplLines = s.mplLines := rfl
@[simp] theorem State.modACore_mplStripe (i : Nat) (f : Cpu → Cpu) : (s.modACore i f).mplStripe = s.mplStripe := rfl
@[simp] theorem State.modACore_mplReadyl (i : Nat) (f : Cpu → Cpu) : (s.modACore i f).mplReadyl = s.mplReadyl := rfl
@[simp] theorem State.modACore_inp (i : Nat) (f : Cpu → Cpu) : (s.modACore i f).inp = s.inp := rfl
@[simp] theorem State.modACore_fins (i : Nat) (f : Cpu → Cpu) : (s.modACore i f).fins = s.fins := rfl
@[simp] theorem State.modACore_fus (i : Nat) (f : Cpu → Cpu) : (s.modACore i f).fus = s.fus := rfl
@[simp] theorem State.modACore_lns (i : Nat) (f : Cpu → Cpu) : (s.modACore i f).lns = s.lns := rfl
@[simp] theorem State.modACore_ces (i : Nat) (f : Cpu → Cpu) : (s.modACore i f).ces = s.ces := rfl
@[simp] theorem State.modACore_mit (i : Nat) (f : Cpu → Cpu) : (s.modACore i f).mit = s.mit := rfl
@[simp] theorem State.modACore_drv (i : Nat) (f : Cpu → Cpu) : (s.modACore i f).drv = s.drv := rfl
@[simp] theorem State.modACore_lds (i : Nat) (f : Cpu → Cpu) : (s.modACore i f).lds = s.lds := rfl
@[simp] theorem State.modACore_ldGroups (i : Nat) (f : Cpu → Cpu) : (s.modACore i f).ldGroups = s.ldGroups := rfl
@[simp] theorem State.modACore_gnb (i : Nat) (f : Cpu → Cpu) : (s.modACore i f).gnb = s.gnb := rfl
@[simp] theorem State.modACore_imu (i : Nat) (f : Cpu → Cpu) : (s.modACore i f).imu = s.imu := rfl
@[simp] theorem State.modACore_cans (i : Nat) (f : Cpu → Cpu) : (s.modACore i f).cans = s.cans := rfl
@[simp] theorem State.modACore_objs (i : Nat) (f : Cpu → Cpu) : (s.modACore i f).objs = s.objs := rfl
@[simp] theorem State.modACore_sess (i : Nat) (f : Cpu → Cpu) : (s.modACore i f).sess = s.sess := rfl
@[simp] theorem State.modACore_msgNext (i : Nat) (f : Cpu → Cpu) : (s.modACore i f).msgNext = s.msgNext := rfl
@[simp] theorem State.modACore_blocks (i : Nat) (f : Cpu → Cpu) : (s.modACore i f).blocks = s.blocks := rfl
@[simp] theorem State.modACore_lmpCan (i : Nat) (f : Cpu → Cpu) : (s.modACore i f).lmpCan = s.lmpCan := rfl
@[simp] theorem State.modACore_lmpRes (i : Nat) (f : Cpu → Cpu) : (s.modACore i f).lmpRes = s.lmpRes := rfl
@[simp] theorem State.modACore_net (i : Nat) (f : Cpu → Cpu) : (s.modACore i f).net = s.net := rfl
@[simp] theorem State.modACore_jnl (i : Nat) (f : Cpu → Cpu) : (s.modACore i f).jnl = s.jnl := rfl
@[simp] theorem State.modACore_role (i : Nat) (f : Cpu → Cpu) : (s.modACore i f).role = s.role := rfl
@[simp] theorem State.modACore_rst (i : Nat) (f : Cpu → Cpu) : (s.modACore i f).rst = s.rst := rfl
@[simp] theorem State.modACore_upd (i : Nat) (f : Cpu → Cpu) : (s.modACore i f).upd = s.upd := rfl
@[simp] theorem State.modACore_tly (i : Nat) (f : Cpu → Cpu) : (s.modACore i f).tly = s.tly := rfl
@[simp] theorem State.modACore_tap (i : Nat) (f : Cpu → Cpu) : (s.modACore i f).tap = s.tap := rfl

/-! modLane -/

@[simp] theorem State.modLane_pending (i : Nat) (f : Cpu → Cpu) : (s.modLane i f).pending = s.pending := rfl
@[simp] theorem State.modLane_clock (i : Nat) (f : Cpu → Cpu) : (s.modLane i f).clock = s.clock := rfl
@[simp] theorem State.modLane_start (i : Nat) (f : Cpu → Cpu) : (s.modLane i f).start = s.start := rfl
@[simp] theorem State.modLane_freeCtr (i : Nat) (f : Cpu → Cpu) : (s.modLane i f).freeCtr = s.freeCtr := rfl
@[simp] theorem State.modLane_regs (i : Nat) (f : Cpu → Cpu) : (s.modLane i f).regs = s.regs := rfl
@[simp] theorem State.modLane_mem (i : Nat) (f : Cpu → Cpu) : (s.modLane i f).mem = s.mem := rfl
@[simp] theorem State.modLane_poison (i : Nat) (f : Cpu → Cpu) : (s.modLane i f).poison = s.poison := rfl
@[simp] theorem State.modLane_fabBad (i : Nat) (f : Cpu → Cpu) : (s.modLane i f).fabBad = s.fabBad := rfl
@[simp] theorem State.modLane_held (i : Nat) (f : Cpu → Cpu) : (s.modLane i f).held = s.held := rfl
@[simp] theorem State.modLane_fabAt (i : Nat) (f : Cpu → Cpu) : (s.modLane i f).fabAt = s.fabAt := rfl
@[simp] theorem State.modLane_perMaster (i : Nat) (f : Cpu → Cpu) : (s.modLane i f).perMaster = s.perMaster := rfl
@[simp] theorem State.modLane_queSeq (i : Nat) (f : Cpu → Cpu) : (s.modLane i f).queSeq = s.queSeq := rfl
@[simp] theorem State.modLane_reply (i : Nat) (f : Cpu → Cpu) : (s.modLane i f).reply = s.reply := rfl
@[simp] theorem State.modLane_inBeanie (i : Nat) (f : Cpu → Cpu) : (s.modLane i f).inBeanie = s.inBeanie := rfl
@[simp] theorem State.modLane_aCores (i : Nat) (f : Cpu → Cpu) : (s.modLane i f).aCores = s.aCores := rfl
@[simp] theorem State.modLane_flt (i : Nat) (f : Cpu → Cpu) : (s.modLane i f).flt = s.flt := rfl
@[simp] theorem State.modLane_evr (i : Nat) (f : Cpu → Cpu) : (s.modLane i f).evr = s.evr := rfl
@[simp] theorem State.modLane_hb (i : Nat) (f : Cpu → Cpu) : (s.modLane i f).hb = s.hb := rfl
@[simp] theorem State.modLane_ctxs (i : Nat) (f : Cpu → Cpu) : (s.modLane i f).ctxs = s.ctxs := rfl
@[simp] theorem State.modLane_mplLines (i : Nat) (f : Cpu → Cpu) : (s.modLane i f).mplLines = s.mplLines := rfl
@[simp] theorem State.modLane_mplStripe (i : Nat) (f : Cpu → Cpu) : (s.modLane i f).mplStripe = s.mplStripe := rfl
@[simp] theorem State.modLane_mplReadyl (i : Nat) (f : Cpu → Cpu) : (s.modLane i f).mplReadyl = s.mplReadyl := rfl
@[simp] theorem State.modLane_inp (i : Nat) (f : Cpu → Cpu) : (s.modLane i f).inp = s.inp := rfl
@[simp] theorem State.modLane_fins (i : Nat) (f : Cpu → Cpu) : (s.modLane i f).fins = s.fins := rfl
@[simp] theorem State.modLane_fus (i : Nat) (f : Cpu → Cpu) : (s.modLane i f).fus = s.fus := rfl
@[simp] theorem State.modLane_lns (i : Nat) (f : Cpu → Cpu) : (s.modLane i f).lns = s.lns := rfl
@[simp] theorem State.modLane_ces (i : Nat) (f : Cpu → Cpu) : (s.modLane i f).ces = s.ces := rfl
@[simp] theorem State.modLane_mit (i : Nat) (f : Cpu → Cpu) : (s.modLane i f).mit = s.mit := rfl
@[simp] theorem State.modLane_drv (i : Nat) (f : Cpu → Cpu) : (s.modLane i f).drv = s.drv := rfl
@[simp] theorem State.modLane_lds (i : Nat) (f : Cpu → Cpu) : (s.modLane i f).lds = s.lds := rfl
@[simp] theorem State.modLane_ldGroups (i : Nat) (f : Cpu → Cpu) : (s.modLane i f).ldGroups = s.ldGroups := rfl
@[simp] theorem State.modLane_gnb (i : Nat) (f : Cpu → Cpu) : (s.modLane i f).gnb = s.gnb := rfl
@[simp] theorem State.modLane_imu (i : Nat) (f : Cpu → Cpu) : (s.modLane i f).imu = s.imu := rfl
@[simp] theorem State.modLane_cans (i : Nat) (f : Cpu → Cpu) : (s.modLane i f).cans = s.cans := rfl
@[simp] theorem State.modLane_objs (i : Nat) (f : Cpu → Cpu) : (s.modLane i f).objs = s.objs := rfl
@[simp] theorem State.modLane_sess (i : Nat) (f : Cpu → Cpu) : (s.modLane i f).sess = s.sess := rfl
@[simp] theorem State.modLane_msgNext (i : Nat) (f : Cpu → Cpu) : (s.modLane i f).msgNext = s.msgNext := rfl
@[simp] theorem State.modLane_blocks (i : Nat) (f : Cpu → Cpu) : (s.modLane i f).blocks = s.blocks := rfl
@[simp] theorem State.modLane_lmpCan (i : Nat) (f : Cpu → Cpu) : (s.modLane i f).lmpCan = s.lmpCan := rfl
@[simp] theorem State.modLane_lmpRes (i : Nat) (f : Cpu → Cpu) : (s.modLane i f).lmpRes = s.lmpRes := rfl
@[simp] theorem State.modLane_net (i : Nat) (f : Cpu → Cpu) : (s.modLane i f).net = s.net := rfl
@[simp] theorem State.modLane_jnl (i : Nat) (f : Cpu → Cpu) : (s.modLane i f).jnl = s.jnl := rfl
@[simp] theorem State.modLane_role (i : Nat) (f : Cpu → Cpu) : (s.modLane i f).role = s.role := rfl
@[simp] theorem State.modLane_rst (i : Nat) (f : Cpu → Cpu) : (s.modLane i f).rst = s.rst := rfl
@[simp] theorem State.modLane_upd (i : Nat) (f : Cpu → Cpu) : (s.modLane i f).upd = s.upd := rfl
@[simp] theorem State.modLane_tly (i : Nat) (f : Cpu → Cpu) : (s.modLane i f).tly = s.tly := rfl
@[simp] theorem State.modLane_tap (i : Nat) (f : Cpu → Cpu) : (s.modLane i f).tap = s.tap := rfl

/-! irqHalf -/

@[simp] theorem State.irqHalf_pending (h k : Nat) : (s.irqHalf h k).pending = s.pending := rfl
@[simp] theorem State.irqHalf_clock (h k : Nat) : (s.irqHalf h k).clock = s.clock := rfl
@[simp] theorem State.irqHalf_start (h k : Nat) : (s.irqHalf h k).start = s.start := rfl
@[simp] theorem State.irqHalf_freeCtr (h k : Nat) : (s.irqHalf h k).freeCtr = s.freeCtr := rfl
@[simp] theorem State.irqHalf_regs (h k : Nat) : (s.irqHalf h k).regs = s.regs := rfl
@[simp] theorem State.irqHalf_mem (h k : Nat) : (s.irqHalf h k).mem = s.mem := rfl
@[simp] theorem State.irqHalf_poison (h k : Nat) : (s.irqHalf h k).poison = s.poison := rfl
@[simp] theorem State.irqHalf_fabBad (h k : Nat) : (s.irqHalf h k).fabBad = s.fabBad := rfl
@[simp] theorem State.irqHalf_held (h k : Nat) : (s.irqHalf h k).held = s.held := rfl
@[simp] theorem State.irqHalf_fabAt (h k : Nat) : (s.irqHalf h k).fabAt = s.fabAt := rfl
@[simp] theorem State.irqHalf_perMaster (h k : Nat) : (s.irqHalf h k).perMaster = s.perMaster := rfl
@[simp] theorem State.irqHalf_queSeq (h k : Nat) : (s.irqHalf h k).queSeq = s.queSeq := rfl
@[simp] theorem State.irqHalf_reply (h k : Nat) : (s.irqHalf h k).reply = s.reply := rfl
@[simp] theorem State.irqHalf_inBeanie (h k : Nat) : (s.irqHalf h k).inBeanie = s.inBeanie := rfl
@[simp] theorem State.irqHalf_lanes (h k : Nat) : (s.irqHalf h k).lanes = s.lanes := rfl
@[simp] theorem State.irqHalf_flt (h k : Nat) : (s.irqHalf h k).flt = s.flt := rfl
@[simp] theorem State.irqHalf_evr (h k : Nat) : (s.irqHalf h k).evr = s.evr := rfl
@[simp] theorem State.irqHalf_hb (h k : Nat) : (s.irqHalf h k).hb = s.hb := rfl
@[simp] theorem State.irqHalf_ctxs (h k : Nat) : (s.irqHalf h k).ctxs = s.ctxs := rfl
@[simp] theorem State.irqHalf_mplLines (h k : Nat) : (s.irqHalf h k).mplLines = s.mplLines := rfl
@[simp] theorem State.irqHalf_mplStripe (h k : Nat) : (s.irqHalf h k).mplStripe = s.mplStripe := rfl
@[simp] theorem State.irqHalf_mplReadyl (h k : Nat) : (s.irqHalf h k).mplReadyl = s.mplReadyl := rfl
@[simp] theorem State.irqHalf_inp (h k : Nat) : (s.irqHalf h k).inp = s.inp := rfl
@[simp] theorem State.irqHalf_fins (h k : Nat) : (s.irqHalf h k).fins = s.fins := rfl
@[simp] theorem State.irqHalf_fus (h k : Nat) : (s.irqHalf h k).fus = s.fus := rfl
@[simp] theorem State.irqHalf_lns (h k : Nat) : (s.irqHalf h k).lns = s.lns := rfl
@[simp] theorem State.irqHalf_ces (h k : Nat) : (s.irqHalf h k).ces = s.ces := rfl
@[simp] theorem State.irqHalf_mit (h k : Nat) : (s.irqHalf h k).mit = s.mit := rfl
@[simp] theorem State.irqHalf_drv (h k : Nat) : (s.irqHalf h k).drv = s.drv := rfl
@[simp] theorem State.irqHalf_lds (h k : Nat) : (s.irqHalf h k).lds = s.lds := rfl
@[simp] theorem State.irqHalf_ldGroups (h k : Nat) : (s.irqHalf h k).ldGroups = s.ldGroups := rfl
@[simp] theorem State.irqHalf_gnb (h k : Nat) : (s.irqHalf h k).gnb = s.gnb := rfl
@[simp] theorem State.irqHalf_imu (h k : Nat) : (s.irqHalf h k).imu = s.imu := rfl
@[simp] theorem State.irqHalf_cans (h k : Nat) : (s.irqHalf h k).cans = s.cans := rfl
@[simp] theorem State.irqHalf_objs (h k : Nat) : (s.irqHalf h k).objs = s.objs := rfl
@[simp] theorem State.irqHalf_sess (h k : Nat) : (s.irqHalf h k).sess = s.sess := rfl
@[simp] theorem State.irqHalf_msgNext (h k : Nat) : (s.irqHalf h k).msgNext = s.msgNext := rfl
@[simp] theorem State.irqHalf_blocks (h k : Nat) : (s.irqHalf h k).blocks = s.blocks := rfl
@[simp] theorem State.irqHalf_lmpCan (h k : Nat) : (s.irqHalf h k).lmpCan = s.lmpCan := rfl
@[simp] theorem State.irqHalf_lmpRes (h k : Nat) : (s.irqHalf h k).lmpRes = s.lmpRes := rfl
@[simp] theorem State.irqHalf_net (h k : Nat) : (s.irqHalf h k).net = s.net := rfl
@[simp] theorem State.irqHalf_jnl (h k : Nat) : (s.irqHalf h k).jnl = s.jnl := rfl
@[simp] theorem State.irqHalf_role (h k : Nat) : (s.irqHalf h k).role = s.role := rfl
@[simp] theorem State.irqHalf_rst (h k : Nat) : (s.irqHalf h k).rst = s.rst := rfl
@[simp] theorem State.irqHalf_upd (h k : Nat) : (s.irqHalf h k).upd = s.upd := rfl
@[simp] theorem State.irqHalf_tly (h k : Nat) : (s.irqHalf h k).tly = s.tly := rfl
@[simp] theorem State.irqHalf_tap (h k : Nat) : (s.irqHalf h k).tap = s.tap := rfl

/-! addSource -/

@[simp] theorem State.addSource_pending (code p : Nat) : (s.addSource code p).pending = s.pending := rfl
@[simp] theorem State.addSource_clock (code p : Nat) : (s.addSource code p).clock = s.clock := rfl
@[simp] theorem State.addSource_start (code p : Nat) : (s.addSource code p).start = s.start := rfl
@[simp] theorem State.addSource_freeCtr (code p : Nat) : (s.addSource code p).freeCtr = s.freeCtr := rfl
@[simp] theorem State.addSource_regs (code p : Nat) : (s.addSource code p).regs = s.regs := rfl
@[simp] theorem State.addSource_mem (code p : Nat) : (s.addSource code p).mem = s.mem := rfl
@[simp] theorem State.addSource_poison (code p : Nat) : (s.addSource code p).poison = s.poison := rfl
@[simp] theorem State.addSource_fabBad (code p : Nat) : (s.addSource code p).fabBad = s.fabBad := rfl
@[simp] theorem State.addSource_held (code p : Nat) : (s.addSource code p).held = s.held := rfl
@[simp] theorem State.addSource_fabAt (code p : Nat) : (s.addSource code p).fabAt = s.fabAt := rfl
@[simp] theorem State.addSource_perMaster (code p : Nat) : (s.addSource code p).perMaster = s.perMaster := rfl
@[simp] theorem State.addSource_queSeq (code p : Nat) : (s.addSource code p).queSeq = s.queSeq := rfl
@[simp] theorem State.addSource_reply (code p : Nat) : (s.addSource code p).reply = s.reply := rfl
@[simp] theorem State.addSource_inBeanie (code p : Nat) : (s.addSource code p).inBeanie = s.inBeanie := rfl
@[simp] theorem State.addSource_aCores (code p : Nat) : (s.addSource code p).aCores = s.aCores := rfl
@[simp] theorem State.addSource_lanes (code p : Nat) : (s.addSource code p).lanes = s.lanes := rfl
@[simp] theorem State.addSource_flt (code p : Nat) : (s.addSource code p).flt = s.flt := rfl
@[simp] theorem State.addSource_evr (code p : Nat) : (s.addSource code p).evr = s.evr := rfl
@[simp] theorem State.addSource_hb (code p : Nat) : (s.addSource code p).hb = s.hb := rfl
@[simp] theorem State.addSource_ctxs (code p : Nat) : (s.addSource code p).ctxs = s.ctxs := rfl
@[simp] theorem State.addSource_mplLines (code p : Nat) : (s.addSource code p).mplLines = s.mplLines := rfl
@[simp] theorem State.addSource_mplStripe (code p : Nat) : (s.addSource code p).mplStripe = s.mplStripe := rfl
@[simp] theorem State.addSource_mplReadyl (code p : Nat) : (s.addSource code p).mplReadyl = s.mplReadyl := rfl
@[simp] theorem State.addSource_inp (code p : Nat) : (s.addSource code p).inp = s.inp := rfl
@[simp] theorem State.addSource_fins (code p : Nat) : (s.addSource code p).fins = s.fins := rfl
@[simp] theorem State.addSource_fus (code p : Nat) : (s.addSource code p).fus = s.fus := rfl
@[simp] theorem State.addSource_lns (code p : Nat) : (s.addSource code p).lns = s.lns := rfl
@[simp] theorem State.addSource_ces (code p : Nat) : (s.addSource code p).ces = s.ces := rfl
@[simp] theorem State.addSource_mit (code p : Nat) : (s.addSource code p).mit = s.mit := rfl
@[simp] theorem State.addSource_drv (code p : Nat) : (s.addSource code p).drv = s.drv := rfl
@[simp] theorem State.addSource_lds (code p : Nat) : (s.addSource code p).lds = s.lds := rfl
@[simp] theorem State.addSource_ldGroups (code p : Nat) : (s.addSource code p).ldGroups = s.ldGroups := rfl
@[simp] theorem State.addSource_gnb (code p : Nat) : (s.addSource code p).gnb = s.gnb := rfl
@[simp] theorem State.addSource_imu (code p : Nat) : (s.addSource code p).imu = s.imu := rfl
@[simp] theorem State.addSource_cans (code p : Nat) : (s.addSource code p).cans = s.cans := rfl
@[simp] theorem State.addSource_objs (code p : Nat) : (s.addSource code p).objs = s.objs := rfl
@[simp] theorem State.addSource_sess (code p : Nat) : (s.addSource code p).sess = s.sess := rfl
@[simp] theorem State.addSource_msgNext (code p : Nat) : (s.addSource code p).msgNext = s.msgNext := rfl
@[simp] theorem State.addSource_blocks (code p : Nat) : (s.addSource code p).blocks = s.blocks := rfl
@[simp] theorem State.addSource_lmpCan (code p : Nat) : (s.addSource code p).lmpCan = s.lmpCan := rfl
@[simp] theorem State.addSource_lmpRes (code p : Nat) : (s.addSource code p).lmpRes = s.lmpRes := rfl
@[simp] theorem State.addSource_net (code p : Nat) : (s.addSource code p).net = s.net := rfl
@[simp] theorem State.addSource_jnl (code p : Nat) : (s.addSource code p).jnl = s.jnl := rfl
@[simp] theorem State.addSource_rst (code p : Nat) : (s.addSource code p).rst = s.rst := rfl
@[simp] theorem State.addSource_upd (code p : Nat) : (s.addSource code p).upd = s.upd := rfl
@[simp] theorem State.addSource_tly (code p : Nat) : (s.addSource code p).tly = s.tly := rfl
@[simp] theorem State.addSource_tap (code p : Nat) : (s.addSource code p).tap = s.tap := rfl

/-! withEvr -/

@[simp] theorem State.withEvr_evr (x : Evr) : (s.withEvr x).evr = x := rfl
@[simp] theorem State.withEvr_pending (x : Evr) : (s.withEvr x).pending = s.pending := rfl
@[simp] theorem State.withEvr_clock (x : Evr) : (s.withEvr x).clock = s.clock := rfl
@[simp] theorem State.withEvr_start (x : Evr) : (s.withEvr x).start = s.start := rfl
@[simp] theorem State.withEvr_freeCtr (x : Evr) : (s.withEvr x).freeCtr = s.freeCtr := rfl
@[simp] theorem State.withEvr_regs (x : Evr) : (s.withEvr x).regs = s.regs := rfl
@[simp] theorem State.withEvr_mem (x : Evr) : (s.withEvr x).mem = s.mem := rfl
@[simp] theorem State.withEvr_poison (x : Evr) : (s.withEvr x).poison = s.poison := rfl
@[simp] theorem State.withEvr_fabBad (x : Evr) : (s.withEvr x).fabBad = s.fabBad := rfl
@[simp] theorem State.withEvr_held (x : Evr) : (s.withEvr x).held = s.held := rfl
@[simp] theorem State.withEvr_fabAt (x : Evr) : (s.withEvr x).fabAt = s.fabAt := rfl
@[simp] theorem State.withEvr_perMaster (x : Evr) : (s.withEvr x).perMaster = s.perMaster := rfl
@[simp] theorem State.withEvr_queSeq (x : Evr) : (s.withEvr x).queSeq = s.queSeq := rfl
@[simp] theorem State.withEvr_reply (x : Evr) : (s.withEvr x).reply = s.reply := rfl
@[simp] theorem State.withEvr_inBeanie (x : Evr) : (s.withEvr x).inBeanie = s.inBeanie := rfl
@[simp] theorem State.withEvr_aCores (x : Evr) : (s.withEvr x).aCores = s.aCores := rfl
@[simp] theorem State.withEvr_lanes (x : Evr) : (s.withEvr x).lanes = s.lanes := rfl
@[simp] theorem State.withEvr_flt (x : Evr) : (s.withEvr x).flt = s.flt := rfl
@[simp] theorem State.withEvr_hb (x : Evr) : (s.withEvr x).hb = s.hb := rfl
@[simp] theorem State.withEvr_ctxs (x : Evr) : (s.withEvr x).ctxs = s.ctxs := rfl
@[simp] theorem State.withEvr_mplLines (x : Evr) : (s.withEvr x).mplLines = s.mplLines := rfl
@[simp] theorem State.withEvr_mplStripe (x : Evr) : (s.withEvr x).mplStripe = s.mplStripe := rfl
@[simp] theorem State.withEvr_mplReadyl (x : Evr) : (s.withEvr x).mplReadyl = s.mplReadyl := rfl
@[simp] theorem State.withEvr_inp (x : Evr) : (s.withEvr x).inp = s.inp := rfl
@[simp] theorem State.withEvr_fins (x : Evr) : (s.withEvr x).fins = s.fins := rfl
@[simp] theorem State.withEvr_fus (x : Evr) : (s.withEvr x).fus = s.fus := rfl
@[simp] theorem State.withEvr_lns (x : Evr) : (s.withEvr x).lns = s.lns := rfl
@[simp] theorem State.withEvr_ces (x : Evr) : (s.withEvr x).ces = s.ces := rfl
@[simp] theorem State.withEvr_mit (x : Evr) : (s.withEvr x).mit = s.mit := rfl
@[simp] theorem State.withEvr_drv (x : Evr) : (s.withEvr x).drv = s.drv := rfl
@[simp] theorem State.withEvr_lds (x : Evr) : (s.withEvr x).lds = s.lds := rfl
@[simp] theorem State.withEvr_ldGroups (x : Evr) : (s.withEvr x).ldGroups = s.ldGroups := rfl
@[simp] theorem State.withEvr_gnb (x : Evr) : (s.withEvr x).gnb = s.gnb := rfl
@[simp] theorem State.withEvr_imu (x : Evr) : (s.withEvr x).imu = s.imu := rfl
@[simp] theorem State.withEvr_cans (x : Evr) : (s.withEvr x).cans = s.cans := rfl
@[simp] theorem State.withEvr_objs (x : Evr) : (s.withEvr x).objs = s.objs := rfl
@[simp] theorem State.withEvr_sess (x : Evr) : (s.withEvr x).sess = s.sess := rfl
@[simp] theorem State.withEvr_msgNext (x : Evr) : (s.withEvr x).msgNext = s.msgNext := rfl
@[simp] theorem State.withEvr_blocks (x : Evr) : (s.withEvr x).blocks = s.blocks := rfl
@[simp] theorem State.withEvr_lmpCan (x : Evr) : (s.withEvr x).lmpCan = s.lmpCan := rfl
@[simp] theorem State.withEvr_lmpRes (x : Evr) : (s.withEvr x).lmpRes = s.lmpRes := rfl
@[simp] theorem State.withEvr_net (x : Evr) : (s.withEvr x).net = s.net := rfl
@[simp] theorem State.withEvr_jnl (x : Evr) : (s.withEvr x).jnl = s.jnl := rfl
@[simp] theorem State.withEvr_role (x : Evr) : (s.withEvr x).role = s.role := rfl
@[simp] theorem State.withEvr_rst (x : Evr) : (s.withEvr x).rst = s.rst := rfl
@[simp] theorem State.withEvr_upd (x : Evr) : (s.withEvr x).upd = s.upd := rfl
@[simp] theorem State.withEvr_tly (x : Evr) : (s.withEvr x).tly = s.tly := rfl
@[simp] theorem State.withEvr_tap (x : Evr) : (s.withEvr x).tap = s.tap := rfl

/-! withFlt -/

@[simp] theorem State.withFlt_flt (x : Flt) : (s.withFlt x).flt = x := rfl
@[simp] theorem State.withFlt_pending (x : Flt) : (s.withFlt x).pending = s.pending := rfl
@[simp] theorem State.withFlt_clock (x : Flt) : (s.withFlt x).clock = s.clock := rfl
@[simp] theorem State.withFlt_start (x : Flt) : (s.withFlt x).start = s.start := rfl
@[simp] theorem State.withFlt_freeCtr (x : Flt) : (s.withFlt x).freeCtr = s.freeCtr := rfl
@[simp] theorem State.withFlt_regs (x : Flt) : (s.withFlt x).regs = s.regs := rfl
@[simp] theorem State.withFlt_mem (x : Flt) : (s.withFlt x).mem = s.mem := rfl
@[simp] theorem State.withFlt_poison (x : Flt) : (s.withFlt x).poison = s.poison := rfl
@[simp] theorem State.withFlt_fabBad (x : Flt) : (s.withFlt x).fabBad = s.fabBad := rfl
@[simp] theorem State.withFlt_held (x : Flt) : (s.withFlt x).held = s.held := rfl
@[simp] theorem State.withFlt_fabAt (x : Flt) : (s.withFlt x).fabAt = s.fabAt := rfl
@[simp] theorem State.withFlt_perMaster (x : Flt) : (s.withFlt x).perMaster = s.perMaster := rfl
@[simp] theorem State.withFlt_queSeq (x : Flt) : (s.withFlt x).queSeq = s.queSeq := rfl
@[simp] theorem State.withFlt_reply (x : Flt) : (s.withFlt x).reply = s.reply := rfl
@[simp] theorem State.withFlt_inBeanie (x : Flt) : (s.withFlt x).inBeanie = s.inBeanie := rfl
@[simp] theorem State.withFlt_aCores (x : Flt) : (s.withFlt x).aCores = s.aCores := rfl
@[simp] theorem State.withFlt_lanes (x : Flt) : (s.withFlt x).lanes = s.lanes := rfl
@[simp] theorem State.withFlt_evr (x : Flt) : (s.withFlt x).evr = s.evr := rfl
@[simp] theorem State.withFlt_hb (x : Flt) : (s.withFlt x).hb = s.hb := rfl
@[simp] theorem State.withFlt_ctxs (x : Flt) : (s.withFlt x).ctxs = s.ctxs := rfl
@[simp] theorem State.withFlt_mplLines (x : Flt) : (s.withFlt x).mplLines = s.mplLines := rfl
@[simp] theorem State.withFlt_mplStripe (x : Flt) : (s.withFlt x).mplStripe = s.mplStripe := rfl
@[simp] theorem State.withFlt_mplReadyl (x : Flt) : (s.withFlt x).mplReadyl = s.mplReadyl := rfl
@[simp] theorem State.withFlt_inp (x : Flt) : (s.withFlt x).inp = s.inp := rfl
@[simp] theorem State.withFlt_fins (x : Flt) : (s.withFlt x).fins = s.fins := rfl
@[simp] theorem State.withFlt_fus (x : Flt) : (s.withFlt x).fus = s.fus := rfl
@[simp] theorem State.withFlt_lns (x : Flt) : (s.withFlt x).lns = s.lns := rfl
@[simp] theorem State.withFlt_ces (x : Flt) : (s.withFlt x).ces = s.ces := rfl
@[simp] theorem State.withFlt_mit (x : Flt) : (s.withFlt x).mit = s.mit := rfl
@[simp] theorem State.withFlt_drv (x : Flt) : (s.withFlt x).drv = s.drv := rfl
@[simp] theorem State.withFlt_lds (x : Flt) : (s.withFlt x).lds = s.lds := rfl
@[simp] theorem State.withFlt_ldGroups (x : Flt) : (s.withFlt x).ldGroups = s.ldGroups := rfl
@[simp] theorem State.withFlt_gnb (x : Flt) : (s.withFlt x).gnb = s.gnb := rfl
@[simp] theorem State.withFlt_imu (x : Flt) : (s.withFlt x).imu = s.imu := rfl
@[simp] theorem State.withFlt_cans (x : Flt) : (s.withFlt x).cans = s.cans := rfl
@[simp] theorem State.withFlt_objs (x : Flt) : (s.withFlt x).objs = s.objs := rfl
@[simp] theorem State.withFlt_sess (x : Flt) : (s.withFlt x).sess = s.sess := rfl
@[simp] theorem State.withFlt_msgNext (x : Flt) : (s.withFlt x).msgNext = s.msgNext := rfl
@[simp] theorem State.withFlt_blocks (x : Flt) : (s.withFlt x).blocks = s.blocks := rfl
@[simp] theorem State.withFlt_lmpCan (x : Flt) : (s.withFlt x).lmpCan = s.lmpCan := rfl
@[simp] theorem State.withFlt_lmpRes (x : Flt) : (s.withFlt x).lmpRes = s.lmpRes := rfl
@[simp] theorem State.withFlt_net (x : Flt) : (s.withFlt x).net = s.net := rfl
@[simp] theorem State.withFlt_jnl (x : Flt) : (s.withFlt x).jnl = s.jnl := rfl
@[simp] theorem State.withFlt_role (x : Flt) : (s.withFlt x).role = s.role := rfl
@[simp] theorem State.withFlt_rst (x : Flt) : (s.withFlt x).rst = s.rst := rfl
@[simp] theorem State.withFlt_upd (x : Flt) : (s.withFlt x).upd = s.upd := rfl
@[simp] theorem State.withFlt_tly (x : Flt) : (s.withFlt x).tly = s.tly := rfl
@[simp] theorem State.withFlt_tap (x : Flt) : (s.withFlt x).tap = s.tap := rfl

/-! withHb -/

@[simp] theorem State.withHb_hb (x : Hb) : (s.withHb x).hb = x := rfl
@[simp] theorem State.withHb_pending (x : Hb) : (s.withHb x).pending = s.pending := rfl
@[simp] theorem State.withHb_clock (x : Hb) : (s.withHb x).clock = s.clock := rfl
@[simp] theorem State.withHb_start (x : Hb) : (s.withHb x).start = s.start := rfl
@[simp] theorem State.withHb_freeCtr (x : Hb) : (s.withHb x).freeCtr = s.freeCtr := rfl
@[simp] theorem State.withHb_regs (x : Hb) : (s.withHb x).regs = s.regs := rfl
@[simp] theorem State.withHb_mem (x : Hb) : (s.withHb x).mem = s.mem := rfl
@[simp] theorem State.withHb_poison (x : Hb) : (s.withHb x).poison = s.poison := rfl
@[simp] theorem State.withHb_fabBad (x : Hb) : (s.withHb x).fabBad = s.fabBad := rfl
@[simp] theorem State.withHb_held (x : Hb) : (s.withHb x).held = s.held := rfl
@[simp] theorem State.withHb_fabAt (x : Hb) : (s.withHb x).fabAt = s.fabAt := rfl
@[simp] theorem State.withHb_perMaster (x : Hb) : (s.withHb x).perMaster = s.perMaster := rfl
@[simp] theorem State.withHb_queSeq (x : Hb) : (s.withHb x).queSeq = s.queSeq := rfl
@[simp] theorem State.withHb_reply (x : Hb) : (s.withHb x).reply = s.reply := rfl
@[simp] theorem State.withHb_inBeanie (x : Hb) : (s.withHb x).inBeanie = s.inBeanie := rfl
@[simp] theorem State.withHb_aCores (x : Hb) : (s.withHb x).aCores = s.aCores := rfl
@[simp] theorem State.withHb_lanes (x : Hb) : (s.withHb x).lanes = s.lanes := rfl
@[simp] theorem State.withHb_flt (x : Hb) : (s.withHb x).flt = s.flt := rfl
@[simp] theorem State.withHb_evr (x : Hb) : (s.withHb x).evr = s.evr := rfl
@[simp] theorem State.withHb_ctxs (x : Hb) : (s.withHb x).ctxs = s.ctxs := rfl
@[simp] theorem State.withHb_mplLines (x : Hb) : (s.withHb x).mplLines = s.mplLines := rfl
@[simp] theorem State.withHb_mplStripe (x : Hb) : (s.withHb x).mplStripe = s.mplStripe := rfl
@[simp] theorem State.withHb_mplReadyl (x : Hb) : (s.withHb x).mplReadyl = s.mplReadyl := rfl
@[simp] theorem State.withHb_inp (x : Hb) : (s.withHb x).inp = s.inp := rfl
@[simp] theorem State.withHb_fins (x : Hb) : (s.withHb x).fins = s.fins := rfl
@[simp] theorem State.withHb_fus (x : Hb) : (s.withHb x).fus = s.fus := rfl
@[simp] theorem State.withHb_lns (x : Hb) : (s.withHb x).lns = s.lns := rfl
@[simp] theorem State.withHb_ces (x : Hb) : (s.withHb x).ces = s.ces := rfl
@[simp] theorem State.withHb_mit (x : Hb) : (s.withHb x).mit = s.mit := rfl
@[simp] theorem State.withHb_drv (x : Hb) : (s.withHb x).drv = s.drv := rfl
@[simp] theorem State.withHb_lds (x : Hb) : (s.withHb x).lds = s.lds := rfl
@[simp] theorem State.withHb_ldGroups (x : Hb) : (s.withHb x).ldGroups = s.ldGroups := rfl
@[simp] theorem State.withHb_gnb (x : Hb) : (s.withHb x).gnb = s.gnb := rfl
@[simp] theorem State.withHb_imu (x : Hb) : (s.withHb x).imu = s.imu := rfl
@[simp] theorem State.withHb_cans (x : Hb) : (s.withHb x).cans = s.cans := rfl
@[simp] theorem State.withHb_objs (x : Hb) : (s.withHb x).objs = s.objs := rfl
@[simp] theorem State.withHb_sess (x : Hb) : (s.withHb x).sess = s.sess := rfl
@[simp] theorem State.withHb_msgNext (x : Hb) : (s.withHb x).msgNext = s.msgNext := rfl
@[simp] theorem State.withHb_blocks (x : Hb) : (s.withHb x).blocks = s.blocks := rfl
@[simp] theorem State.withHb_lmpCan (x : Hb) : (s.withHb x).lmpCan = s.lmpCan := rfl
@[simp] theorem State.withHb_lmpRes (x : Hb) : (s.withHb x).lmpRes = s.lmpRes := rfl
@[simp] theorem State.withHb_net (x : Hb) : (s.withHb x).net = s.net := rfl
@[simp] theorem State.withHb_jnl (x : Hb) : (s.withHb x).jnl = s.jnl := rfl
@[simp] theorem State.withHb_role (x : Hb) : (s.withHb x).role = s.role := rfl
@[simp] theorem State.withHb_rst (x : Hb) : (s.withHb x).rst = s.rst := rfl
@[simp] theorem State.withHb_upd (x : Hb) : (s.withHb x).upd = s.upd := rfl
@[simp] theorem State.withHb_tly (x : Hb) : (s.withHb x).tly = s.tly := rfl
@[simp] theorem State.withHb_tap (x : Hb) : (s.withHb x).tap = s.tap := rfl

/-! setLine -/

@[simp] theorem State.setLine_pending (n : Nat) (l : HbLine) : (s.setLine n l).pending = s.pending := rfl
@[simp] theorem State.setLine_clock (n : Nat) (l : HbLine) : (s.setLine n l).clock = s.clock := rfl
@[simp] theorem State.setLine_start (n : Nat) (l : HbLine) : (s.setLine n l).start = s.start := rfl
@[simp] theorem State.setLine_freeCtr (n : Nat) (l : HbLine) : (s.setLine n l).freeCtr = s.freeCtr := rfl
@[simp] theorem State.setLine_regs (n : Nat) (l : HbLine) : (s.setLine n l).regs = s.regs := rfl
@[simp] theorem State.setLine_mem (n : Nat) (l : HbLine) : (s.setLine n l).mem = s.mem := rfl
@[simp] theorem State.setLine_poison (n : Nat) (l : HbLine) : (s.setLine n l).poison = s.poison := rfl
@[simp] theorem State.setLine_fabBad (n : Nat) (l : HbLine) : (s.setLine n l).fabBad = s.fabBad := rfl
@[simp] theorem State.setLine_held (n : Nat) (l : HbLine) : (s.setLine n l).held = s.held := rfl
@[simp] theorem State.setLine_fabAt (n : Nat) (l : HbLine) : (s.setLine n l).fabAt = s.fabAt := rfl
@[simp] theorem State.setLine_perMaster (n : Nat) (l : HbLine) : (s.setLine n l).perMaster = s.perMaster := rfl
@[simp] theorem State.setLine_queSeq (n : Nat) (l : HbLine) : (s.setLine n l).queSeq = s.queSeq := rfl
@[simp] theorem State.setLine_reply (n : Nat) (l : HbLine) : (s.setLine n l).reply = s.reply := rfl
@[simp] theorem State.setLine_inBeanie (n : Nat) (l : HbLine) : (s.setLine n l).inBeanie = s.inBeanie := rfl
@[simp] theorem State.setLine_aCores (n : Nat) (l : HbLine) : (s.setLine n l).aCores = s.aCores := rfl
@[simp] theorem State.setLine_lanes (n : Nat) (l : HbLine) : (s.setLine n l).lanes = s.lanes := rfl
@[simp] theorem State.setLine_flt (n : Nat) (l : HbLine) : (s.setLine n l).flt = s.flt := rfl
@[simp] theorem State.setLine_evr (n : Nat) (l : HbLine) : (s.setLine n l).evr = s.evr := rfl
@[simp] theorem State.setLine_ctxs (n : Nat) (l : HbLine) : (s.setLine n l).ctxs = s.ctxs := rfl
@[simp] theorem State.setLine_mplLines (n : Nat) (l : HbLine) : (s.setLine n l).mplLines = s.mplLines := rfl
@[simp] theorem State.setLine_mplStripe (n : Nat) (l : HbLine) : (s.setLine n l).mplStripe = s.mplStripe := rfl
@[simp] theorem State.setLine_mplReadyl (n : Nat) (l : HbLine) : (s.setLine n l).mplReadyl = s.mplReadyl := rfl
@[simp] theorem State.setLine_inp (n : Nat) (l : HbLine) : (s.setLine n l).inp = s.inp := rfl
@[simp] theorem State.setLine_fins (n : Nat) (l : HbLine) : (s.setLine n l).fins = s.fins := rfl
@[simp] theorem State.setLine_fus (n : Nat) (l : HbLine) : (s.setLine n l).fus = s.fus := rfl
@[simp] theorem State.setLine_lns (n : Nat) (l : HbLine) : (s.setLine n l).lns = s.lns := rfl
@[simp] theorem State.setLine_ces (n : Nat) (l : HbLine) : (s.setLine n l).ces = s.ces := rfl
@[simp] theorem State.setLine_mit (n : Nat) (l : HbLine) : (s.setLine n l).mit = s.mit := rfl
@[simp] theorem State.setLine_drv (n : Nat) (l : HbLine) : (s.setLine n l).drv = s.drv := rfl
@[simp] theorem State.setLine_lds (n : Nat) (l : HbLine) : (s.setLine n l).lds = s.lds := rfl
@[simp] theorem State.setLine_ldGroups (n : Nat) (l : HbLine) : (s.setLine n l).ldGroups = s.ldGroups := rfl
@[simp] theorem State.setLine_gnb (n : Nat) (l : HbLine) : (s.setLine n l).gnb = s.gnb := rfl
@[simp] theorem State.setLine_imu (n : Nat) (l : HbLine) : (s.setLine n l).imu = s.imu := rfl
@[simp] theorem State.setLine_cans (n : Nat) (l : HbLine) : (s.setLine n l).cans = s.cans := rfl
@[simp] theorem State.setLine_objs (n : Nat) (l : HbLine) : (s.setLine n l).objs = s.objs := rfl
@[simp] theorem State.setLine_sess (n : Nat) (l : HbLine) : (s.setLine n l).sess = s.sess := rfl
@[simp] theorem State.setLine_msgNext (n : Nat) (l : HbLine) : (s.setLine n l).msgNext = s.msgNext := rfl
@[simp] theorem State.setLine_blocks (n : Nat) (l : HbLine) : (s.setLine n l).blocks = s.blocks := rfl
@[simp] theorem State.setLine_lmpCan (n : Nat) (l : HbLine) : (s.setLine n l).lmpCan = s.lmpCan := rfl
@[simp] theorem State.setLine_lmpRes (n : Nat) (l : HbLine) : (s.setLine n l).lmpRes = s.lmpRes := rfl
@[simp] theorem State.setLine_net (n : Nat) (l : HbLine) : (s.setLine n l).net = s.net := rfl
@[simp] theorem State.setLine_jnl (n : Nat) (l : HbLine) : (s.setLine n l).jnl = s.jnl := rfl
@[simp] theorem State.setLine_role (n : Nat) (l : HbLine) : (s.setLine n l).role = s.role := rfl
@[simp] theorem State.setLine_rst (n : Nat) (l : HbLine) : (s.setLine n l).rst = s.rst := rfl
@[simp] theorem State.setLine_upd (n : Nat) (l : HbLine) : (s.setLine n l).upd = s.upd := rfl
@[simp] theorem State.setLine_tly (n : Nat) (l : HbLine) : (s.setLine n l).tly = s.tly := rfl
@[simp] theorem State.setLine_tap (n : Nat) (l : HbLine) : (s.setLine n l).tap = s.tap := rfl

/-! setCtx -/

@[simp] theorem State.setCtx_pending (c : Nat) (x : Ctx) : (s.setCtx c x).pending = s.pending := rfl
@[simp] theorem State.setCtx_clock (c : Nat) (x : Ctx) : (s.setCtx c x).clock = s.clock := rfl
@[simp] theorem State.setCtx_start (c : Nat) (x : Ctx) : (s.setCtx c x).start = s.start := rfl
@[simp] theorem State.setCtx_freeCtr (c : Nat) (x : Ctx) : (s.setCtx c x).freeCtr = s.freeCtr := rfl
@[simp] theorem State.setCtx_regs (c : Nat) (x : Ctx) : (s.setCtx c x).regs = s.regs := rfl
@[simp] theorem State.setCtx_mem (c : Nat) (x : Ctx) : (s.setCtx c x).mem = s.mem := rfl
@[simp] theorem State.setCtx_poison (c : Nat) (x : Ctx) : (s.setCtx c x).poison = s.poison := rfl
@[simp] theorem State.setCtx_fabBad (c : Nat) (x : Ctx) : (s.setCtx c x).fabBad = s.fabBad := rfl
@[simp] theorem State.setCtx_held (c : Nat) (x : Ctx) : (s.setCtx c x).held = s.held := rfl
@[simp] theorem State.setCtx_fabAt (c : Nat) (x : Ctx) : (s.setCtx c x).fabAt = s.fabAt := rfl
@[simp] theorem State.setCtx_perMaster (c : Nat) (x : Ctx) : (s.setCtx c x).perMaster = s.perMaster := rfl
@[simp] theorem State.setCtx_queSeq (c : Nat) (x : Ctx) : (s.setCtx c x).queSeq = s.queSeq := rfl
@[simp] theorem State.setCtx_reply (c : Nat) (x : Ctx) : (s.setCtx c x).reply = s.reply := rfl
@[simp] theorem State.setCtx_inBeanie (c : Nat) (x : Ctx) : (s.setCtx c x).inBeanie = s.inBeanie := rfl
@[simp] theorem State.setCtx_aCores (c : Nat) (x : Ctx) : (s.setCtx c x).aCores = s.aCores := rfl
@[simp] theorem State.setCtx_lanes (c : Nat) (x : Ctx) : (s.setCtx c x).lanes = s.lanes := rfl
@[simp] theorem State.setCtx_flt (c : Nat) (x : Ctx) : (s.setCtx c x).flt = s.flt := rfl
@[simp] theorem State.setCtx_evr (c : Nat) (x : Ctx) : (s.setCtx c x).evr = s.evr := rfl
@[simp] theorem State.setCtx_hb (c : Nat) (x : Ctx) : (s.setCtx c x).hb = s.hb := rfl
@[simp] theorem State.setCtx_mplLines (c : Nat) (x : Ctx) : (s.setCtx c x).mplLines = s.mplLines := rfl
@[simp] theorem State.setCtx_mplStripe (c : Nat) (x : Ctx) : (s.setCtx c x).mplStripe = s.mplStripe := rfl
@[simp] theorem State.setCtx_mplReadyl (c : Nat) (x : Ctx) : (s.setCtx c x).mplReadyl = s.mplReadyl := rfl
@[simp] theorem State.setCtx_inp (c : Nat) (x : Ctx) : (s.setCtx c x).inp = s.inp := rfl
@[simp] theorem State.setCtx_fins (c : Nat) (x : Ctx) : (s.setCtx c x).fins = s.fins := rfl
@[simp] theorem State.setCtx_fus (c : Nat) (x : Ctx) : (s.setCtx c x).fus = s.fus := rfl
@[simp] theorem State.setCtx_lns (c : Nat) (x : Ctx) : (s.setCtx c x).lns = s.lns := rfl
@[simp] theorem State.setCtx_ces (c : Nat) (x : Ctx) : (s.setCtx c x).ces = s.ces := rfl
@[simp] theorem State.setCtx_mit (c : Nat) (x : Ctx) : (s.setCtx c x).mit = s.mit := rfl
@[simp] theorem State.setCtx_drv (c : Nat) (x : Ctx) : (s.setCtx c x).drv = s.drv := rfl
@[simp] theorem State.setCtx_lds (c : Nat) (x : Ctx) : (s.setCtx c x).lds = s.lds := rfl
@[simp] theorem State.setCtx_ldGroups (c : Nat) (x : Ctx) : (s.setCtx c x).ldGroups = s.ldGroups := rfl
@[simp] theorem State.setCtx_gnb (c : Nat) (x : Ctx) : (s.setCtx c x).gnb = s.gnb := rfl
@[simp] theorem State.setCtx_imu (c : Nat) (x : Ctx) : (s.setCtx c x).imu = s.imu := rfl
@[simp] theorem State.setCtx_cans (c : Nat) (x : Ctx) : (s.setCtx c x).cans = s.cans := rfl
@[simp] theorem State.setCtx_objs (c : Nat) (x : Ctx) : (s.setCtx c x).objs = s.objs := rfl
@[simp] theorem State.setCtx_sess (c : Nat) (x : Ctx) : (s.setCtx c x).sess = s.sess := rfl
@[simp] theorem State.setCtx_msgNext (c : Nat) (x : Ctx) : (s.setCtx c x).msgNext = s.msgNext := rfl
@[simp] theorem State.setCtx_blocks (c : Nat) (x : Ctx) : (s.setCtx c x).blocks = s.blocks := rfl
@[simp] theorem State.setCtx_lmpCan (c : Nat) (x : Ctx) : (s.setCtx c x).lmpCan = s.lmpCan := rfl
@[simp] theorem State.setCtx_lmpRes (c : Nat) (x : Ctx) : (s.setCtx c x).lmpRes = s.lmpRes := rfl
@[simp] theorem State.setCtx_net (c : Nat) (x : Ctx) : (s.setCtx c x).net = s.net := rfl
@[simp] theorem State.setCtx_jnl (c : Nat) (x : Ctx) : (s.setCtx c x).jnl = s.jnl := rfl
@[simp] theorem State.setCtx_role (c : Nat) (x : Ctx) : (s.setCtx c x).role = s.role := rfl
@[simp] theorem State.setCtx_rst (c : Nat) (x : Ctx) : (s.setCtx c x).rst = s.rst := rfl
@[simp] theorem State.setCtx_upd (c : Nat) (x : Ctx) : (s.setCtx c x).upd = s.upd := rfl
@[simp] theorem State.setCtx_tly (c : Nat) (x : Ctx) : (s.setCtx c x).tly = s.tly := rfl
@[simp] theorem State.setCtx_tap (c : Nat) (x : Ctx) : (s.setCtx c x).tap = s.tap := rfl

/-! withInp -/

@[simp] theorem State.withInp_inp (x : Inputs) : (s.withInp x).inp = x := rfl
@[simp] theorem State.withInp_pending (x : Inputs) : (s.withInp x).pending = s.pending := rfl
@[simp] theorem State.withInp_clock (x : Inputs) : (s.withInp x).clock = s.clock := rfl
@[simp] theorem State.withInp_start (x : Inputs) : (s.withInp x).start = s.start := rfl
@[simp] theorem State.withInp_freeCtr (x : Inputs) : (s.withInp x).freeCtr = s.freeCtr := rfl
@[simp] theorem State.withInp_regs (x : Inputs) : (s.withInp x).regs = s.regs := rfl
@[simp] theorem State.withInp_mem (x : Inputs) : (s.withInp x).mem = s.mem := rfl
@[simp] theorem State.withInp_poison (x : Inputs) : (s.withInp x).poison = s.poison := rfl
@[simp] theorem State.withInp_fabBad (x : Inputs) : (s.withInp x).fabBad = s.fabBad := rfl
@[simp] theorem State.withInp_held (x : Inputs) : (s.withInp x).held = s.held := rfl
@[simp] theorem State.withInp_fabAt (x : Inputs) : (s.withInp x).fabAt = s.fabAt := rfl
@[simp] theorem State.withInp_perMaster (x : Inputs) : (s.withInp x).perMaster = s.perMaster := rfl
@[simp] theorem State.withInp_queSeq (x : Inputs) : (s.withInp x).queSeq = s.queSeq := rfl
@[simp] theorem State.withInp_reply (x : Inputs) : (s.withInp x).reply = s.reply := rfl
@[simp] theorem State.withInp_inBeanie (x : Inputs) : (s.withInp x).inBeanie = s.inBeanie := rfl
@[simp] theorem State.withInp_aCores (x : Inputs) : (s.withInp x).aCores = s.aCores := rfl
@[simp] theorem State.withInp_lanes (x : Inputs) : (s.withInp x).lanes = s.lanes := rfl
@[simp] theorem State.withInp_flt (x : Inputs) : (s.withInp x).flt = s.flt := rfl
@[simp] theorem State.withInp_evr (x : Inputs) : (s.withInp x).evr = s.evr := rfl
@[simp] theorem State.withInp_hb (x : Inputs) : (s.withInp x).hb = s.hb := rfl
@[simp] theorem State.withInp_ctxs (x : Inputs) : (s.withInp x).ctxs = s.ctxs := rfl
@[simp] theorem State.withInp_mplLines (x : Inputs) : (s.withInp x).mplLines = s.mplLines := rfl
@[simp] theorem State.withInp_mplStripe (x : Inputs) : (s.withInp x).mplStripe = s.mplStripe := rfl
@[simp] theorem State.withInp_mplReadyl (x : Inputs) : (s.withInp x).mplReadyl = s.mplReadyl := rfl
@[simp] theorem State.withInp_fins (x : Inputs) : (s.withInp x).fins = s.fins := rfl
@[simp] theorem State.withInp_fus (x : Inputs) : (s.withInp x).fus = s.fus := rfl
@[simp] theorem State.withInp_lns (x : Inputs) : (s.withInp x).lns = s.lns := rfl
@[simp] theorem State.withInp_ces (x : Inputs) : (s.withInp x).ces = s.ces := rfl
@[simp] theorem State.withInp_mit (x : Inputs) : (s.withInp x).mit = s.mit := rfl
@[simp] theorem State.withInp_drv (x : Inputs) : (s.withInp x).drv = s.drv := rfl
@[simp] theorem State.withInp_lds (x : Inputs) : (s.withInp x).lds = s.lds := rfl
@[simp] theorem State.withInp_ldGroups (x : Inputs) : (s.withInp x).ldGroups = s.ldGroups := rfl
@[simp] theorem State.withInp_gnb (x : Inputs) : (s.withInp x).gnb = s.gnb := rfl
@[simp] theorem State.withInp_imu (x : Inputs) : (s.withInp x).imu = s.imu := rfl
@[simp] theorem State.withInp_cans (x : Inputs) : (s.withInp x).cans = s.cans := rfl
@[simp] theorem State.withInp_objs (x : Inputs) : (s.withInp x).objs = s.objs := rfl
@[simp] theorem State.withInp_sess (x : Inputs) : (s.withInp x).sess = s.sess := rfl
@[simp] theorem State.withInp_msgNext (x : Inputs) : (s.withInp x).msgNext = s.msgNext := rfl
@[simp] theorem State.withInp_blocks (x : Inputs) : (s.withInp x).blocks = s.blocks := rfl
@[simp] theorem State.withInp_lmpCan (x : Inputs) : (s.withInp x).lmpCan = s.lmpCan := rfl
@[simp] theorem State.withInp_lmpRes (x : Inputs) : (s.withInp x).lmpRes = s.lmpRes := rfl
@[simp] theorem State.withInp_net (x : Inputs) : (s.withInp x).net = s.net := rfl
@[simp] theorem State.withInp_jnl (x : Inputs) : (s.withInp x).jnl = s.jnl := rfl
@[simp] theorem State.withInp_role (x : Inputs) : (s.withInp x).role = s.role := rfl
@[simp] theorem State.withInp_rst (x : Inputs) : (s.withInp x).rst = s.rst := rfl
@[simp] theorem State.withInp_upd (x : Inputs) : (s.withInp x).upd = s.upd := rfl
@[simp] theorem State.withInp_tly (x : Inputs) : (s.withInp x).tly = s.tly := rfl
@[simp] theorem State.withInp_tap (x : Inputs) : (s.withInp x).tap = s.tap := rfl

/-! setHrin -/

@[simp] theorem State.setHrin_pending (n : Nat) (x : Hrin) : (s.setHrin n x).pending = s.pending := rfl
@[simp] theorem State.setHrin_clock (n : Nat) (x : Hrin) : (s.setHrin n x).clock = s.clock := rfl
@[simp] theorem State.setHrin_start (n : Nat) (x : Hrin) : (s.setHrin n x).start = s.start := rfl
@[simp] theorem State.setHrin_freeCtr (n : Nat) (x : Hrin) : (s.setHrin n x).freeCtr = s.freeCtr := rfl
@[simp] theorem State.setHrin_regs (n : Nat) (x : Hrin) : (s.setHrin n x).regs = s.regs := rfl
@[simp] theorem State.setHrin_mem (n : Nat) (x : Hrin) : (s.setHrin n x).mem = s.mem := rfl
@[simp] theorem State.setHrin_poison (n : Nat) (x : Hrin) : (s.setHrin n x).poison = s.poison := rfl
@[simp] theorem State.setHrin_fabBad (n : Nat) (x : Hrin) : (s.setHrin n x).fabBad = s.fabBad := rfl
@[simp] theorem State.setHrin_held (n : Nat) (x : Hrin) : (s.setHrin n x).held = s.held := rfl
@[simp] theorem State.setHrin_fabAt (n : Nat) (x : Hrin) : (s.setHrin n x).fabAt = s.fabAt := rfl
@[simp] theorem State.setHrin_perMaster (n : Nat) (x : Hrin) : (s.setHrin n x).perMaster = s.perMaster := rfl
@[simp] theorem State.setHrin_queSeq (n : Nat) (x : Hrin) : (s.setHrin n x).queSeq = s.queSeq := rfl
@[simp] theorem State.setHrin_reply (n : Nat) (x : Hrin) : (s.setHrin n x).reply = s.reply := rfl
@[simp] theorem State.setHrin_inBeanie (n : Nat) (x : Hrin) : (s.setHrin n x).inBeanie = s.inBeanie := rfl
@[simp] theorem State.setHrin_aCores (n : Nat) (x : Hrin) : (s.setHrin n x).aCores = s.aCores := rfl
@[simp] theorem State.setHrin_lanes (n : Nat) (x : Hrin) : (s.setHrin n x).lanes = s.lanes := rfl
@[simp] theorem State.setHrin_flt (n : Nat) (x : Hrin) : (s.setHrin n x).flt = s.flt := rfl
@[simp] theorem State.setHrin_evr (n : Nat) (x : Hrin) : (s.setHrin n x).evr = s.evr := rfl
@[simp] theorem State.setHrin_hb (n : Nat) (x : Hrin) : (s.setHrin n x).hb = s.hb := rfl
@[simp] theorem State.setHrin_ctxs (n : Nat) (x : Hrin) : (s.setHrin n x).ctxs = s.ctxs := rfl
@[simp] theorem State.setHrin_mplLines (n : Nat) (x : Hrin) : (s.setHrin n x).mplLines = s.mplLines := rfl
@[simp] theorem State.setHrin_mplStripe (n : Nat) (x : Hrin) : (s.setHrin n x).mplStripe = s.mplStripe := rfl
@[simp] theorem State.setHrin_mplReadyl (n : Nat) (x : Hrin) : (s.setHrin n x).mplReadyl = s.mplReadyl := rfl
@[simp] theorem State.setHrin_fins (n : Nat) (x : Hrin) : (s.setHrin n x).fins = s.fins := rfl
@[simp] theorem State.setHrin_fus (n : Nat) (x : Hrin) : (s.setHrin n x).fus = s.fus := rfl
@[simp] theorem State.setHrin_lns (n : Nat) (x : Hrin) : (s.setHrin n x).lns = s.lns := rfl
@[simp] theorem State.setHrin_ces (n : Nat) (x : Hrin) : (s.setHrin n x).ces = s.ces := rfl
@[simp] theorem State.setHrin_mit (n : Nat) (x : Hrin) : (s.setHrin n x).mit = s.mit := rfl
@[simp] theorem State.setHrin_drv (n : Nat) (x : Hrin) : (s.setHrin n x).drv = s.drv := rfl
@[simp] theorem State.setHrin_lds (n : Nat) (x : Hrin) : (s.setHrin n x).lds = s.lds := rfl
@[simp] theorem State.setHrin_ldGroups (n : Nat) (x : Hrin) : (s.setHrin n x).ldGroups = s.ldGroups := rfl
@[simp] theorem State.setHrin_gnb (n : Nat) (x : Hrin) : (s.setHrin n x).gnb = s.gnb := rfl
@[simp] theorem State.setHrin_imu (n : Nat) (x : Hrin) : (s.setHrin n x).imu = s.imu := rfl
@[simp] theorem State.setHrin_cans (n : Nat) (x : Hrin) : (s.setHrin n x).cans = s.cans := rfl
@[simp] theorem State.setHrin_objs (n : Nat) (x : Hrin) : (s.setHrin n x).objs = s.objs := rfl
@[simp] theorem State.setHrin_sess (n : Nat) (x : Hrin) : (s.setHrin n x).sess = s.sess := rfl
@[simp] theorem State.setHrin_msgNext (n : Nat) (x : Hrin) : (s.setHrin n x).msgNext = s.msgNext := rfl
@[simp] theorem State.setHrin_blocks (n : Nat) (x : Hrin) : (s.setHrin n x).blocks = s.blocks := rfl
@[simp] theorem State.setHrin_lmpCan (n : Nat) (x : Hrin) : (s.setHrin n x).lmpCan = s.lmpCan := rfl
@[simp] theorem State.setHrin_lmpRes (n : Nat) (x : Hrin) : (s.setHrin n x).lmpRes = s.lmpRes := rfl
@[simp] theorem State.setHrin_net (n : Nat) (x : Hrin) : (s.setHrin n x).net = s.net := rfl
@[simp] theorem State.setHrin_jnl (n : Nat) (x : Hrin) : (s.setHrin n x).jnl = s.jnl := rfl
@[simp] theorem State.setHrin_role (n : Nat) (x : Hrin) : (s.setHrin n x).role = s.role := rfl
@[simp] theorem State.setHrin_rst (n : Nat) (x : Hrin) : (s.setHrin n x).rst = s.rst := rfl
@[simp] theorem State.setHrin_upd (n : Nat) (x : Hrin) : (s.setHrin n x).upd = s.upd := rfl
@[simp] theorem State.setHrin_tly (n : Nat) (x : Hrin) : (s.setHrin n x).tly = s.tly := rfl
@[simp] theorem State.setHrin_tap (n : Nat) (x : Hrin) : (s.setHrin n x).tap = s.tap := rfl

/-! setScan -/

@[simp] theorem State.setScan_pending (l : Nat) (x : ScanList) : (s.setScan l x).pending = s.pending := rfl
@[simp] theorem State.setScan_clock (l : Nat) (x : ScanList) : (s.setScan l x).clock = s.clock := rfl
@[simp] theorem State.setScan_start (l : Nat) (x : ScanList) : (s.setScan l x).start = s.start := rfl
@[simp] theorem State.setScan_freeCtr (l : Nat) (x : ScanList) : (s.setScan l x).freeCtr = s.freeCtr := rfl
@[simp] theorem State.setScan_regs (l : Nat) (x : ScanList) : (s.setScan l x).regs = s.regs := rfl
@[simp] theorem State.setScan_mem (l : Nat) (x : ScanList) : (s.setScan l x).mem = s.mem := rfl
@[simp] theorem State.setScan_poison (l : Nat) (x : ScanList) : (s.setScan l x).poison = s.poison := rfl
@[simp] theorem State.setScan_fabBad (l : Nat) (x : ScanList) : (s.setScan l x).fabBad = s.fabBad := rfl
@[simp] theorem State.setScan_held (l : Nat) (x : ScanList) : (s.setScan l x).held = s.held := rfl
@[simp] theorem State.setScan_fabAt (l : Nat) (x : ScanList) : (s.setScan l x).fabAt = s.fabAt := rfl
@[simp] theorem State.setScan_perMaster (l : Nat) (x : ScanList) : (s.setScan l x).perMaster = s.perMaster := rfl
@[simp] theorem State.setScan_queSeq (l : Nat) (x : ScanList) : (s.setScan l x).queSeq = s.queSeq := rfl
@[simp] theorem State.setScan_reply (l : Nat) (x : ScanList) : (s.setScan l x).reply = s.reply := rfl
@[simp] theorem State.setScan_inBeanie (l : Nat) (x : ScanList) : (s.setScan l x).inBeanie = s.inBeanie := rfl
@[simp] theorem State.setScan_aCores (l : Nat) (x : ScanList) : (s.setScan l x).aCores = s.aCores := rfl
@[simp] theorem State.setScan_lanes (l : Nat) (x : ScanList) : (s.setScan l x).lanes = s.lanes := rfl
@[simp] theorem State.setScan_flt (l : Nat) (x : ScanList) : (s.setScan l x).flt = s.flt := rfl
@[simp] theorem State.setScan_evr (l : Nat) (x : ScanList) : (s.setScan l x).evr = s.evr := rfl
@[simp] theorem State.setScan_hb (l : Nat) (x : ScanList) : (s.setScan l x).hb = s.hb := rfl
@[simp] theorem State.setScan_ctxs (l : Nat) (x : ScanList) : (s.setScan l x).ctxs = s.ctxs := rfl
@[simp] theorem State.setScan_mplLines (l : Nat) (x : ScanList) : (s.setScan l x).mplLines = s.mplLines := rfl
@[simp] theorem State.setScan_mplStripe (l : Nat) (x : ScanList) : (s.setScan l x).mplStripe = s.mplStripe := rfl
@[simp] theorem State.setScan_mplReadyl (l : Nat) (x : ScanList) : (s.setScan l x).mplReadyl = s.mplReadyl := rfl
@[simp] theorem State.setScan_fins (l : Nat) (x : ScanList) : (s.setScan l x).fins = s.fins := rfl
@[simp] theorem State.setScan_fus (l : Nat) (x : ScanList) : (s.setScan l x).fus = s.fus := rfl
@[simp] theorem State.setScan_lns (l : Nat) (x : ScanList) : (s.setScan l x).lns = s.lns := rfl
@[simp] theorem State.setScan_ces (l : Nat) (x : ScanList) : (s.setScan l x).ces = s.ces := rfl
@[simp] theorem State.setScan_mit (l : Nat) (x : ScanList) : (s.setScan l x).mit = s.mit := rfl
@[simp] theorem State.setScan_drv (l : Nat) (x : ScanList) : (s.setScan l x).drv = s.drv := rfl
@[simp] theorem State.setScan_lds (l : Nat) (x : ScanList) : (s.setScan l x).lds = s.lds := rfl
@[simp] theorem State.setScan_ldGroups (l : Nat) (x : ScanList) : (s.setScan l x).ldGroups = s.ldGroups := rfl
@[simp] theorem State.setScan_gnb (l : Nat) (x : ScanList) : (s.setScan l x).gnb = s.gnb := rfl
@[simp] theorem State.setScan_imu (l : Nat) (x : ScanList) : (s.setScan l x).imu = s.imu := rfl
@[simp] theorem State.setScan_cans (l : Nat) (x : ScanList) : (s.setScan l x).cans = s.cans := rfl
@[simp] theorem State.setScan_objs (l : Nat) (x : ScanList) : (s.setScan l x).objs = s.objs := rfl
@[simp] theorem State.setScan_sess (l : Nat) (x : ScanList) : (s.setScan l x).sess = s.sess := rfl
@[simp] theorem State.setScan_msgNext (l : Nat) (x : ScanList) : (s.setScan l x).msgNext = s.msgNext := rfl
@[simp] theorem State.setScan_blocks (l : Nat) (x : ScanList) : (s.setScan l x).blocks = s.blocks := rfl
@[simp] theorem State.setScan_lmpCan (l : Nat) (x : ScanList) : (s.setScan l x).lmpCan = s.lmpCan := rfl
@[simp] theorem State.setScan_lmpRes (l : Nat) (x : ScanList) : (s.setScan l x).lmpRes = s.lmpRes := rfl
@[simp] theorem State.setScan_net (l : Nat) (x : ScanList) : (s.setScan l x).net = s.net := rfl
@[simp] theorem State.setScan_jnl (l : Nat) (x : ScanList) : (s.setScan l x).jnl = s.jnl := rfl
@[simp] theorem State.setScan_role (l : Nat) (x : ScanList) : (s.setScan l x).role = s.role := rfl
@[simp] theorem State.setScan_rst (l : Nat) (x : ScanList) : (s.setScan l x).rst = s.rst := rfl
@[simp] theorem State.setScan_upd (l : Nat) (x : ScanList) : (s.setScan l x).upd = s.upd := rfl
@[simp] theorem State.setScan_tly (l : Nat) (x : ScanList) : (s.setScan l x).tly = s.tly := rfl
@[simp] theorem State.setScan_tap (l : Nat) (x : ScanList) : (s.setScan l x).tap = s.tap := rfl

/-! setPair -/

@[simp] theorem State.setPair_pending (p : Nat) (x : CapPair) : (s.setPair p x).pending = s.pending := rfl
@[simp] theorem State.setPair_clock (p : Nat) (x : CapPair) : (s.setPair p x).clock = s.clock := rfl
@[simp] theorem State.setPair_start (p : Nat) (x : CapPair) : (s.setPair p x).start = s.start := rfl
@[simp] theorem State.setPair_freeCtr (p : Nat) (x : CapPair) : (s.setPair p x).freeCtr = s.freeCtr := rfl
@[simp] theorem State.setPair_regs (p : Nat) (x : CapPair) : (s.setPair p x).regs = s.regs := rfl
@[simp] theorem State.setPair_mem (p : Nat) (x : CapPair) : (s.setPair p x).mem = s.mem := rfl
@[simp] theorem State.setPair_poison (p : Nat) (x : CapPair) : (s.setPair p x).poison = s.poison := rfl
@[simp] theorem State.setPair_fabBad (p : Nat) (x : CapPair) : (s.setPair p x).fabBad = s.fabBad := rfl
@[simp] theorem State.setPair_held (p : Nat) (x : CapPair) : (s.setPair p x).held = s.held := rfl
@[simp] theorem State.setPair_fabAt (p : Nat) (x : CapPair) : (s.setPair p x).fabAt = s.fabAt := rfl
@[simp] theorem State.setPair_perMaster (p : Nat) (x : CapPair) : (s.setPair p x).perMaster = s.perMaster := rfl
@[simp] theorem State.setPair_queSeq (p : Nat) (x : CapPair) : (s.setPair p x).queSeq = s.queSeq := rfl
@[simp] theorem State.setPair_reply (p : Nat) (x : CapPair) : (s.setPair p x).reply = s.reply := rfl
@[simp] theorem State.setPair_inBeanie (p : Nat) (x : CapPair) : (s.setPair p x).inBeanie = s.inBeanie := rfl
@[simp] theorem State.setPair_aCores (p : Nat) (x : CapPair) : (s.setPair p x).aCores = s.aCores := rfl
@[simp] theorem State.setPair_lanes (p : Nat) (x : CapPair) : (s.setPair p x).lanes = s.lanes := rfl
@[simp] theorem State.setPair_flt (p : Nat) (x : CapPair) : (s.setPair p x).flt = s.flt := rfl
@[simp] theorem State.setPair_evr (p : Nat) (x : CapPair) : (s.setPair p x).evr = s.evr := rfl
@[simp] theorem State.setPair_hb (p : Nat) (x : CapPair) : (s.setPair p x).hb = s.hb := rfl
@[simp] theorem State.setPair_ctxs (p : Nat) (x : CapPair) : (s.setPair p x).ctxs = s.ctxs := rfl
@[simp] theorem State.setPair_mplLines (p : Nat) (x : CapPair) : (s.setPair p x).mplLines = s.mplLines := rfl
@[simp] theorem State.setPair_mplStripe (p : Nat) (x : CapPair) : (s.setPair p x).mplStripe = s.mplStripe := rfl
@[simp] theorem State.setPair_mplReadyl (p : Nat) (x : CapPair) : (s.setPair p x).mplReadyl = s.mplReadyl := rfl
@[simp] theorem State.setPair_fins (p : Nat) (x : CapPair) : (s.setPair p x).fins = s.fins := rfl
@[simp] theorem State.setPair_fus (p : Nat) (x : CapPair) : (s.setPair p x).fus = s.fus := rfl
@[simp] theorem State.setPair_lns (p : Nat) (x : CapPair) : (s.setPair p x).lns = s.lns := rfl
@[simp] theorem State.setPair_ces (p : Nat) (x : CapPair) : (s.setPair p x).ces = s.ces := rfl
@[simp] theorem State.setPair_mit (p : Nat) (x : CapPair) : (s.setPair p x).mit = s.mit := rfl
@[simp] theorem State.setPair_drv (p : Nat) (x : CapPair) : (s.setPair p x).drv = s.drv := rfl
@[simp] theorem State.setPair_lds (p : Nat) (x : CapPair) : (s.setPair p x).lds = s.lds := rfl
@[simp] theorem State.setPair_ldGroups (p : Nat) (x : CapPair) : (s.setPair p x).ldGroups = s.ldGroups := rfl
@[simp] theorem State.setPair_gnb (p : Nat) (x : CapPair) : (s.setPair p x).gnb = s.gnb := rfl
@[simp] theorem State.setPair_imu (p : Nat) (x : CapPair) : (s.setPair p x).imu = s.imu := rfl
@[simp] theorem State.setPair_cans (p : Nat) (x : CapPair) : (s.setPair p x).cans = s.cans := rfl
@[simp] theorem State.setPair_objs (p : Nat) (x : CapPair) : (s.setPair p x).objs = s.objs := rfl
@[simp] theorem State.setPair_sess (p : Nat) (x : CapPair) : (s.setPair p x).sess = s.sess := rfl
@[simp] theorem State.setPair_msgNext (p : Nat) (x : CapPair) : (s.setPair p x).msgNext = s.msgNext := rfl
@[simp] theorem State.setPair_blocks (p : Nat) (x : CapPair) : (s.setPair p x).blocks = s.blocks := rfl
@[simp] theorem State.setPair_lmpCan (p : Nat) (x : CapPair) : (s.setPair p x).lmpCan = s.lmpCan := rfl
@[simp] theorem State.setPair_lmpRes (p : Nat) (x : CapPair) : (s.setPair p x).lmpRes = s.lmpRes := rfl
@[simp] theorem State.setPair_net (p : Nat) (x : CapPair) : (s.setPair p x).net = s.net := rfl
@[simp] theorem State.setPair_jnl (p : Nat) (x : CapPair) : (s.setPair p x).jnl = s.jnl := rfl
@[simp] theorem State.setPair_role (p : Nat) (x : CapPair) : (s.setPair p x).role = s.role := rfl
@[simp] theorem State.setPair_rst (p : Nat) (x : CapPair) : (s.setPair p x).rst = s.rst := rfl
@[simp] theorem State.setPair_upd (p : Nat) (x : CapPair) : (s.setPair p x).upd = s.upd := rfl
@[simp] theorem State.setPair_tly (p : Nat) (x : CapPair) : (s.setPair p x).tly = s.tly := rfl
@[simp] theorem State.setPair_tap (p : Nat) (x : CapPair) : (s.setPair p x).tap = s.tap := rfl

/-! setFin -/

@[simp] theorem State.setFin_pending (i : Nat) (x : FinSt) : (s.setFin i x).pending = s.pending := rfl
@[simp] theorem State.setFin_clock (i : Nat) (x : FinSt) : (s.setFin i x).clock = s.clock := rfl
@[simp] theorem State.setFin_start (i : Nat) (x : FinSt) : (s.setFin i x).start = s.start := rfl
@[simp] theorem State.setFin_freeCtr (i : Nat) (x : FinSt) : (s.setFin i x).freeCtr = s.freeCtr := rfl
@[simp] theorem State.setFin_regs (i : Nat) (x : FinSt) : (s.setFin i x).regs = s.regs := rfl
@[simp] theorem State.setFin_mem (i : Nat) (x : FinSt) : (s.setFin i x).mem = s.mem := rfl
@[simp] theorem State.setFin_poison (i : Nat) (x : FinSt) : (s.setFin i x).poison = s.poison := rfl
@[simp] theorem State.setFin_fabBad (i : Nat) (x : FinSt) : (s.setFin i x).fabBad = s.fabBad := rfl
@[simp] theorem State.setFin_held (i : Nat) (x : FinSt) : (s.setFin i x).held = s.held := rfl
@[simp] theorem State.setFin_fabAt (i : Nat) (x : FinSt) : (s.setFin i x).fabAt = s.fabAt := rfl
@[simp] theorem State.setFin_perMaster (i : Nat) (x : FinSt) : (s.setFin i x).perMaster = s.perMaster := rfl
@[simp] theorem State.setFin_queSeq (i : Nat) (x : FinSt) : (s.setFin i x).queSeq = s.queSeq := rfl
@[simp] theorem State.setFin_reply (i : Nat) (x : FinSt) : (s.setFin i x).reply = s.reply := rfl
@[simp] theorem State.setFin_inBeanie (i : Nat) (x : FinSt) : (s.setFin i x).inBeanie = s.inBeanie := rfl
@[simp] theorem State.setFin_aCores (i : Nat) (x : FinSt) : (s.setFin i x).aCores = s.aCores := rfl
@[simp] theorem State.setFin_lanes (i : Nat) (x : FinSt) : (s.setFin i x).lanes = s.lanes := rfl
@[simp] theorem State.setFin_flt (i : Nat) (x : FinSt) : (s.setFin i x).flt = s.flt := rfl
@[simp] theorem State.setFin_evr (i : Nat) (x : FinSt) : (s.setFin i x).evr = s.evr := rfl
@[simp] theorem State.setFin_hb (i : Nat) (x : FinSt) : (s.setFin i x).hb = s.hb := rfl
@[simp] theorem State.setFin_ctxs (i : Nat) (x : FinSt) : (s.setFin i x).ctxs = s.ctxs := rfl
@[simp] theorem State.setFin_mplLines (i : Nat) (x : FinSt) : (s.setFin i x).mplLines = s.mplLines := rfl
@[simp] theorem State.setFin_mplStripe (i : Nat) (x : FinSt) : (s.setFin i x).mplStripe = s.mplStripe := rfl
@[simp] theorem State.setFin_mplReadyl (i : Nat) (x : FinSt) : (s.setFin i x).mplReadyl = s.mplReadyl := rfl
@[simp] theorem State.setFin_inp (i : Nat) (x : FinSt) : (s.setFin i x).inp = s.inp := rfl
@[simp] theorem State.setFin_fus (i : Nat) (x : FinSt) : (s.setFin i x).fus = s.fus := rfl
@[simp] theorem State.setFin_lns (i : Nat) (x : FinSt) : (s.setFin i x).lns = s.lns := rfl
@[simp] theorem State.setFin_ces (i : Nat) (x : FinSt) : (s.setFin i x).ces = s.ces := rfl
@[simp] theorem State.setFin_mit (i : Nat) (x : FinSt) : (s.setFin i x).mit = s.mit := rfl
@[simp] theorem State.setFin_drv (i : Nat) (x : FinSt) : (s.setFin i x).drv = s.drv := rfl
@[simp] theorem State.setFin_lds (i : Nat) (x : FinSt) : (s.setFin i x).lds = s.lds := rfl
@[simp] theorem State.setFin_ldGroups (i : Nat) (x : FinSt) : (s.setFin i x).ldGroups = s.ldGroups := rfl
@[simp] theorem State.setFin_gnb (i : Nat) (x : FinSt) : (s.setFin i x).gnb = s.gnb := rfl
@[simp] theorem State.setFin_imu (i : Nat) (x : FinSt) : (s.setFin i x).imu = s.imu := rfl
@[simp] theorem State.setFin_cans (i : Nat) (x : FinSt) : (s.setFin i x).cans = s.cans := rfl
@[simp] theorem State.setFin_objs (i : Nat) (x : FinSt) : (s.setFin i x).objs = s.objs := rfl
@[simp] theorem State.setFin_sess (i : Nat) (x : FinSt) : (s.setFin i x).sess = s.sess := rfl
@[simp] theorem State.setFin_msgNext (i : Nat) (x : FinSt) : (s.setFin i x).msgNext = s.msgNext := rfl
@[simp] theorem State.setFin_blocks (i : Nat) (x : FinSt) : (s.setFin i x).blocks = s.blocks := rfl
@[simp] theorem State.setFin_lmpCan (i : Nat) (x : FinSt) : (s.setFin i x).lmpCan = s.lmpCan := rfl
@[simp] theorem State.setFin_lmpRes (i : Nat) (x : FinSt) : (s.setFin i x).lmpRes = s.lmpRes := rfl
@[simp] theorem State.setFin_net (i : Nat) (x : FinSt) : (s.setFin i x).net = s.net := rfl
@[simp] theorem State.setFin_jnl (i : Nat) (x : FinSt) : (s.setFin i x).jnl = s.jnl := rfl
@[simp] theorem State.setFin_role (i : Nat) (x : FinSt) : (s.setFin i x).role = s.role := rfl
@[simp] theorem State.setFin_rst (i : Nat) (x : FinSt) : (s.setFin i x).rst = s.rst := rfl
@[simp] theorem State.setFin_upd (i : Nat) (x : FinSt) : (s.setFin i x).upd = s.upd := rfl
@[simp] theorem State.setFin_tly (i : Nat) (x : FinSt) : (s.setFin i x).tly = s.tly := rfl
@[simp] theorem State.setFin_tap (i : Nat) (x : FinSt) : (s.setFin i x).tap = s.tap := rfl

/-! withFus -/

@[simp] theorem State.withFus_fus (x : Fusion) : (s.withFus x).fus = x := rfl
@[simp] theorem State.withFus_pending (x : Fusion) : (s.withFus x).pending = s.pending := rfl
@[simp] theorem State.withFus_clock (x : Fusion) : (s.withFus x).clock = s.clock := rfl
@[simp] theorem State.withFus_start (x : Fusion) : (s.withFus x).start = s.start := rfl
@[simp] theorem State.withFus_freeCtr (x : Fusion) : (s.withFus x).freeCtr = s.freeCtr := rfl
@[simp] theorem State.withFus_regs (x : Fusion) : (s.withFus x).regs = s.regs := rfl
@[simp] theorem State.withFus_mem (x : Fusion) : (s.withFus x).mem = s.mem := rfl
@[simp] theorem State.withFus_poison (x : Fusion) : (s.withFus x).poison = s.poison := rfl
@[simp] theorem State.withFus_fabBad (x : Fusion) : (s.withFus x).fabBad = s.fabBad := rfl
@[simp] theorem State.withFus_held (x : Fusion) : (s.withFus x).held = s.held := rfl
@[simp] theorem State.withFus_fabAt (x : Fusion) : (s.withFus x).fabAt = s.fabAt := rfl
@[simp] theorem State.withFus_perMaster (x : Fusion) : (s.withFus x).perMaster = s.perMaster := rfl
@[simp] theorem State.withFus_queSeq (x : Fusion) : (s.withFus x).queSeq = s.queSeq := rfl
@[simp] theorem State.withFus_reply (x : Fusion) : (s.withFus x).reply = s.reply := rfl
@[simp] theorem State.withFus_inBeanie (x : Fusion) : (s.withFus x).inBeanie = s.inBeanie := rfl
@[simp] theorem State.withFus_aCores (x : Fusion) : (s.withFus x).aCores = s.aCores := rfl
@[simp] theorem State.withFus_lanes (x : Fusion) : (s.withFus x).lanes = s.lanes := rfl
@[simp] theorem State.withFus_flt (x : Fusion) : (s.withFus x).flt = s.flt := rfl
@[simp] theorem State.withFus_evr (x : Fusion) : (s.withFus x).evr = s.evr := rfl
@[simp] theorem State.withFus_hb (x : Fusion) : (s.withFus x).hb = s.hb := rfl
@[simp] theorem State.withFus_ctxs (x : Fusion) : (s.withFus x).ctxs = s.ctxs := rfl
@[simp] theorem State.withFus_mplLines (x : Fusion) : (s.withFus x).mplLines = s.mplLines := rfl
@[simp] theorem State.withFus_mplStripe (x : Fusion) : (s.withFus x).mplStripe = s.mplStripe := rfl
@[simp] theorem State.withFus_mplReadyl (x : Fusion) : (s.withFus x).mplReadyl = s.mplReadyl := rfl
@[simp] theorem State.withFus_inp (x : Fusion) : (s.withFus x).inp = s.inp := rfl
@[simp] theorem State.withFus_fins (x : Fusion) : (s.withFus x).fins = s.fins := rfl
@[simp] theorem State.withFus_lns (x : Fusion) : (s.withFus x).lns = s.lns := rfl
@[simp] theorem State.withFus_ces (x : Fusion) : (s.withFus x).ces = s.ces := rfl
@[simp] theorem State.withFus_mit (x : Fusion) : (s.withFus x).mit = s.mit := rfl
@[simp] theorem State.withFus_drv (x : Fusion) : (s.withFus x).drv = s.drv := rfl
@[simp] theorem State.withFus_lds (x : Fusion) : (s.withFus x).lds = s.lds := rfl
@[simp] theorem State.withFus_ldGroups (x : Fusion) : (s.withFus x).ldGroups = s.ldGroups := rfl
@[simp] theorem State.withFus_gnb (x : Fusion) : (s.withFus x).gnb = s.gnb := rfl
@[simp] theorem State.withFus_imu (x : Fusion) : (s.withFus x).imu = s.imu := rfl
@[simp] theorem State.withFus_cans (x : Fusion) : (s.withFus x).cans = s.cans := rfl
@[simp] theorem State.withFus_objs (x : Fusion) : (s.withFus x).objs = s.objs := rfl
@[simp] theorem State.withFus_sess (x : Fusion) : (s.withFus x).sess = s.sess := rfl
@[simp] theorem State.withFus_msgNext (x : Fusion) : (s.withFus x).msgNext = s.msgNext := rfl
@[simp] theorem State.withFus_blocks (x : Fusion) : (s.withFus x).blocks = s.blocks := rfl
@[simp] theorem State.withFus_lmpCan (x : Fusion) : (s.withFus x).lmpCan = s.lmpCan := rfl
@[simp] theorem State.withFus_lmpRes (x : Fusion) : (s.withFus x).lmpRes = s.lmpRes := rfl
@[simp] theorem State.withFus_net (x : Fusion) : (s.withFus x).net = s.net := rfl
@[simp] theorem State.withFus_jnl (x : Fusion) : (s.withFus x).jnl = s.jnl := rfl
@[simp] theorem State.withFus_role (x : Fusion) : (s.withFus x).role = s.role := rfl
@[simp] theorem State.withFus_rst (x : Fusion) : (s.withFus x).rst = s.rst := rfl
@[simp] theorem State.withFus_upd (x : Fusion) : (s.withFus x).upd = s.upd := rfl
@[simp] theorem State.withFus_tly (x : Fusion) : (s.withFus x).tly = s.tly := rfl
@[simp] theorem State.withFus_tap (x : Fusion) : (s.withFus x).tap = s.tap := rfl

/-! setGrid -/

@[simp] theorem State.setGrid_pending (g : Nat) (x : Grid) : (s.setGrid g x).pending = s.pending := rfl
@[simp] theorem State.setGrid_clock (g : Nat) (x : Grid) : (s.setGrid g x).clock = s.clock := rfl
@[simp] theorem State.setGrid_start (g : Nat) (x : Grid) : (s.setGrid g x).start = s.start := rfl
@[simp] theorem State.setGrid_freeCtr (g : Nat) (x : Grid) : (s.setGrid g x).freeCtr = s.freeCtr := rfl
@[simp] theorem State.setGrid_regs (g : Nat) (x : Grid) : (s.setGrid g x).regs = s.regs := rfl
@[simp] theorem State.setGrid_mem (g : Nat) (x : Grid) : (s.setGrid g x).mem = s.mem := rfl
@[simp] theorem State.setGrid_poison (g : Nat) (x : Grid) : (s.setGrid g x).poison = s.poison := rfl
@[simp] theorem State.setGrid_fabBad (g : Nat) (x : Grid) : (s.setGrid g x).fabBad = s.fabBad := rfl
@[simp] theorem State.setGrid_held (g : Nat) (x : Grid) : (s.setGrid g x).held = s.held := rfl
@[simp] theorem State.setGrid_fabAt (g : Nat) (x : Grid) : (s.setGrid g x).fabAt = s.fabAt := rfl
@[simp] theorem State.setGrid_perMaster (g : Nat) (x : Grid) : (s.setGrid g x).perMaster = s.perMaster := rfl
@[simp] theorem State.setGrid_queSeq (g : Nat) (x : Grid) : (s.setGrid g x).queSeq = s.queSeq := rfl
@[simp] theorem State.setGrid_reply (g : Nat) (x : Grid) : (s.setGrid g x).reply = s.reply := rfl
@[simp] theorem State.setGrid_inBeanie (g : Nat) (x : Grid) : (s.setGrid g x).inBeanie = s.inBeanie := rfl
@[simp] theorem State.setGrid_aCores (g : Nat) (x : Grid) : (s.setGrid g x).aCores = s.aCores := rfl
@[simp] theorem State.setGrid_lanes (g : Nat) (x : Grid) : (s.setGrid g x).lanes = s.lanes := rfl
@[simp] theorem State.setGrid_flt (g : Nat) (x : Grid) : (s.setGrid g x).flt = s.flt := rfl
@[simp] theorem State.setGrid_evr (g : Nat) (x : Grid) : (s.setGrid g x).evr = s.evr := rfl
@[simp] theorem State.setGrid_hb (g : Nat) (x : Grid) : (s.setGrid g x).hb = s.hb := rfl
@[simp] theorem State.setGrid_ctxs (g : Nat) (x : Grid) : (s.setGrid g x).ctxs = s.ctxs := rfl
@[simp] theorem State.setGrid_mplLines (g : Nat) (x : Grid) : (s.setGrid g x).mplLines = s.mplLines := rfl
@[simp] theorem State.setGrid_mplStripe (g : Nat) (x : Grid) : (s.setGrid g x).mplStripe = s.mplStripe := rfl
@[simp] theorem State.setGrid_mplReadyl (g : Nat) (x : Grid) : (s.setGrid g x).mplReadyl = s.mplReadyl := rfl
@[simp] theorem State.setGrid_inp (g : Nat) (x : Grid) : (s.setGrid g x).inp = s.inp := rfl
@[simp] theorem State.setGrid_fins (g : Nat) (x : Grid) : (s.setGrid g x).fins = s.fins := rfl
@[simp] theorem State.setGrid_lns (g : Nat) (x : Grid) : (s.setGrid g x).lns = s.lns := rfl
@[simp] theorem State.setGrid_ces (g : Nat) (x : Grid) : (s.setGrid g x).ces = s.ces := rfl
@[simp] theorem State.setGrid_mit (g : Nat) (x : Grid) : (s.setGrid g x).mit = s.mit := rfl
@[simp] theorem State.setGrid_drv (g : Nat) (x : Grid) : (s.setGrid g x).drv = s.drv := rfl
@[simp] theorem State.setGrid_lds (g : Nat) (x : Grid) : (s.setGrid g x).lds = s.lds := rfl
@[simp] theorem State.setGrid_ldGroups (g : Nat) (x : Grid) : (s.setGrid g x).ldGroups = s.ldGroups := rfl
@[simp] theorem State.setGrid_gnb (g : Nat) (x : Grid) : (s.setGrid g x).gnb = s.gnb := rfl
@[simp] theorem State.setGrid_imu (g : Nat) (x : Grid) : (s.setGrid g x).imu = s.imu := rfl
@[simp] theorem State.setGrid_cans (g : Nat) (x : Grid) : (s.setGrid g x).cans = s.cans := rfl
@[simp] theorem State.setGrid_objs (g : Nat) (x : Grid) : (s.setGrid g x).objs = s.objs := rfl
@[simp] theorem State.setGrid_sess (g : Nat) (x : Grid) : (s.setGrid g x).sess = s.sess := rfl
@[simp] theorem State.setGrid_msgNext (g : Nat) (x : Grid) : (s.setGrid g x).msgNext = s.msgNext := rfl
@[simp] theorem State.setGrid_blocks (g : Nat) (x : Grid) : (s.setGrid g x).blocks = s.blocks := rfl
@[simp] theorem State.setGrid_lmpCan (g : Nat) (x : Grid) : (s.setGrid g x).lmpCan = s.lmpCan := rfl
@[simp] theorem State.setGrid_lmpRes (g : Nat) (x : Grid) : (s.setGrid g x).lmpRes = s.lmpRes := rfl
@[simp] theorem State.setGrid_net (g : Nat) (x : Grid) : (s.setGrid g x).net = s.net := rfl
@[simp] theorem State.setGrid_jnl (g : Nat) (x : Grid) : (s.setGrid g x).jnl = s.jnl := rfl
@[simp] theorem State.setGrid_role (g : Nat) (x : Grid) : (s.setGrid g x).role = s.role := rfl
@[simp] theorem State.setGrid_rst (g : Nat) (x : Grid) : (s.setGrid g x).rst = s.rst := rfl
@[simp] theorem State.setGrid_upd (g : Nat) (x : Grid) : (s.setGrid g x).upd = s.upd := rfl
@[simp] theorem State.setGrid_tly (g : Nat) (x : Grid) : (s.setGrid g x).tly = s.tly := rfl
@[simp] theorem State.setGrid_tap (g : Nat) (x : Grid) : (s.setGrid g x).tap = s.tap := rfl

/-! setSrc -/

@[simp] theorem State.setSrc_pending (k : Nat) (x : SrcSt) : (s.setSrc k x).pending = s.pending := rfl
@[simp] theorem State.setSrc_clock (k : Nat) (x : SrcSt) : (s.setSrc k x).clock = s.clock := rfl
@[simp] theorem State.setSrc_start (k : Nat) (x : SrcSt) : (s.setSrc k x).start = s.start := rfl
@[simp] theorem State.setSrc_freeCtr (k : Nat) (x : SrcSt) : (s.setSrc k x).freeCtr = s.freeCtr := rfl
@[simp] theorem State.setSrc_regs (k : Nat) (x : SrcSt) : (s.setSrc k x).regs = s.regs := rfl
@[simp] theorem State.setSrc_mem (k : Nat) (x : SrcSt) : (s.setSrc k x).mem = s.mem := rfl
@[simp] theorem State.setSrc_poison (k : Nat) (x : SrcSt) : (s.setSrc k x).poison = s.poison := rfl
@[simp] theorem State.setSrc_fabBad (k : Nat) (x : SrcSt) : (s.setSrc k x).fabBad = s.fabBad := rfl
@[simp] theorem State.setSrc_held (k : Nat) (x : SrcSt) : (s.setSrc k x).held = s.held := rfl
@[simp] theorem State.setSrc_fabAt (k : Nat) (x : SrcSt) : (s.setSrc k x).fabAt = s.fabAt := rfl
@[simp] theorem State.setSrc_perMaster (k : Nat) (x : SrcSt) : (s.setSrc k x).perMaster = s.perMaster := rfl
@[simp] theorem State.setSrc_queSeq (k : Nat) (x : SrcSt) : (s.setSrc k x).queSeq = s.queSeq := rfl
@[simp] theorem State.setSrc_reply (k : Nat) (x : SrcSt) : (s.setSrc k x).reply = s.reply := rfl
@[simp] theorem State.setSrc_inBeanie (k : Nat) (x : SrcSt) : (s.setSrc k x).inBeanie = s.inBeanie := rfl
@[simp] theorem State.setSrc_aCores (k : Nat) (x : SrcSt) : (s.setSrc k x).aCores = s.aCores := rfl
@[simp] theorem State.setSrc_lanes (k : Nat) (x : SrcSt) : (s.setSrc k x).lanes = s.lanes := rfl
@[simp] theorem State.setSrc_flt (k : Nat) (x : SrcSt) : (s.setSrc k x).flt = s.flt := rfl
@[simp] theorem State.setSrc_evr (k : Nat) (x : SrcSt) : (s.setSrc k x).evr = s.evr := rfl
@[simp] theorem State.setSrc_hb (k : Nat) (x : SrcSt) : (s.setSrc k x).hb = s.hb := rfl
@[simp] theorem State.setSrc_ctxs (k : Nat) (x : SrcSt) : (s.setSrc k x).ctxs = s.ctxs := rfl
@[simp] theorem State.setSrc_mplLines (k : Nat) (x : SrcSt) : (s.setSrc k x).mplLines = s.mplLines := rfl
@[simp] theorem State.setSrc_mplStripe (k : Nat) (x : SrcSt) : (s.setSrc k x).mplStripe = s.mplStripe := rfl
@[simp] theorem State.setSrc_mplReadyl (k : Nat) (x : SrcSt) : (s.setSrc k x).mplReadyl = s.mplReadyl := rfl
@[simp] theorem State.setSrc_inp (k : Nat) (x : SrcSt) : (s.setSrc k x).inp = s.inp := rfl
@[simp] theorem State.setSrc_fins (k : Nat) (x : SrcSt) : (s.setSrc k x).fins = s.fins := rfl
@[simp] theorem State.setSrc_lns (k : Nat) (x : SrcSt) : (s.setSrc k x).lns = s.lns := rfl
@[simp] theorem State.setSrc_ces (k : Nat) (x : SrcSt) : (s.setSrc k x).ces = s.ces := rfl
@[simp] theorem State.setSrc_mit (k : Nat) (x : SrcSt) : (s.setSrc k x).mit = s.mit := rfl
@[simp] theorem State.setSrc_drv (k : Nat) (x : SrcSt) : (s.setSrc k x).drv = s.drv := rfl
@[simp] theorem State.setSrc_lds (k : Nat) (x : SrcSt) : (s.setSrc k x).lds = s.lds := rfl
@[simp] theorem State.setSrc_ldGroups (k : Nat) (x : SrcSt) : (s.setSrc k x).ldGroups = s.ldGroups := rfl
@[simp] theorem State.setSrc_gnb (k : Nat) (x : SrcSt) : (s.setSrc k x).gnb = s.gnb := rfl
@[simp] theorem State.setSrc_imu (k : Nat) (x : SrcSt) : (s.setSrc k x).imu = s.imu := rfl
@[simp] theorem State.setSrc_cans (k : Nat) (x : SrcSt) : (s.setSrc k x).cans = s.cans := rfl
@[simp] theorem State.setSrc_objs (k : Nat) (x : SrcSt) : (s.setSrc k x).objs = s.objs := rfl
@[simp] theorem State.setSrc_sess (k : Nat) (x : SrcSt) : (s.setSrc k x).sess = s.sess := rfl
@[simp] theorem State.setSrc_msgNext (k : Nat) (x : SrcSt) : (s.setSrc k x).msgNext = s.msgNext := rfl
@[simp] theorem State.setSrc_blocks (k : Nat) (x : SrcSt) : (s.setSrc k x).blocks = s.blocks := rfl
@[simp] theorem State.setSrc_lmpCan (k : Nat) (x : SrcSt) : (s.setSrc k x).lmpCan = s.lmpCan := rfl
@[simp] theorem State.setSrc_lmpRes (k : Nat) (x : SrcSt) : (s.setSrc k x).lmpRes = s.lmpRes := rfl
@[simp] theorem State.setSrc_net (k : Nat) (x : SrcSt) : (s.setSrc k x).net = s.net := rfl
@[simp] theorem State.setSrc_jnl (k : Nat) (x : SrcSt) : (s.setSrc k x).jnl = s.jnl := rfl
@[simp] theorem State.setSrc_role (k : Nat) (x : SrcSt) : (s.setSrc k x).role = s.role := rfl
@[simp] theorem State.setSrc_rst (k : Nat) (x : SrcSt) : (s.setSrc k x).rst = s.rst := rfl
@[simp] theorem State.setSrc_upd (k : Nat) (x : SrcSt) : (s.setSrc k x).upd = s.upd := rfl
@[simp] theorem State.setSrc_tly (k : Nat) (x : SrcSt) : (s.setSrc k x).tly = s.tly := rfl
@[simp] theorem State.setSrc_tap (k : Nat) (x : SrcSt) : (s.setSrc k x).tap = s.tap := rfl

/-! setLn -/

@[simp] theorem State.setLn_pending (h l : Nat) (x : LaneSt) : (s.setLn h l x).pending = s.pending := rfl
@[simp] theorem State.setLn_clock (h l : Nat) (x : LaneSt) : (s.setLn h l x).clock = s.clock := rfl
@[simp] theorem State.setLn_start (h l : Nat) (x : LaneSt) : (s.setLn h l x).start = s.start := rfl
@[simp] theorem State.setLn_freeCtr (h l : Nat) (x : LaneSt) : (s.setLn h l x).freeCtr = s.freeCtr := rfl
@[simp] theorem State.setLn_regs (h l : Nat) (x : LaneSt) : (s.setLn h l x).regs = s.regs := rfl
@[simp] theorem State.setLn_mem (h l : Nat) (x : LaneSt) : (s.setLn h l x).mem = s.mem := rfl
@[simp] theorem State.setLn_poison (h l : Nat) (x : LaneSt) : (s.setLn h l x).poison = s.poison := rfl
@[simp] theorem State.setLn_fabBad (h l : Nat) (x : LaneSt) : (s.setLn h l x).fabBad = s.fabBad := rfl
@[simp] theorem State.setLn_held (h l : Nat) (x : LaneSt) : (s.setLn h l x).held = s.held := rfl
@[simp] theorem State.setLn_fabAt (h l : Nat) (x : LaneSt) : (s.setLn h l x).fabAt = s.fabAt := rfl
@[simp] theorem State.setLn_perMaster (h l : Nat) (x : LaneSt) : (s.setLn h l x).perMaster = s.perMaster := rfl
@[simp] theorem State.setLn_queSeq (h l : Nat) (x : LaneSt) : (s.setLn h l x).queSeq = s.queSeq := rfl
@[simp] theorem State.setLn_reply (h l : Nat) (x : LaneSt) : (s.setLn h l x).reply = s.reply := rfl
@[simp] theorem State.setLn_inBeanie (h l : Nat) (x : LaneSt) : (s.setLn h l x).inBeanie = s.inBeanie := rfl
@[simp] theorem State.setLn_aCores (h l : Nat) (x : LaneSt) : (s.setLn h l x).aCores = s.aCores := rfl
@[simp] theorem State.setLn_lanes (h l : Nat) (x : LaneSt) : (s.setLn h l x).lanes = s.lanes := rfl
@[simp] theorem State.setLn_flt (h l : Nat) (x : LaneSt) : (s.setLn h l x).flt = s.flt := rfl
@[simp] theorem State.setLn_evr (h l : Nat) (x : LaneSt) : (s.setLn h l x).evr = s.evr := rfl
@[simp] theorem State.setLn_hb (h l : Nat) (x : LaneSt) : (s.setLn h l x).hb = s.hb := rfl
@[simp] theorem State.setLn_ctxs (h l : Nat) (x : LaneSt) : (s.setLn h l x).ctxs = s.ctxs := rfl
@[simp] theorem State.setLn_mplLines (h l : Nat) (x : LaneSt) : (s.setLn h l x).mplLines = s.mplLines := rfl
@[simp] theorem State.setLn_mplStripe (h l : Nat) (x : LaneSt) : (s.setLn h l x).mplStripe = s.mplStripe := rfl
@[simp] theorem State.setLn_mplReadyl (h l : Nat) (x : LaneSt) : (s.setLn h l x).mplReadyl = s.mplReadyl := rfl
@[simp] theorem State.setLn_inp (h l : Nat) (x : LaneSt) : (s.setLn h l x).inp = s.inp := rfl
@[simp] theorem State.setLn_fins (h l : Nat) (x : LaneSt) : (s.setLn h l x).fins = s.fins := rfl
@[simp] theorem State.setLn_fus (h l : Nat) (x : LaneSt) : (s.setLn h l x).fus = s.fus := rfl
@[simp] theorem State.setLn_ces (h l : Nat) (x : LaneSt) : (s.setLn h l x).ces = s.ces := rfl
@[simp] theorem State.setLn_mit (h l : Nat) (x : LaneSt) : (s.setLn h l x).mit = s.mit := rfl
@[simp] theorem State.setLn_drv (h l : Nat) (x : LaneSt) : (s.setLn h l x).drv = s.drv := rfl
@[simp] theorem State.setLn_lds (h l : Nat) (x : LaneSt) : (s.setLn h l x).lds = s.lds := rfl
@[simp] theorem State.setLn_ldGroups (h l : Nat) (x : LaneSt) : (s.setLn h l x).ldGroups = s.ldGroups := rfl
@[simp] theorem State.setLn_gnb (h l : Nat) (x : LaneSt) : (s.setLn h l x).gnb = s.gnb := rfl
@[simp] theorem State.setLn_imu (h l : Nat) (x : LaneSt) : (s.setLn h l x).imu = s.imu := rfl
@[simp] theorem State.setLn_cans (h l : Nat) (x : LaneSt) : (s.setLn h l x).cans = s.cans := rfl
@[simp] theorem State.setLn_objs (h l : Nat) (x : LaneSt) : (s.setLn h l x).objs = s.objs := rfl
@[simp] theorem State.setLn_sess (h l : Nat) (x : LaneSt) : (s.setLn h l x).sess = s.sess := rfl
@[simp] theorem State.setLn_msgNext (h l : Nat) (x : LaneSt) : (s.setLn h l x).msgNext = s.msgNext := rfl
@[simp] theorem State.setLn_blocks (h l : Nat) (x : LaneSt) : (s.setLn h l x).blocks = s.blocks := rfl
@[simp] theorem State.setLn_lmpCan (h l : Nat) (x : LaneSt) : (s.setLn h l x).lmpCan = s.lmpCan := rfl
@[simp] theorem State.setLn_lmpRes (h l : Nat) (x : LaneSt) : (s.setLn h l x).lmpRes = s.lmpRes := rfl
@[simp] theorem State.setLn_net (h l : Nat) (x : LaneSt) : (s.setLn h l x).net = s.net := rfl
@[simp] theorem State.setLn_jnl (h l : Nat) (x : LaneSt) : (s.setLn h l x).jnl = s.jnl := rfl
@[simp] theorem State.setLn_role (h l : Nat) (x : LaneSt) : (s.setLn h l x).role = s.role := rfl
@[simp] theorem State.setLn_rst (h l : Nat) (x : LaneSt) : (s.setLn h l x).rst = s.rst := rfl
@[simp] theorem State.setLn_upd (h l : Nat) (x : LaneSt) : (s.setLn h l x).upd = s.upd := rfl
@[simp] theorem State.setLn_tly (h l : Nat) (x : LaneSt) : (s.setLn h l x).tly = s.tly := rfl
@[simp] theorem State.setLn_tap (h l : Nat) (x : LaneSt) : (s.setLn h l x).tap = s.tap := rfl

/-! setCe -/

@[simp] theorem State.setCe_pending (h : Nat) (x : CeSt) : (s.setCe h x).pending = s.pending := rfl
@[simp] theorem State.setCe_clock (h : Nat) (x : CeSt) : (s.setCe h x).clock = s.clock := rfl
@[simp] theorem State.setCe_start (h : Nat) (x : CeSt) : (s.setCe h x).start = s.start := rfl
@[simp] theorem State.setCe_freeCtr (h : Nat) (x : CeSt) : (s.setCe h x).freeCtr = s.freeCtr := rfl
@[simp] theorem State.setCe_regs (h : Nat) (x : CeSt) : (s.setCe h x).regs = s.regs := rfl
@[simp] theorem State.setCe_mem (h : Nat) (x : CeSt) : (s.setCe h x).mem = s.mem := rfl
@[simp] theorem State.setCe_poison (h : Nat) (x : CeSt) : (s.setCe h x).poison = s.poison := rfl
@[simp] theorem State.setCe_fabBad (h : Nat) (x : CeSt) : (s.setCe h x).fabBad = s.fabBad := rfl
@[simp] theorem State.setCe_held (h : Nat) (x : CeSt) : (s.setCe h x).held = s.held := rfl
@[simp] theorem State.setCe_fabAt (h : Nat) (x : CeSt) : (s.setCe h x).fabAt = s.fabAt := rfl
@[simp] theorem State.setCe_perMaster (h : Nat) (x : CeSt) : (s.setCe h x).perMaster = s.perMaster := rfl
@[simp] theorem State.setCe_queSeq (h : Nat) (x : CeSt) : (s.setCe h x).queSeq = s.queSeq := rfl
@[simp] theorem State.setCe_reply (h : Nat) (x : CeSt) : (s.setCe h x).reply = s.reply := rfl
@[simp] theorem State.setCe_inBeanie (h : Nat) (x : CeSt) : (s.setCe h x).inBeanie = s.inBeanie := rfl
@[simp] theorem State.setCe_aCores (h : Nat) (x : CeSt) : (s.setCe h x).aCores = s.aCores := rfl
@[simp] theorem State.setCe_lanes (h : Nat) (x : CeSt) : (s.setCe h x).lanes = s.lanes := rfl
@[simp] theorem State.setCe_flt (h : Nat) (x : CeSt) : (s.setCe h x).flt = s.flt := rfl
@[simp] theorem State.setCe_evr (h : Nat) (x : CeSt) : (s.setCe h x).evr = s.evr := rfl
@[simp] theorem State.setCe_hb (h : Nat) (x : CeSt) : (s.setCe h x).hb = s.hb := rfl
@[simp] theorem State.setCe_ctxs (h : Nat) (x : CeSt) : (s.setCe h x).ctxs = s.ctxs := rfl
@[simp] theorem State.setCe_mplLines (h : Nat) (x : CeSt) : (s.setCe h x).mplLines = s.mplLines := rfl
@[simp] theorem State.setCe_mplStripe (h : Nat) (x : CeSt) : (s.setCe h x).mplStripe = s.mplStripe := rfl
@[simp] theorem State.setCe_mplReadyl (h : Nat) (x : CeSt) : (s.setCe h x).mplReadyl = s.mplReadyl := rfl
@[simp] theorem State.setCe_inp (h : Nat) (x : CeSt) : (s.setCe h x).inp = s.inp := rfl
@[simp] theorem State.setCe_fins (h : Nat) (x : CeSt) : (s.setCe h x).fins = s.fins := rfl
@[simp] theorem State.setCe_fus (h : Nat) (x : CeSt) : (s.setCe h x).fus = s.fus := rfl
@[simp] theorem State.setCe_lns (h : Nat) (x : CeSt) : (s.setCe h x).lns = s.lns := rfl
@[simp] theorem State.setCe_mit (h : Nat) (x : CeSt) : (s.setCe h x).mit = s.mit := rfl
@[simp] theorem State.setCe_drv (h : Nat) (x : CeSt) : (s.setCe h x).drv = s.drv := rfl
@[simp] theorem State.setCe_lds (h : Nat) (x : CeSt) : (s.setCe h x).lds = s.lds := rfl
@[simp] theorem State.setCe_ldGroups (h : Nat) (x : CeSt) : (s.setCe h x).ldGroups = s.ldGroups := rfl
@[simp] theorem State.setCe_gnb (h : Nat) (x : CeSt) : (s.setCe h x).gnb = s.gnb := rfl
@[simp] theorem State.setCe_imu (h : Nat) (x : CeSt) : (s.setCe h x).imu = s.imu := rfl
@[simp] theorem State.setCe_cans (h : Nat) (x : CeSt) : (s.setCe h x).cans = s.cans := rfl
@[simp] theorem State.setCe_objs (h : Nat) (x : CeSt) : (s.setCe h x).objs = s.objs := rfl
@[simp] theorem State.setCe_sess (h : Nat) (x : CeSt) : (s.setCe h x).sess = s.sess := rfl
@[simp] theorem State.setCe_msgNext (h : Nat) (x : CeSt) : (s.setCe h x).msgNext = s.msgNext := rfl
@[simp] theorem State.setCe_blocks (h : Nat) (x : CeSt) : (s.setCe h x).blocks = s.blocks := rfl
@[simp] theorem State.setCe_lmpCan (h : Nat) (x : CeSt) : (s.setCe h x).lmpCan = s.lmpCan := rfl
@[simp] theorem State.setCe_lmpRes (h : Nat) (x : CeSt) : (s.setCe h x).lmpRes = s.lmpRes := rfl
@[simp] theorem State.setCe_net (h : Nat) (x : CeSt) : (s.setCe h x).net = s.net := rfl
@[simp] theorem State.setCe_jnl (h : Nat) (x : CeSt) : (s.setCe h x).jnl = s.jnl := rfl
@[simp] theorem State.setCe_role (h : Nat) (x : CeSt) : (s.setCe h x).role = s.role := rfl
@[simp] theorem State.setCe_rst (h : Nat) (x : CeSt) : (s.setCe h x).rst = s.rst := rfl
@[simp] theorem State.setCe_upd (h : Nat) (x : CeSt) : (s.setCe h x).upd = s.upd := rfl
@[simp] theorem State.setCe_tly (h : Nat) (x : CeSt) : (s.setCe h x).tly = s.tly := rfl
@[simp] theorem State.setCe_tap (h : Nat) (x : CeSt) : (s.setCe h x).tap = s.tap := rfl

/-! withMit -/

@[simp] theorem State.withMit_mit (x : MitSt) : (s.withMit x).mit = x := rfl
@[simp] theorem State.withMit_pending (x : MitSt) : (s.withMit x).pending = s.pending := rfl
@[simp] theorem State.withMit_clock (x : MitSt) : (s.withMit x).clock = s.clock := rfl
@[simp] theorem State.withMit_start (x : MitSt) : (s.withMit x).start = s.start := rfl
@[simp] theorem State.withMit_freeCtr (x : MitSt) : (s.withMit x).freeCtr = s.freeCtr := rfl
@[simp] theorem State.withMit_regs (x : MitSt) : (s.withMit x).regs = s.regs := rfl
@[simp] theorem State.withMit_mem (x : MitSt) : (s.withMit x).mem = s.mem := rfl
@[simp] theorem State.withMit_poison (x : MitSt) : (s.withMit x).poison = s.poison := rfl
@[simp] theorem State.withMit_fabBad (x : MitSt) : (s.withMit x).fabBad = s.fabBad := rfl
@[simp] theorem State.withMit_held (x : MitSt) : (s.withMit x).held = s.held := rfl
@[simp] theorem State.withMit_fabAt (x : MitSt) : (s.withMit x).fabAt = s.fabAt := rfl
@[simp] theorem State.withMit_perMaster (x : MitSt) : (s.withMit x).perMaster = s.perMaster := rfl
@[simp] theorem State.withMit_queSeq (x : MitSt) : (s.withMit x).queSeq = s.queSeq := rfl
@[simp] theorem State.withMit_reply (x : MitSt) : (s.withMit x).reply = s.reply := rfl
@[simp] theorem State.withMit_inBeanie (x : MitSt) : (s.withMit x).inBeanie = s.inBeanie := rfl
@[simp] theorem State.withMit_aCores (x : MitSt) : (s.withMit x).aCores = s.aCores := rfl
@[simp] theorem State.withMit_lanes (x : MitSt) : (s.withMit x).lanes = s.lanes := rfl
@[simp] theorem State.withMit_flt (x : MitSt) : (s.withMit x).flt = s.flt := rfl
@[simp] theorem State.withMit_evr (x : MitSt) : (s.withMit x).evr = s.evr := rfl
@[simp] theorem State.withMit_hb (x : MitSt) : (s.withMit x).hb = s.hb := rfl
@[simp] theorem State.withMit_ctxs (x : MitSt) : (s.withMit x).ctxs = s.ctxs := rfl
@[simp] theorem State.withMit_mplLines (x : MitSt) : (s.withMit x).mplLines = s.mplLines := rfl
@[simp] theorem State.withMit_mplStripe (x : MitSt) : (s.withMit x).mplStripe = s.mplStripe := rfl
@[simp] theorem State.withMit_mplReadyl (x : MitSt) : (s.withMit x).mplReadyl = s.mplReadyl := rfl
@[simp] theorem State.withMit_inp (x : MitSt) : (s.withMit x).inp = s.inp := rfl
@[simp] theorem State.withMit_fins (x : MitSt) : (s.withMit x).fins = s.fins := rfl
@[simp] theorem State.withMit_fus (x : MitSt) : (s.withMit x).fus = s.fus := rfl
@[simp] theorem State.withMit_lns (x : MitSt) : (s.withMit x).lns = s.lns := rfl
@[simp] theorem State.withMit_ces (x : MitSt) : (s.withMit x).ces = s.ces := rfl
@[simp] theorem State.withMit_drv (x : MitSt) : (s.withMit x).drv = s.drv := rfl
@[simp] theorem State.withMit_lds (x : MitSt) : (s.withMit x).lds = s.lds := rfl
@[simp] theorem State.withMit_ldGroups (x : MitSt) : (s.withMit x).ldGroups = s.ldGroups := rfl
@[simp] theorem State.withMit_gnb (x : MitSt) : (s.withMit x).gnb = s.gnb := rfl
@[simp] theorem State.withMit_imu (x : MitSt) : (s.withMit x).imu = s.imu := rfl
@[simp] theorem State.withMit_cans (x : MitSt) : (s.withMit x).cans = s.cans := rfl
@[simp] theorem State.withMit_objs (x : MitSt) : (s.withMit x).objs = s.objs := rfl
@[simp] theorem State.withMit_sess (x : MitSt) : (s.withMit x).sess = s.sess := rfl
@[simp] theorem State.withMit_msgNext (x : MitSt) : (s.withMit x).msgNext = s.msgNext := rfl
@[simp] theorem State.withMit_blocks (x : MitSt) : (s.withMit x).blocks = s.blocks := rfl
@[simp] theorem State.withMit_lmpCan (x : MitSt) : (s.withMit x).lmpCan = s.lmpCan := rfl
@[simp] theorem State.withMit_lmpRes (x : MitSt) : (s.withMit x).lmpRes = s.lmpRes := rfl
@[simp] theorem State.withMit_net (x : MitSt) : (s.withMit x).net = s.net := rfl
@[simp] theorem State.withMit_jnl (x : MitSt) : (s.withMit x).jnl = s.jnl := rfl
@[simp] theorem State.withMit_role (x : MitSt) : (s.withMit x).role = s.role := rfl
@[simp] theorem State.withMit_rst (x : MitSt) : (s.withMit x).rst = s.rst := rfl
@[simp] theorem State.withMit_upd (x : MitSt) : (s.withMit x).upd = s.upd := rfl
@[simp] theorem State.withMit_tly (x : MitSt) : (s.withMit x).tly = s.tly := rfl
@[simp] theorem State.withMit_tap (x : MitSt) : (s.withMit x).tap = s.tap := rfl

/-! withDrv -/

@[simp] theorem State.withDrv_drv (x : Drive) : (s.withDrv x).drv = x := rfl
@[simp] theorem State.withDrv_pending (x : Drive) : (s.withDrv x).pending = s.pending := rfl
@[simp] theorem State.withDrv_clock (x : Drive) : (s.withDrv x).clock = s.clock := rfl
@[simp] theorem State.withDrv_start (x : Drive) : (s.withDrv x).start = s.start := rfl
@[simp] theorem State.withDrv_freeCtr (x : Drive) : (s.withDrv x).freeCtr = s.freeCtr := rfl
@[simp] theorem State.withDrv_regs (x : Drive) : (s.withDrv x).regs = s.regs := rfl
@[simp] theorem State.withDrv_mem (x : Drive) : (s.withDrv x).mem = s.mem := rfl
@[simp] theorem State.withDrv_poison (x : Drive) : (s.withDrv x).poison = s.poison := rfl
@[simp] theorem State.withDrv_fabBad (x : Drive) : (s.withDrv x).fabBad = s.fabBad := rfl
@[simp] theorem State.withDrv_held (x : Drive) : (s.withDrv x).held = s.held := rfl
@[simp] theorem State.withDrv_fabAt (x : Drive) : (s.withDrv x).fabAt = s.fabAt := rfl
@[simp] theorem State.withDrv_perMaster (x : Drive) : (s.withDrv x).perMaster = s.perMaster := rfl
@[simp] theorem State.withDrv_queSeq (x : Drive) : (s.withDrv x).queSeq = s.queSeq := rfl
@[simp] theorem State.withDrv_reply (x : Drive) : (s.withDrv x).reply = s.reply := rfl
@[simp] theorem State.withDrv_inBeanie (x : Drive) : (s.withDrv x).inBeanie = s.inBeanie := rfl
@[simp] theorem State.withDrv_aCores (x : Drive) : (s.withDrv x).aCores = s.aCores := rfl
@[simp] theorem State.withDrv_lanes (x : Drive) : (s.withDrv x).lanes = s.lanes := rfl
@[simp] theorem State.withDrv_flt (x : Drive) : (s.withDrv x).flt = s.flt := rfl
@[simp] theorem State.withDrv_evr (x : Drive) : (s.withDrv x).evr = s.evr := rfl
@[simp] theorem State.withDrv_hb (x : Drive) : (s.withDrv x).hb = s.hb := rfl
@[simp] theorem State.withDrv_ctxs (x : Drive) : (s.withDrv x).ctxs = s.ctxs := rfl
@[simp] theorem State.withDrv_mplLines (x : Drive) : (s.withDrv x).mplLines = s.mplLines := rfl
@[simp] theorem State.withDrv_mplStripe (x : Drive) : (s.withDrv x).mplStripe = s.mplStripe := rfl
@[simp] theorem State.withDrv_mplReadyl (x : Drive) : (s.withDrv x).mplReadyl = s.mplReadyl := rfl
@[simp] theorem State.withDrv_inp (x : Drive) : (s.withDrv x).inp = s.inp := rfl
@[simp] theorem State.withDrv_fins (x : Drive) : (s.withDrv x).fins = s.fins := rfl
@[simp] theorem State.withDrv_fus (x : Drive) : (s.withDrv x).fus = s.fus := rfl
@[simp] theorem State.withDrv_lns (x : Drive) : (s.withDrv x).lns = s.lns := rfl
@[simp] theorem State.withDrv_ces (x : Drive) : (s.withDrv x).ces = s.ces := rfl
@[simp] theorem State.withDrv_mit (x : Drive) : (s.withDrv x).mit = s.mit := rfl
@[simp] theorem State.withDrv_lds (x : Drive) : (s.withDrv x).lds = s.lds := rfl
@[simp] theorem State.withDrv_ldGroups (x : Drive) : (s.withDrv x).ldGroups = s.ldGroups := rfl
@[simp] theorem State.withDrv_gnb (x : Drive) : (s.withDrv x).gnb = s.gnb := rfl
@[simp] theorem State.withDrv_imu (x : Drive) : (s.withDrv x).imu = s.imu := rfl
@[simp] theorem State.withDrv_cans (x : Drive) : (s.withDrv x).cans = s.cans := rfl
@[simp] theorem State.withDrv_objs (x : Drive) : (s.withDrv x).objs = s.objs := rfl
@[simp] theorem State.withDrv_sess (x : Drive) : (s.withDrv x).sess = s.sess := rfl
@[simp] theorem State.withDrv_msgNext (x : Drive) : (s.withDrv x).msgNext = s.msgNext := rfl
@[simp] theorem State.withDrv_blocks (x : Drive) : (s.withDrv x).blocks = s.blocks := rfl
@[simp] theorem State.withDrv_lmpCan (x : Drive) : (s.withDrv x).lmpCan = s.lmpCan := rfl
@[simp] theorem State.withDrv_lmpRes (x : Drive) : (s.withDrv x).lmpRes = s.lmpRes := rfl
@[simp] theorem State.withDrv_net (x : Drive) : (s.withDrv x).net = s.net := rfl
@[simp] theorem State.withDrv_jnl (x : Drive) : (s.withDrv x).jnl = s.jnl := rfl
@[simp] theorem State.withDrv_role (x : Drive) : (s.withDrv x).role = s.role := rfl
@[simp] theorem State.withDrv_rst (x : Drive) : (s.withDrv x).rst = s.rst := rfl
@[simp] theorem State.withDrv_upd (x : Drive) : (s.withDrv x).upd = s.upd := rfl
@[simp] theorem State.withDrv_tly (x : Drive) : (s.withDrv x).tly = s.tly := rfl
@[simp] theorem State.withDrv_tap (x : Drive) : (s.withDrv x).tap = s.tap := rfl

/-! setFng -/

@[simp] theorem State.setFng_pending (n : Nat) (x : FngSt) : (s.setFng n x).pending = s.pending := rfl
@[simp] theorem State.setFng_clock (n : Nat) (x : FngSt) : (s.setFng n x).clock = s.clock := rfl
@[simp] theorem State.setFng_start (n : Nat) (x : FngSt) : (s.setFng n x).start = s.start := rfl
@[simp] theorem State.setFng_freeCtr (n : Nat) (x : FngSt) : (s.setFng n x).freeCtr = s.freeCtr := rfl
@[simp] theorem State.setFng_regs (n : Nat) (x : FngSt) : (s.setFng n x).regs = s.regs := rfl
@[simp] theorem State.setFng_mem (n : Nat) (x : FngSt) : (s.setFng n x).mem = s.mem := rfl
@[simp] theorem State.setFng_poison (n : Nat) (x : FngSt) : (s.setFng n x).poison = s.poison := rfl
@[simp] theorem State.setFng_fabBad (n : Nat) (x : FngSt) : (s.setFng n x).fabBad = s.fabBad := rfl
@[simp] theorem State.setFng_held (n : Nat) (x : FngSt) : (s.setFng n x).held = s.held := rfl
@[simp] theorem State.setFng_fabAt (n : Nat) (x : FngSt) : (s.setFng n x).fabAt = s.fabAt := rfl
@[simp] theorem State.setFng_perMaster (n : Nat) (x : FngSt) : (s.setFng n x).perMaster = s.perMaster := rfl
@[simp] theorem State.setFng_queSeq (n : Nat) (x : FngSt) : (s.setFng n x).queSeq = s.queSeq := rfl
@[simp] theorem State.setFng_reply (n : Nat) (x : FngSt) : (s.setFng n x).reply = s.reply := rfl
@[simp] theorem State.setFng_inBeanie (n : Nat) (x : FngSt) : (s.setFng n x).inBeanie = s.inBeanie := rfl
@[simp] theorem State.setFng_aCores (n : Nat) (x : FngSt) : (s.setFng n x).aCores = s.aCores := rfl
@[simp] theorem State.setFng_lanes (n : Nat) (x : FngSt) : (s.setFng n x).lanes = s.lanes := rfl
@[simp] theorem State.setFng_flt (n : Nat) (x : FngSt) : (s.setFng n x).flt = s.flt := rfl
@[simp] theorem State.setFng_evr (n : Nat) (x : FngSt) : (s.setFng n x).evr = s.evr := rfl
@[simp] theorem State.setFng_hb (n : Nat) (x : FngSt) : (s.setFng n x).hb = s.hb := rfl
@[simp] theorem State.setFng_ctxs (n : Nat) (x : FngSt) : (s.setFng n x).ctxs = s.ctxs := rfl
@[simp] theorem State.setFng_mplLines (n : Nat) (x : FngSt) : (s.setFng n x).mplLines = s.mplLines := rfl
@[simp] theorem State.setFng_mplStripe (n : Nat) (x : FngSt) : (s.setFng n x).mplStripe = s.mplStripe := rfl
@[simp] theorem State.setFng_mplReadyl (n : Nat) (x : FngSt) : (s.setFng n x).mplReadyl = s.mplReadyl := rfl
@[simp] theorem State.setFng_inp (n : Nat) (x : FngSt) : (s.setFng n x).inp = s.inp := rfl
@[simp] theorem State.setFng_fins (n : Nat) (x : FngSt) : (s.setFng n x).fins = s.fins := rfl
@[simp] theorem State.setFng_fus (n : Nat) (x : FngSt) : (s.setFng n x).fus = s.fus := rfl
@[simp] theorem State.setFng_lns (n : Nat) (x : FngSt) : (s.setFng n x).lns = s.lns := rfl
@[simp] theorem State.setFng_ces (n : Nat) (x : FngSt) : (s.setFng n x).ces = s.ces := rfl
@[simp] theorem State.setFng_mit (n : Nat) (x : FngSt) : (s.setFng n x).mit = s.mit := rfl
@[simp] theorem State.setFng_lds (n : Nat) (x : FngSt) : (s.setFng n x).lds = s.lds := rfl
@[simp] theorem State.setFng_ldGroups (n : Nat) (x : FngSt) : (s.setFng n x).ldGroups = s.ldGroups := rfl
@[simp] theorem State.setFng_gnb (n : Nat) (x : FngSt) : (s.setFng n x).gnb = s.gnb := rfl
@[simp] theorem State.setFng_imu (n : Nat) (x : FngSt) : (s.setFng n x).imu = s.imu := rfl
@[simp] theorem State.setFng_cans (n : Nat) (x : FngSt) : (s.setFng n x).cans = s.cans := rfl
@[simp] theorem State.setFng_objs (n : Nat) (x : FngSt) : (s.setFng n x).objs = s.objs := rfl
@[simp] theorem State.setFng_sess (n : Nat) (x : FngSt) : (s.setFng n x).sess = s.sess := rfl
@[simp] theorem State.setFng_msgNext (n : Nat) (x : FngSt) : (s.setFng n x).msgNext = s.msgNext := rfl
@[simp] theorem State.setFng_blocks (n : Nat) (x : FngSt) : (s.setFng n x).blocks = s.blocks := rfl
@[simp] theorem State.setFng_lmpCan (n : Nat) (x : FngSt) : (s.setFng n x).lmpCan = s.lmpCan := rfl
@[simp] theorem State.setFng_lmpRes (n : Nat) (x : FngSt) : (s.setFng n x).lmpRes = s.lmpRes := rfl
@[simp] theorem State.setFng_net (n : Nat) (x : FngSt) : (s.setFng n x).net = s.net := rfl
@[simp] theorem State.setFng_jnl (n : Nat) (x : FngSt) : (s.setFng n x).jnl = s.jnl := rfl
@[simp] theorem State.setFng_role (n : Nat) (x : FngSt) : (s.setFng n x).role = s.role := rfl
@[simp] theorem State.setFng_rst (n : Nat) (x : FngSt) : (s.setFng n x).rst = s.rst := rfl
@[simp] theorem State.setFng_upd (n : Nat) (x : FngSt) : (s.setFng n x).upd = s.upd := rfl
@[simp] theorem State.setFng_tly (n : Nat) (x : FngSt) : (s.setFng n x).tly = s.tly := rfl
@[simp] theorem State.setFng_tap (n : Nat) (x : FngSt) : (s.setFng n x).tap = s.tap := rfl

/-! setPalm -/

@[simp] theorem State.setPalm_pending (p : Nat) (x : PalmSt) : (s.setPalm p x).pending = s.pending := rfl
@[simp] theorem State.setPalm_clock (p : Nat) (x : PalmSt) : (s.setPalm p x).clock = s.clock := rfl
@[simp] theorem State.setPalm_start (p : Nat) (x : PalmSt) : (s.setPalm p x).start = s.start := rfl
@[simp] theorem State.setPalm_freeCtr (p : Nat) (x : PalmSt) : (s.setPalm p x).freeCtr = s.freeCtr := rfl
@[simp] theorem State.setPalm_regs (p : Nat) (x : PalmSt) : (s.setPalm p x).regs = s.regs := rfl
@[simp] theorem State.setPalm_mem (p : Nat) (x : PalmSt) : (s.setPalm p x).mem = s.mem := rfl
@[simp] theorem State.setPalm_poison (p : Nat) (x : PalmSt) : (s.setPalm p x).poison = s.poison := rfl
@[simp] theorem State.setPalm_fabBad (p : Nat) (x : PalmSt) : (s.setPalm p x).fabBad = s.fabBad := rfl
@[simp] theorem State.setPalm_held (p : Nat) (x : PalmSt) : (s.setPalm p x).held = s.held := rfl
@[simp] theorem State.setPalm_fabAt (p : Nat) (x : PalmSt) : (s.setPalm p x).fabAt = s.fabAt := rfl
@[simp] theorem State.setPalm_perMaster (p : Nat) (x : PalmSt) : (s.setPalm p x).perMaster = s.perMaster := rfl
@[simp] theorem State.setPalm_queSeq (p : Nat) (x : PalmSt) : (s.setPalm p x).queSeq = s.queSeq := rfl
@[simp] theorem State.setPalm_reply (p : Nat) (x : PalmSt) : (s.setPalm p x).reply = s.reply := rfl
@[simp] theorem State.setPalm_inBeanie (p : Nat) (x : PalmSt) : (s.setPalm p x).inBeanie = s.inBeanie := rfl
@[simp] theorem State.setPalm_aCores (p : Nat) (x : PalmSt) : (s.setPalm p x).aCores = s.aCores := rfl
@[simp] theorem State.setPalm_lanes (p : Nat) (x : PalmSt) : (s.setPalm p x).lanes = s.lanes := rfl
@[simp] theorem State.setPalm_flt (p : Nat) (x : PalmSt) : (s.setPalm p x).flt = s.flt := rfl
@[simp] theorem State.setPalm_evr (p : Nat) (x : PalmSt) : (s.setPalm p x).evr = s.evr := rfl
@[simp] theorem State.setPalm_hb (p : Nat) (x : PalmSt) : (s.setPalm p x).hb = s.hb := rfl
@[simp] theorem State.setPalm_ctxs (p : Nat) (x : PalmSt) : (s.setPalm p x).ctxs = s.ctxs := rfl
@[simp] theorem State.setPalm_mplLines (p : Nat) (x : PalmSt) : (s.setPalm p x).mplLines = s.mplLines := rfl
@[simp] theorem State.setPalm_mplStripe (p : Nat) (x : PalmSt) : (s.setPalm p x).mplStripe = s.mplStripe := rfl
@[simp] theorem State.setPalm_mplReadyl (p : Nat) (x : PalmSt) : (s.setPalm p x).mplReadyl = s.mplReadyl := rfl
@[simp] theorem State.setPalm_inp (p : Nat) (x : PalmSt) : (s.setPalm p x).inp = s.inp := rfl
@[simp] theorem State.setPalm_fins (p : Nat) (x : PalmSt) : (s.setPalm p x).fins = s.fins := rfl
@[simp] theorem State.setPalm_fus (p : Nat) (x : PalmSt) : (s.setPalm p x).fus = s.fus := rfl
@[simp] theorem State.setPalm_lns (p : Nat) (x : PalmSt) : (s.setPalm p x).lns = s.lns := rfl
@[simp] theorem State.setPalm_ces (p : Nat) (x : PalmSt) : (s.setPalm p x).ces = s.ces := rfl
@[simp] theorem State.setPalm_mit (p : Nat) (x : PalmSt) : (s.setPalm p x).mit = s.mit := rfl
@[simp] theorem State.setPalm_lds (p : Nat) (x : PalmSt) : (s.setPalm p x).lds = s.lds := rfl
@[simp] theorem State.setPalm_ldGroups (p : Nat) (x : PalmSt) : (s.setPalm p x).ldGroups = s.ldGroups := rfl
@[simp] theorem State.setPalm_gnb (p : Nat) (x : PalmSt) : (s.setPalm p x).gnb = s.gnb := rfl
@[simp] theorem State.setPalm_imu (p : Nat) (x : PalmSt) : (s.setPalm p x).imu = s.imu := rfl
@[simp] theorem State.setPalm_cans (p : Nat) (x : PalmSt) : (s.setPalm p x).cans = s.cans := rfl
@[simp] theorem State.setPalm_objs (p : Nat) (x : PalmSt) : (s.setPalm p x).objs = s.objs := rfl
@[simp] theorem State.setPalm_sess (p : Nat) (x : PalmSt) : (s.setPalm p x).sess = s.sess := rfl
@[simp] theorem State.setPalm_msgNext (p : Nat) (x : PalmSt) : (s.setPalm p x).msgNext = s.msgNext := rfl
@[simp] theorem State.setPalm_blocks (p : Nat) (x : PalmSt) : (s.setPalm p x).blocks = s.blocks := rfl
@[simp] theorem State.setPalm_lmpCan (p : Nat) (x : PalmSt) : (s.setPalm p x).lmpCan = s.lmpCan := rfl
@[simp] theorem State.setPalm_lmpRes (p : Nat) (x : PalmSt) : (s.setPalm p x).lmpRes = s.lmpRes := rfl
@[simp] theorem State.setPalm_net (p : Nat) (x : PalmSt) : (s.setPalm p x).net = s.net := rfl
@[simp] theorem State.setPalm_jnl (p : Nat) (x : PalmSt) : (s.setPalm p x).jnl = s.jnl := rfl
@[simp] theorem State.setPalm_role (p : Nat) (x : PalmSt) : (s.setPalm p x).role = s.role := rfl
@[simp] theorem State.setPalm_rst (p : Nat) (x : PalmSt) : (s.setPalm p x).rst = s.rst := rfl
@[simp] theorem State.setPalm_upd (p : Nat) (x : PalmSt) : (s.setPalm p x).upd = s.upd := rfl
@[simp] theorem State.setPalm_tly (p : Nat) (x : PalmSt) : (s.setPalm p x).tly = s.tly := rfl
@[simp] theorem State.setPalm_tap (p : Nat) (x : PalmSt) : (s.setPalm p x).tap = s.tap := rfl

/-! setRes -/

@[simp] theorem State.setRes_pending (r : Nat) (x : ResSt) : (s.setRes r x).pending = s.pending := rfl
@[simp] theorem State.setRes_clock (r : Nat) (x : ResSt) : (s.setRes r x).clock = s.clock := rfl
@[simp] theorem State.setRes_start (r : Nat) (x : ResSt) : (s.setRes r x).start = s.start := rfl
@[simp] theorem State.setRes_freeCtr (r : Nat) (x : ResSt) : (s.setRes r x).freeCtr = s.freeCtr := rfl
@[simp] theorem State.setRes_regs (r : Nat) (x : ResSt) : (s.setRes r x).regs = s.regs := rfl
@[simp] theorem State.setRes_mem (r : Nat) (x : ResSt) : (s.setRes r x).mem = s.mem := rfl
@[simp] theorem State.setRes_poison (r : Nat) (x : ResSt) : (s.setRes r x).poison = s.poison := rfl
@[simp] theorem State.setRes_fabBad (r : Nat) (x : ResSt) : (s.setRes r x).fabBad = s.fabBad := rfl
@[simp] theorem State.setRes_held (r : Nat) (x : ResSt) : (s.setRes r x).held = s.held := rfl
@[simp] theorem State.setRes_fabAt (r : Nat) (x : ResSt) : (s.setRes r x).fabAt = s.fabAt := rfl
@[simp] theorem State.setRes_perMaster (r : Nat) (x : ResSt) : (s.setRes r x).perMaster = s.perMaster := rfl
@[simp] theorem State.setRes_queSeq (r : Nat) (x : ResSt) : (s.setRes r x).queSeq = s.queSeq := rfl
@[simp] theorem State.setRes_reply (r : Nat) (x : ResSt) : (s.setRes r x).reply = s.reply := rfl
@[simp] theorem State.setRes_inBeanie (r : Nat) (x : ResSt) : (s.setRes r x).inBeanie = s.inBeanie := rfl
@[simp] theorem State.setRes_aCores (r : Nat) (x : ResSt) : (s.setRes r x).aCores = s.aCores := rfl
@[simp] theorem State.setRes_lanes (r : Nat) (x : ResSt) : (s.setRes r x).lanes = s.lanes := rfl
@[simp] theorem State.setRes_flt (r : Nat) (x : ResSt) : (s.setRes r x).flt = s.flt := rfl
@[simp] theorem State.setRes_evr (r : Nat) (x : ResSt) : (s.setRes r x).evr = s.evr := rfl
@[simp] theorem State.setRes_hb (r : Nat) (x : ResSt) : (s.setRes r x).hb = s.hb := rfl
@[simp] theorem State.setRes_ctxs (r : Nat) (x : ResSt) : (s.setRes r x).ctxs = s.ctxs := rfl
@[simp] theorem State.setRes_mplLines (r : Nat) (x : ResSt) : (s.setRes r x).mplLines = s.mplLines := rfl
@[simp] theorem State.setRes_mplStripe (r : Nat) (x : ResSt) : (s.setRes r x).mplStripe = s.mplStripe := rfl
@[simp] theorem State.setRes_mplReadyl (r : Nat) (x : ResSt) : (s.setRes r x).mplReadyl = s.mplReadyl := rfl
@[simp] theorem State.setRes_inp (r : Nat) (x : ResSt) : (s.setRes r x).inp = s.inp := rfl
@[simp] theorem State.setRes_fins (r : Nat) (x : ResSt) : (s.setRes r x).fins = s.fins := rfl
@[simp] theorem State.setRes_fus (r : Nat) (x : ResSt) : (s.setRes r x).fus = s.fus := rfl
@[simp] theorem State.setRes_lns (r : Nat) (x : ResSt) : (s.setRes r x).lns = s.lns := rfl
@[simp] theorem State.setRes_ces (r : Nat) (x : ResSt) : (s.setRes r x).ces = s.ces := rfl
@[simp] theorem State.setRes_mit (r : Nat) (x : ResSt) : (s.setRes r x).mit = s.mit := rfl
@[simp] theorem State.setRes_lds (r : Nat) (x : ResSt) : (s.setRes r x).lds = s.lds := rfl
@[simp] theorem State.setRes_ldGroups (r : Nat) (x : ResSt) : (s.setRes r x).ldGroups = s.ldGroups := rfl
@[simp] theorem State.setRes_gnb (r : Nat) (x : ResSt) : (s.setRes r x).gnb = s.gnb := rfl
@[simp] theorem State.setRes_imu (r : Nat) (x : ResSt) : (s.setRes r x).imu = s.imu := rfl
@[simp] theorem State.setRes_cans (r : Nat) (x : ResSt) : (s.setRes r x).cans = s.cans := rfl
@[simp] theorem State.setRes_objs (r : Nat) (x : ResSt) : (s.setRes r x).objs = s.objs := rfl
@[simp] theorem State.setRes_sess (r : Nat) (x : ResSt) : (s.setRes r x).sess = s.sess := rfl
@[simp] theorem State.setRes_msgNext (r : Nat) (x : ResSt) : (s.setRes r x).msgNext = s.msgNext := rfl
@[simp] theorem State.setRes_blocks (r : Nat) (x : ResSt) : (s.setRes r x).blocks = s.blocks := rfl
@[simp] theorem State.setRes_lmpCan (r : Nat) (x : ResSt) : (s.setRes r x).lmpCan = s.lmpCan := rfl
@[simp] theorem State.setRes_lmpRes (r : Nat) (x : ResSt) : (s.setRes r x).lmpRes = s.lmpRes := rfl
@[simp] theorem State.setRes_net (r : Nat) (x : ResSt) : (s.setRes r x).net = s.net := rfl
@[simp] theorem State.setRes_jnl (r : Nat) (x : ResSt) : (s.setRes r x).jnl = s.jnl := rfl
@[simp] theorem State.setRes_role (r : Nat) (x : ResSt) : (s.setRes r x).role = s.role := rfl
@[simp] theorem State.setRes_rst (r : Nat) (x : ResSt) : (s.setRes r x).rst = s.rst := rfl
@[simp] theorem State.setRes_upd (r : Nat) (x : ResSt) : (s.setRes r x).upd = s.upd := rfl
@[simp] theorem State.setRes_tly (r : Nat) (x : ResSt) : (s.setRes r x).tly = s.tly := rfl
@[simp] theorem State.setRes_tap (r : Nat) (x : ResSt) : (s.setRes r x).tap = s.tap := rfl

/-! setLd -/

@[simp] theorem State.setLd_pending (n : Nat) (x : LdsSt) : (s.setLd n x).pending = s.pending := rfl
@[simp] theorem State.setLd_clock (n : Nat) (x : LdsSt) : (s.setLd n x).clock = s.clock := rfl
@[simp] theorem State.setLd_start (n : Nat) (x : LdsSt) : (s.setLd n x).start = s.start := rfl
@[simp] theorem State.setLd_freeCtr (n : Nat) (x : LdsSt) : (s.setLd n x).freeCtr = s.freeCtr := rfl
@[simp] theorem State.setLd_regs (n : Nat) (x : LdsSt) : (s.setLd n x).regs = s.regs := rfl
@[simp] theorem State.setLd_mem (n : Nat) (x : LdsSt) : (s.setLd n x).mem = s.mem := rfl
@[simp] theorem State.setLd_poison (n : Nat) (x : LdsSt) : (s.setLd n x).poison = s.poison := rfl
@[simp] theorem State.setLd_fabBad (n : Nat) (x : LdsSt) : (s.setLd n x).fabBad = s.fabBad := rfl
@[simp] theorem State.setLd_held (n : Nat) (x : LdsSt) : (s.setLd n x).held = s.held := rfl
@[simp] theorem State.setLd_fabAt (n : Nat) (x : LdsSt) : (s.setLd n x).fabAt = s.fabAt := rfl
@[simp] theorem State.setLd_perMaster (n : Nat) (x : LdsSt) : (s.setLd n x).perMaster = s.perMaster := rfl
@[simp] theorem State.setLd_queSeq (n : Nat) (x : LdsSt) : (s.setLd n x).queSeq = s.queSeq := rfl
@[simp] theorem State.setLd_reply (n : Nat) (x : LdsSt) : (s.setLd n x).reply = s.reply := rfl
@[simp] theorem State.setLd_inBeanie (n : Nat) (x : LdsSt) : (s.setLd n x).inBeanie = s.inBeanie := rfl
@[simp] theorem State.setLd_aCores (n : Nat) (x : LdsSt) : (s.setLd n x).aCores = s.aCores := rfl
@[simp] theorem State.setLd_lanes (n : Nat) (x : LdsSt) : (s.setLd n x).lanes = s.lanes := rfl
@[simp] theorem State.setLd_flt (n : Nat) (x : LdsSt) : (s.setLd n x).flt = s.flt := rfl
@[simp] theorem State.setLd_evr (n : Nat) (x : LdsSt) : (s.setLd n x).evr = s.evr := rfl
@[simp] theorem State.setLd_hb (n : Nat) (x : LdsSt) : (s.setLd n x).hb = s.hb := rfl
@[simp] theorem State.setLd_ctxs (n : Nat) (x : LdsSt) : (s.setLd n x).ctxs = s.ctxs := rfl
@[simp] theorem State.setLd_mplLines (n : Nat) (x : LdsSt) : (s.setLd n x).mplLines = s.mplLines := rfl
@[simp] theorem State.setLd_mplStripe (n : Nat) (x : LdsSt) : (s.setLd n x).mplStripe = s.mplStripe := rfl
@[simp] theorem State.setLd_mplReadyl (n : Nat) (x : LdsSt) : (s.setLd n x).mplReadyl = s.mplReadyl := rfl
@[simp] theorem State.setLd_inp (n : Nat) (x : LdsSt) : (s.setLd n x).inp = s.inp := rfl
@[simp] theorem State.setLd_fins (n : Nat) (x : LdsSt) : (s.setLd n x).fins = s.fins := rfl
@[simp] theorem State.setLd_fus (n : Nat) (x : LdsSt) : (s.setLd n x).fus = s.fus := rfl
@[simp] theorem State.setLd_lns (n : Nat) (x : LdsSt) : (s.setLd n x).lns = s.lns := rfl
@[simp] theorem State.setLd_ces (n : Nat) (x : LdsSt) : (s.setLd n x).ces = s.ces := rfl
@[simp] theorem State.setLd_mit (n : Nat) (x : LdsSt) : (s.setLd n x).mit = s.mit := rfl
@[simp] theorem State.setLd_drv (n : Nat) (x : LdsSt) : (s.setLd n x).drv = s.drv := rfl
@[simp] theorem State.setLd_ldGroups (n : Nat) (x : LdsSt) : (s.setLd n x).ldGroups = s.ldGroups := rfl
@[simp] theorem State.setLd_gnb (n : Nat) (x : LdsSt) : (s.setLd n x).gnb = s.gnb := rfl
@[simp] theorem State.setLd_imu (n : Nat) (x : LdsSt) : (s.setLd n x).imu = s.imu := rfl
@[simp] theorem State.setLd_cans (n : Nat) (x : LdsSt) : (s.setLd n x).cans = s.cans := rfl
@[simp] theorem State.setLd_objs (n : Nat) (x : LdsSt) : (s.setLd n x).objs = s.objs := rfl
@[simp] theorem State.setLd_sess (n : Nat) (x : LdsSt) : (s.setLd n x).sess = s.sess := rfl
@[simp] theorem State.setLd_msgNext (n : Nat) (x : LdsSt) : (s.setLd n x).msgNext = s.msgNext := rfl
@[simp] theorem State.setLd_blocks (n : Nat) (x : LdsSt) : (s.setLd n x).blocks = s.blocks := rfl
@[simp] theorem State.setLd_lmpCan (n : Nat) (x : LdsSt) : (s.setLd n x).lmpCan = s.lmpCan := rfl
@[simp] theorem State.setLd_lmpRes (n : Nat) (x : LdsSt) : (s.setLd n x).lmpRes = s.lmpRes := rfl
@[simp] theorem State.setLd_net (n : Nat) (x : LdsSt) : (s.setLd n x).net = s.net := rfl
@[simp] theorem State.setLd_jnl (n : Nat) (x : LdsSt) : (s.setLd n x).jnl = s.jnl := rfl
@[simp] theorem State.setLd_role (n : Nat) (x : LdsSt) : (s.setLd n x).role = s.role := rfl
@[simp] theorem State.setLd_rst (n : Nat) (x : LdsSt) : (s.setLd n x).rst = s.rst := rfl
@[simp] theorem State.setLd_upd (n : Nat) (x : LdsSt) : (s.setLd n x).upd = s.upd := rfl
@[simp] theorem State.setLd_tly (n : Nat) (x : LdsSt) : (s.setLd n x).tly = s.tly := rfl
@[simp] theorem State.setLd_tap (n : Nat) (x : LdsSt) : (s.setLd n x).tap = s.tap := rfl

/-! withGnb -/

@[simp] theorem State.withGnb_gnb (x : Gnb) : (s.withGnb x).gnb = x := rfl
@[simp] theorem State.withGnb_pending (x : Gnb) : (s.withGnb x).pending = s.pending := rfl
@[simp] theorem State.withGnb_clock (x : Gnb) : (s.withGnb x).clock = s.clock := rfl
@[simp] theorem State.withGnb_start (x : Gnb) : (s.withGnb x).start = s.start := rfl
@[simp] theorem State.withGnb_freeCtr (x : Gnb) : (s.withGnb x).freeCtr = s.freeCtr := rfl
@[simp] theorem State.withGnb_regs (x : Gnb) : (s.withGnb x).regs = s.regs := rfl
@[simp] theorem State.withGnb_mem (x : Gnb) : (s.withGnb x).mem = s.mem := rfl
@[simp] theorem State.withGnb_poison (x : Gnb) : (s.withGnb x).poison = s.poison := rfl
@[simp] theorem State.withGnb_fabBad (x : Gnb) : (s.withGnb x).fabBad = s.fabBad := rfl
@[simp] theorem State.withGnb_held (x : Gnb) : (s.withGnb x).held = s.held := rfl
@[simp] theorem State.withGnb_fabAt (x : Gnb) : (s.withGnb x).fabAt = s.fabAt := rfl
@[simp] theorem State.withGnb_perMaster (x : Gnb) : (s.withGnb x).perMaster = s.perMaster := rfl
@[simp] theorem State.withGnb_queSeq (x : Gnb) : (s.withGnb x).queSeq = s.queSeq := rfl
@[simp] theorem State.withGnb_reply (x : Gnb) : (s.withGnb x).reply = s.reply := rfl
@[simp] theorem State.withGnb_inBeanie (x : Gnb) : (s.withGnb x).inBeanie = s.inBeanie := rfl
@[simp] theorem State.withGnb_aCores (x : Gnb) : (s.withGnb x).aCores = s.aCores := rfl
@[simp] theorem State.withGnb_lanes (x : Gnb) : (s.withGnb x).lanes = s.lanes := rfl
@[simp] theorem State.withGnb_flt (x : Gnb) : (s.withGnb x).flt = s.flt := rfl
@[simp] theorem State.withGnb_evr (x : Gnb) : (s.withGnb x).evr = s.evr := rfl
@[simp] theorem State.withGnb_hb (x : Gnb) : (s.withGnb x).hb = s.hb := rfl
@[simp] theorem State.withGnb_ctxs (x : Gnb) : (s.withGnb x).ctxs = s.ctxs := rfl
@[simp] theorem State.withGnb_mplLines (x : Gnb) : (s.withGnb x).mplLines = s.mplLines := rfl
@[simp] theorem State.withGnb_mplStripe (x : Gnb) : (s.withGnb x).mplStripe = s.mplStripe := rfl
@[simp] theorem State.withGnb_mplReadyl (x : Gnb) : (s.withGnb x).mplReadyl = s.mplReadyl := rfl
@[simp] theorem State.withGnb_inp (x : Gnb) : (s.withGnb x).inp = s.inp := rfl
@[simp] theorem State.withGnb_fins (x : Gnb) : (s.withGnb x).fins = s.fins := rfl
@[simp] theorem State.withGnb_fus (x : Gnb) : (s.withGnb x).fus = s.fus := rfl
@[simp] theorem State.withGnb_lns (x : Gnb) : (s.withGnb x).lns = s.lns := rfl
@[simp] theorem State.withGnb_ces (x : Gnb) : (s.withGnb x).ces = s.ces := rfl
@[simp] theorem State.withGnb_mit (x : Gnb) : (s.withGnb x).mit = s.mit := rfl
@[simp] theorem State.withGnb_drv (x : Gnb) : (s.withGnb x).drv = s.drv := rfl
@[simp] theorem State.withGnb_lds (x : Gnb) : (s.withGnb x).lds = s.lds := rfl
@[simp] theorem State.withGnb_ldGroups (x : Gnb) : (s.withGnb x).ldGroups = s.ldGroups := rfl
@[simp] theorem State.withGnb_imu (x : Gnb) : (s.withGnb x).imu = s.imu := rfl
@[simp] theorem State.withGnb_cans (x : Gnb) : (s.withGnb x).cans = s.cans := rfl
@[simp] theorem State.withGnb_objs (x : Gnb) : (s.withGnb x).objs = s.objs := rfl
@[simp] theorem State.withGnb_sess (x : Gnb) : (s.withGnb x).sess = s.sess := rfl
@[simp] theorem State.withGnb_msgNext (x : Gnb) : (s.withGnb x).msgNext = s.msgNext := rfl
@[simp] theorem State.withGnb_blocks (x : Gnb) : (s.withGnb x).blocks = s.blocks := rfl
@[simp] theorem State.withGnb_lmpCan (x : Gnb) : (s.withGnb x).lmpCan = s.lmpCan := rfl
@[simp] theorem State.withGnb_lmpRes (x : Gnb) : (s.withGnb x).lmpRes = s.lmpRes := rfl
@[simp] theorem State.withGnb_net (x : Gnb) : (s.withGnb x).net = s.net := rfl
@[simp] theorem State.withGnb_jnl (x : Gnb) : (s.withGnb x).jnl = s.jnl := rfl
@[simp] theorem State.withGnb_role (x : Gnb) : (s.withGnb x).role = s.role := rfl
@[simp] theorem State.withGnb_rst (x : Gnb) : (s.withGnb x).rst = s.rst := rfl
@[simp] theorem State.withGnb_upd (x : Gnb) : (s.withGnb x).upd = s.upd := rfl
@[simp] theorem State.withGnb_tly (x : Gnb) : (s.withGnb x).tly = s.tly := rfl
@[simp] theorem State.withGnb_tap (x : Gnb) : (s.withGnb x).tap = s.tap := rfl

/-! setGch -/

@[simp] theorem State.setGch_pending (c : Nat) (x : GnbCh) : (s.setGch c x).pending = s.pending := rfl
@[simp] theorem State.setGch_clock (c : Nat) (x : GnbCh) : (s.setGch c x).clock = s.clock := rfl
@[simp] theorem State.setGch_start (c : Nat) (x : GnbCh) : (s.setGch c x).start = s.start := rfl
@[simp] theorem State.setGch_freeCtr (c : Nat) (x : GnbCh) : (s.setGch c x).freeCtr = s.freeCtr := rfl
@[simp] theorem State.setGch_regs (c : Nat) (x : GnbCh) : (s.setGch c x).regs = s.regs := rfl
@[simp] theorem State.setGch_mem (c : Nat) (x : GnbCh) : (s.setGch c x).mem = s.mem := rfl
@[simp] theorem State.setGch_poison (c : Nat) (x : GnbCh) : (s.setGch c x).poison = s.poison := rfl
@[simp] theorem State.setGch_fabBad (c : Nat) (x : GnbCh) : (s.setGch c x).fabBad = s.fabBad := rfl
@[simp] theorem State.setGch_held (c : Nat) (x : GnbCh) : (s.setGch c x).held = s.held := rfl
@[simp] theorem State.setGch_fabAt (c : Nat) (x : GnbCh) : (s.setGch c x).fabAt = s.fabAt := rfl
@[simp] theorem State.setGch_perMaster (c : Nat) (x : GnbCh) : (s.setGch c x).perMaster = s.perMaster := rfl
@[simp] theorem State.setGch_queSeq (c : Nat) (x : GnbCh) : (s.setGch c x).queSeq = s.queSeq := rfl
@[simp] theorem State.setGch_reply (c : Nat) (x : GnbCh) : (s.setGch c x).reply = s.reply := rfl
@[simp] theorem State.setGch_inBeanie (c : Nat) (x : GnbCh) : (s.setGch c x).inBeanie = s.inBeanie := rfl
@[simp] theorem State.setGch_aCores (c : Nat) (x : GnbCh) : (s.setGch c x).aCores = s.aCores := rfl
@[simp] theorem State.setGch_lanes (c : Nat) (x : GnbCh) : (s.setGch c x).lanes = s.lanes := rfl
@[simp] theorem State.setGch_flt (c : Nat) (x : GnbCh) : (s.setGch c x).flt = s.flt := rfl
@[simp] theorem State.setGch_evr (c : Nat) (x : GnbCh) : (s.setGch c x).evr = s.evr := rfl
@[simp] theorem State.setGch_hb (c : Nat) (x : GnbCh) : (s.setGch c x).hb = s.hb := rfl
@[simp] theorem State.setGch_ctxs (c : Nat) (x : GnbCh) : (s.setGch c x).ctxs = s.ctxs := rfl
@[simp] theorem State.setGch_mplLines (c : Nat) (x : GnbCh) : (s.setGch c x).mplLines = s.mplLines := rfl
@[simp] theorem State.setGch_mplStripe (c : Nat) (x : GnbCh) : (s.setGch c x).mplStripe = s.mplStripe := rfl
@[simp] theorem State.setGch_mplReadyl (c : Nat) (x : GnbCh) : (s.setGch c x).mplReadyl = s.mplReadyl := rfl
@[simp] theorem State.setGch_inp (c : Nat) (x : GnbCh) : (s.setGch c x).inp = s.inp := rfl
@[simp] theorem State.setGch_fins (c : Nat) (x : GnbCh) : (s.setGch c x).fins = s.fins := rfl
@[simp] theorem State.setGch_fus (c : Nat) (x : GnbCh) : (s.setGch c x).fus = s.fus := rfl
@[simp] theorem State.setGch_lns (c : Nat) (x : GnbCh) : (s.setGch c x).lns = s.lns := rfl
@[simp] theorem State.setGch_ces (c : Nat) (x : GnbCh) : (s.setGch c x).ces = s.ces := rfl
@[simp] theorem State.setGch_mit (c : Nat) (x : GnbCh) : (s.setGch c x).mit = s.mit := rfl
@[simp] theorem State.setGch_drv (c : Nat) (x : GnbCh) : (s.setGch c x).drv = s.drv := rfl
@[simp] theorem State.setGch_lds (c : Nat) (x : GnbCh) : (s.setGch c x).lds = s.lds := rfl
@[simp] theorem State.setGch_ldGroups (c : Nat) (x : GnbCh) : (s.setGch c x).ldGroups = s.ldGroups := rfl
@[simp] theorem State.setGch_imu (c : Nat) (x : GnbCh) : (s.setGch c x).imu = s.imu := rfl
@[simp] theorem State.setGch_cans (c : Nat) (x : GnbCh) : (s.setGch c x).cans = s.cans := rfl
@[simp] theorem State.setGch_objs (c : Nat) (x : GnbCh) : (s.setGch c x).objs = s.objs := rfl
@[simp] theorem State.setGch_sess (c : Nat) (x : GnbCh) : (s.setGch c x).sess = s.sess := rfl
@[simp] theorem State.setGch_msgNext (c : Nat) (x : GnbCh) : (s.setGch c x).msgNext = s.msgNext := rfl
@[simp] theorem State.setGch_blocks (c : Nat) (x : GnbCh) : (s.setGch c x).blocks = s.blocks := rfl
@[simp] theorem State.setGch_lmpCan (c : Nat) (x : GnbCh) : (s.setGch c x).lmpCan = s.lmpCan := rfl
@[simp] theorem State.setGch_lmpRes (c : Nat) (x : GnbCh) : (s.setGch c x).lmpRes = s.lmpRes := rfl
@[simp] theorem State.setGch_net (c : Nat) (x : GnbCh) : (s.setGch c x).net = s.net := rfl
@[simp] theorem State.setGch_jnl (c : Nat) (x : GnbCh) : (s.setGch c x).jnl = s.jnl := rfl
@[simp] theorem State.setGch_role (c : Nat) (x : GnbCh) : (s.setGch c x).role = s.role := rfl
@[simp] theorem State.setGch_rst (c : Nat) (x : GnbCh) : (s.setGch c x).rst = s.rst := rfl
@[simp] theorem State.setGch_upd (c : Nat) (x : GnbCh) : (s.setGch c x).upd = s.upd := rfl
@[simp] theorem State.setGch_tly (c : Nat) (x : GnbCh) : (s.setGch c x).tly = s.tly := rfl
@[simp] theorem State.setGch_tap (c : Nat) (x : GnbCh) : (s.setGch c x).tap = s.tap := rfl

/-! setCan -/

@[simp] theorem State.setCan_pending (n : Nat) (x : CanSt) : (s.setCan n x).pending = s.pending := rfl
@[simp] theorem State.setCan_clock (n : Nat) (x : CanSt) : (s.setCan n x).clock = s.clock := rfl
@[simp] theorem State.setCan_start (n : Nat) (x : CanSt) : (s.setCan n x).start = s.start := rfl
@[simp] theorem State.setCan_freeCtr (n : Nat) (x : CanSt) : (s.setCan n x).freeCtr = s.freeCtr := rfl
@[simp] theorem State.setCan_regs (n : Nat) (x : CanSt) : (s.setCan n x).regs = s.regs := rfl
@[simp] theorem State.setCan_mem (n : Nat) (x : CanSt) : (s.setCan n x).mem = s.mem := rfl
@[simp] theorem State.setCan_poison (n : Nat) (x : CanSt) : (s.setCan n x).poison = s.poison := rfl
@[simp] theorem State.setCan_fabBad (n : Nat) (x : CanSt) : (s.setCan n x).fabBad = s.fabBad := rfl
@[simp] theorem State.setCan_held (n : Nat) (x : CanSt) : (s.setCan n x).held = s.held := rfl
@[simp] theorem State.setCan_fabAt (n : Nat) (x : CanSt) : (s.setCan n x).fabAt = s.fabAt := rfl
@[simp] theorem State.setCan_perMaster (n : Nat) (x : CanSt) : (s.setCan n x).perMaster = s.perMaster := rfl
@[simp] theorem State.setCan_queSeq (n : Nat) (x : CanSt) : (s.setCan n x).queSeq = s.queSeq := rfl
@[simp] theorem State.setCan_reply (n : Nat) (x : CanSt) : (s.setCan n x).reply = s.reply := rfl
@[simp] theorem State.setCan_inBeanie (n : Nat) (x : CanSt) : (s.setCan n x).inBeanie = s.inBeanie := rfl
@[simp] theorem State.setCan_aCores (n : Nat) (x : CanSt) : (s.setCan n x).aCores = s.aCores := rfl
@[simp] theorem State.setCan_lanes (n : Nat) (x : CanSt) : (s.setCan n x).lanes = s.lanes := rfl
@[simp] theorem State.setCan_flt (n : Nat) (x : CanSt) : (s.setCan n x).flt = s.flt := rfl
@[simp] theorem State.setCan_evr (n : Nat) (x : CanSt) : (s.setCan n x).evr = s.evr := rfl
@[simp] theorem State.setCan_hb (n : Nat) (x : CanSt) : (s.setCan n x).hb = s.hb := rfl
@[simp] theorem State.setCan_ctxs (n : Nat) (x : CanSt) : (s.setCan n x).ctxs = s.ctxs := rfl
@[simp] theorem State.setCan_mplLines (n : Nat) (x : CanSt) : (s.setCan n x).mplLines = s.mplLines := rfl
@[simp] theorem State.setCan_mplStripe (n : Nat) (x : CanSt) : (s.setCan n x).mplStripe = s.mplStripe := rfl
@[simp] theorem State.setCan_mplReadyl (n : Nat) (x : CanSt) : (s.setCan n x).mplReadyl = s.mplReadyl := rfl
@[simp] theorem State.setCan_inp (n : Nat) (x : CanSt) : (s.setCan n x).inp = s.inp := rfl
@[simp] theorem State.setCan_fins (n : Nat) (x : CanSt) : (s.setCan n x).fins = s.fins := rfl
@[simp] theorem State.setCan_fus (n : Nat) (x : CanSt) : (s.setCan n x).fus = s.fus := rfl
@[simp] theorem State.setCan_lns (n : Nat) (x : CanSt) : (s.setCan n x).lns = s.lns := rfl
@[simp] theorem State.setCan_ces (n : Nat) (x : CanSt) : (s.setCan n x).ces = s.ces := rfl
@[simp] theorem State.setCan_mit (n : Nat) (x : CanSt) : (s.setCan n x).mit = s.mit := rfl
@[simp] theorem State.setCan_drv (n : Nat) (x : CanSt) : (s.setCan n x).drv = s.drv := rfl
@[simp] theorem State.setCan_lds (n : Nat) (x : CanSt) : (s.setCan n x).lds = s.lds := rfl
@[simp] theorem State.setCan_ldGroups (n : Nat) (x : CanSt) : (s.setCan n x).ldGroups = s.ldGroups := rfl
@[simp] theorem State.setCan_gnb (n : Nat) (x : CanSt) : (s.setCan n x).gnb = s.gnb := rfl
@[simp] theorem State.setCan_imu (n : Nat) (x : CanSt) : (s.setCan n x).imu = s.imu := rfl
@[simp] theorem State.setCan_objs (n : Nat) (x : CanSt) : (s.setCan n x).objs = s.objs := rfl
@[simp] theorem State.setCan_sess (n : Nat) (x : CanSt) : (s.setCan n x).sess = s.sess := rfl
@[simp] theorem State.setCan_msgNext (n : Nat) (x : CanSt) : (s.setCan n x).msgNext = s.msgNext := rfl
@[simp] theorem State.setCan_blocks (n : Nat) (x : CanSt) : (s.setCan n x).blocks = s.blocks := rfl
@[simp] theorem State.setCan_lmpCan (n : Nat) (x : CanSt) : (s.setCan n x).lmpCan = s.lmpCan := rfl
@[simp] theorem State.setCan_lmpRes (n : Nat) (x : CanSt) : (s.setCan n x).lmpRes = s.lmpRes := rfl
@[simp] theorem State.setCan_net (n : Nat) (x : CanSt) : (s.setCan n x).net = s.net := rfl
@[simp] theorem State.setCan_jnl (n : Nat) (x : CanSt) : (s.setCan n x).jnl = s.jnl := rfl
@[simp] theorem State.setCan_role (n : Nat) (x : CanSt) : (s.setCan n x).role = s.role := rfl
@[simp] theorem State.setCan_rst (n : Nat) (x : CanSt) : (s.setCan n x).rst = s.rst := rfl
@[simp] theorem State.setCan_upd (n : Nat) (x : CanSt) : (s.setCan n x).upd = s.upd := rfl
@[simp] theorem State.setCan_tly (n : Nat) (x : CanSt) : (s.setCan n x).tly = s.tly := rfl
@[simp] theorem State.setCan_tap (n : Nat) (x : CanSt) : (s.setCan n x).tap = s.tap := rfl

/-! setObj -/

@[simp] theorem State.setObj_pending (n : Nat) (x : ObjSt) : (s.setObj n x).pending = s.pending := rfl
@[simp] theorem State.setObj_clock (n : Nat) (x : ObjSt) : (s.setObj n x).clock = s.clock := rfl
@[simp] theorem State.setObj_start (n : Nat) (x : ObjSt) : (s.setObj n x).start = s.start := rfl
@[simp] theorem State.setObj_freeCtr (n : Nat) (x : ObjSt) : (s.setObj n x).freeCtr = s.freeCtr := rfl
@[simp] theorem State.setObj_regs (n : Nat) (x : ObjSt) : (s.setObj n x).regs = s.regs := rfl
@[simp] theorem State.setObj_mem (n : Nat) (x : ObjSt) : (s.setObj n x).mem = s.mem := rfl
@[simp] theorem State.setObj_poison (n : Nat) (x : ObjSt) : (s.setObj n x).poison = s.poison := rfl
@[simp] theorem State.setObj_fabBad (n : Nat) (x : ObjSt) : (s.setObj n x).fabBad = s.fabBad := rfl
@[simp] theorem State.setObj_held (n : Nat) (x : ObjSt) : (s.setObj n x).held = s.held := rfl
@[simp] theorem State.setObj_fabAt (n : Nat) (x : ObjSt) : (s.setObj n x).fabAt = s.fabAt := rfl
@[simp] theorem State.setObj_perMaster (n : Nat) (x : ObjSt) : (s.setObj n x).perMaster = s.perMaster := rfl
@[simp] theorem State.setObj_queSeq (n : Nat) (x : ObjSt) : (s.setObj n x).queSeq = s.queSeq := rfl
@[simp] theorem State.setObj_reply (n : Nat) (x : ObjSt) : (s.setObj n x).reply = s.reply := rfl
@[simp] theorem State.setObj_inBeanie (n : Nat) (x : ObjSt) : (s.setObj n x).inBeanie = s.inBeanie := rfl
@[simp] theorem State.setObj_aCores (n : Nat) (x : ObjSt) : (s.setObj n x).aCores = s.aCores := rfl
@[simp] theorem State.setObj_lanes (n : Nat) (x : ObjSt) : (s.setObj n x).lanes = s.lanes := rfl
@[simp] theorem State.setObj_flt (n : Nat) (x : ObjSt) : (s.setObj n x).flt = s.flt := rfl
@[simp] theorem State.setObj_evr (n : Nat) (x : ObjSt) : (s.setObj n x).evr = s.evr := rfl
@[simp] theorem State.setObj_hb (n : Nat) (x : ObjSt) : (s.setObj n x).hb = s.hb := rfl
@[simp] theorem State.setObj_ctxs (n : Nat) (x : ObjSt) : (s.setObj n x).ctxs = s.ctxs := rfl
@[simp] theorem State.setObj_mplLines (n : Nat) (x : ObjSt) : (s.setObj n x).mplLines = s.mplLines := rfl
@[simp] theorem State.setObj_mplStripe (n : Nat) (x : ObjSt) : (s.setObj n x).mplStripe = s.mplStripe := rfl
@[simp] theorem State.setObj_mplReadyl (n : Nat) (x : ObjSt) : (s.setObj n x).mplReadyl = s.mplReadyl := rfl
@[simp] theorem State.setObj_inp (n : Nat) (x : ObjSt) : (s.setObj n x).inp = s.inp := rfl
@[simp] theorem State.setObj_fins (n : Nat) (x : ObjSt) : (s.setObj n x).fins = s.fins := rfl
@[simp] theorem State.setObj_fus (n : Nat) (x : ObjSt) : (s.setObj n x).fus = s.fus := rfl
@[simp] theorem State.setObj_lns (n : Nat) (x : ObjSt) : (s.setObj n x).lns = s.lns := rfl
@[simp] theorem State.setObj_ces (n : Nat) (x : ObjSt) : (s.setObj n x).ces = s.ces := rfl
@[simp] theorem State.setObj_mit (n : Nat) (x : ObjSt) : (s.setObj n x).mit = s.mit := rfl
@[simp] theorem State.setObj_drv (n : Nat) (x : ObjSt) : (s.setObj n x).drv = s.drv := rfl
@[simp] theorem State.setObj_lds (n : Nat) (x : ObjSt) : (s.setObj n x).lds = s.lds := rfl
@[simp] theorem State.setObj_ldGroups (n : Nat) (x : ObjSt) : (s.setObj n x).ldGroups = s.ldGroups := rfl
@[simp] theorem State.setObj_gnb (n : Nat) (x : ObjSt) : (s.setObj n x).gnb = s.gnb := rfl
@[simp] theorem State.setObj_imu (n : Nat) (x : ObjSt) : (s.setObj n x).imu = s.imu := rfl
@[simp] theorem State.setObj_cans (n : Nat) (x : ObjSt) : (s.setObj n x).cans = s.cans := rfl
@[simp] theorem State.setObj_sess (n : Nat) (x : ObjSt) : (s.setObj n x).sess = s.sess := rfl
@[simp] theorem State.setObj_msgNext (n : Nat) (x : ObjSt) : (s.setObj n x).msgNext = s.msgNext := rfl
@[simp] theorem State.setObj_blocks (n : Nat) (x : ObjSt) : (s.setObj n x).blocks = s.blocks := rfl
@[simp] theorem State.setObj_lmpCan (n : Nat) (x : ObjSt) : (s.setObj n x).lmpCan = s.lmpCan := rfl
@[simp] theorem State.setObj_lmpRes (n : Nat) (x : ObjSt) : (s.setObj n x).lmpRes = s.lmpRes := rfl
@[simp] theorem State.setObj_net (n : Nat) (x : ObjSt) : (s.setObj n x).net = s.net := rfl
@[simp] theorem State.setObj_jnl (n : Nat) (x : ObjSt) : (s.setObj n x).jnl = s.jnl := rfl
@[simp] theorem State.setObj_role (n : Nat) (x : ObjSt) : (s.setObj n x).role = s.role := rfl
@[simp] theorem State.setObj_rst (n : Nat) (x : ObjSt) : (s.setObj n x).rst = s.rst := rfl
@[simp] theorem State.setObj_upd (n : Nat) (x : ObjSt) : (s.setObj n x).upd = s.upd := rfl
@[simp] theorem State.setObj_tly (n : Nat) (x : ObjSt) : (s.setObj n x).tly = s.tly := rfl
@[simp] theorem State.setObj_tap (n : Nat) (x : ObjSt) : (s.setObj n x).tap = s.tap := rfl

/-! setSes -/

@[simp] theorem State.setSes_pending (k : Nat) (x : Sess) : (s.setSes k x).pending = s.pending := rfl
@[simp] theorem State.setSes_clock (k : Nat) (x : Sess) : (s.setSes k x).clock = s.clock := rfl
@[simp] theorem State.setSes_start (k : Nat) (x : Sess) : (s.setSes k x).start = s.start := rfl
@[simp] theorem State.setSes_freeCtr (k : Nat) (x : Sess) : (s.setSes k x).freeCtr = s.freeCtr := rfl
@[simp] theorem State.setSes_regs (k : Nat) (x : Sess) : (s.setSes k x).regs = s.regs := rfl
@[simp] theorem State.setSes_mem (k : Nat) (x : Sess) : (s.setSes k x).mem = s.mem := rfl
@[simp] theorem State.setSes_poison (k : Nat) (x : Sess) : (s.setSes k x).poison = s.poison := rfl
@[simp] theorem State.setSes_fabBad (k : Nat) (x : Sess) : (s.setSes k x).fabBad = s.fabBad := rfl
@[simp] theorem State.setSes_held (k : Nat) (x : Sess) : (s.setSes k x).held = s.held := rfl
@[simp] theorem State.setSes_fabAt (k : Nat) (x : Sess) : (s.setSes k x).fabAt = s.fabAt := rfl
@[simp] theorem State.setSes_perMaster (k : Nat) (x : Sess) : (s.setSes k x).perMaster = s.perMaster := rfl
@[simp] theorem State.setSes_queSeq (k : Nat) (x : Sess) : (s.setSes k x).queSeq = s.queSeq := rfl
@[simp] theorem State.setSes_reply (k : Nat) (x : Sess) : (s.setSes k x).reply = s.reply := rfl
@[simp] theorem State.setSes_inBeanie (k : Nat) (x : Sess) : (s.setSes k x).inBeanie = s.inBeanie := rfl
@[simp] theorem State.setSes_aCores (k : Nat) (x : Sess) : (s.setSes k x).aCores = s.aCores := rfl
@[simp] theorem State.setSes_lanes (k : Nat) (x : Sess) : (s.setSes k x).lanes = s.lanes := rfl
@[simp] theorem State.setSes_flt (k : Nat) (x : Sess) : (s.setSes k x).flt = s.flt := rfl
@[simp] theorem State.setSes_evr (k : Nat) (x : Sess) : (s.setSes k x).evr = s.evr := rfl
@[simp] theorem State.setSes_hb (k : Nat) (x : Sess) : (s.setSes k x).hb = s.hb := rfl
@[simp] theorem State.setSes_ctxs (k : Nat) (x : Sess) : (s.setSes k x).ctxs = s.ctxs := rfl
@[simp] theorem State.setSes_mplLines (k : Nat) (x : Sess) : (s.setSes k x).mplLines = s.mplLines := rfl
@[simp] theorem State.setSes_mplStripe (k : Nat) (x : Sess) : (s.setSes k x).mplStripe = s.mplStripe := rfl
@[simp] theorem State.setSes_mplReadyl (k : Nat) (x : Sess) : (s.setSes k x).mplReadyl = s.mplReadyl := rfl
@[simp] theorem State.setSes_inp (k : Nat) (x : Sess) : (s.setSes k x).inp = s.inp := rfl
@[simp] theorem State.setSes_fins (k : Nat) (x : Sess) : (s.setSes k x).fins = s.fins := rfl
@[simp] theorem State.setSes_fus (k : Nat) (x : Sess) : (s.setSes k x).fus = s.fus := rfl
@[simp] theorem State.setSes_lns (k : Nat) (x : Sess) : (s.setSes k x).lns = s.lns := rfl
@[simp] theorem State.setSes_ces (k : Nat) (x : Sess) : (s.setSes k x).ces = s.ces := rfl
@[simp] theorem State.setSes_mit (k : Nat) (x : Sess) : (s.setSes k x).mit = s.mit := rfl
@[simp] theorem State.setSes_drv (k : Nat) (x : Sess) : (s.setSes k x).drv = s.drv := rfl
@[simp] theorem State.setSes_lds (k : Nat) (x : Sess) : (s.setSes k x).lds = s.lds := rfl
@[simp] theorem State.setSes_ldGroups (k : Nat) (x : Sess) : (s.setSes k x).ldGroups = s.ldGroups := rfl
@[simp] theorem State.setSes_gnb (k : Nat) (x : Sess) : (s.setSes k x).gnb = s.gnb := rfl
@[simp] theorem State.setSes_imu (k : Nat) (x : Sess) : (s.setSes k x).imu = s.imu := rfl
@[simp] theorem State.setSes_cans (k : Nat) (x : Sess) : (s.setSes k x).cans = s.cans := rfl
@[simp] theorem State.setSes_objs (k : Nat) (x : Sess) : (s.setSes k x).objs = s.objs := rfl
@[simp] theorem State.setSes_msgNext (k : Nat) (x : Sess) : (s.setSes k x).msgNext = s.msgNext := rfl
@[simp] theorem State.setSes_blocks (k : Nat) (x : Sess) : (s.setSes k x).blocks = s.blocks := rfl
@[simp] theorem State.setSes_lmpCan (k : Nat) (x : Sess) : (s.setSes k x).lmpCan = s.lmpCan := rfl
@[simp] theorem State.setSes_lmpRes (k : Nat) (x : Sess) : (s.setSes k x).lmpRes = s.lmpRes := rfl
@[simp] theorem State.setSes_net (k : Nat) (x : Sess) : (s.setSes k x).net = s.net := rfl
@[simp] theorem State.setSes_jnl (k : Nat) (x : Sess) : (s.setSes k x).jnl = s.jnl := rfl
@[simp] theorem State.setSes_role (k : Nat) (x : Sess) : (s.setSes k x).role = s.role := rfl
@[simp] theorem State.setSes_rst (k : Nat) (x : Sess) : (s.setSes k x).rst = s.rst := rfl
@[simp] theorem State.setSes_upd (k : Nat) (x : Sess) : (s.setSes k x).upd = s.upd := rfl
@[simp] theorem State.setSes_tly (k : Nat) (x : Sess) : (s.setSes k x).tly = s.tly := rfl
@[simp] theorem State.setSes_tap (k : Nat) (x : Sess) : (s.setSes k x).tap = s.tap := rfl

/-! withNet -/

@[simp] theorem State.withNet_net (x : Net) : (s.withNet x).net = x := rfl
@[simp] theorem State.withNet_pending (x : Net) : (s.withNet x).pending = s.pending := rfl
@[simp] theorem State.withNet_clock (x : Net) : (s.withNet x).clock = s.clock := rfl
@[simp] theorem State.withNet_start (x : Net) : (s.withNet x).start = s.start := rfl
@[simp] theorem State.withNet_freeCtr (x : Net) : (s.withNet x).freeCtr = s.freeCtr := rfl
@[simp] theorem State.withNet_regs (x : Net) : (s.withNet x).regs = s.regs := rfl
@[simp] theorem State.withNet_mem (x : Net) : (s.withNet x).mem = s.mem := rfl
@[simp] theorem State.withNet_poison (x : Net) : (s.withNet x).poison = s.poison := rfl
@[simp] theorem State.withNet_fabBad (x : Net) : (s.withNet x).fabBad = s.fabBad := rfl
@[simp] theorem State.withNet_held (x : Net) : (s.withNet x).held = s.held := rfl
@[simp] theorem State.withNet_fabAt (x : Net) : (s.withNet x).fabAt = s.fabAt := rfl
@[simp] theorem State.withNet_perMaster (x : Net) : (s.withNet x).perMaster = s.perMaster := rfl
@[simp] theorem State.withNet_queSeq (x : Net) : (s.withNet x).queSeq = s.queSeq := rfl
@[simp] theorem State.withNet_reply (x : Net) : (s.withNet x).reply = s.reply := rfl
@[simp] theorem State.withNet_inBeanie (x : Net) : (s.withNet x).inBeanie = s.inBeanie := rfl
@[simp] theorem State.withNet_aCores (x : Net) : (s.withNet x).aCores = s.aCores := rfl
@[simp] theorem State.withNet_lanes (x : Net) : (s.withNet x).lanes = s.lanes := rfl
@[simp] theorem State.withNet_flt (x : Net) : (s.withNet x).flt = s.flt := rfl
@[simp] theorem State.withNet_evr (x : Net) : (s.withNet x).evr = s.evr := rfl
@[simp] theorem State.withNet_hb (x : Net) : (s.withNet x).hb = s.hb := rfl
@[simp] theorem State.withNet_ctxs (x : Net) : (s.withNet x).ctxs = s.ctxs := rfl
@[simp] theorem State.withNet_mplLines (x : Net) : (s.withNet x).mplLines = s.mplLines := rfl
@[simp] theorem State.withNet_mplStripe (x : Net) : (s.withNet x).mplStripe = s.mplStripe := rfl
@[simp] theorem State.withNet_mplReadyl (x : Net) : (s.withNet x).mplReadyl = s.mplReadyl := rfl
@[simp] theorem State.withNet_inp (x : Net) : (s.withNet x).inp = s.inp := rfl
@[simp] theorem State.withNet_fins (x : Net) : (s.withNet x).fins = s.fins := rfl
@[simp] theorem State.withNet_fus (x : Net) : (s.withNet x).fus = s.fus := rfl
@[simp] theorem State.withNet_lns (x : Net) : (s.withNet x).lns = s.lns := rfl
@[simp] theorem State.withNet_ces (x : Net) : (s.withNet x).ces = s.ces := rfl
@[simp] theorem State.withNet_mit (x : Net) : (s.withNet x).mit = s.mit := rfl
@[simp] theorem State.withNet_drv (x : Net) : (s.withNet x).drv = s.drv := rfl
@[simp] theorem State.withNet_lds (x : Net) : (s.withNet x).lds = s.lds := rfl
@[simp] theorem State.withNet_ldGroups (x : Net) : (s.withNet x).ldGroups = s.ldGroups := rfl
@[simp] theorem State.withNet_gnb (x : Net) : (s.withNet x).gnb = s.gnb := rfl
@[simp] theorem State.withNet_imu (x : Net) : (s.withNet x).imu = s.imu := rfl
@[simp] theorem State.withNet_cans (x : Net) : (s.withNet x).cans = s.cans := rfl
@[simp] theorem State.withNet_objs (x : Net) : (s.withNet x).objs = s.objs := rfl
@[simp] theorem State.withNet_sess (x : Net) : (s.withNet x).sess = s.sess := rfl
@[simp] theorem State.withNet_msgNext (x : Net) : (s.withNet x).msgNext = s.msgNext := rfl
@[simp] theorem State.withNet_blocks (x : Net) : (s.withNet x).blocks = s.blocks := rfl
@[simp] theorem State.withNet_lmpCan (x : Net) : (s.withNet x).lmpCan = s.lmpCan := rfl
@[simp] theorem State.withNet_lmpRes (x : Net) : (s.withNet x).lmpRes = s.lmpRes := rfl
@[simp] theorem State.withNet_jnl (x : Net) : (s.withNet x).jnl = s.jnl := rfl
@[simp] theorem State.withNet_role (x : Net) : (s.withNet x).role = s.role := rfl
@[simp] theorem State.withNet_rst (x : Net) : (s.withNet x).rst = s.rst := rfl
@[simp] theorem State.withNet_upd (x : Net) : (s.withNet x).upd = s.upd := rfl
@[simp] theorem State.withNet_tly (x : Net) : (s.withNet x).tly = s.tly := rfl
@[simp] theorem State.withNet_tap (x : Net) : (s.withNet x).tap = s.tap := rfl

/-! withJnl -/

@[simp] theorem State.withJnl_jnl (x : Journal) : (s.withJnl x).jnl = x := rfl
@[simp] theorem State.withJnl_pending (x : Journal) : (s.withJnl x).pending = s.pending := rfl
@[simp] theorem State.withJnl_clock (x : Journal) : (s.withJnl x).clock = s.clock := rfl
@[simp] theorem State.withJnl_start (x : Journal) : (s.withJnl x).start = s.start := rfl
@[simp] theorem State.withJnl_freeCtr (x : Journal) : (s.withJnl x).freeCtr = s.freeCtr := rfl
@[simp] theorem State.withJnl_regs (x : Journal) : (s.withJnl x).regs = s.regs := rfl
@[simp] theorem State.withJnl_mem (x : Journal) : (s.withJnl x).mem = s.mem := rfl
@[simp] theorem State.withJnl_poison (x : Journal) : (s.withJnl x).poison = s.poison := rfl
@[simp] theorem State.withJnl_fabBad (x : Journal) : (s.withJnl x).fabBad = s.fabBad := rfl
@[simp] theorem State.withJnl_held (x : Journal) : (s.withJnl x).held = s.held := rfl
@[simp] theorem State.withJnl_fabAt (x : Journal) : (s.withJnl x).fabAt = s.fabAt := rfl
@[simp] theorem State.withJnl_perMaster (x : Journal) : (s.withJnl x).perMaster = s.perMaster := rfl
@[simp] theorem State.withJnl_queSeq (x : Journal) : (s.withJnl x).queSeq = s.queSeq := rfl
@[simp] theorem State.withJnl_reply (x : Journal) : (s.withJnl x).reply = s.reply := rfl
@[simp] theorem State.withJnl_inBeanie (x : Journal) : (s.withJnl x).inBeanie = s.inBeanie := rfl
@[simp] theorem State.withJnl_aCores (x : Journal) : (s.withJnl x).aCores = s.aCores := rfl
@[simp] theorem State.withJnl_lanes (x : Journal) : (s.withJnl x).lanes = s.lanes := rfl
@[simp] theorem State.withJnl_flt (x : Journal) : (s.withJnl x).flt = s.flt := rfl
@[simp] theorem State.withJnl_evr (x : Journal) : (s.withJnl x).evr = s.evr := rfl
@[simp] theorem State.withJnl_hb (x : Journal) : (s.withJnl x).hb = s.hb := rfl
@[simp] theorem State.withJnl_ctxs (x : Journal) : (s.withJnl x).ctxs = s.ctxs := rfl
@[simp] theorem State.withJnl_mplLines (x : Journal) : (s.withJnl x).mplLines = s.mplLines := rfl
@[simp] theorem State.withJnl_mplStripe (x : Journal) : (s.withJnl x).mplStripe = s.mplStripe := rfl
@[simp] theorem State.withJnl_mplReadyl (x : Journal) : (s.withJnl x).mplReadyl = s.mplReadyl := rfl
@[simp] theorem State.withJnl_inp (x : Journal) : (s.withJnl x).inp = s.inp := rfl
@[simp] theorem State.withJnl_fins (x : Journal) : (s.withJnl x).fins = s.fins := rfl
@[simp] theorem State.withJnl_fus (x : Journal) : (s.withJnl x).fus = s.fus := rfl
@[simp] theorem State.withJnl_lns (x : Journal) : (s.withJnl x).lns = s.lns := rfl
@[simp] theorem State.withJnl_ces (x : Journal) : (s.withJnl x).ces = s.ces := rfl
@[simp] theorem State.withJnl_mit (x : Journal) : (s.withJnl x).mit = s.mit := rfl
@[simp] theorem State.withJnl_drv (x : Journal) : (s.withJnl x).drv = s.drv := rfl
@[simp] theorem State.withJnl_lds (x : Journal) : (s.withJnl x).lds = s.lds := rfl
@[simp] theorem State.withJnl_ldGroups (x : Journal) : (s.withJnl x).ldGroups = s.ldGroups := rfl
@[simp] theorem State.withJnl_gnb (x : Journal) : (s.withJnl x).gnb = s.gnb := rfl
@[simp] theorem State.withJnl_imu (x : Journal) : (s.withJnl x).imu = s.imu := rfl
@[simp] theorem State.withJnl_cans (x : Journal) : (s.withJnl x).cans = s.cans := rfl
@[simp] theorem State.withJnl_objs (x : Journal) : (s.withJnl x).objs = s.objs := rfl
@[simp] theorem State.withJnl_sess (x : Journal) : (s.withJnl x).sess = s.sess := rfl
@[simp] theorem State.withJnl_msgNext (x : Journal) : (s.withJnl x).msgNext = s.msgNext := rfl
@[simp] theorem State.withJnl_blocks (x : Journal) : (s.withJnl x).blocks = s.blocks := rfl
@[simp] theorem State.withJnl_lmpCan (x : Journal) : (s.withJnl x).lmpCan = s.lmpCan := rfl
@[simp] theorem State.withJnl_lmpRes (x : Journal) : (s.withJnl x).lmpRes = s.lmpRes := rfl
@[simp] theorem State.withJnl_net (x : Journal) : (s.withJnl x).net = s.net := rfl
@[simp] theorem State.withJnl_role (x : Journal) : (s.withJnl x).role = s.role := rfl
@[simp] theorem State.withJnl_rst (x : Journal) : (s.withJnl x).rst = s.rst := rfl
@[simp] theorem State.withJnl_upd (x : Journal) : (s.withJnl x).upd = s.upd := rfl
@[simp] theorem State.withJnl_tly (x : Journal) : (s.withJnl x).tly = s.tly := rfl
@[simp] theorem State.withJnl_tap (x : Journal) : (s.withJnl x).tap = s.tap := rfl

/-! withRole -/

@[simp] theorem State.withRole_role (x : RoleSt) : (s.withRole x).role = x := rfl
@[simp] theorem State.withRole_pending (x : RoleSt) : (s.withRole x).pending = s.pending := rfl
@[simp] theorem State.withRole_clock (x : RoleSt) : (s.withRole x).clock = s.clock := rfl
@[simp] theorem State.withRole_start (x : RoleSt) : (s.withRole x).start = s.start := rfl
@[simp] theorem State.withRole_freeCtr (x : RoleSt) : (s.withRole x).freeCtr = s.freeCtr := rfl
@[simp] theorem State.withRole_regs (x : RoleSt) : (s.withRole x).regs = s.regs := rfl
@[simp] theorem State.withRole_mem (x : RoleSt) : (s.withRole x).mem = s.mem := rfl
@[simp] theorem State.withRole_poison (x : RoleSt) : (s.withRole x).poison = s.poison := rfl
@[simp] theorem State.withRole_fabBad (x : RoleSt) : (s.withRole x).fabBad = s.fabBad := rfl
@[simp] theorem State.withRole_held (x : RoleSt) : (s.withRole x).held = s.held := rfl
@[simp] theorem State.withRole_fabAt (x : RoleSt) : (s.withRole x).fabAt = s.fabAt := rfl
@[simp] theorem State.withRole_perMaster (x : RoleSt) : (s.withRole x).perMaster = s.perMaster := rfl
@[simp] theorem State.withRole_queSeq (x : RoleSt) : (s.withRole x).queSeq = s.queSeq := rfl
@[simp] theorem State.withRole_reply (x : RoleSt) : (s.withRole x).reply = s.reply := rfl
@[simp] theorem State.withRole_inBeanie (x : RoleSt) : (s.withRole x).inBeanie = s.inBeanie := rfl
@[simp] theorem State.withRole_aCores (x : RoleSt) : (s.withRole x).aCores = s.aCores := rfl
@[simp] theorem State.withRole_lanes (x : RoleSt) : (s.withRole x).lanes = s.lanes := rfl
@[simp] theorem State.withRole_flt (x : RoleSt) : (s.withRole x).flt = s.flt := rfl
@[simp] theorem State.withRole_evr (x : RoleSt) : (s.withRole x).evr = s.evr := rfl
@[simp] theorem State.withRole_hb (x : RoleSt) : (s.withRole x).hb = s.hb := rfl
@[simp] theorem State.withRole_ctxs (x : RoleSt) : (s.withRole x).ctxs = s.ctxs := rfl
@[simp] theorem State.withRole_mplLines (x : RoleSt) : (s.withRole x).mplLines = s.mplLines := rfl
@[simp] theorem State.withRole_mplStripe (x : RoleSt) : (s.withRole x).mplStripe = s.mplStripe := rfl
@[simp] theorem State.withRole_mplReadyl (x : RoleSt) : (s.withRole x).mplReadyl = s.mplReadyl := rfl
@[simp] theorem State.withRole_inp (x : RoleSt) : (s.withRole x).inp = s.inp := rfl
@[simp] theorem State.withRole_fins (x : RoleSt) : (s.withRole x).fins = s.fins := rfl
@[simp] theorem State.withRole_fus (x : RoleSt) : (s.withRole x).fus = s.fus := rfl
@[simp] theorem State.withRole_lns (x : RoleSt) : (s.withRole x).lns = s.lns := rfl
@[simp] theorem State.withRole_ces (x : RoleSt) : (s.withRole x).ces = s.ces := rfl
@[simp] theorem State.withRole_mit (x : RoleSt) : (s.withRole x).mit = s.mit := rfl
@[simp] theorem State.withRole_drv (x : RoleSt) : (s.withRole x).drv = s.drv := rfl
@[simp] theorem State.withRole_lds (x : RoleSt) : (s.withRole x).lds = s.lds := rfl
@[simp] theorem State.withRole_ldGroups (x : RoleSt) : (s.withRole x).ldGroups = s.ldGroups := rfl
@[simp] theorem State.withRole_gnb (x : RoleSt) : (s.withRole x).gnb = s.gnb := rfl
@[simp] theorem State.withRole_imu (x : RoleSt) : (s.withRole x).imu = s.imu := rfl
@[simp] theorem State.withRole_cans (x : RoleSt) : (s.withRole x).cans = s.cans := rfl
@[simp] theorem State.withRole_objs (x : RoleSt) : (s.withRole x).objs = s.objs := rfl
@[simp] theorem State.withRole_sess (x : RoleSt) : (s.withRole x).sess = s.sess := rfl
@[simp] theorem State.withRole_msgNext (x : RoleSt) : (s.withRole x).msgNext = s.msgNext := rfl
@[simp] theorem State.withRole_blocks (x : RoleSt) : (s.withRole x).blocks = s.blocks := rfl
@[simp] theorem State.withRole_lmpCan (x : RoleSt) : (s.withRole x).lmpCan = s.lmpCan := rfl
@[simp] theorem State.withRole_lmpRes (x : RoleSt) : (s.withRole x).lmpRes = s.lmpRes := rfl
@[simp] theorem State.withRole_net (x : RoleSt) : (s.withRole x).net = s.net := rfl
@[simp] theorem State.withRole_jnl (x : RoleSt) : (s.withRole x).jnl = s.jnl := rfl
@[simp] theorem State.withRole_rst (x : RoleSt) : (s.withRole x).rst = s.rst := rfl
@[simp] theorem State.withRole_upd (x : RoleSt) : (s.withRole x).upd = s.upd := rfl
@[simp] theorem State.withRole_tly (x : RoleSt) : (s.withRole x).tly = s.tly := rfl
@[simp] theorem State.withRole_tap (x : RoleSt) : (s.withRole x).tap = s.tap := rfl

/-! withRst -/

@[simp] theorem State.withRst_rst (x : RstSt) : (s.withRst x).rst = x := rfl
@[simp] theorem State.withRst_pending (x : RstSt) : (s.withRst x).pending = s.pending := rfl
@[simp] theorem State.withRst_clock (x : RstSt) : (s.withRst x).clock = s.clock := rfl
@[simp] theorem State.withRst_start (x : RstSt) : (s.withRst x).start = s.start := rfl
@[simp] theorem State.withRst_freeCtr (x : RstSt) : (s.withRst x).freeCtr = s.freeCtr := rfl
@[simp] theorem State.withRst_regs (x : RstSt) : (s.withRst x).regs = s.regs := rfl
@[simp] theorem State.withRst_mem (x : RstSt) : (s.withRst x).mem = s.mem := rfl
@[simp] theorem State.withRst_poison (x : RstSt) : (s.withRst x).poison = s.poison := rfl
@[simp] theorem State.withRst_fabBad (x : RstSt) : (s.withRst x).fabBad = s.fabBad := rfl
@[simp] theorem State.withRst_held (x : RstSt) : (s.withRst x).held = s.held := rfl
@[simp] theorem State.withRst_fabAt (x : RstSt) : (s.withRst x).fabAt = s.fabAt := rfl
@[simp] theorem State.withRst_perMaster (x : RstSt) : (s.withRst x).perMaster = s.perMaster := rfl
@[simp] theorem State.withRst_queSeq (x : RstSt) : (s.withRst x).queSeq = s.queSeq := rfl
@[simp] theorem State.withRst_reply (x : RstSt) : (s.withRst x).reply = s.reply := rfl
@[simp] theorem State.withRst_inBeanie (x : RstSt) : (s.withRst x).inBeanie = s.inBeanie := rfl
@[simp] theorem State.withRst_aCores (x : RstSt) : (s.withRst x).aCores = s.aCores := rfl
@[simp] theorem State.withRst_lanes (x : RstSt) : (s.withRst x).lanes = s.lanes := rfl
@[simp] theorem State.withRst_flt (x : RstSt) : (s.withRst x).flt = s.flt := rfl
@[simp] theorem State.withRst_evr (x : RstSt) : (s.withRst x).evr = s.evr := rfl
@[simp] theorem State.withRst_hb (x : RstSt) : (s.withRst x).hb = s.hb := rfl
@[simp] theorem State.withRst_ctxs (x : RstSt) : (s.withRst x).ctxs = s.ctxs := rfl
@[simp] theorem State.withRst_mplLines (x : RstSt) : (s.withRst x).mplLines = s.mplLines := rfl
@[simp] theorem State.withRst_mplStripe (x : RstSt) : (s.withRst x).mplStripe = s.mplStripe := rfl
@[simp] theorem State.withRst_mplReadyl (x : RstSt) : (s.withRst x).mplReadyl = s.mplReadyl := rfl
@[simp] theorem State.withRst_inp (x : RstSt) : (s.withRst x).inp = s.inp := rfl
@[simp] theorem State.withRst_fins (x : RstSt) : (s.withRst x).fins = s.fins := rfl
@[simp] theorem State.withRst_fus (x : RstSt) : (s.withRst x).fus = s.fus := rfl
@[simp] theorem State.withRst_lns (x : RstSt) : (s.withRst x).lns = s.lns := rfl
@[simp] theorem State.withRst_ces (x : RstSt) : (s.withRst x).ces = s.ces := rfl
@[simp] theorem State.withRst_mit (x : RstSt) : (s.withRst x).mit = s.mit := rfl
@[simp] theorem State.withRst_drv (x : RstSt) : (s.withRst x).drv = s.drv := rfl
@[simp] theorem State.withRst_lds (x : RstSt) : (s.withRst x).lds = s.lds := rfl
@[simp] theorem State.withRst_ldGroups (x : RstSt) : (s.withRst x).ldGroups = s.ldGroups := rfl
@[simp] theorem State.withRst_gnb (x : RstSt) : (s.withRst x).gnb = s.gnb := rfl
@[simp] theorem State.withRst_imu (x : RstSt) : (s.withRst x).imu = s.imu := rfl
@[simp] theorem State.withRst_cans (x : RstSt) : (s.withRst x).cans = s.cans := rfl
@[simp] theorem State.withRst_objs (x : RstSt) : (s.withRst x).objs = s.objs := rfl
@[simp] theorem State.withRst_sess (x : RstSt) : (s.withRst x).sess = s.sess := rfl
@[simp] theorem State.withRst_msgNext (x : RstSt) : (s.withRst x).msgNext = s.msgNext := rfl
@[simp] theorem State.withRst_blocks (x : RstSt) : (s.withRst x).blocks = s.blocks := rfl
@[simp] theorem State.withRst_lmpCan (x : RstSt) : (s.withRst x).lmpCan = s.lmpCan := rfl
@[simp] theorem State.withRst_lmpRes (x : RstSt) : (s.withRst x).lmpRes = s.lmpRes := rfl
@[simp] theorem State.withRst_net (x : RstSt) : (s.withRst x).net = s.net := rfl
@[simp] theorem State.withRst_jnl (x : RstSt) : (s.withRst x).jnl = s.jnl := rfl
@[simp] theorem State.withRst_role (x : RstSt) : (s.withRst x).role = s.role := rfl
@[simp] theorem State.withRst_upd (x : RstSt) : (s.withRst x).upd = s.upd := rfl
@[simp] theorem State.withRst_tly (x : RstSt) : (s.withRst x).tly = s.tly := rfl
@[simp] theorem State.withRst_tap (x : RstSt) : (s.withRst x).tap = s.tap := rfl

/-! withUpd -/

@[simp] theorem State.withUpd_upd (x : UpdSt) : (s.withUpd x).upd = x := rfl
@[simp] theorem State.withUpd_pending (x : UpdSt) : (s.withUpd x).pending = s.pending := rfl
@[simp] theorem State.withUpd_clock (x : UpdSt) : (s.withUpd x).clock = s.clock := rfl
@[simp] theorem State.withUpd_start (x : UpdSt) : (s.withUpd x).start = s.start := rfl
@[simp] theorem State.withUpd_freeCtr (x : UpdSt) : (s.withUpd x).freeCtr = s.freeCtr := rfl
@[simp] theorem State.withUpd_regs (x : UpdSt) : (s.withUpd x).regs = s.regs := rfl
@[simp] theorem State.withUpd_mem (x : UpdSt) : (s.withUpd x).mem = s.mem := rfl
@[simp] theorem State.withUpd_poison (x : UpdSt) : (s.withUpd x).poison = s.poison := rfl
@[simp] theorem State.withUpd_fabBad (x : UpdSt) : (s.withUpd x).fabBad = s.fabBad := rfl
@[simp] theorem State.withUpd_held (x : UpdSt) : (s.withUpd x).held = s.held := rfl
@[simp] theorem State.withUpd_fabAt (x : UpdSt) : (s.withUpd x).fabAt = s.fabAt := rfl
@[simp] theorem State.withUpd_perMaster (x : UpdSt) : (s.withUpd x).perMaster = s.perMaster := rfl
@[simp] theorem State.withUpd_queSeq (x : UpdSt) : (s.withUpd x).queSeq = s.queSeq := rfl
@[simp] theorem State.withUpd_reply (x : UpdSt) : (s.withUpd x).reply = s.reply := rfl
@[simp] theorem State.withUpd_inBeanie (x : UpdSt) : (s.withUpd x).inBeanie = s.inBeanie := rfl
@[simp] theorem State.withUpd_aCores (x : UpdSt) : (s.withUpd x).aCores = s.aCores := rfl
@[simp] theorem State.withUpd_lanes (x : UpdSt) : (s.withUpd x).lanes = s.lanes := rfl
@[simp] theorem State.withUpd_flt (x : UpdSt) : (s.withUpd x).flt = s.flt := rfl
@[simp] theorem State.withUpd_evr (x : UpdSt) : (s.withUpd x).evr = s.evr := rfl
@[simp] theorem State.withUpd_hb (x : UpdSt) : (s.withUpd x).hb = s.hb := rfl
@[simp] theorem State.withUpd_ctxs (x : UpdSt) : (s.withUpd x).ctxs = s.ctxs := rfl
@[simp] theorem State.withUpd_mplLines (x : UpdSt) : (s.withUpd x).mplLines = s.mplLines := rfl
@[simp] theorem State.withUpd_mplStripe (x : UpdSt) : (s.withUpd x).mplStripe = s.mplStripe := rfl
@[simp] theorem State.withUpd_mplReadyl (x : UpdSt) : (s.withUpd x).mplReadyl = s.mplReadyl := rfl
@[simp] theorem State.withUpd_inp (x : UpdSt) : (s.withUpd x).inp = s.inp := rfl
@[simp] theorem State.withUpd_fins (x : UpdSt) : (s.withUpd x).fins = s.fins := rfl
@[simp] theorem State.withUpd_fus (x : UpdSt) : (s.withUpd x).fus = s.fus := rfl
@[simp] theorem State.withUpd_lns (x : UpdSt) : (s.withUpd x).lns = s.lns := rfl
@[simp] theorem State.withUpd_ces (x : UpdSt) : (s.withUpd x).ces = s.ces := rfl
@[simp] theorem State.withUpd_mit (x : UpdSt) : (s.withUpd x).mit = s.mit := rfl
@[simp] theorem State.withUpd_drv (x : UpdSt) : (s.withUpd x).drv = s.drv := rfl
@[simp] theorem State.withUpd_lds (x : UpdSt) : (s.withUpd x).lds = s.lds := rfl
@[simp] theorem State.withUpd_ldGroups (x : UpdSt) : (s.withUpd x).ldGroups = s.ldGroups := rfl
@[simp] theorem State.withUpd_gnb (x : UpdSt) : (s.withUpd x).gnb = s.gnb := rfl
@[simp] theorem State.withUpd_imu (x : UpdSt) : (s.withUpd x).imu = s.imu := rfl
@[simp] theorem State.withUpd_cans (x : UpdSt) : (s.withUpd x).cans = s.cans := rfl
@[simp] theorem State.withUpd_objs (x : UpdSt) : (s.withUpd x).objs = s.objs := rfl
@[simp] theorem State.withUpd_sess (x : UpdSt) : (s.withUpd x).sess = s.sess := rfl
@[simp] theorem State.withUpd_msgNext (x : UpdSt) : (s.withUpd x).msgNext = s.msgNext := rfl
@[simp] theorem State.withUpd_blocks (x : UpdSt) : (s.withUpd x).blocks = s.blocks := rfl
@[simp] theorem State.withUpd_lmpCan (x : UpdSt) : (s.withUpd x).lmpCan = s.lmpCan := rfl
@[simp] theorem State.withUpd_lmpRes (x : UpdSt) : (s.withUpd x).lmpRes = s.lmpRes := rfl
@[simp] theorem State.withUpd_net (x : UpdSt) : (s.withUpd x).net = s.net := rfl
@[simp] theorem State.withUpd_jnl (x : UpdSt) : (s.withUpd x).jnl = s.jnl := rfl
@[simp] theorem State.withUpd_role (x : UpdSt) : (s.withUpd x).role = s.role := rfl
@[simp] theorem State.withUpd_rst (x : UpdSt) : (s.withUpd x).rst = s.rst := rfl
@[simp] theorem State.withUpd_tly (x : UpdSt) : (s.withUpd x).tly = s.tly := rfl
@[simp] theorem State.withUpd_tap (x : UpdSt) : (s.withUpd x).tap = s.tap := rfl

/-! setImg -/

@[simp] theorem State.setImg_pending (k : Nat) (x : ImgKind) : (s.setImg k x).pending = s.pending := rfl
@[simp] theorem State.setImg_clock (k : Nat) (x : ImgKind) : (s.setImg k x).clock = s.clock := rfl
@[simp] theorem State.setImg_start (k : Nat) (x : ImgKind) : (s.setImg k x).start = s.start := rfl
@[simp] theorem State.setImg_freeCtr (k : Nat) (x : ImgKind) : (s.setImg k x).freeCtr = s.freeCtr := rfl
@[simp] theorem State.setImg_regs (k : Nat) (x : ImgKind) : (s.setImg k x).regs = s.regs := rfl
@[simp] theorem State.setImg_mem (k : Nat) (x : ImgKind) : (s.setImg k x).mem = s.mem := rfl
@[simp] theorem State.setImg_poison (k : Nat) (x : ImgKind) : (s.setImg k x).poison = s.poison := rfl
@[simp] theorem State.setImg_fabBad (k : Nat) (x : ImgKind) : (s.setImg k x).fabBad = s.fabBad := rfl
@[simp] theorem State.setImg_held (k : Nat) (x : ImgKind) : (s.setImg k x).held = s.held := rfl
@[simp] theorem State.setImg_fabAt (k : Nat) (x : ImgKind) : (s.setImg k x).fabAt = s.fabAt := rfl
@[simp] theorem State.setImg_perMaster (k : Nat) (x : ImgKind) : (s.setImg k x).perMaster = s.perMaster := rfl
@[simp] theorem State.setImg_queSeq (k : Nat) (x : ImgKind) : (s.setImg k x).queSeq = s.queSeq := rfl
@[simp] theorem State.setImg_reply (k : Nat) (x : ImgKind) : (s.setImg k x).reply = s.reply := rfl
@[simp] theorem State.setImg_inBeanie (k : Nat) (x : ImgKind) : (s.setImg k x).inBeanie = s.inBeanie := rfl
@[simp] theorem State.setImg_aCores (k : Nat) (x : ImgKind) : (s.setImg k x).aCores = s.aCores := rfl
@[simp] theorem State.setImg_lanes (k : Nat) (x : ImgKind) : (s.setImg k x).lanes = s.lanes := rfl
@[simp] theorem State.setImg_flt (k : Nat) (x : ImgKind) : (s.setImg k x).flt = s.flt := rfl
@[simp] theorem State.setImg_evr (k : Nat) (x : ImgKind) : (s.setImg k x).evr = s.evr := rfl
@[simp] theorem State.setImg_hb (k : Nat) (x : ImgKind) : (s.setImg k x).hb = s.hb := rfl
@[simp] theorem State.setImg_ctxs (k : Nat) (x : ImgKind) : (s.setImg k x).ctxs = s.ctxs := rfl
@[simp] theorem State.setImg_mplLines (k : Nat) (x : ImgKind) : (s.setImg k x).mplLines = s.mplLines := rfl
@[simp] theorem State.setImg_mplStripe (k : Nat) (x : ImgKind) : (s.setImg k x).mplStripe = s.mplStripe := rfl
@[simp] theorem State.setImg_mplReadyl (k : Nat) (x : ImgKind) : (s.setImg k x).mplReadyl = s.mplReadyl := rfl
@[simp] theorem State.setImg_inp (k : Nat) (x : ImgKind) : (s.setImg k x).inp = s.inp := rfl
@[simp] theorem State.setImg_fins (k : Nat) (x : ImgKind) : (s.setImg k x).fins = s.fins := rfl
@[simp] theorem State.setImg_fus (k : Nat) (x : ImgKind) : (s.setImg k x).fus = s.fus := rfl
@[simp] theorem State.setImg_lns (k : Nat) (x : ImgKind) : (s.setImg k x).lns = s.lns := rfl
@[simp] theorem State.setImg_ces (k : Nat) (x : ImgKind) : (s.setImg k x).ces = s.ces := rfl
@[simp] theorem State.setImg_mit (k : Nat) (x : ImgKind) : (s.setImg k x).mit = s.mit := rfl
@[simp] theorem State.setImg_drv (k : Nat) (x : ImgKind) : (s.setImg k x).drv = s.drv := rfl
@[simp] theorem State.setImg_lds (k : Nat) (x : ImgKind) : (s.setImg k x).lds = s.lds := rfl
@[simp] theorem State.setImg_ldGroups (k : Nat) (x : ImgKind) : (s.setImg k x).ldGroups = s.ldGroups := rfl
@[simp] theorem State.setImg_gnb (k : Nat) (x : ImgKind) : (s.setImg k x).gnb = s.gnb := rfl
@[simp] theorem State.setImg_imu (k : Nat) (x : ImgKind) : (s.setImg k x).imu = s.imu := rfl
@[simp] theorem State.setImg_cans (k : Nat) (x : ImgKind) : (s.setImg k x).cans = s.cans := rfl
@[simp] theorem State.setImg_objs (k : Nat) (x : ImgKind) : (s.setImg k x).objs = s.objs := rfl
@[simp] theorem State.setImg_sess (k : Nat) (x : ImgKind) : (s.setImg k x).sess = s.sess := rfl
@[simp] theorem State.setImg_msgNext (k : Nat) (x : ImgKind) : (s.setImg k x).msgNext = s.msgNext := rfl
@[simp] theorem State.setImg_blocks (k : Nat) (x : ImgKind) : (s.setImg k x).blocks = s.blocks := rfl
@[simp] theorem State.setImg_lmpCan (k : Nat) (x : ImgKind) : (s.setImg k x).lmpCan = s.lmpCan := rfl
@[simp] theorem State.setImg_lmpRes (k : Nat) (x : ImgKind) : (s.setImg k x).lmpRes = s.lmpRes := rfl
@[simp] theorem State.setImg_net (k : Nat) (x : ImgKind) : (s.setImg k x).net = s.net := rfl
@[simp] theorem State.setImg_jnl (k : Nat) (x : ImgKind) : (s.setImg k x).jnl = s.jnl := rfl
@[simp] theorem State.setImg_role (k : Nat) (x : ImgKind) : (s.setImg k x).role = s.role := rfl
@[simp] theorem State.setImg_rst (k : Nat) (x : ImgKind) : (s.setImg k x).rst = s.rst := rfl
@[simp] theorem State.setImg_tly (k : Nat) (x : ImgKind) : (s.setImg k x).tly = s.tly := rfl
@[simp] theorem State.setImg_tap (k : Nat) (x : ImgKind) : (s.setImg k x).tap = s.tap := rfl

/-! withTly -/

@[simp] theorem State.withTly_tly (x : TlySt) : (s.withTly x).tly = x := rfl
@[simp] theorem State.withTly_pending (x : TlySt) : (s.withTly x).pending = s.pending := rfl
@[simp] theorem State.withTly_clock (x : TlySt) : (s.withTly x).clock = s.clock := rfl
@[simp] theorem State.withTly_start (x : TlySt) : (s.withTly x).start = s.start := rfl
@[simp] theorem State.withTly_freeCtr (x : TlySt) : (s.withTly x).freeCtr = s.freeCtr := rfl
@[simp] theorem State.withTly_regs (x : TlySt) : (s.withTly x).regs = s.regs := rfl
@[simp] theorem State.withTly_mem (x : TlySt) : (s.withTly x).mem = s.mem := rfl
@[simp] theorem State.withTly_poison (x : TlySt) : (s.withTly x).poison = s.poison := rfl
@[simp] theorem State.withTly_fabBad (x : TlySt) : (s.withTly x).fabBad = s.fabBad := rfl
@[simp] theorem State.withTly_held (x : TlySt) : (s.withTly x).held = s.held := rfl
@[simp] theorem State.withTly_fabAt (x : TlySt) : (s.withTly x).fabAt = s.fabAt := rfl
@[simp] theorem State.withTly_perMaster (x : TlySt) : (s.withTly x).perMaster = s.perMaster := rfl
@[simp] theorem State.withTly_queSeq (x : TlySt) : (s.withTly x).queSeq = s.queSeq := rfl
@[simp] theorem State.withTly_reply (x : TlySt) : (s.withTly x).reply = s.reply := rfl
@[simp] theorem State.withTly_inBeanie (x : TlySt) : (s.withTly x).inBeanie = s.inBeanie := rfl
@[simp] theorem State.withTly_aCores (x : TlySt) : (s.withTly x).aCores = s.aCores := rfl
@[simp] theorem State.withTly_lanes (x : TlySt) : (s.withTly x).lanes = s.lanes := rfl
@[simp] theorem State.withTly_flt (x : TlySt) : (s.withTly x).flt = s.flt := rfl
@[simp] theorem State.withTly_evr (x : TlySt) : (s.withTly x).evr = s.evr := rfl
@[simp] theorem State.withTly_hb (x : TlySt) : (s.withTly x).hb = s.hb := rfl
@[simp] theorem State.withTly_ctxs (x : TlySt) : (s.withTly x).ctxs = s.ctxs := rfl
@[simp] theorem State.withTly_mplLines (x : TlySt) : (s.withTly x).mplLines = s.mplLines := rfl
@[simp] theorem State.withTly_mplStripe (x : TlySt) : (s.withTly x).mplStripe = s.mplStripe := rfl
@[simp] theorem State.withTly_mplReadyl (x : TlySt) : (s.withTly x).mplReadyl = s.mplReadyl := rfl
@[simp] theorem State.withTly_inp (x : TlySt) : (s.withTly x).inp = s.inp := rfl
@[simp] theorem State.withTly_fins (x : TlySt) : (s.withTly x).fins = s.fins := rfl
@[simp] theorem State.withTly_fus (x : TlySt) : (s.withTly x).fus = s.fus := rfl
@[simp] theorem State.withTly_lns (x : TlySt) : (s.withTly x).lns = s.lns := rfl
@[simp] theorem State.withTly_ces (x : TlySt) : (s.withTly x).ces = s.ces := rfl
@[simp] theorem State.withTly_mit (x : TlySt) : (s.withTly x).mit = s.mit := rfl
@[simp] theorem State.withTly_drv (x : TlySt) : (s.withTly x).drv = s.drv := rfl
@[simp] theorem State.withTly_lds (x : TlySt) : (s.withTly x).lds = s.lds := rfl
@[simp] theorem State.withTly_ldGroups (x : TlySt) : (s.withTly x).ldGroups = s.ldGroups := rfl
@[simp] theorem State.withTly_gnb (x : TlySt) : (s.withTly x).gnb = s.gnb := rfl
@[simp] theorem State.withTly_imu (x : TlySt) : (s.withTly x).imu = s.imu := rfl
@[simp] theorem State.withTly_cans (x : TlySt) : (s.withTly x).cans = s.cans := rfl
@[simp] theorem State.withTly_objs (x : TlySt) : (s.withTly x).objs = s.objs := rfl
@[simp] theorem State.withTly_sess (x : TlySt) : (s.withTly x).sess = s.sess := rfl
@[simp] theorem State.withTly_msgNext (x : TlySt) : (s.withTly x).msgNext = s.msgNext := rfl
@[simp] theorem State.withTly_blocks (x : TlySt) : (s.withTly x).blocks = s.blocks := rfl
@[simp] theorem State.withTly_lmpCan (x : TlySt) : (s.withTly x).lmpCan = s.lmpCan := rfl
@[simp] theorem State.withTly_lmpRes (x : TlySt) : (s.withTly x).lmpRes = s.lmpRes := rfl
@[simp] theorem State.withTly_net (x : TlySt) : (s.withTly x).net = s.net := rfl
@[simp] theorem State.withTly_jnl (x : TlySt) : (s.withTly x).jnl = s.jnl := rfl
@[simp] theorem State.withTly_role (x : TlySt) : (s.withTly x).role = s.role := rfl
@[simp] theorem State.withTly_rst (x : TlySt) : (s.withTly x).rst = s.rst := rfl
@[simp] theorem State.withTly_upd (x : TlySt) : (s.withTly x).upd = s.upd := rfl
@[simp] theorem State.withTly_tap (x : TlySt) : (s.withTly x).tap = s.tap := rfl

/-! withTap -/

@[simp] theorem State.withTap_tap (x : TapSt) : (s.withTap x).tap = x := rfl
@[simp] theorem State.withTap_pending (x : TapSt) : (s.withTap x).pending = s.pending := rfl
@[simp] theorem State.withTap_clock (x : TapSt) : (s.withTap x).clock = s.clock := rfl
@[simp] theorem State.withTap_start (x : TapSt) : (s.withTap x).start = s.start := rfl
@[simp] theorem State.withTap_freeCtr (x : TapSt) : (s.withTap x).freeCtr = s.freeCtr := rfl
@[simp] theorem State.withTap_regs (x : TapSt) : (s.withTap x).regs = s.regs := rfl
@[simp] theorem State.withTap_mem (x : TapSt) : (s.withTap x).mem = s.mem := rfl
@[simp] theorem State.withTap_poison (x : TapSt) : (s.withTap x).poison = s.poison := rfl
@[simp] theorem State.withTap_fabBad (x : TapSt) : (s.withTap x).fabBad = s.fabBad := rfl
@[simp] theorem State.withTap_held (x : TapSt) : (s.withTap x).held = s.held := rfl
@[simp] theorem State.withTap_fabAt (x : TapSt) : (s.withTap x).fabAt = s.fabAt := rfl
@[simp] theorem State.withTap_perMaster (x : TapSt) : (s.withTap x).perMaster = s.perMaster := rfl
@[simp] theorem State.withTap_queSeq (x : TapSt) : (s.withTap x).queSeq = s.queSeq := rfl
@[simp] theorem State.withTap_reply (x : TapSt) : (s.withTap x).reply = s.reply := rfl
@[simp] theorem State.withTap_inBeanie (x : TapSt) : (s.withTap x).inBeanie = s.inBeanie := rfl
@[simp] theorem State.withTap_aCores (x : TapSt) : (s.withTap x).aCores = s.aCores := rfl
@[simp] theorem State.withTap_lanes (x : TapSt) : (s.withTap x).lanes = s.lanes := rfl
@[simp] theorem State.withTap_flt (x : TapSt) : (s.withTap x).flt = s.flt := rfl
@[simp] theorem State.withTap_evr (x : TapSt) : (s.withTap x).evr = s.evr := rfl
@[simp] theorem State.withTap_hb (x : TapSt) : (s.withTap x).hb = s.hb := rfl
@[simp] theorem State.withTap_ctxs (x : TapSt) : (s.withTap x).ctxs = s.ctxs := rfl
@[simp] theorem State.withTap_mplLines (x : TapSt) : (s.withTap x).mplLines = s.mplLines := rfl
@[simp] theorem State.withTap_mplStripe (x : TapSt) : (s.withTap x).mplStripe = s.mplStripe := rfl
@[simp] theorem State.withTap_mplReadyl (x : TapSt) : (s.withTap x).mplReadyl = s.mplReadyl := rfl
@[simp] theorem State.withTap_inp (x : TapSt) : (s.withTap x).inp = s.inp := rfl
@[simp] theorem State.withTap_fins (x : TapSt) : (s.withTap x).fins = s.fins := rfl
@[simp] theorem State.withTap_fus (x : TapSt) : (s.withTap x).fus = s.fus := rfl
@[simp] theorem State.withTap_lns (x : TapSt) : (s.withTap x).lns = s.lns := rfl
@[simp] theorem State.withTap_ces (x : TapSt) : (s.withTap x).ces = s.ces := rfl
@[simp] theorem State.withTap_mit (x : TapSt) : (s.withTap x).mit = s.mit := rfl
@[simp] theorem State.withTap_drv (x : TapSt) : (s.withTap x).drv = s.drv := rfl
@[simp] theorem State.withTap_lds (x : TapSt) : (s.withTap x).lds = s.lds := rfl
@[simp] theorem State.withTap_ldGroups (x : TapSt) : (s.withTap x).ldGroups = s.ldGroups := rfl
@[simp] theorem State.withTap_gnb (x : TapSt) : (s.withTap x).gnb = s.gnb := rfl
@[simp] theorem State.withTap_imu (x : TapSt) : (s.withTap x).imu = s.imu := rfl
@[simp] theorem State.withTap_cans (x : TapSt) : (s.withTap x).cans = s.cans := rfl
@[simp] theorem State.withTap_objs (x : TapSt) : (s.withTap x).objs = s.objs := rfl
@[simp] theorem State.withTap_sess (x : TapSt) : (s.withTap x).sess = s.sess := rfl
@[simp] theorem State.withTap_msgNext (x : TapSt) : (s.withTap x).msgNext = s.msgNext := rfl
@[simp] theorem State.withTap_blocks (x : TapSt) : (s.withTap x).blocks = s.blocks := rfl
@[simp] theorem State.withTap_lmpCan (x : TapSt) : (s.withTap x).lmpCan = s.lmpCan := rfl
@[simp] theorem State.withTap_lmpRes (x : TapSt) : (s.withTap x).lmpRes = s.lmpRes := rfl
@[simp] theorem State.withTap_net (x : TapSt) : (s.withTap x).net = s.net := rfl
@[simp] theorem State.withTap_jnl (x : TapSt) : (s.withTap x).jnl = s.jnl := rfl
@[simp] theorem State.withTap_role (x : TapSt) : (s.withTap x).role = s.role := rfl
@[simp] theorem State.withTap_rst (x : TapSt) : (s.withTap x).rst = s.rst := rfl
@[simp] theorem State.withTap_upd (x : TapSt) : (s.withTap x).upd = s.upd := rfl
@[simp] theorem State.withTap_tly (x : TapSt) : (s.withTap x).tly = s.tly := rfl

/-! A free value taken. -/

@[simp] theorem State.free_pending : s.free.2.pending = s.pending := rfl
@[simp] theorem State.free_clock : s.free.2.clock = s.clock := rfl
@[simp] theorem State.free_start : s.free.2.start = s.start := rfl
@[simp] theorem State.free_freeCtr : s.free.2.freeCtr = s.freeCtr + 1 := rfl
@[simp] theorem State.free_regs : s.free.2.regs = s.regs := rfl
@[simp] theorem State.free_mem : s.free.2.mem = s.mem := rfl
@[simp] theorem State.free_poison : s.free.2.poison = s.poison := rfl
@[simp] theorem State.free_fabBad : s.free.2.fabBad = s.fabBad := rfl
@[simp] theorem State.free_held : s.free.2.held = s.held := rfl
@[simp] theorem State.free_fabAt : s.free.2.fabAt = s.fabAt := rfl
@[simp] theorem State.free_perMaster : s.free.2.perMaster = s.perMaster := rfl
@[simp] theorem State.free_queSeq : s.free.2.queSeq = s.queSeq := rfl
@[simp] theorem State.free_reply : s.free.2.reply = s.reply := rfl
@[simp] theorem State.free_inBeanie : s.free.2.inBeanie = s.inBeanie := rfl
@[simp] theorem State.free_aCores : s.free.2.aCores = s.aCores := rfl
@[simp] theorem State.free_lanes : s.free.2.lanes = s.lanes := rfl
@[simp] theorem State.free_flt : s.free.2.flt = s.flt := rfl
@[simp] theorem State.free_evr : s.free.2.evr = s.evr := rfl
@[simp] theorem State.free_hb : s.free.2.hb = s.hb := rfl
@[simp] theorem State.free_ctxs : s.free.2.ctxs = s.ctxs := rfl
@[simp] theorem State.free_mplLines : s.free.2.mplLines = s.mplLines := rfl
@[simp] theorem State.free_mplStripe : s.free.2.mplStripe = s.mplStripe := rfl
@[simp] theorem State.free_mplReadyl : s.free.2.mplReadyl = s.mplReadyl := rfl
@[simp] theorem State.free_inp : s.free.2.inp = s.inp := rfl
@[simp] theorem State.free_fins : s.free.2.fins = s.fins := rfl
@[simp] theorem State.free_fus : s.free.2.fus = s.fus := rfl
@[simp] theorem State.free_lns : s.free.2.lns = s.lns := rfl
@[simp] theorem State.free_ces : s.free.2.ces = s.ces := rfl
@[simp] theorem State.free_mit : s.free.2.mit = s.mit := rfl
@[simp] theorem State.free_drv : s.free.2.drv = s.drv := rfl
@[simp] theorem State.free_lds : s.free.2.lds = s.lds := rfl
@[simp] theorem State.free_ldGroups : s.free.2.ldGroups = s.ldGroups := rfl
@[simp] theorem State.free_gnb : s.free.2.gnb = s.gnb := rfl
@[simp] theorem State.free_imu : s.free.2.imu = s.imu := rfl
@[simp] theorem State.free_cans : s.free.2.cans = s.cans := rfl
@[simp] theorem State.free_objs : s.free.2.objs = s.objs := rfl
@[simp] theorem State.free_sess : s.free.2.sess = s.sess := rfl
@[simp] theorem State.free_msgNext : s.free.2.msgNext = s.msgNext := rfl
@[simp] theorem State.free_blocks : s.free.2.blocks = s.blocks := rfl
@[simp] theorem State.free_lmpCan : s.free.2.lmpCan = s.lmpCan := rfl
@[simp] theorem State.free_lmpRes : s.free.2.lmpRes = s.lmpRes := rfl
@[simp] theorem State.free_net : s.free.2.net = s.net := rfl
@[simp] theorem State.free_jnl : s.free.2.jnl = s.jnl := rfl
@[simp] theorem State.free_role : s.free.2.role = s.role := rfl
@[simp] theorem State.free_rst : s.free.2.rst = s.rst := rfl
@[simp] theorem State.free_upd : s.free.2.upd = s.upd := rfl
@[simp] theorem State.free_tly : s.free.2.tly = s.tly := rfl
@[simp] theorem State.free_tap : s.free.2.tap = s.tap := rfl

/-! A word changed or left, by a condition. -/

@[simp] theorem State.raiseIf_pending (c : Bool) (f : Fld) : (s.raiseIf c f).pending = s.pending := by cases c <;> rfl
@[simp] theorem State.raiseIf_clock (c : Bool) (f : Fld) : (s.raiseIf c f).clock = s.clock := by cases c <;> rfl
@[simp] theorem State.raiseIf_start (c : Bool) (f : Fld) : (s.raiseIf c f).start = s.start := by cases c <;> rfl
@[simp] theorem State.raiseIf_freeCtr (c : Bool) (f : Fld) : (s.raiseIf c f).freeCtr = s.freeCtr := by cases c <;> rfl
@[simp] theorem State.raiseIf_mem (c : Bool) (f : Fld) : (s.raiseIf c f).mem = s.mem := by cases c <;> rfl
@[simp] theorem State.raiseIf_poison (c : Bool) (f : Fld) : (s.raiseIf c f).poison = s.poison := by cases c <;> rfl
@[simp] theorem State.raiseIf_fabBad (c : Bool) (f : Fld) : (s.raiseIf c f).fabBad = s.fabBad := by cases c <;> rfl
@[simp] theorem State.raiseIf_held (c : Bool) (f : Fld) : (s.raiseIf c f).held = s.held := by cases c <;> rfl
@[simp] theorem State.raiseIf_fabAt (c : Bool) (f : Fld) : (s.raiseIf c f).fabAt = s.fabAt := by cases c <;> rfl
@[simp] theorem State.raiseIf_perMaster (c : Bool) (f : Fld) : (s.raiseIf c f).perMaster = s.perMaster := by cases c <;> rfl
@[simp] theorem State.raiseIf_queSeq (c : Bool) (f : Fld) : (s.raiseIf c f).queSeq = s.queSeq := by cases c <;> rfl
@[simp] theorem State.raiseIf_reply (c : Bool) (f : Fld) : (s.raiseIf c f).reply = s.reply := by cases c <;> rfl
@[simp] theorem State.raiseIf_inBeanie (c : Bool) (f : Fld) : (s.raiseIf c f).inBeanie = s.inBeanie := by cases c <;> rfl
@[simp] theorem State.raiseIf_aCores (c : Bool) (f : Fld) : (s.raiseIf c f).aCores = s.aCores := by cases c <;> rfl
@[simp] theorem State.raiseIf_lanes (c : Bool) (f : Fld) : (s.raiseIf c f).lanes = s.lanes := by cases c <;> rfl
@[simp] theorem State.raiseIf_flt (c : Bool) (f : Fld) : (s.raiseIf c f).flt = s.flt := by cases c <;> rfl
@[simp] theorem State.raiseIf_evr (c : Bool) (f : Fld) : (s.raiseIf c f).evr = s.evr := by cases c <;> rfl
@[simp] theorem State.raiseIf_hb (c : Bool) (f : Fld) : (s.raiseIf c f).hb = s.hb := by cases c <;> rfl
@[simp] theorem State.raiseIf_ctxs (c : Bool) (f : Fld) : (s.raiseIf c f).ctxs = s.ctxs := by cases c <;> rfl
@[simp] theorem State.raiseIf_mplLines (c : Bool) (f : Fld) : (s.raiseIf c f).mplLines = s.mplLines := by cases c <;> rfl
@[simp] theorem State.raiseIf_mplStripe (c : Bool) (f : Fld) : (s.raiseIf c f).mplStripe = s.mplStripe := by cases c <;> rfl
@[simp] theorem State.raiseIf_mplReadyl (c : Bool) (f : Fld) : (s.raiseIf c f).mplReadyl = s.mplReadyl := by cases c <;> rfl
@[simp] theorem State.raiseIf_inp (c : Bool) (f : Fld) : (s.raiseIf c f).inp = s.inp := by cases c <;> rfl
@[simp] theorem State.raiseIf_fins (c : Bool) (f : Fld) : (s.raiseIf c f).fins = s.fins := by cases c <;> rfl
@[simp] theorem State.raiseIf_fus (c : Bool) (f : Fld) : (s.raiseIf c f).fus = s.fus := by cases c <;> rfl
@[simp] theorem State.raiseIf_lns (c : Bool) (f : Fld) : (s.raiseIf c f).lns = s.lns := by cases c <;> rfl
@[simp] theorem State.raiseIf_ces (c : Bool) (f : Fld) : (s.raiseIf c f).ces = s.ces := by cases c <;> rfl
@[simp] theorem State.raiseIf_mit (c : Bool) (f : Fld) : (s.raiseIf c f).mit = s.mit := by cases c <;> rfl
@[simp] theorem State.raiseIf_drv (c : Bool) (f : Fld) : (s.raiseIf c f).drv = s.drv := by cases c <;> rfl
@[simp] theorem State.raiseIf_lds (c : Bool) (f : Fld) : (s.raiseIf c f).lds = s.lds := by cases c <;> rfl
@[simp] theorem State.raiseIf_ldGroups (c : Bool) (f : Fld) : (s.raiseIf c f).ldGroups = s.ldGroups := by cases c <;> rfl
@[simp] theorem State.raiseIf_gnb (c : Bool) (f : Fld) : (s.raiseIf c f).gnb = s.gnb := by cases c <;> rfl
@[simp] theorem State.raiseIf_imu (c : Bool) (f : Fld) : (s.raiseIf c f).imu = s.imu := by cases c <;> rfl
@[simp] theorem State.raiseIf_cans (c : Bool) (f : Fld) : (s.raiseIf c f).cans = s.cans := by cases c <;> rfl
@[simp] theorem State.raiseIf_objs (c : Bool) (f : Fld) : (s.raiseIf c f).objs = s.objs := by cases c <;> rfl
@[simp] theorem State.raiseIf_sess (c : Bool) (f : Fld) : (s.raiseIf c f).sess = s.sess := by cases c <;> rfl
@[simp] theorem State.raiseIf_msgNext (c : Bool) (f : Fld) : (s.raiseIf c f).msgNext = s.msgNext := by cases c <;> rfl
@[simp] theorem State.raiseIf_blocks (c : Bool) (f : Fld) : (s.raiseIf c f).blocks = s.blocks := by cases c <;> rfl
@[simp] theorem State.raiseIf_lmpCan (c : Bool) (f : Fld) : (s.raiseIf c f).lmpCan = s.lmpCan := by cases c <;> rfl
@[simp] theorem State.raiseIf_lmpRes (c : Bool) (f : Fld) : (s.raiseIf c f).lmpRes = s.lmpRes := by cases c <;> rfl
@[simp] theorem State.raiseIf_net (c : Bool) (f : Fld) : (s.raiseIf c f).net = s.net := by cases c <;> rfl
@[simp] theorem State.raiseIf_jnl (c : Bool) (f : Fld) : (s.raiseIf c f).jnl = s.jnl := by cases c <;> rfl
@[simp] theorem State.raiseIf_role (c : Bool) (f : Fld) : (s.raiseIf c f).role = s.role := by cases c <;> rfl
@[simp] theorem State.raiseIf_rst (c : Bool) (f : Fld) : (s.raiseIf c f).rst = s.rst := by cases c <;> rfl
@[simp] theorem State.raiseIf_upd (c : Bool) (f : Fld) : (s.raiseIf c f).upd = s.upd := by cases c <;> rfl
@[simp] theorem State.raiseIf_tly (c : Bool) (f : Fld) : (s.raiseIf c f).tly = s.tly := by cases c <;> rfl
@[simp] theorem State.raiseIf_tap (c : Bool) (f : Fld) : (s.raiseIf c f).tap = s.tap := by cases c <;> rfl

/-! A Jarug unit changed. -/

@[simp] theorem State.modCpu_pending (u : Proc) (f : Cpu → Cpu) : (s.modCpu u f).pending = s.pending := by cases u <;> rfl
@[simp] theorem State.modCpu_clock (u : Proc) (f : Cpu → Cpu) : (s.modCpu u f).clock = s.clock := by cases u <;> rfl
@[simp] theorem State.modCpu_start (u : Proc) (f : Cpu → Cpu) : (s.modCpu u f).start = s.start := by cases u <;> rfl
@[simp] theorem State.modCpu_freeCtr (u : Proc) (f : Cpu → Cpu) : (s.modCpu u f).freeCtr = s.freeCtr := by cases u <;> rfl
@[simp] theorem State.modCpu_regs (u : Proc) (f : Cpu → Cpu) : (s.modCpu u f).regs = s.regs := by cases u <;> rfl
@[simp] theorem State.modCpu_mem (u : Proc) (f : Cpu → Cpu) : (s.modCpu u f).mem = s.mem := by cases u <;> rfl
@[simp] theorem State.modCpu_poison (u : Proc) (f : Cpu → Cpu) : (s.modCpu u f).poison = s.poison := by cases u <;> rfl
@[simp] theorem State.modCpu_fabBad (u : Proc) (f : Cpu → Cpu) : (s.modCpu u f).fabBad = s.fabBad := by cases u <;> rfl
@[simp] theorem State.modCpu_held (u : Proc) (f : Cpu → Cpu) : (s.modCpu u f).held = s.held := by cases u <;> rfl
@[simp] theorem State.modCpu_fabAt (u : Proc) (f : Cpu → Cpu) : (s.modCpu u f).fabAt = s.fabAt := by cases u <;> rfl
@[simp] theorem State.modCpu_perMaster (u : Proc) (f : Cpu → Cpu) : (s.modCpu u f).perMaster = s.perMaster := by cases u <;> rfl
@[simp] theorem State.modCpu_queSeq (u : Proc) (f : Cpu → Cpu) : (s.modCpu u f).queSeq = s.queSeq := by cases u <;> rfl
@[simp] theorem State.modCpu_reply (u : Proc) (f : Cpu → Cpu) : (s.modCpu u f).reply = s.reply := by cases u <;> rfl
@[simp] theorem State.modCpu_inBeanie (u : Proc) (f : Cpu → Cpu) : (s.modCpu u f).inBeanie = s.inBeanie := by cases u <;> rfl
@[simp] theorem State.modCpu_flt (u : Proc) (f : Cpu → Cpu) : (s.modCpu u f).flt = s.flt := by cases u <;> rfl
@[simp] theorem State.modCpu_evr (u : Proc) (f : Cpu → Cpu) : (s.modCpu u f).evr = s.evr := by cases u <;> rfl
@[simp] theorem State.modCpu_hb (u : Proc) (f : Cpu → Cpu) : (s.modCpu u f).hb = s.hb := by cases u <;> rfl
@[simp] theorem State.modCpu_ctxs (u : Proc) (f : Cpu → Cpu) : (s.modCpu u f).ctxs = s.ctxs := by cases u <;> rfl
@[simp] theorem State.modCpu_mplLines (u : Proc) (f : Cpu → Cpu) : (s.modCpu u f).mplLines = s.mplLines := by cases u <;> rfl
@[simp] theorem State.modCpu_mplStripe (u : Proc) (f : Cpu → Cpu) : (s.modCpu u f).mplStripe = s.mplStripe := by cases u <;> rfl
@[simp] theorem State.modCpu_mplReadyl (u : Proc) (f : Cpu → Cpu) : (s.modCpu u f).mplReadyl = s.mplReadyl := by cases u <;> rfl
@[simp] theorem State.modCpu_inp (u : Proc) (f : Cpu → Cpu) : (s.modCpu u f).inp = s.inp := by cases u <;> rfl
@[simp] theorem State.modCpu_fins (u : Proc) (f : Cpu → Cpu) : (s.modCpu u f).fins = s.fins := by cases u <;> rfl
@[simp] theorem State.modCpu_fus (u : Proc) (f : Cpu → Cpu) : (s.modCpu u f).fus = s.fus := by cases u <;> rfl
@[simp] theorem State.modCpu_lns (u : Proc) (f : Cpu → Cpu) : (s.modCpu u f).lns = s.lns := by cases u <;> rfl
@[simp] theorem State.modCpu_ces (u : Proc) (f : Cpu → Cpu) : (s.modCpu u f).ces = s.ces := by cases u <;> rfl
@[simp] theorem State.modCpu_mit (u : Proc) (f : Cpu → Cpu) : (s.modCpu u f).mit = s.mit := by cases u <;> rfl
@[simp] theorem State.modCpu_drv (u : Proc) (f : Cpu → Cpu) : (s.modCpu u f).drv = s.drv := by cases u <;> rfl
@[simp] theorem State.modCpu_lds (u : Proc) (f : Cpu → Cpu) : (s.modCpu u f).lds = s.lds := by cases u <;> rfl
@[simp] theorem State.modCpu_ldGroups (u : Proc) (f : Cpu → Cpu) : (s.modCpu u f).ldGroups = s.ldGroups := by cases u <;> rfl
@[simp] theorem State.modCpu_gnb (u : Proc) (f : Cpu → Cpu) : (s.modCpu u f).gnb = s.gnb := by cases u <;> rfl
@[simp] theorem State.modCpu_imu (u : Proc) (f : Cpu → Cpu) : (s.modCpu u f).imu = s.imu := by cases u <;> rfl
@[simp] theorem State.modCpu_cans (u : Proc) (f : Cpu → Cpu) : (s.modCpu u f).cans = s.cans := by cases u <;> rfl
@[simp] theorem State.modCpu_objs (u : Proc) (f : Cpu → Cpu) : (s.modCpu u f).objs = s.objs := by cases u <;> rfl
@[simp] theorem State.modCpu_sess (u : Proc) (f : Cpu → Cpu) : (s.modCpu u f).sess = s.sess := by cases u <;> rfl
@[simp] theorem State.modCpu_msgNext (u : Proc) (f : Cpu → Cpu) : (s.modCpu u f).msgNext = s.msgNext := by cases u <;> rfl
@[simp] theorem State.modCpu_blocks (u : Proc) (f : Cpu → Cpu) : (s.modCpu u f).blocks = s.blocks := by cases u <;> rfl
@[simp] theorem State.modCpu_lmpCan (u : Proc) (f : Cpu → Cpu) : (s.modCpu u f).lmpCan = s.lmpCan := by cases u <;> rfl
@[simp] theorem State.modCpu_lmpRes (u : Proc) (f : Cpu → Cpu) : (s.modCpu u f).lmpRes = s.lmpRes := by cases u <;> rfl
@[simp] theorem State.modCpu_net (u : Proc) (f : Cpu → Cpu) : (s.modCpu u f).net = s.net := by cases u <;> rfl
@[simp] theorem State.modCpu_jnl (u : Proc) (f : Cpu → Cpu) : (s.modCpu u f).jnl = s.jnl := by cases u <;> rfl
@[simp] theorem State.modCpu_role (u : Proc) (f : Cpu → Cpu) : (s.modCpu u f).role = s.role := by cases u <;> rfl
@[simp] theorem State.modCpu_rst (u : Proc) (f : Cpu → Cpu) : (s.modCpu u f).rst = s.rst := by cases u <;> rfl
@[simp] theorem State.modCpu_upd (u : Proc) (f : Cpu → Cpu) : (s.modCpu u f).upd = s.upd := by cases u <;> rfl
@[simp] theorem State.modCpu_tly (u : Proc) (f : Cpu → Cpu) : (s.modCpu u f).tly = s.tly := by cases u <;> rfl
@[simp] theorem State.modCpu_tap (u : Proc) (f : Cpu → Cpu) : (s.modCpu u f).tap = s.tap := by cases u <;> rfl

end Sys2Proof.Machine
end

