-- ==== Sys2Proof/Laws/Units.lean ====
section
/-! SUPPORT. The laws of Jarug units: a change to one unit reaches no other, and what an instruction can do once it is fetched. -/

namespace Sys2Proof.Machine

/-! Changing a unit. -/

/-- A unit that has its entry reads as it was changed. -/
theorem cpu_modCpu_same (s : State) (u : Proc) (f : Cpu → Cpu) (h : Present s u) : (s.modCpu u f).cpu u = f (s.cpu u) := by
  cases u <;> (simp only [Present] at h; simp [State.cpu, State.modCpu, State.modACore, State.modLane, List.getD_eq_getElem?_getD, h])

/-- Changing a unit changes no other. -/
theorem cpu_modCpu_other (s : State) {u v : Proc} (f : Cpu → Cpu) (h : v ≠ u) : (s.modCpu u f).cpu v = s.cpu v := by
  have key : ∀ (l : List Cpu) (i j : Nat), i ≠ j → (l.modify i f).getD j {} = l.getD j {} := by
    intro l i j hij
    simp [List.getD_eq_getElem?_getD, hij]
  cases u with
  | a c =>
    cases v with
    | a d =>
      refine key _ _ _ fun he => h ?_
      obtain ⟨⟨c1, hc1⟩, ⟨c2, hc2⟩⟩ := c
      obtain ⟨⟨d1, hd1⟩, ⟨d2, hd2⟩⟩ := d
      simp only [procIndex] at he
      simp
      omega
    | l d => rfl
  | l c =>
    cases v with
    | a d => rfl
    | l d =>
      refine key _ _ _ fun he => h ?_
      obtain ⟨⟨c1, hc1⟩, ⟨c2, hc2⟩⟩ := c
      obtain ⟨⟨d1, hd1⟩, ⟨d2, hd2⟩⟩ := d
      simp only [procIndex] at he
      simp
      omega

/-- A unit that has its entry keeps it when any unit is changed. -/
theorem present_modCpu (s : State) (u v : Proc) (f : Cpu → Cpu) : Present (s.modCpu u f) v ↔ Present s v := by
  cases u <;> cases v <;> simp [Present, State.modCpu, State.modACore, State.modLane]

/-- Two changes of one unit are one change. -/
theorem modCpu_modCpu (s : State) (u : Proc) (f g : Cpu → Cpu) : (s.modCpu u f).modCpu u g = s.modCpu u (g ∘ f) := by
  cases u <;> simp [State.modCpu, State.modACore, State.modLane, List.modify_modify_eq]

/-- Changing a unit changes no byte. -/
theorem byte_modCpu (s : State) (u : Proc) (f : Cpu → Cpu) (a : Nat) : (s.modCpu u f).byte a = s.byte a := by
  cases u <;> rfl

/-- Changing a unit changes no register of a block. -/
theorem word_modCpu (s : State) (u : Proc) (f : Cpu → Cpu) (a : Nat) : (s.modCpu u f).word a = s.word a := by
  cases u <;> rfl

/-- Changing a unit changes no field. -/
theorem get_modCpu (s : State) (u : Proc) (f : Cpu → Cpu) (x : Fld) : (s.modCpu u f).get x = s.get x := by
  cases u <;> rfl

/-! What an instruction can do. -/

/-- An instruction that is fetched has its effect. -/
theorem instr_runs (s : State) (t : Nat) (u : Proc) (body : State → State) (h : Runs s t u) : s.instr t u body = body (s.atTime t) := by
  simp [State.instr, h.1, h.2]

/-- A unit that does not execute takes no instruction. -/
theorem instr_idle (s : State) (t : Nat) (u : Proc) (body : State → State) (h : (s.atTime t).executes u = false) : s.instr t u body = s.atTime t := by
  simp [State.instr, h]

/-- An instruction whose fetch raises an exception has no other effect. -/
theorem instr_fetch (s : State) (t : Nat) (u : Proc) (body : State → State) (x : Nat × Nat) (h : (s.atTime t).executes u = true)
    (hf : (s.atTime t).fetchFault u = some x) : s.instr t u body = ((s.atTime t).fetchMet u).trap u x.1 x.2 ((s.atTime t).cpu u).pc 1 := by
  simp [State.instr, h, hf]

/-- All that an instruction can do: nothing, the exception of its fetch, or its effect. -/
theorem instr_cases (s : State) (t : Nat) (u : Proc) (body : State → State) :
    s.instr t u body = s.atTime t ∨ (∃ x, (s.atTime t).fetchFault u = some x ∧ s.instr t u body = ((s.atTime t).fetchMet u).trap u x.1 x.2 ((s.atTime t).cpu u).pc 1)
      ∨ s.instr t u body = body (s.atTime t) := by
  cases h : (s.atTime t).executes u with
  | false => exact .inl (instr_idle s t u body h)
  | true =>
    cases hf : (s.atTime t).fetchFault u with
    | none => exact .inr (.inr (instr_runs s t u body ⟨h, hf⟩))
    | some x => exact .inr (.inl ⟨x, rfl, instr_fetch s t u body x h hf⟩)

/-- A register instruction changes its unit's registers and goes on to the next word. -/
theorem regOp_runs (s : State) (t : Nat) (u : Proc) (n : Nat) (f : Cpu → Cpu) (h : Runs s t u) :
    s.regOp t u n f = s.after t u (fun c => (f c).next n) :=
  instr_runs s t u _ h

/-- An instruction with two operands and a destination. -/
theorem op3_runs (s : State) (t : Nat) (u : Proc) (n : Nat) (d a b : GReg) (r : DWord → DWord → DWord) (fl : DWord → DWord → BitVec 5 → BitVec 5)
    (h : Runs s t u) :
    s.op3 t u n d a b r fl = s.after t u (fun c => { c.wrote n d (r (c.gr a) (c.gr b)) with st := fl (c.gr a) (c.gr b) c.st }) :=
  regOp_runs s t u n _ h

/-- An instruction with one operand and a destination. -/
theorem op2_runs (s : State) (t : Nat) (u : Proc) (n : Nat) (d a : GReg) (r : DWord → DWord) (h : Runs s t u) :
    s.op2 t u n d a r = s.after t u (fun c => c.wrote n d (r (c.gr a))) :=
  regOp_runs s t u n _ h

/-- A load at an address that is no multiple of its size raises the alignment exception. -/
theorem load_misaligned (s : State) (t : Nat) (u : Proc) (base : GReg) (ofs : BitVec 16) (n : Nat) (put : Cpu → Nat → Cpu) (h : Runs s t u)
    (ha : (((s.atTime t).cpu u).ea base ofs).toNat % n ≠ 0) :
    s.load t u base ofs n put = (s.atTime t).trap u 2 0 (((s.atTime t).cpu u).ea base ofs) 2 := by
  simp [State.load, instr_runs s t u _ h, ha]

/-- An aligned load either raises the exception of its access or places the value. -/
theorem load_aligned (s : State) (t : Nat) (u : Proc) (base : GReg) (ofs : BitVec 16) (n : Nat) (put : Cpu → Nat → Cpu) (h : Runs s t u)
    (ha : (((s.atTime t).cpu u).ea base ofs).toNat % n = 0) :
    s.load t u base ofs n put =
      (let r := (s.atTime t).loadData u (((s.atTime t).cpu u).ea base ofs).toNat n
       match r.err with
       | some x => r.st.trap u x.1 x.2 (((s.atTime t).cpu u).ea base ofs) 2
       | none => r.st.modCpu u (fun c => (put c r.val).next 2)) := by
  rw [State.load, instr_runs s t u _ h]
  exact if_neg (not_not_intro ha)

/-- A store at an address that is no multiple of its size raises the alignment exception. -/
theorem store_misaligned (s : State) (t : Nat) (u : Proc) (base : GReg) (ofs : BitVec 16) (n : Nat) (val : Cpu → DWord) (h : Runs s t u)
    (ha : (((s.atTime t).cpu u).ea base ofs).toNat % n ≠ 0) :
    s.store t u base ofs n val = (s.atTime t).trap u 2 0 (((s.atTime t).cpu u).ea base ofs) 1 := by
  simp [State.store, instr_runs s t u _ h, ha]

/-- An aligned store of an A-core. -/
theorem store_core (s : State) (t : Nat) (c : ACoreId) (base : GReg) (ofs : BitVec 16) (n : Nat) (val : Cpu → DWord) (h : Runs s t (.a c))
    (ha : (((s.atTime t).cpu (.a c)).ea base ofs).toNat % n = 0) :
    s.store t (.a c) base ofs n val =
      (s.atTime t).coreStore c (((s.atTime t).cpu (.a c)).ea base ofs).toNat n (val ((s.atTime t).cpu (.a c))).toNat := by
  simp [State.store, instr_runs s t (.a c) _ h, ha]

/-- An aligned store of a lane inside its data TCM. -/
theorem store_lane (s : State) (t : Nat) (l : LaneId) (base : GReg) (ofs : BitVec 16) (n : Nat) (val : Cpu → DWord) (h : Runs s t (.l l))
    (ha : (((s.atTime t).cpu (.l l)).ea base ofs).toNat % n = 0) (hr : (((s.atTime t).cpu (.l l)).ea base ofs).toNat < 2 ^ 16) :
    s.store t (.l l) base ofs n val =
      (s.atTime t).laneStore l (((s.atTime t).cpu (.l l)).ea base ofs).toNat n (val ((s.atTime t).cpu (.l l))).toNat := by
  have hr' : ¬ 65536 ≤ (((s.atTime t).cpu (.l l)).ea base ofs).toNat := by omega
  simp [State.store, instr_runs s t (.l l) _ h, ha, hr']

/-! Exceptions. -/

/-- An A-core in no handler, on any cause but poison: its registers enter the handler, and nothing else changes. -/
theorem trap_core (s : State) (c : ACoreId) (cause sub : Nat) (addr : DWord) (cost : Nat) (hf : Free s (.a c)) (h4 : cause ≠ 4) :
    s.trap (.a c) cause sub addr cost =
      s.modCpu (.a c) (fun x => { x with cycles := x.cycles + cost }.enter (s.cpu (.a c)).pc (causeWord cause sub) addr) := by
  simp only [State.trap, h4, if_false, show (s.cpu (.a c)).exl = false from hf, Bool.false_eq_true]
  exact modCpu_modCpu ..

/-- A lane in no handler, on any cause but poison: its registers enter the handler, its EXC flag is raised and its half's cores are told. -/
theorem trap_lane (s : State) (l : LaneId) (cause sub : Nat) (addr : DWord) (cost : Nat) (hf : Free s (.l l)) (h4 : cause ≠ 4) :
    s.trap (.l l) cause sub addr cost =
      (((s.modCpu (.l l) (fun x => { x with cycles := x.cycles + cost }.enter (s.cpu (.l l)).pc (causeWord cause sub) addr)).noteTrap l).raise
        (F.LAN_STAT_EXC l.half l.lane)).irqHalf l.half 7 := by
  simp only [State.trap, h4, if_false, show (s.cpu (.l l)).exl = false from hf, Bool.false_eq_true]
  rw [modCpu_modCpu]
  rfl

/-- What entry saves and where it goes. -/
theorem enter_fields (c : Cpu) (epc : DWord) (ecause : Nat) (addr : DWord) :
    (c.enter epc ecause addr).epc = epc ∧ (c.enter epc ecause addr).estat = c.st.setWidth 64 ∧ (c.enter epc ecause addr).ecause = BitVec.ofNat 64 ecause
      ∧ (c.enter epc ecause addr).eaddr = addr ∧ (c.enter epc ecause addr).resv = none
      ∧ (c.enter epc ecause addr).pc = (c.vbase &&& ~~~(0x3FF : DWord)) + BitVec.ofNat 64 (ecause % 16 * 0x40) := ⟨rfl, rfl, rfl, rfl, rfl, rfl⟩

/-! Queues and records. -/

/-- What the entry for the next record of a queue holds after the record: its header, its sequence number, its payload. -/
def quePushWords (s : State) (q kind : Nat) (payload : List Nat) : List Nat :=
  (s.get (F.QUE_TAG_CUR q) + kind % 256 * 2 ^ 16 + payload.length * 2 ^ 24) :: s.queSeqOf q :: payload

/-- The queue takes a record of this length now. -/
abbrev QueTakes (s : State) (q : Nat) (payload : List Nat) : Prop :=
  (s.flag (F.QUE_CFG_EN q) && decide (s.queDepth q < s.queN q) && decide (payload.length * 4 + 8 ≤ s.queEsize q)
    && s.inDram (s.queEntry q (s.get (F.QUE_PIDX_PIDX q))) (s.queEsize q)) = true

/-- With no injection armed for writes, a block's write over the fabric is only the write (R46). -/
theorem dmaWrote_clean (s : State) (a n : Nat) (h : s.armed true = false) : s.dmaWrote a n = s := by simp [State.dmaWrote, h]

/-- Where no read of the line is to fail, its delivery changes nothing (R44). -/
theorem delivered_clean (s : State) (a : Nat) (h : s.failing a = []) : s.delivered a = s := by simp [State.delivered, h]

/-- With no injection armed for reads and no failed read of the line, a block's read over the fabric changes nothing (R44, R46). -/
theorem dmaRead_clean (s : State) (a : Nat) (h : s.armed false = false) (hf : s.failing a = []) : s.dmaRead a = s := by
  simp [State.dmaRead, h, delivered_clean s a hf]

/-- With no report of EVR's own writes waiting, joining them changes nothing (R46). -/
theorem fltJoin_none (s : State) (h : s.flt.own = []) : s.fltJoin = s := by simp [State.fltJoin, h]

/-- A record that the queue takes is written with its header and the doorbell is rung. -/
theorem quePush_taken (s : State) (q kind : Nat) (payload : List Nat) (hr : s.blockHeld quePlace = false) (h : QueTakes s q payload) :
    s.quePush q kind payload =
      (let a := s.queEntry q (s.get (F.QUE_PIDX_PIDX q))
       let w := (s.writeWords a (quePushWords s q kind payload)).dmaWrote a (4 * payload.length + 8)
       let w := { w with queSeq := sparsePut (fun _ => 0) w.queSeq q ((s.queSeqOf q + 1) % 2 ^ 32) }
       ((w.put (F.QUE_PIDX_PIDX q) (s.get (F.QUE_PIDX_PIDX q) + 1)).queRefresh q).irq (16 + q % 32)) := by
  simp only [State.quePush, hr]
  exact if_pos h

/-- A record for a QUE in a block reset is lost (R511). -/
theorem quePush_held (s : State) (q kind : Nat) (payload : List Nat) (h : s.blockHeld quePlace = true) : s.quePush q kind payload = s := by
  simp [State.quePush, h]

/-- A record that the queue does not take is dropped. -/
theorem quePush_dropped (s : State) (q kind : Nat) (payload : List Nat) (hr : s.blockHeld quePlace = false) (h : ¬ QueTakes s q payload) : s.quePush q kind payload = s.queDrop q := by
  simp only [State.quePush, hr]
  exact if_neg h

/-- A disabled queue takes no record. -/
theorem quePush_disabled (s : State) (q kind : Nat) (payload : List Nat) (hr : s.blockHeld quePlace = false) (h : s.flag (F.QUE_CFG_EN q) = false) :
    s.quePush q kind payload = s.queDrop q := by
  simp [State.quePush, h, hr]

end Sys2Proof.Machine
end

