-- ==== Sys2Proof/WellFormed.lean ====
section
/-! DEFINITION. Which commands are well formed: operands whose types leave more room than the spec gives them. Every command has a
meaning, well formed or not; the statements that need it name `wellFormed`. -/

namespace Sys2Proof

/-- A MID of one of the forms of R463. -/
def masterOk (m : Master) : Bool :=
  match m / 2 ^ 56 with
  | 0 => m == 1 || m == 2
  | 1 => m / 2 ^ 48 == 0x100
  | 2 => m / 2 ^ 10 == 2 ^ 47 && decide (m / 2 ^ 8 % 4 < 4)
  | 3 => m == 3 * 2 ^ 56
  | _ => false

/-- The address of a 32-bit register access: 48 bits, a multiple of 4 (R10, R22). -/
def addressOk (a : Nat) : Bool := decide (a < 2 ^ 48) && a % 4 == 0

/-- A CAN frame: identifier and data fit the format, and only an FD frame holds more than 8 bytes (R410, R420). -/
def canFrameOk (f : CanFrame) : Bool :=
  decide (f.ident < if f.ide then 2 ^ 29 else 2 ^ 11) && decide (f.dlc < 16) && decide (f.data.length ≤ if f.fdf then 64 else 8) && !(f.fdf && f.rtr)

/-- What a sleeping transceiver detects is well formed. -/
def canWakeOk : CanWake → Bool
  | .dominant => true
  | .wup => true
  | .frame f => canFrameOk f
  | .badFrame => true

/-- Measurements of an epoch name each channel at most once (R389). -/
def measOk (l : List GnssMeas) : Bool := decide ((l.map (fun x => x.ch)).Nodup)

/-- A Lamip payload has at most 256 words (R453). -/
def LampReq.ok (q : LampReq) : Bool := decide (q.payload.length ≤ 256)

/-- A command's Lamip frame, where it came in one, is well formed. -/
def reqOk : Option LampReq → Bool
  | some q => q.ok
  | none => true

/-- A transfer on the USB port has at most a header, 1,024 bytes and a trailer (R453). -/
def lampSrcOk : LampSrc → Bool
  | .udp => true
  | .can => true
  | .usb b => decide (b.length ≤ 1052)

/-- The command is well formed. -/
def Instr.wellFormed (i : Instr) : Bool :=
  match i with
  | .registerWrite _ m a _ => masterOk m && addressOk a
  | .captureRead _ m a => masterOk m && addressOk a
  | .quePidxWrite _ m _ _ => masterOk m
  | .queCidxWrite _ m _ _ => masterOk m
  | .queStatClr _ m _ _ => masterOk m
  | .fabClr _ m _ => masterOk m
  | .plltLock _ => true
  | .refinAbsentTimeout _ => true
  | .refselChange _ m _ => masterOk m
  | .referenceLoss _ _ => true
  | .ocxoReturn _ => true
  | .referenceReturn _ _ => true
  | .hbGsetWrite _ m _ => masterOk m
  | .hbGcorWrite _ m _ => masterOk m
  | .hbFadjWrite _ m _ => masterOk m
  | .slewStep _ => true
  | .gnssSecondBoundary _ => true
  | .disciplineTimeout _ => true
  | .tuncGrowth _ => true
  | .hbLcfgCommit _ m _ _ => masterOk m
  | .strike _ _ => true
  | .trgCaptureEdge _ _ _ => true
  | .baseTick _ => true
  | .hbFuspWrite _ m _ => masterOk m
  | .hbGnspWrite _ m _ => masterOk m
  | .ppsPulseEnd _ => true
  | .frameStartPacket _ _ _ _ _ => true
  | .frameEndPacket _ _ _ _ => true
  | .longPacket _ _ _ _ _ _ payload _ => decide (payload.length < 2 ^ 16)
  | .pipelineGrant _ _ => true
  | .grantEnd _ _ => true
  | .frameComplete _ _ _ => true
  | .vscRelWrite _ m _ _ => masterOk m
  | .contextEnable _ m _ _ => masterOk m
  | .contextDisable _ m _ _ => masterOk m
  | .contextMigrate _ m _ _ => masterOk m
  | .csiDisable _ m _ _ => masterOk m
  | .csiClr _ m _ _ => masterOk m
  | .mplClr _ m _ _ => masterOk m
  | .vscCclr _ m _ _ => masterOk m
  | .hrinSample _ _ _ _ => true
  | .calRotationStart _ now => (match now with | some (m, _) => masterOk m | none => true)
  | .hrinCalComplete _ _ _ _ => true
  | .hrinTempCal _ _ => true
  | .hraClr _ m _ => masterOk m
  | .gpaListStrike _ _ _ => true
  | .gpaRunStart _ => true
  | .gpaRunComplete _ _ _ => true
  | .gpaBackgroundCal _ => true
  | .gpaCalNow _ m _ => masterOk m
  | .gpaClr _ m _ => masterOk m
  | .capMeasureStart _ _ _ => true
  | .capMeasureDone _ _ _ _ => true
  | .finEdge _ _ _ => true
  | .finStall _ _ => true
  | .finOvrClear _ _ => true
  | .fqiClr _ m _ => masterOk m
  | .workUnitBoundary _ => true
  | .frameJobComplete _ => true
  | .sourceEnable _ m _ _ => masterOk m
  | .sourceDisable _ m _ _ => masterOk m
  | .fusSputWrite _ m _ _ => masterOk m
  | .gridEnable _ m _ _ => masterOk m
  | .gridDisable _ m _ _ => masterOk m
  | .instantClose _ _ => true
  | .headPublish _ _ => true
  | .ytCommit _ m _ => masterOk m
  | .fexClr _ m _ => masterOk m
  | .prjClr _ m _ => masterOk m
  | .fusClr _ m _ => masterOk m
  | .ytClr _ m _ => masterOk m
  | .add _ _ _ _ _ _ => true
  | .sub _ _ _ _ _ _ => true
  | .and _ _ _ _ _ _ => true
  | .or _ _ _ _ _ _ => true
  | .xor _ _ _ _ _ _ => true
  | .andn _ _ _ _ _ _ => true
  | .sll _ _ _ _ _ => true
  | .srl _ _ _ _ _ => true
  | .sra _ _ _ _ _ => true
  | .ror _ _ _ _ _ => true
  | .slt _ _ _ _ _ => true
  | .sltu _ _ _ _ _ => true
  | .min _ _ _ _ _ => true
  | .max _ _ _ _ _ => true
  | .minu _ _ _ _ _ => true
  | .maxu _ _ _ _ _ => true
  | .addw _ _ _ _ _ _ => true
  | .subw _ _ _ _ _ _ => true
  | .sextb _ _ _ _ => true
  | .sexth _ _ _ _ => true
  | .sextw _ _ _ _ => true
  | .zextw _ _ _ _ => true
  | .clz _ _ _ _ => true
  | .popc _ _ _ _ => true
  | .cmp _ _ _ _ => true
  | .tst _ _ _ _ => true
  | .mul _ _ _ _ _ => true
  | .mulh _ _ _ _ _ => true
  | .mulhu _ _ _ _ _ => true
  | .mulw _ _ _ _ _ => true
  | .div _ _ _ _ _ => true
  | .divu _ _ _ _ _ => true
  | .rem _ _ _ _ _ => true
  | .remu _ _ _ _ _ => true
  | .mfc _ _ _ _ => true
  | .mtc _ _ _ _ => true
  | .addi _ _ _ _ _ => true
  | .andi _ _ _ _ _ => true
  | .ori _ _ _ _ _ => true
  | .xori _ _ _ _ _ => true
  | .slti _ _ _ _ _ => true
  | .sltiu _ _ _ _ _ => true
  | .shi _ _ _ _ _ _ => true
  | .cmpi _ _ _ _ => true
  | .ldi _ _ _ _ => true
  | .ldu _ _ _ _ => true
  | .adr _ _ _ _ => true
  | .ldb _ _ _ _ _ => true
  | .ldbu _ _ _ _ _ => true
  | .ldh _ _ _ _ _ => true
  | .ldhu _ _ _ _ _ => true
  | .ldw _ _ _ _ _ => true
  | .ldwu _ _ _ _ _ => true
  | .ldd _ _ _ _ _ => true
  | .stb _ _ _ _ _ => true
  | .sth _ _ _ _ _ => true
  | .stw _ _ _ _ _ => true
  | .std _ _ _ _ _ => true
  | .fldw _ _ _ _ _ => true
  | .fldd _ _ _ _ _ => true
  | .fstw _ _ _ _ _ => true
  | .fstd _ _ _ _ _ => true
  | .bc _ _ _ _ => true
  | .blc _ _ _ _ => true
  | .jr _ _ _ => true
  | .jlr _ _ _ _ => true
  | .ret _ _ => true
  | .samp _ _ _ _ => true
  | .setp _ _ _ _ => true
  | .lset _ _ _ _ => true
  | .lmeas _ _ _ _ => true
  | .leval _ _ _ _ => true
  | .lout _ _ _ _ => true
  | .lint _ _ _ _ => true
  | .lman _ _ _ _ => true
  | .lauto _ _ _ => true
  | .lbank _ _ _ _ => true
  | .lstat _ _ _ _ => true
  | .fadd _ _ _ _ _ _ => true
  | .fsub _ _ _ _ _ _ => true
  | .fmul _ _ _ _ _ _ => true
  | .fdiv _ _ _ _ _ _ => true
  | .fsqrt _ _ _ _ _ => true
  | .fma _ _ _ _ _ _ => true
  | .fmin _ _ _ _ _ _ => true
  | .fmax _ _ _ _ _ _ => true
  | .fneg _ _ _ _ _ => true
  | .fabs _ _ _ _ _ => true
  | .fcmp _ _ _ _ _ => true
  | .fcvti _ _ _ _ _ => true
  | .fcvtf _ _ _ _ _ => true
  | .fcvtp _ _ _ _ _ => true
  | .fmvgf _ _ _ _ _ => true
  | .fmvfg _ _ _ _ _ => true
  | .qadd _ _ _ _ _ => true
  | .qsub _ _ _ _ _ => true
  | .qmul _ _ _ _ _ _ => true
  | .qneg _ _ _ _ => true
  | .qabs _ _ _ _ => true
  | .qshl _ _ _ _ _ => true
  | .qshr _ _ _ _ _ => true
  | .qclip _ _ _ _ _ => true
  | .macz _ _ _ _ _ => true
  | .mac _ _ _ _ _ => true
  | .msu _ _ _ _ _ => true
  | .accrd _ _ _ _ _ => true
  | .accset _ _ _ _ _ => true
  | .accget _ _ _ _ _ => true
  | .accput _ _ _ _ _ => true
  | .lr _ _ _ _ _ => true
  | .sc _ _ _ _ _ _ => true
  | .afadd _ _ _ _ _ _ => true
  | .aswap _ _ _ _ _ _ => true
  | .fence _ _ => true
  | .facq _ _ => true
  | .frel _ _ => true
  | .nop _ _ => true
  | .eret _ _ => true
  | .brk _ _ _ => true
  | .wfi _ _ => true
  | .wfiWake _ _ => true
  | .bwt _ _ => true
  | .isync _ _ => true
  | .impreciseBusError _ _ => true
  | .externalInterrupt _ _ => true
  | .cmptimeMatch _ _ => true
  | .laneBoundary _ _ _ => true
  | .laneStart _ m _ _ _ => masterOk m
  | .laneStop _ m _ _ _ => masterOk m
  | .loopEnable _ m _ _ _ => masterOk m
  | .lphSwapReq _ m _ _ => masterOk m
  | .migrationArm _ m _ _ => masterOk m
  | .migrationCopyDone _ _ => true
  | .migrationAbort _ m _ _ => masterOk m
  | .ceClr _ m _ _ => masterOk m
  | .decayComplete _ _ => true
  | .regulatorUpdate _ _ _ _ _ _ _ _ => true
  | .phaseEnd _ _ _ _ => true
  | .boostDefer _ _ => true
  | .boostTimeout _ _ => true
  | .fingerCalVisit _ _ _ => true
  | .fingerCalSkip _ => true
  | .resistanceStep _ _ => true
  | .coilModelSave _ => true
  | .palmOvercurrent _ _ => true
  | .palmRearm _ m _ _ => masterOk m
  | .palmOverload _ _ _ _ => true
  | .dutyLimit _ _ => true
  | .pairThermalStep _ _ _ => true
  | .switchOvertemp _ _ => true
  | .switchTempRecover _ _ => true
  | .fingerOvercurrent _ _ => true
  | .fingerRearm _ m _ _ => masterOk m
  | .openLoadDetect _ _ => true
  | .shortToGround _ _ _ => true
  | .fngClr _ m _ => masterOk m
  | .plmClr _ m _ => masterOk m
  | .inrushEnd _ _ => true
  | .loadOvercurrent _ _ _ => true
  | .groupUndervoltage _ _ _ => true
  | .groupUvRecover _ _ _ => true
  | .retryBudgetRefill _ _ => true
  | .loadThermalTrip _ _ => true
  | .thermalLatchClear _ _ => true
  | .restartTest _ => true
  | .loadRearm _ m _ _ => masterOk m
  | .loadCurrentReport _ _ _ _ _ => true
  | .iselChange _ _ => true
  | .ldsClr _ m _ => masterOk m
  | .capacitanceSample _ _ _ => true
  | .capSampleBleed _ _ => true
  | .energyUpdate _ _ _ => true
  | .diversionStart _ _ _ => true
  | .diversionEnd _ _ _ _ => true
  | .brmCeilWrite _ m _ _ => masterOk m
  | .bleedEnd _ _ _ => true
  | .dzCurrentCut _ _ => true
  | .portLimit _ _ _ _ => true
  | .portFold _ _ _ _ => true
  | .portUnfold _ _ _ _ => true
  | .railOvercurrent _ _ _ => true
  | .brmClr _ m _ => masterOk m
  | .snpClr _ m _ => masterOk m
  | .feFrame _ m _ => masterOk m
  | .feFrameDone _ _ => true
  | .channelEnable _ m _ _ => masterOk m
  | .channelLock _ _ => true
  | .channelLockLoss _ _ => true
  | .channelLost _ _ => true
  | .acqStart _ m _ => masterOk m
  | .acqStep _ _ _ => true
  | .measurementEpoch _ meas _ _ => measOk meas
  | .epochBlockWrite _ => true
  | .symbolRecord _ _ _ _ _ _ => true
  | .prdWrite _ m _ _ => masterOk m
  | .clkeWrite _ m _ => masterOk m
  | .navCommit _ m _ => masterOk m
  | .tvalidLoss _ => true
  | .gnbRelWrite _ m _ => masterOk m
  | .gclkLoss _ => true
  | .beanieBurst _ => true
  | .beanieBurstEnd _ meas _ => measOk meas
  | .imuTransaction _ => true
  | .imuTransactionDone _ _ _ => true
  | .gnbClr _ m _ => masterOk m
  | .imuClr _ m _ => masterOk m
  | .dominantTimeout _ _ => true
  | .canWakeDetect _ _ w => canWakeOk w
  | .frameReceived _ _ f _ => canFrameOk f
  | .txBufferFill _ _ _ => true
  | .frameSent _ _ _ => true
  | .frameTxError _ _ _ _ => true
  | .busOffRecoveryStart _ _ => true
  | .canRecov _ m _ _ => masterOk m
  | .busOffRejoin _ _ => true
  | .objectStale _ _ => true
  | .objTxreq _ m _ => masterOk m
  | .objectRepeat _ _ => true
  | .objStatRead _ m _ => masterOk m
  | .txRequestConsume _ => true
  | .messageDeadline _ _ _ => true
  | .msgCancel _ m _ _ => masterOk m
  | .transportTimeout _ _ => true
  | .bamPacketSend _ _ => true
  | .msgPrel _ m _ => masterOk m
  | .addressClaimStart _ m _ _ => masterOk m
  | .claimSettled _ _ => true
  | .cannotClaimSend _ _ => true
  | .canClr _ m _ _ => masterOk m
  | .msgClr _ m _ => masterOk m
  | .switchFrame _ _ _ _ => true
  | .linkLoss _ _ => true
  | .ethClr _ m _ => masterOk m
  | .lamipFrameReceive _ src => lampSrcOk src
  | .read _ m q => masterOk m && q.ok
  | .write _ m q => masterOk m && q.ok
  | .claim _ m q _ => masterOk m && reqOk q
  | .renew _ m q _ => masterOk m && reqOk q
  | .release _ m q _ => masterOk m && reqOk q
  | .handover _ m q _ => masterOk m && reqOk q
  | .reset _ m q => masterOk m && q.ok
  | .subscribe _ m q => masterOk m && q.ok
  | .subscriptionPush _ m _ => masterOk m
  | .subscriptionExpire _ m _ => masterOk m
  | .evlogRead _ m q => masterOk m && q.ok
  | .logClear _ m q => masterOk m && reqOk q
  | .logFreeze _ m q => masterOk m && reqOk q
  | .logUnfreeze _ m q => masterOk m && reqOk q
  | .logFlushCmd _ m => masterOk m
  | .cacheEntryExpire _ m _ => masterOk m
  | .settleWindowEnd _ => true
  | .leaseExpire _ => true
  | .lmpClr _ m _ => masterOk m
  | .epochBoundary _ => true
  | .epochCommit _ => true
  | .heartbeat _ => true
  | .heartbeatLoss _ => true
  | .acoreWatchdogExpire _ _ => true
  | .hmnKick _ m _ _ => masterOk m
  | .roleFail _ m _ => masterOk m
  | .failoverDetect _ => true
  | .mittenExpire _ => true
  | .mittenRampStep _ => true
  | .selfTestStart _ _ => true
  | .selfTestComplete _ _ _ => true
  | .selfTestOverdue _ => true
  | .stest _ m _ => masterOk m
  | .swap _ m _ => masterOk m
  | .standbyReady _ _ => true
  | .swapAbandon _ _ => true
  | .swapAbort _ m _ => masterOk m
  | .powerOn _ => true
  | .brownOut _ => true
  | .resetNAssert _ => true
  | .thermalShutdown _ => true
  | .thermalRelease _ => true
  | .softwareReset _ m _ => masterOk m
  | .blockIdle _ place => decide (place < 2 ^ 32)
  | .blockResetForce _ place => decide (place < 2 ^ 32)
  | .resetRelease _ _ _ _ _ _ _ _ => true
  | .overvoltage _ _ => true
  | .overvoltageRecover _ => true
  | .clockCheckFail _ _ _ => true
  | .clockCheckRecover _ => true
  | .powerFailFlush _ _ => true
  | .flushAbandon _ => true
  | .vholdCharged _ => true
  | .safeNAssert _ => true
  | .safeNRelease _ => true
  | .beanieEnter _ m _ => masterOk m
  | .beanieWake _ _ => true
  | .extest _ _ => true
  | .samplePreload _ _ _ => true
  | .idcode _ => true
  | .highz _ => true
  | .clamp _ => true
  | .bypass _ _ => true
  | .tapResetRelease _ => true
  | .dbgEnFall _ => true
  | .faultReport _ _ _ _ _ _ _ => true
  | .windowEnd _ => true
  | .freezeTimeout _ => true
  | .fltClr _ m _ => masterOk m
  | .stage _ m q _ => masterOk m && reqOk q
  | .stageDone _ _ => true
  | .commit _ m q _ => masterOk m && reqOk q
  | .imageAbort _ m _ => masterOk m
  | .confirm _ m _ => masterOk m
  | .trialTimeout _ _ => true
  | .blockRestart _ m _ => masterOk m
  | .tallyArm _ m _ => masterOk m
  | .tallyArmExpire _ => true
  | .tallyBurn _ m _ _ => masterOk m
  | .tallyBurnDone _ got => decide (got.length ≤ 64)
  | .illegalInstruction _ _ _ => true
  | .highSpeedEntry _ _ _ => true
  | .highSpeedExit _ _ => true
  | .linkUp _ _ => true
  | .gclkReturn _ => true
  | .usbBusChange _ _ _ _ => true
  | .lamipResetApply _ => true
  | .macAddressAgeing _ => true
  | .errorFrame _ _ _ _ => true
  | .autonomousBiasing _ _ _ => true
  | .bootComplete _ _ => true
  | .takeoverComplete _ _ => true
  | .commitCopyDone _ => true
  | .blockRestartDone _ _ _ _ => true
  | .dieTemperatureHigh _ _ _ => true
  | .portLimitEnd _ _ _ _ => true

end Sys2Proof
end

