-- ==== Sys2Proof/Tests/Slice0.lean ====
section
/-! SUPPORT. Tests, each of one step on a small state. A theorem `wit_…` shows a state and operands that meet the hypotheses of a clause of a
statement of Certificates/Slice0/Obligations.lean, and what the clause then says of it. Expected values come from the spec's tables and from
calculation by hand. -/

set_option Elab.async false

open Sys2Proof Sys2Proof.Machine

namespace Sys2Proof.Tests

/-! Helpers. -/

/-- The command answers a next state that satisfies `p`. -/
def run (i : Instr) (s : State) (p : State → Bool) : Bool :=
  match exec i s with
  | .next s' => p s'
  | _ => false

/-- The command leaves every register, all memory and the named parts of the state as they were. -/
def still (i : Instr) (s : State) : Bool := run i s fun s' => s'.regs == s.regs && s'.mem == s.mem && s'.net == s.net && s'.rst == s.rst && s'.role == s.role

/-- The word at `a` can be written: a master's write reaches its block. -/
def ok (s : State) (a : Nat) : Bool := decide (Reaches s 0 a)

/-- Powered and released, half A active and its internal master the owner, module time 1 s. -/
def up : State :=
  let s : State := { State.reset with start := some 0, clock := 1000000000, rst := { powered := true, faultN := false, resetN := false } }
  s.put F.ROLE_STAT_ACTIVE 1

/-- The internal master of half A, the owner of `up`; a master on UDP; one on CAN. -/
def own : Master := 1
def udp : Master := 2 ^ 56 + 5

/-- Register words set. -/
def with' (s : State) (l : List (Nat × Nat)) : State := l.foldl (fun s e => s.setWord e.1 e.2) s

/-- Fields set. -/
def sets (s : State) (l : List (Fld × Nat)) : State := l.foldl (fun s e => s.put e.1 e.2) s

def l0 : LaneId := ⟨0, 0⟩
def c0 : ACoreId := ⟨0, 0⟩

/-- General registers 1 to 3 set, the others 0. -/
def regs3 (v1 v2 v3 : DWord) : Vector DWord 32 := (((Vector.replicate 32 0).set 1 v1).set 2 v2).set 3 v3

/-- Lane 0 of half A in a pass, with registers 1 to 3. -/
def lane (v1 v2 v3 : DWord) : State :=
  (up.put (F.LAN_STAT_STATE 0 0) lnRunning).modCpu (.l l0) fun c => { c with started := true, g := regs3 v1 v2 v3 }

/-- Core 0 of half A runs, with registers 1 to 3 of both files. -/
def core (v1 v2 v3 : DWord) : State := up.modCpu (.a c0) fun c => { c with started := true, g := regs3 v1 v2 v3, f := regs3 v1 v2 v3 }

/-- What the command leaves in the registers of lane 0. -/
def inLane (i : Instr) (s : State) (p : Cpu → Bool) : Bool := run i s fun s' => p (s'.cpu (.l l0))

/-- What the command leaves in the registers of core 0. -/
def inCore (i : Instr) (s : State) (p : Cpu → Bool) : Bool := run i s fun s' => p (s'.cpu (.a c0))

/-- The unit entered the exception of a cause and SUB with EPC at 0 and EADDR as given. -/
def trapped (cause sub : Nat) (addr : DWord) (c : Cpu) : Bool :=
  c.ecause == BitVec.ofNat 64 (cause + 16 * sub) && c.epc == 0 && c.eaddr == addr && c.exl && c.pc == BitVec.ofNat 64 (cause * 0x40)

/-- The command answers exactly this state. -/
def gives (i : Instr) (s s' : State) : Bool := run i s (· == s')

/-- The command answers state `s` with the word at `a` written and nothing else. -/
def acked (i : Instr) (s s' : State) (a : Nat) : Bool := run i s (· == s'.answered a)

/-- The same state `ns` later. -/
def after' (s : State) (ns : Nat) : State := { s with clock := s.clock + ns }

/-- The bytes 0xF1 0xF2 … at `a`. -/
def filled (s : State) (a : Nat) : State := s.writeBytes a [0xF1, 0xF2, 0xF3, 0xF4, 0xF5, 0xF6, 0xF7, 0xF8]

/-- A request about the DRAM of half A at 0x100040. -/
def ask (payload : List Word) : LampReq := { tid := 9, place := 0x1300FFFF, addr := 0x100040, payload := payload }

/-- The last frame that LMP sent: type, status and data. -/
def answerOf (s : State) : Option (Nat × Nat × List Nat) := s.net.sent.getLast?.map fun f => (f.type, f.status, f.payload)

/-- The request is answered with this and changes neither memory nor what LMP holds. -/
def tells (i : Instr) (s : State) (ty st : Nat) (data : List Nat) : Bool :=
  run i s fun s' => answerOf s' == some (ty, st, data) && s'.net.sent.length == s.net.sent.length + 1 && s'.mem == s.mem && s'.net.heldResps == s.net.heldResps

/-! The queue. -/

theorem wit_step_front : (match step { up with pending := [.nop 0 (.l l0), .nop 1 (.l l0)] } with | .next s => s.pending == [.nop 1 (.l l0)] | _ => false)
    && (match step up with | .next s => s == up | _ => false) = true := by decide +kernel

/-! Jarug units. -/

theorem wit_lane_runs : Runs (lane 1 2 3) 0 (.l l0) ∧ Free (lane 1 2 3) (.l l0) ∧ procIndex (.l l0) < (lane 1 2 3).lanes.length := by decide +kernel
theorem wit_core_runs : Runs (core 1 2 3) 0 (.a c0) ∧ Free (core 1 2 3) (.a c0) ∧ procIndex (.a c0) < (core 1 2 3).aCores.length := by decide +kernel
theorem wit_no_overrun_waits : NoOverrunWaits (lane 1 2 3) (.l l0) := by unfold NoOverrunWaits; decide

/-! Words, from the encodings of R203–R233 and the worked example of chapter 6. -/

theorem test_words_example :
    decodeJarug 0 (.l l0) 0xFC000005 = some (.bwt 0 l0) ∧ decodeJarug 0 (.l l0) 0xC0200801 = some (.samp 0 l0 1 0x0801)
      ∧ decodeJarug 0 (.l l0) 0x0C6120D8 = some (.qmul 0 l0 3 1 4 24) ∧ decodeJarug 0 (.l l0) 0xC8302300 = some (.lmeas 0 l0 12 3)
      ∧ decodeJarug 0 (.l l0) 0xC8304200 = some (.leval 0 l0 12 2) ∧ decodeJarug 0 (.l l0) 0xC4400004 = some (.setp 0 l0 2 4)
      ∧ decodeJarug 0 (.l l0) 0xA3BFFFFA = some (.bc 0 (.l l0) 0xE 0x3FFFFA) := by decide +kernel
theorem test_words_refused : decodeJarug 0 (.l l0) 0 = none ∧ decodeJarug 0 (.l l0) 0xFFFFFFFF = none ∧ decodeJarug 0 (.a c0) 0xC0200801 = none
    ∧ otherProfile false 0xC0200801 = true := by decide +kernel
theorem test_words_encode : encodeWord (.bwt 0 l0) = some 0xFC000005 ∧ encodeWord (.qmul 0 l0 3 1 4 24) = some 0x0C6120D8
    ∧ issueOf (.bwt 0 l0) = some (0, .l l0) ∧ encodeWord (.cmp 0 (.a c0) 1 2) ≠ none := by decide +kernel

/-! Integer results (R208–R215). -/

theorem wit_add : inLane (.add 0 (.l l0) 4 1 2 true) (lane 0x7FFFFFFFFFFFFFFF 1 0) (fun c => c.gr 4 == 0x8000000000000000 && c.st == 0b01001 && c.pc == 4 && c.cycles == 1)
    = true := by decide +kernel
theorem wit_sub : inLane (.sub 0 (.l l0) 4 1 2 true) (lane 5 5 0) (fun c => c.gr 4 == 0 && c.st == 0b00110) = true := by decide +kernel
theorem wit_addw : inCore (.addw 0 (.a c0) 4 1 2 true) (core 0x7FFFFFFF 1 0) (fun c => c.gr 4 == 0xFFFFFFFF80000000 && c.st == 0b01001) = true := by decide +kernel
theorem wit_subw : inCore (.subw 0 (.a c0) 4 1 2 true) (core 0 1 0) (fun c => c.gr 4 == 0xFFFFFFFFFFFFFFFF && c.st == 0b01000) = true := by decide +kernel
theorem wit_compare : inLane (.cmp 0 (.l l0) 1 2) (lane 1 2 0) (fun c => c.st == 0b01000 && c.pc == 4) && inLane (.cmpi 0 (.l l0) 1 0xFFFF) (lane 1 0 0) (fun c => c.st == 0)
    = true := by decide +kernel
theorem wit_logic : inLane (.and 0 (.l l0) 4 1 2 true) (lane 12 10 0) (fun c => c.gr 4 == 8) && inLane (.or 0 (.l l0) 4 1 2 true) (lane 12 10 0) (fun c => c.gr 4 == 14)
    && inLane (.xor 0 (.l l0) 4 1 2 true) (lane 12 10 0) (fun c => c.gr 4 == 6) && inLane (.andn 0 (.l l0) 4 1 2 true) (lane 12 10 0) (fun c => c.gr 4 == 4)
    && inLane (.tst 0 (.l l0) 1 2) (lane 12 3 0) (fun c => c.st == 0b00100) = true := by decide +kernel
theorem wit_immediates : inLane (.addi 0 (.l l0) 4 1 0xFFFF) (lane 5 0 0) (fun c => c.gr 4 == 4) && inLane (.andi 0 (.l l0) 4 1 0xFFFF) (lane 0x12345 0 0) (fun c => c.gr 4 == 0x2345)
    && inLane (.ori 0 (.l l0) 4 1 0x8000) (lane 1 0 0) (fun c => c.gr 4 == 0x8001) && inLane (.xori 0 (.l l0) 4 1 3) (lane 5 0 0) (fun c => c.gr 4 == 6)
    && inLane (.slti 0 (.l l0) 4 1 0xFFFF) (lane 0 0 0) (fun c => c.gr 4 == 0) && inLane (.sltiu 0 (.l l0) 4 1 0xFFFF) (lane 0 0 0) (fun c => c.gr 4 == 1)
    && inLane (.ldi 0 (.l l0) 4 0x1FFFFF) (lane 0 0 0) (fun c => c.gr 4 == 0xFFFFFFFFFFFFFFFF) && inLane (.ldu 0 (.l l0) 4 1) (lane 0 0 0) (fun c => c.gr 4 == 0x10000)
    && inLane (.adr 0 (.l l0) 4 3) (lane 0 0 0) (fun c => c.gr 4 == 12) = true := by decide +kernel
theorem wit_shifts : inLane (.sll 0 (.l l0) 4 1 2) (lane 3 63 0) (fun c => c.gr 4 == 0x8000000000000000) && inLane (.srl 0 (.l l0) 4 1 2) (lane 0x8000000000000000 63 0) (fun c => c.gr 4 == 1)
    && inLane (.sra 0 (.l l0) 4 1 2) (lane 0x8000000000000000 63 0) (fun c => c.gr 4 == 0xFFFFFFFFFFFFFFFF) && inLane (.ror 0 (.l l0) 4 1 2) (lane 1 1 0) (fun c => c.gr 4 == 0x8000000000000000)
    && inLane (.shi 0 (.l l0) 4 1 0 4) (lane 1 0 0) (fun c => c.gr 4 == 16) && inLane (.shi 0 (.l l0) 4 1 2 1) (lane 0xFFFFFFFFFFFFFFFE 0 0) (fun c => c.gr 4 == 0xFFFFFFFFFFFFFFFF)
    = true := by decide +kernel
theorem wit_selections : inLane (.slt 0 (.l l0) 4 1 2) (lane 0xFFFFFFFFFFFFFFFF 0 0) (fun c => c.gr 4 == 1) && inLane (.sltu 0 (.l l0) 4 1 2) (lane 0xFFFFFFFFFFFFFFFF 0 0) (fun c => c.gr 4 == 0)
    && inLane (.min 0 (.l l0) 4 1 2) (lane 0xFFFFFFFFFFFFFFFF 0 0) (fun c => c.gr 4 == 0xFFFFFFFFFFFFFFFF) && inLane (.max 0 (.l l0) 4 1 2) (lane 0xFFFFFFFFFFFFFFFF 0 0) (fun c => c.gr 4 == 0)
    && inLane (.minu 0 (.l l0) 4 1 2) (lane 0xFFFFFFFFFFFFFFFF 0 0) (fun c => c.gr 4 == 0) && inLane (.maxu 0 (.l l0) 4 1 2) (lane 0xFFFFFFFFFFFFFFFF 0 0) (fun c => c.gr 4 == 0xFFFFFFFFFFFFFFFF)
    = true := by decide +kernel
theorem wit_extends : inLane (.sextb 0 (.l l0) 4 1) (lane 0x80 0 0) (fun c => c.gr 4 == 0xFFFFFFFFFFFFFF80) && inLane (.sexth 0 (.l l0) 4 1) (lane 0x8000 0 0) (fun c => c.gr 4 == 0xFFFFFFFFFFFF8000)
    && inLane (.sextw 0 (.l l0) 4 1) (lane 0x80000000 0 0) (fun c => c.gr 4 == 0xFFFFFFFF80000000) && inLane (.zextw 0 (.l l0) 4 1) (lane 0xFFFFFFFFFFFFFFFF 0 0) (fun c => c.gr 4 == 0xFFFFFFFF)
    && inLane (.clz 0 (.l l0) 4 1) (lane 1 0 0) (fun c => c.gr 4 == 63) && inLane (.clz 0 (.l l0) 4 1) (lane 0 0 0) (fun c => c.gr 4 == 64) && inLane (.popc 0 (.l l0) 4 1) (lane 0xFF 0 0) (fun c => c.gr 4 == 8) = true := by decide +kernel
theorem wit_multiply : inLane (.mul 0 (.l l0) 4 1 2) (lane 0xFFFFFFFFFFFFFFFF 3 0) (fun c => c.gr 4 == 0xFFFFFFFFFFFFFFFD && c.cycles == 2)
    && inLane (.mulh 0 (.l l0) 4 1 2) (lane 0xFFFFFFFFFFFFFFFF 3 0) (fun c => c.gr 4 == 0xFFFFFFFFFFFFFFFF) && inLane (.mulhu 0 (.l l0) 4 1 2) (lane 0xFFFFFFFFFFFFFFFF 3 0) (fun c => c.gr 4 == 2)
    && inLane (.mulw 0 (.l l0) 4 1 2) (lane 0x80000000 2 0) (fun c => c.gr 4 == 0) = true := by decide +kernel
theorem wit_divide : inLane (.div 0 (.l l0) 4 1 2) (lane 0xFFFFFFFFFFFFFFF9 2 0) (fun c => c.gr 4 == 0xFFFFFFFFFFFFFFFD && c.cycles == 20)
    && inLane (.rem 0 (.l l0) 4 1 2) (lane 0xFFFFFFFFFFFFFFF9 2 0) (fun c => c.gr 4 == 0xFFFFFFFFFFFFFFFF) && inLane (.divu 0 (.l l0) 4 1 2) (lane 7 2 0) (fun c => c.gr 4 == 3)
    && inLane (.remu 0 (.l l0) 4 1 2) (lane 7 2 0) (fun c => c.gr 4 == 1) = true := by decide +kernel
theorem wit_divide_by_zero : inLane (.div 0 (.l l0) 4 1 2) (lane 0xFFFFFFFFFFFFFFFF 0 0) (fun c => c.gr 4 == 0x8000000000000000 && c.st == 1)
    && inLane (.rem 0 (.l l0) 4 1 2) (lane 7 0 0) (fun c => c.gr 4 == 7 && c.st == 1) && inCore (.div 0 (.a c0) 4 1 2) (core 7 0 0) (fun c => trapped 7 0 0 c && c.gr 4 == 0)
    = true := by decide +kernel

/-! Branches and jumps (R211, R219, R220, R244). -/

theorem wit_branch : inLane (.bc 0 (.l l0) 14 0x3FFFFF) (lane 0 0 0) (fun c => c.pc == 0xFFFFFFFFFFFFFFFC && c.cycles == 2) && inLane (.bc 0 (.l l0) 0 1) (lane 0 0 0) (fun c => c.pc == 4 && c.cycles == 1)
    && inLane (.blc 0 (.l l0) 14 3) (lane 0 0 0) (fun c => c.pc == 12 && c.gr 31 == 4 && c.rstack == [4]) && inCore (.blc 0 (.a c0) 14 3) (core 0 0 0) (fun c => c.pc == 12 && c.gr 31 == 4)
    && inLane (.blc 0 (.l l0) 0 3) (lane 0 0 0) (fun c => c.pc == 4 && c.rstack == []) = true := by decide +kernel
theorem wit_jump : inCore (.jr 0 c0 1) (core 64 0 0) (fun c => c.pc == 64) && inCore (.jlr 0 c0 4 1) (core 64 0 0) (fun c => c.pc == 64 && c.gr 4 == 4)
    && inLane (.ret 0 l0) ((lane 0 0 0).modCpu (.l l0) fun c => { c with rstack := [8, 4] }) (fun c => c.pc == 8 && c.rstack == [4]) = true := by decide +kernel
theorem wit_jump_traps : inCore (.jr 0 c0 1) (core 66 0 0) (trapped 2 1 66) && inCore (.jlr 0 c0 4 1) (core 66 0 0) (trapped 2 1 66)
    && inLane (.ret 0 l0) (lane 0 0 0) (trapped 1 4 0xAC000000)
    && inLane (.blc 0 (.l l0) 14 3) ((lane 0 0 0).modCpu (.l l0) fun c => { c with rstack := List.replicate 8 4 }) (trapped 1 3 0xA7800003) = true := by decide +kernel

/-! Ports, loops, passes (R223, R250–R252, R266–R270). -/

theorem wit_ports : (sampPort 0x0801 && setpPort 4) && inLane (.samp 0 l0 4 0x0801) ((lane 0 0 0).setLn 0 0 { latched := [(0x0801, (0x80000000, false))] })
      (fun c => c.gr 4 == 0xFFFFFFFF80000000 && c.cycles == 2)
    && run (.setp 0 l0 1 4) (lane 0x123456789 0 0) (fun s => (s.ln 0 0).staged == [(4, (0x23456789, false))]) = true := by decide +kernel
theorem wit_port_table : ([0, 31, 0x100, 0x107, 0x200, 0x20F, 0xA00, 0xBFF, 0xE00, 0xE3F].all (fun k => setpPort k && sampPort k)
    && [0x40, 0x5F, 0x240, 0x247, 0x400, 0x407, 0x480, 0x487, 0x500, 0x51F, 0x600, 0x617, 0x800, 0x81F, 0xC00, 0xC3F].all (fun k => sampPort k && !setpPort k)
    && [0x20, 0x3F, 0x60, 0x108, 0x210, 0x248, 0x408, 0x488, 0x520, 0x618, 0x820, 0xC40, 0xE40].all (fun k => !sampPort k && !setpPort k)) = true := by decide +kernel
theorem wit_reserved_ports : (!sampPort 0xFFFF && !setpPort 0xFFFF) && inLane (.samp 0 l0 4 0xFFFF) (lane 0 0 0) (trapped 3 2 0xFFFF)
    && inLane (.setp 0 l0 4 0xFFFF) (lane 0 0 0) (trapped 3 2 0xFFFF) = true := by decide +kernel

/-- Lane 0 in a pass as the owner of loop 7, which is enabled and in automatic, with gains and limits. -/
def loop : State :=
  sets (with' (lane 0x00001000 0 0) [(R.LPD_SP 0 7, 100), (R.LPD_X 0 7, 60), (R.LPD_KP 0 7 0, 0x1000000), (R.LPD_UMAX 0 7 0, 1000), (R.LPD_IMAX 0 7 0, 1000), (R.LPD_M 0 7, 30),
    (R.LPD_U 0 7, 5), (R.LPD_I 0 7, 6), (R.LPD_STAT 0 7, 0)]) [(F.LPD_CTL_EN 0 7, 1), (F.LPD_CTL_MODE 0 7, 1)]

theorem wit_loop_owned : loop.loopOwned 0 0 7 = true ∧ (lane 0 0 0).loopOwned 0 0 7 = false ∧ loop.poison = [] := by decide +kernel
theorem wit_loop_registers : run (.lset 0 l0 7 1) loop (fun s => s.word (R.LPD_SP 0 7) == 0x1000) && run (.lmeas 0 l0 7 1) loop (fun s => s.word (R.LPD_X 0 7) == 0x1000)
    && run (.lman 0 l0 7 1) loop (fun s => s.word (R.LPD_M 0 7) == 0x1000 && !s.flag (F.LPD_CTL_MODE 0 7)) && run (.lbank 0 l0 7 1) loop (fun s => !s.flag (loopBit 0 7 3))
    && inLane (.lout 0 l0 7 4) loop (fun c => c.gr 4 == 5) && inLane (.lint 0 l0 7 4) loop (fun c => c.gr 4 == 6) && inLane (.lstat 0 l0 7 4) loop (fun c => c.pc == 4) = true := by decide +kernel
theorem wit_loop_ownership : run (.lset 0 l0 7 1) (lane 0 0 0) (fun s => trapped 3 0 7 (s.cpu (.l l0)) && s.flag (F.LPH_STAT_OWNERR 0) && s.get (F.LPH_STAT_LAST 0) == 7)
    && inLane (.leval 0 l0 7 1) (lane 0 0 0) (trapped 3 0 7) && inLane (.lauto 0 l0 7) (lane 0 0 0) (trapped 3 0 7) = true := by decide +kernel
theorem wit_leval : run (.leval 0 l0 7 4) loop (fun s => s.sword (R.LPD_PLAST 0 7) == 40 && s.sword (R.LPD_U 0 7) == 46 && (s.cpu (.l l0)).gr 4 == 46
    && (s.cpu (.l l0)).cycles == 16) = true := by decide +kernel
theorem wit_lauto : run (.lauto 0 l0 7) (loop.put (F.LPD_CTL_MODE 0 7) 0) (fun s => s.flag (F.LPD_CTL_MODE 0 7) && s.sword (R.LPD_U 0 7) == 30 && s.sword (R.LPD_I 0 7) == 0)
    && inLane (.lauto 0 l0 7) loop (fun c => c.pc == 4 && c.cycles == 4) = true := by decide +kernel
theorem wit_pass_end : run (.bwt 0 l0) (lane 0 0 0) (fun s => s.lnst 0 0 == lnWaiting && s.word (R.LAN_PASS 0 0) == 1 && s.word (R.LAN_LASTC 0 0) == 1 && !s.executes (.l l0))
    = true := by decide +kernel

/-! The Q group (R221, R222). -/

theorem wit_q : inLane (.qadd 0 l0 4 1 2) (lane 0x7FFFFFFF 1 0) (fun c => c.gr 4 == 0x7FFFFFFF && c.st == 0b10000) && inLane (.qsub 0 l0 4 1 2) (lane 1 3 0) (fun c => c.gr 4 == 0xFFFFFFFFFFFFFFFE)
    && inLane (.qmul 0 l0 4 1 2 24) (lane 0x01800000 0x02000000 0) (fun c => c.gr 4 == 0x03000000 && c.cycles == 2) && inLane (.qneg 0 l0 4 1) (lane 0x80000000 0 0) (fun c => c.gr 4 == 0x7FFFFFFF)
    && inLane (.qabs 0 l0 4 1) (lane 0xFFFFFFFB 0 0) (fun c => c.gr 4 == 5) && inLane (.qshl 0 l0 4 1 4) (lane 3 0 0) (fun c => c.gr 4 == 48)
    && inLane (.qshr 0 l0 4 1 1) (lane 3 0 0) (fun c => c.gr 4 == 2) && inLane (.qclip 0 l0 4 1 2) (lane 50 0x0000000A00000001 0) (fun c => c.gr 4 == 10) = true := by decide +kernel
theorem wit_acc : run (.macz 0 l0 3 1 2) (lane 0xFFFFFFFE 5 0) (fun s => ((s.cpu (.l l0)).ac 3) == -10) && run (.mac 0 l0 3 1 2) (lane 2 5 0) (fun s => ((s.cpu (.l l0)).ac 3) == 10)
    && run (.msu 0 l0 3 1 2) (lane 2 5 0) (fun s => ((s.cpu (.l l0)).ac 3) == -10) && run (.accset 0 l0 3 1 8) (lane 2 0 0) (fun s => ((s.cpu (.l l0)).ac 3) == 512)
    && run (.accput 0 l0 3 1 true) (lane 0x1FF 0 0) (fun s => ((s.cpu (.l l0)).ac 3) == 0xFF0000000000000000) = true := by decide +kernel
theorem wit_acc_reads : inLane (.accget 0 l0 4 3 false) ((lane 0 0 0).modCpu (.l l0) fun c => { c with acc := c.acc.set 3 7 }) (fun c => c.gr 4 == 7)
    && inLane (.accrd 0 l0 4 3 1) ((lane 0 0 0).modCpu (.l l0) fun c => { c with acc := c.acc.set 3 7 }) (fun c => c.gr 4 == 4) = true := by decide +kernel

/-! Loads, stores, atomics (R208, R216–R218, R227–R229). -/

theorem wit_lane_loads : inLane (.ldb 0 (.l l0) 4 1 0) (filled (lane 0xFF00 0 0) (dataTcm 0 0 + 0xFF00)) (fun c => c.gr 4 == 0xFFFFFFFFFFFFFFF1)
    && inLane (.ldbu 0 (.l l0) 4 1 1) (filled (lane 0 0 0) (dataTcm 0 0)) (fun c => c.gr 4 == 0xF2) && inLane (.ldh 0 (.l l0) 4 1 2) (filled (lane 0 0 0) (dataTcm 0 0)) (fun c => c.gr 4 == 0xFFFFFFFFFFFFF4F3)
    && inLane (.ldhu 0 (.l l0) 4 1 2) (filled (lane 0 0 0) (dataTcm 0 0)) (fun c => c.gr 4 == 0xF4F3) && inLane (.ldw 0 (.l l0) 4 1 0) (filled (lane 0 0 0) (dataTcm 0 0)) (fun c => c.gr 4 == 0xFFFFFFFFF4F3F2F1)
    && inLane (.ldwu 0 (.l l0) 4 1 4) (filled (lane 0 0 0) (dataTcm 0 0)) (fun c => c.gr 4 == 0xF8F7F6F5 && c.cycles == 2)
    && inLane (.ldd 0 (.l l0) 4 1 0) (filled (lane 0 0 0) (dataTcm 0 0)) (fun c => c.gr 4 == 0xF8F7F6F5F4F3F2F1) = true := by decide +kernel
theorem wit_lane_stores : run (.stb 0 (.l l0) 2 1 0) (lane 0xFFFF 0x1234 0) (fun s => s.byte (dataTcm 0 0 + 0xFFFF) == 0x34) && run (.sth 0 (.l l0) 2 1 2) (lane 0 0x1234 0) (fun s => s.readN (dataTcm 0 0 + 2) 2 == 0x1234)
    && run (.stw 0 (.l l0) 2 1 0) ((lane 0 0x12345678 0).setCe 0 { mig := some (0, 3) }) (fun s => s.readN (dataTcm 0 0) 4 == 0x12345678 && s.readN (dataTcm 0 3) 4 == 0x12345678)
    && run (.std 0 (.l l0) 2 1 0) (lane 0 0x123456789 0) (fun s => s.readN (dataTcm 0 0) 8 == 0x123456789) = true := by decide +kernel
theorem wit_core_loads : inCore (.ldb 0 (.a c0) 4 1 0) (filled (core 0 0 0) 0) (fun c => c.gr 4 == 0xFFFFFFFFFFFFFFF1) && inCore (.ldbu 0 (.a c0) 4 1 1) (filled (core 0 0 0) 0) (fun c => c.gr 4 == 0xF2)
    && inCore (.ldh 0 (.a c0) 4 1 0) (filled (core 0 0 0) 0) (fun c => c.gr 4 == 0xFFFFFFFFFFFFF2F1) && inCore (.ldhu 0 (.a c0) 4 1 0) (filled (core 0 0 0) 0) (fun c => c.gr 4 == 0xF2F1)
    && inCore (.ldw 0 (.a c0) 4 1 0) (filled (core 0 0 0) 0) (fun c => c.gr 4 == 0xFFFFFFFFF4F3F2F1) && inCore (.ldwu 0 (.a c0) 4 1 0) (filled (core 0 0 0) 0) (fun c => c.gr 4 == 0xF4F3F2F1)
    && inCore (.ldd 0 (.a c0) 4 1 0) (filled (core 0x301FFFFF8 0 0) 0x301FFFFF8) (fun c => c.gr 4 == 0xF8F7F6F5F4F3F2F1) && inCore (.fldw 0 c0 4 1 0) (filled (core 0 0 0) 0) (fun c => c.fr 4 == 0xFFFFFFFFF4F3F2F1)
    && inCore (.fldd 0 c0 4 1 0) (filled (core 0 0 0) 0) (fun c => c.fr 4 == 0xF8F7F6F5F4F3F2F1) = true := by decide +kernel
theorem wit_core_stores : run (.stb 0 (.a c0) 2 1 0) (core 0 0x1234 0) (fun s => s.byte 0 == 0x34) && run (.sth 0 (.a c0) 2 1 0) (core 0 0x1234 0) (fun s => s.readN 0 2 == 0x1234)
    && run (.stw 0 (.a c0) 2 1 0) ((core 0x2FFFFFFFC 7 0).modACore 1 fun c => { c with resv := some (0x2FFFFFFFC / 64) }) (fun s => s.readN 0x2FFFFFFFC 4 == 7 && (s.aCores.getD 1 {}).resv == none)
    && run (.std 0 (.a c0) 2 1 0) (core 8 0x123456789 0) (fun s => s.readN 8 8 == 0x123456789) && run (.fstw 0 c0 2 1 0) (core 8 0x123456789 0) (fun s => s.readN 8 8 == 0x23456789)
    && run (.fstd 0 c0 2 1 0) (core 8 0x123456789 0) (fun s => s.readN 8 8 == 0x123456789) = true := by decide +kernel
theorem wit_misaligned : inCore (.ldd 0 (.a c0) 4 1 0) (core 4 0 0) (trapped 2 0 4) && inCore (.std 0 (.a c0) 2 1 1) (core 0 0 0) (trapped 2 0 1) && inLane (.ldh 0 (.l l0) 4 1 1) (lane 0 0 0) (trapped 2 0 1)
    && inLane (.stw 0 (.l l0) 4 1 2) (lane 0 0 0) (trapped 2 0 2) = true := by decide +kernel
theorem wit_posted : inCore (.stw 0 (.a c0) 2 1 0) (core 0x1000000000000 7 0) (fun c => c.pc == 4 && c.busErr == [(1, 0x1000000000000)]) = true := by decide +kernel
theorem wit_atomics : run (.lr 0 c0 4 1 true) (filled (core 0 0 0) 0) (fun s => (s.cpu (.a c0)).gr 4 == 0xFFFFFFFFF4F3F2F1 && (s.cpu (.a c0)).resv == some 0)
    && run (.afadd 0 c0 4 1 2 false) (core 8 5 0) (fun s => s.readN 8 8 == 5 && (s.cpu (.a c0)).gr 4 == 0) && run (.aswap 0 c0 4 1 2 true) (filled (core 0x2FFFFFFF8 5 0) 0x2FFFFFFF8)
      (fun s => s.readN 0x2FFFFFFF8 4 == 5 && (s.cpu (.a c0)).gr 4 == 0xFFFFFFFFF4F3F2F1) = true := by decide +kernel
theorem wit_store_conditional : run (.sc 0 c0 4 1 2 true) (core 0 5 0) (fun s => s.readN 0 4 == 0 && (s.cpu (.a c0)).gr 4 == 1)
    && run (.sc 0 c0 4 1 2 true) ((core 0 5 0).modCpu (.a c0) fun c => { c with resv := some 0 }) (fun s => s.readN 0 4 == 5 && (s.cpu (.a c0)).gr 4 == 0 && (s.cpu (.a c0)).resv == none)
    && inCore (.sc 0 c0 4 1 2 true) (core 0x300000000 5 0) (trapped 3 3 0x300000000) = true := by decide +kernel

/-! Fences, waiting, floating point (R225, R226, R229, R233). -/

theorem wit_fences : inCore (.fence 0 c0) (core 0 0 0) (fun c => c.pc == 4) && inCore (.facq 0 c0) (core 0 0 0) (fun c => c.pc == 4) && inCore (.frel 0 c0) (core 0 0 0) (fun c => c.pc == 4)
    && inCore (.isync 0 c0) (core 0 0 0) (fun c => c.pc == 4) && inLane (.nop 0 (.l l0)) (lane 0 0 0) (fun c => c.pc == 4) && inCore (.wfi 0 c0) (core 0 0 0) (fun c => c.pc == 4 && c.waiting)
    = true := by decide +kernel
theorem wit_wake : inCore (.wfiWake 0 c0) ((core 0 0 0).modCpu (.a c0) fun c => { c with waiting := true, ipend := 4, imask := 4 }) (fun c => !c.waiting)
    && inCore (.cmptimeMatch 0 c0) ((core 0 0 0).modCpu (.a c0) fun c => { c with cmptime := 5 }) (fun c => c.ipend == 16 && !c.cmpArmed) && (up.atTime 0).halfPowered c0.half = true := by decide +kernel
theorem wit_float : inCore (.fadd 0 c0 4 1 2 true) (core 0x3FF0000000000000 0x4000000000000000 0) (fun c => c.fr 4 == 0x4008000000000000 && c.fcsr == 0)
    && inCore (.fdiv 0 c0 4 1 2 true) (core 0x3FF0000000000000 0 0) (fun c => c.fr 4 == 0x7FF0000000000000 && c.fcsr == 0x20)
    && inCore (.fsqrt 0 c0 4 1 true) (core 0xBFF0000000000000 0 0) (fun c => c.fr 4 == 0x7FF8000000000000) && inCore (.fmul 0 c0 4 1 2 false) (core 0xFFFFFFFF40000000 0xFFFFFFFF40400000 0) (fun c => c.fr 4 == 0xFFFFFFFF40C00000)
    = true := by decide +kernel
theorem wit_float_more : inCore (.fsub 0 c0 4 1 2 true) (core 0x3FF0000000000000 0x4000000000000000 0) (fun c => c.fr 4 == 0xBFF0000000000000)
    && inCore (.fma 0 c0 3 1 2 true) (core 0x4000000000000000 0x4000000000000000 0x3FF0000000000000) (fun c => c.fr 3 == 0x4014000000000000)
    && inCore (.fmin 0 c0 4 1 2 true) (core 0x3FF0000000000000 0xBFF0000000000000 0) (fun c => c.fr 4 == 0xBFF0000000000000) && inCore (.fmax 0 c0 4 1 2 true) (core 0x3FF0000000000000 0x7FF8000000000000 0)
      (fun c => c.fr 4 == 0x3FF0000000000000) && inCore (.fcvtp 0 c0 4 1 true) (core 0xFFFFFFFF3F800000 0 0) (fun c => c.fr 4 == 0x3FF0000000000000)
    && inCore (.fcvtf 0 c0 4 1 true) (core 0xFFFFFFFFFFFFFFFF 0 0) (fun c => c.fr 4 == 0xBFF0000000000000) = true := by decide +kernel
theorem wit_float_moves : inCore (.fmvgf 0 c0 4 1 false) (core 5 0 0) (fun c => c.fr 4 == 0xFFFFFFFF00000005) && inCore (.fmvfg 0 c0 4 1 false) (core 0xFFFFFFFF80000000 0 0) (fun c => c.gr 4 == 0xFFFFFFFF80000000)
    && inCore (.fabs 0 c0 4 1 true) (core 0xBFF0000000000000 0 0) (fun c => c.fr 4 == 0x3FF0000000000000) && inCore (.fneg 0 c0 4 1 true) (core 0x7FF0000000000001 0 0) (fun c => c.fr 4 == 0x7FF8000000000000)
    && inCore (.fcmp 0 c0 1 2 true) (core 0x3FF0000000000000 0x4000000000000000 0) (fun c => c.st == 0b01000) && inCore (.fcvti 0 c0 4 1 true) (core 0xC008000000000000 0 0) (fun c => c.gr 4 == 0xFFFFFFFFFFFFFFFD)
    = true := by decide +kernel
/-- The canonical quiet NaN, +∞ and 1 of the double format. -/
def qnan : DWord := 0x7FF8000000000000
def inf : DWord := 0x7FF0000000000000
def one : DWord := 0x3FF0000000000000

theorem wit_float_corners : inCore (.fdiv 0 c0 4 1 2 true) (core one 0x4000000000000000 0) (fun c => c.fr 4 == 0x3FE0000000000000 && c.fcsr == 0)
    && inCore (.fsqrt 0 c0 4 1 true) (core 0x4010000000000000 0 0) (fun c => c.fr 4 == 0x4000000000000000 && c.fcsr == 0)
    && inCore (.fmin 0 c0 4 1 2 true) (core qnan one 0) (fun c => c.fr 4 == one) && inCore (.fmin 0 c0 4 1 2 true) (core one qnan 0) (fun c => c.fr 4 == one)
    && inCore (.fmax 0 c0 4 1 2 true) (core qnan one 0) (fun c => c.fr 4 == one) && inCore (.fadd 0 c0 4 1 2 true) (core one 0xBFF0000000000000 0) (fun c => c.fr 4 == 0 && c.fcsr == 0)
    && inCore (.fabs 0 c0 4 1 true) (core 0xFFF8000000000001 0 0) (fun c => c.fr 4 == qnan) && inCore (.fneg 0 c0 4 1 true) (core one 0 0) (fun c => c.fr 4 == 0xBFF0000000000000) = true := by decide +kernel
theorem wit_float_compares : inCore (.fcmp 0 c0 1 2 true) (core inf one 0) (fun c => c.st == 0b00010) && inCore (.fcmp 0 c0 1 2 true) (core 0xFFF0000000000000 one 0) (fun c => c.st == 0b01000)
    && inCore (.fcmp 0 c0 1 2 true) (core one one 0) (fun c => c.st == 0b00100) && inCore (.fcmp 0 c0 1 2 true) (core 0x7FF0000000000001 one 0) (fun c => c.st == 0b00001 && c.fcsr == 0x10)
    && inCore (.fcvti 0 c0 4 1 true) (core qnan 0 0) (fun c => c.gr 4 == 0 && c.fcsr == 0x10) && inCore (.fcvti 0 c0 4 1 true) (core inf 0 0) (fun c => c.gr 4 == 0x7FFFFFFFFFFFFFFF && c.fcsr == 0x10)
    && inCore (.fcvti 0 c0 4 1 true) (core 0xFFF0000000000000 0 0) (fun c => c.gr 4 == 0x8000000000000000 && c.fcsr == 0x10)
    && inCore (.fcvti 0 c0 4 1 true) (core 0x43E0000000000000 0 0) (fun c => c.gr 4 == 0x7FFFFFFFFFFFFFFF && c.fcsr == 0x10)
    && inCore (.fcvti 0 c0 4 1 true) (core 0x4000000000000000 0 0) (fun c => c.gr 4 == 2 && c.fcsr == 0) = true := by decide +kernel
theorem wit_nan : (((fmtOf true).unpack ((fmtOf true).add 0 (.inf false) (.inf true)).1).isNan && ((fmtOf true).add 0 (.inf false) (.inf true)).1 == (fmtOf true).nanBits) = true
    := by decide +kernel
theorem wit_round_even : (fmtOf false).unpack ((fmtOf false).round 0 false (2 ^ 24 + 1) 0).1 = .fin false 0x800000 1 ∧ (fmtOf false).unpack ((fmtOf false).round 0 false (2 ^ 24 + 3) 0).1 = .fin false 0x800002 1 := by decide +kernel
theorem wit_round_overflow : (let f := fmtOf false; let top := 2 ^ 25 - 1
    [f.unpack (f.round 0 true top 103).1, f.unpack (f.round 0 false (2 * top - 1) 102).1, f.unpack (f.round 1 true top 103).1, f.unpack (f.round 2 true top 103).1, f.unpack (f.round 3 true top 103).1]
      == [.inf true, .fin false 0xFFFFFF 104, .fin true 0xFFFFFF 104, .fin true 0xFFFFFF 104, .inf true]
    && (f.round 0 true top 103).2 == fOF + fNX && (f.round 1 true (2 ^ 24) 104).2 == fOF + fNX) = true := by decide +kernel
theorem wit_rounding : (fmtOf true).round 1 false 3 (-1) = ((fmtOf true).round 0 false 3 (-1)) ∧ (fmtOf false).unpack ((fmtOf false).round 2 false 1 0).1 = .fin false 0x800000 (-23) := by decide +kernel

/-! Control registers, exceptions, interrupts (R233–R243). -/

theorem wit_mfc : inLane (.mfc 0 (.l l0) 4 11) (lane 0 0 0) (fun c => c.gr 4 == 0x1102FFFF) && inCore (.mfc 0 (.a c0) 4 11) (core 0 0 0) (fun c => c.gr 4 == 0x1000FFFF)
    && inLane (.mfc 0 (.l l0) 4 17) ((lane 0 0 0).modCpu (.l l0) fun c => { c with rstack := [4] }) (fun c => c.gr 4 == 1) && inCore (.mfc 0 (.a c0) 4 16) (core 0 0 0) (fun c => c.gr 4 == 0xFFFFFFFFFFFFFFFF)
    && inCore (.mfc 0 (.a c0) 4 15) (core 0 0 0) (fun c => c.gr 4 == 0) && inLane (.mfc 0 (.l l0) 4 9) (lane 0 0 0) (fun c => c.cycles == 2) = true := by decide +kernel
theorem wit_mtc : inLane (.mtc 0 (.l l0) 0 1) (lane 0x12345 0 0) (fun c => c.vbase == 0x12000) && inCore (.mtc 0 (.a c0) 12 1) (core 0xFFFF 0 0) (fun c => c.fcsr == 0x1F3)
    && inCore (.mtc 0 (.a c0) 13 1) ((core 2 0 0).modCpu (.a c0) fun c => { c with ipend := 6 }) (fun c => c.ipend == 4) && inCore (.mtc 0 (.a c0) 16 1) (core 9 0 0) (fun c => c.cmptime == 9 && c.cmpArmed)
    && run (.mtc 0 (.a c0) 15 1) (core 2 0 0) (fun s => (s.aCores.getD 1 {}).ipend == 1 && (s.aCores.getD 2 {}).ipend == 0) = true := by decide +kernel
theorem wit_control_traps : inCore (.mfc 0 (.a c0) 4 0x12) (core 0 0 0) (trapped 1 2 0x14800012) && inLane (.mfc 0 (.l l0) 4 12) (lane 0 0 0) (trapped 1 1 0x1480000C)
    && inCore (.mtc 0 (.a c0) 17 4) (core 0 0 0) (trapped 1 1 0x18040011) = true := by decide +kernel
theorem wit_eret : inCore (.eret 0 (.a c0)) ((core 0 0 0).modCpu (.a c0) fun c => { c with ien := 6, epc := 32, estat := 5 }) (fun c => c.pc == 32 && c.st == 5 && c.ien == 5 && c.cycles == 4)
    && inCore (.eret 0 (.a c0)) (core 0 0 0) (trapped 1 5 0xFC000002) = true := by decide +kernel
theorem wit_breakpoint : inCore (.brk 0 (.a c0) 9) (core 0 0 0) (trapped 5 0 9) && inLane (.illegalInstruction 0 (.l l0) 0) (lane 0 0 0) (trapped 1 0 0)
    && inCore (.illegalInstruction 0 (.a c0) 0xC0200801) (core 0 0 0) (trapped 1 1 0xC0200801) = true := by decide +kernel
theorem wit_double_fault : inCore (.brk 0 (.a c0) 9) ((core 0 0 0).modCpu (.a c0) fun c => { c with ien := 2 }) (fun c => c.stopped && c.pc == 0 && c.ecause == 0) = true := by decide +kernel
theorem wit_stops : inCore (.eret 0 (.a c0)) ((core 0 0 0).modCpu (.a c0) fun c => { c with ien := 2, epc := 2 }) (fun c => c.stopped && c.pc == 0 && c.epc == 2 && c.ien == 2)
    && run (.brk 0 (.l l0) 9) ((lane 0 0 0).modCpu (.l l0) fun c => { c with ien := 2 }) (fun s => s.lnst 0 0 == lnHalted && !s.executes (.l l0) && (s.cpu (.l l0)).ecause == 0)
    && inCore (.illegalInstruction 0 (.a c0) 0) ((core 0 0 0).modCpu (.a c0) fun c => { c with ien := 2 }) (fun c => c.stopped && c.pc == 0) = true := by decide +kernel
theorem wit_bus_error_in_handler : (let s := (core 0 0 0).modCpu (.a c0) fun c => { c with ien := 2, busErr := [(1, 64)] }
    (s.atTime 0).coreRuns c0 && (s.cpu (.a c0)).exl && (s.cpu (.a c0)).busErr == [(1, 64)]) = true := by decide +kernel
theorem wit_overrun_waits : run (.eret 0 (.l l0)) (((lane 0 0 0).modCpu (.l l0) fun c => { c with ien := 6, epc := 32, estat := 5 }).setLn 0 0 { ovPend := true })
    (fun s => (s.cpu (.l l0)).epc == 32 && (s.cpu (.l l0)).ecause == 6 && (s.cpu (.l l0)).estat == 5 && (s.cpu (.l l0)).exl && (s.cpu (.l l0)).pc == 0x180 && !(s.ln 0 0).ovPend
      && s.flag (F.LAN_STAT_EXC 0 0)) = true := by decide +kernel
theorem wit_no_interrupt : inCore (.externalInterrupt 0 c0) (core 0 0 0) (fun c => c == (core 0 0 0).cpu (.a c0)) && gives (.impreciseBusError 0 c0) (core 0 0 0) (core 0 0 0)
    && gives (.illegalInstruction 0 (.a c0) 0xFC000002) (core 0 0 0) (core 0 0 0) && gives (.cmptimeMatch 0 c0) ((core 0 0 0).modCpu (.a c0) fun c => { c with cmpArmed := false })
      ((core 0 0 0).modCpu (.a c0) fun c => { c with cmpArmed := false }) = true := by decide +kernel
theorem wit_interrupts : ((core 0 0 0).atTime 0).coreRuns c0
    && inCore (.externalInterrupt 0 c0) ((core 0 0 0).modCpu (.a c0) fun c => { c with ien := 1, ipend := 4, imask := 4, waiting := true }) (fun c => trapped 8 0 0 c && !c.waiting)
    && inCore (.impreciseBusError 0 c0) ((core 0 0 0).modCpu (.a c0) fun c => { c with busErr := [(1, 64)] }) (fun c => c.ecause == 0x113 && c.eaddr == 64 && c.pc == 0xC0 && c.busErr == []) = true := by decide +kernel
theorem wit_legal : (lane 1 2 3).cpusLegal = true ∧ State.reset.cpusLegal = true := by decide +kernel

/-! The fabric, queues and clear commands (R10–R12, R26, R35–R46, R593–R595). -/

/-- The active half is powered, so memory answers. -/
def dram : Nat := 0x40

theorem wit_accesses : [
    ok up R.PPS_CFG && up.isOwner own && !up.isOwner udp && midKind own == 0 && ok up dram,
    gives (.registerWrite 0 own 2 7) up { up with reply := some (stBadAddr, []) } && gives (.captureRead 0 own 2) up { up with reply := some (stBadAddr, []) },
    acked (.registerWrite 0 own dram 7) up (up.writeN dram 4 7) dram,
    acked (.registerWrite 0 own 0x2FFFFFFFC 7) up (up.writeN 0x2FFFFFFFC 4 7) 0x2FFFFFFFC && ok up 0x2FFFFFFFC,
    gives (.captureRead 0 udp dram) (filled up dram) { (filled up dram) with reply := some (stOk, [0xF4F3F2F1]) },
    run (.captureRead 0 udp R.HB_TIME_LO) (after' up (2 ^ 33)) (fun s => s.reply == some (stOk, [1000000000]) && assoc (udp, R.HB_TIME_HI) s.held == some 2),
    gives (.captureRead 0 udp R.HB_TIME_HI) { up with held := [((udp, R.HB_TIME_HI), 9)] } { up with held := [((udp, R.HB_TIME_HI), 9)], reply := some (stOk, [9]) }
    ].all id = true := by decide +kernel

theorem wit_refused_writes : [
    (State.reset.accessError R.PPS_CFG).isSome && run (.registerWrite 0 own R.PPS_CFG 1) State.reset (fun s => s.word R.PPS_CFG == State.reset.word R.PPS_CFG),
    (accessBlock R.PPS_CFG).isSome && (State.reset.accessError R.PPS_CFG).any fun e => gives (.registerWrite 0 own R.PPS_CFG 1) State.reset { State.reset with reply := some (e, []) },
    (accessBlock 0x4FFFFFFF0).isNone && (up.accessError 0x4FFFFFFF0).isSome,
    gives (.registerWrite 0 udp R.PPS_CFG 1) up { up with reply := some (stNotOwner, []) },
    acked (.registerWrite 0 own R.HB_FUSP 19) up (up.raise F.HB_STAT_CFGERR) R.HB_FUSP && acked (.registerWrite 0 own R.HB_FUSP 2001) up (up.raise F.HB_STAT_CFGERR) R.HB_FUSP,
    acked (.registerWrite 0 own R.HB_FUSP 20) up (up.put F.HB_FUSP_PER 20) R.HB_FUSP && acked (.registerWrite 0 own R.HB_FUSP 2000) up (up.put F.HB_FUSP_PER 2000) R.HB_FUSP
    ].all id = true := by decide +kernel

/-- Queue 127 enabled, 4 entries of 32 bytes at 0x1000, `p` records made and `c` taken. -/
def queue (p c : Nat) : State :=
  sets up [(F.QUE_CFG_EN 127, 1), (F.QUE_CFG_LOG2N 127, 2), (⟨R.QUE_BASE_LO 127, 31, 0⟩, 0x1000), (F.QUE_PIDX_PIDX 127, p), (F.QUE_CIDX_CIDX 127, c)]

theorem wit_queues : [
    ok (queue 0 0) (R.QUE_PIDX 127) && ok (queue 0 0) (R.QUE_CIDX 127) && ok (queue 0 0) (R.QUE_STAT 127),
    acked (.quePidxWrite 0 udp 127 2) (queue 65533 65533) ((queue 65533 65533).raise (F.QUE_STAT_OVF 127)) (R.QUE_PIDX 127),
    run (.quePidxWrite 0 udp 127 1) (queue 65533 65533) (fun s => s.get (F.QUE_PIDX_PIDX 127) == 1 && s.flag (F.QUE_STAT_FULL 127) && !s.flag (F.QUE_STAT_EMPTY 127)),
    run (.quePidxWrite 0 udp 127 65533) (queue 65533 65533) (fun s => s.flag (F.QUE_STAT_EMPTY 127) && !s.flag (F.QUE_STAT_FULL 127)),
    acked (.queCidxWrite 0 udp 127 3) (queue 2 0) ((queue 2 0).raise (F.QUE_STAT_OVF 127)) (R.QUE_CIDX 127),
    run (.queCidxWrite 0 udp 127 0x30002) (queue 2 0) (fun s => s.get (F.QUE_CIDX_CIDX 127) == 2 && s.get (F.QUE_STAT_STALE 127) == 3),
    run (.queStatClr 0 udp 127 0x90000000) (sets (queue 2 0) [(F.QUE_STAT_OVF 127, 1), (F.QUE_STAT_STALE 127, 5), (F.QUE_STAT_DROP 127, 6)])
      (fun s => s.get (F.QUE_STAT_OVF 127) == 0 && s.get (F.QUE_STAT_STALE 127) == 0 && s.get (F.QUE_STAT_DROP 127) == 0),
    run (.queStatClr 0 udp 127 0) (sets (queue 2 0) [(F.QUE_STAT_OVF 127, 1), (F.QUE_STAT_STALE 127, 5), (F.QUE_STAT_DROP 127, 6)])
      (fun s => s.get (F.QUE_STAT_OVF 127) == 1 && s.get (F.QUE_STAT_STALE 127) == 5 && s.get (F.QUE_STAT_DROP 127) == 6)
    ].all id = true := by decide +kernel

theorem wit_records : [
    (queue 2 0).inDram 0x1040 32 && ((queue 2 0).quePush 127 5 [7, 8]).readWords 0x1048 2 == [7, 8] && ((queue 2 0).quePush 127 5 [7, 8]).get (F.QUE_PIDX_PIDX 127) == 3
      && ((((queue 2 0).quePush 127 5 [7, 8]).aCores.getD 0 {}).ipend.getLsbD 47),
    ((queue 4 0).quePush 127 5 [7]).mem == up.mem && ((queue 4 0).quePush 127 5 [7]).get (F.QUE_PIDX_PIDX 127) == 4 && ((queue 4 0).quePush 127 5 [7]).flag (F.QUE_STAT_OVF 127)
      && ((queue 4 0).quePush 127 5 [7]).get (F.QUE_STAT_DROP 127) == 1 && !(queue 4 0).blockHeld quePlace,
    (let s := (queue 2 0).withRst { up.rst with blocks := [{ place := quePlace, startAt := 1000000000 }] }; s.blockHeld quePlace && s.quePush 127 5 [7] == s)
    ].all id = true := by decide +kernel

/-- With bit 0 of the word written clear the command changes nothing; with it set the counter `f` is cleared. -/
def clearsOne (i : Word → Instr) (a : Nat) (f : Fld) : Bool :=
  let s := up.put f 1
  ok s a && acked (i 2) s s a && run (i 1) s (fun s' => s'.reply == some (stOk, []) && !s'.flag f)

theorem wit_clears_a : [
    clearsOne (.fabClr 0 udp) R.FAB_CLR F.FAB_PCNT_COUNT, clearsOne (.lmpClr 0 udp) R.LMP_CLR ⟨R.LMP_CRCCNT, 31, 0⟩, clearsOne (.ethClr 0 udp) R.ETH_CLR ⟨R.ETH_DROP, 31, 0⟩,
    clearsOne (.fngClr 0 udp) R.FNG_CLR ⟨R.FNG_CNT 31, 31, 0⟩, clearsOne (.plmClr 0 udp) R.PLM_CLR ⟨R.PLM_DEF 7, 31, 0⟩, clearsOne (.ldsClr 0 udp) R.LDS_CLR ⟨R.LDS_CNT 15, 31, 0⟩,
    clearsOne (.brmClr 0 udp) R.BRM_CLR ⟨R.BRM_DIVE 1, 31, 0⟩, clearsOne (.snpClr 0 udp) R.SNP_CLR (F.SNP_STAT_FOLDCNT 7), clearsOne (.mplClr 0 udp 1) (R.MPL_CLR 1) ⟨R.MPL_PCNT 1, 31, 0⟩,
    clearsOne (.csiClr 0 udp 3) (R.CSI_CLR 3) (F.CSI_FILL_PEAK 3), clearsOne (.vscCclr 0 udp 7) (R.VSC_CCLR 7) ⟨R.VSC_UCNT 7, 31, 0⟩, clearsOne (.hraClr 0 udp) R.HRA_CLR ⟨R.HRA_XCNT 7, 31, 0⟩
    ].all id = true := by decide +kernel

theorem wit_clears_b : [
    clearsOne (.gpaClr 0 udp) R.GPA_CLR ⟨R.GPA_LOMIT 3, 31, 0⟩, clearsOne (.fqiClr 0 udp) R.FQI_CLR ⟨R.FQI_OCNT 23, 31, 0⟩, clearsOne (.fexClr 0 udp) R.FEX_CLR ⟨R.FEX_JDROP, 31, 0⟩,
    clearsOne (.prjClr 0 udp) R.PRJ_CLR ⟨R.PRJ_OUT, 31, 0⟩, clearsOne (.fusClr 0 udp) R.FUS_CLR ⟨R.FUS_SLOSS 31, 31, 0⟩, clearsOne (.ytClr 0 udp) R.YT_CLR ⟨R.YT_SKIP, 31, 0⟩,
    clearsOne (.gnbClr 0 udp) R.GNB_CLR ⟨R.GNB_DCNT, 31, 0⟩, clearsOne (.imuClr 0 udp) R.IMU_CLR ⟨R.IMU_OCNT, 31, 0⟩, clearsOne (.canClr 0 udp 3) (R.CAN_CLR 3) ⟨R.CAN_CNT 3, 31, 0⟩,
    clearsOne (.msgClr 0 udp) R.MSG_CLR (F.MSG_SCNT_ABORT 3), clearsOne (.fltClr 0 udp) R.FLT_CLR ⟨R.FLT_QDROP, 31, 0⟩, clearsOne (.ceClr 0 udp 0) (R.CE_CLR 0) ⟨R.LAN_MAXC 0 7, 31, 0⟩
    ].all id = true := by decide +kernel

/-! The timebase (R50–R78). -/

/-- Line 3 with its staged period, phase and width and its scheduled strike. -/
def lineAt (s : State) (n : Nat) (l : HbLine) : State := s.setLine n l

theorem wit_timebase_writes : [
    up.isOwner own && ok up R.HB_DISC && ok up R.HB_GSET_LO && ok up R.HB_GCOR && ok up R.HB_FADJ && ok up R.HB_FUSP && ok up R.HB_GNSP && ok up (R.HB_LCFG 31),
    run (.refselChange 0 own 0x31) (up.raise F.HB_STAT_OCXOOK) (fun s => s.get F.HB_DISC_TMO == 3 && s.flag F.HB_DISC_REFSEL && s.flag F.HB_STAT_REFUSED && s.flag F.HB_STAT_LOCK),
    run (.refselChange 0 own 0x31) (up.put F.HB_STAT_REFOK 0) (fun s => s.flag F.HB_DISC_REFSEL && !s.flag F.HB_STAT_REFUSED && !s.flag F.HB_STAT_LOCK),
    run (.hbGsetWrite 0 own 5) (with' up [(R.HB_GSET_HI, 0xFFFFFFFF)]) (fun s => s.hb.pend == .set (-0xFFFFFFFB) && s.get F.HB_STAT_STATE == 1 && s.flag F.HB_STAT_STEPPEND),
    run (.hbGcorWrite 0 own 0) up (fun s => s.hb.pend == .none) && run (.hbGcorWrite 0 own 999) up (fun s => s.hb.pend == .slew 999 1010000000),
    run (.hbGcorWrite 0 own (-1000)) up (fun s => s.hb.pend == .add (-1000) && s.get F.HB_STAT_STATE == 1 && s.hb.discAt == 1000000000),
    run (.hbFadjWrite 0 own 0x7FFFFFFF) (sets up [(F.HB_STAT_STATE, 2), (F.GNB_STAT_TVALID, 1), (F.HB_STAT_LOCK, 1)]) (fun s => s.getS F.HB_FADJ_ADJ == 200000000 && s.get F.HB_STAT_STATE == 1),
    run (.hbFadjWrite 0 own (-200000001)) up (fun s => s.getS F.HB_FADJ_ADJ == -200000000),
    acked (.hbFuspWrite 0 own 20) up (up.put F.HB_FUSP_PER 20) R.HB_FUSP && acked (.hbFuspWrite 0 own 2000) up (up.put F.HB_FUSP_PER 2000) R.HB_FUSP,
    acked (.hbGnspWrite 0 own 200) up (up.put F.HB_GNSP_PER 200) R.HB_GNSP && acked (.hbGnspWrite 0 own 20000) up (up.put F.HB_GNSP_PER 20000) R.HB_GNSP,
    acked (.hbLcfgCommit 0 own 8 2) up (up.raise F.HB_STAT_CFGERR) (R.HB_LCFG 8),
    acked (.hbLcfgCommit 0 own 7 1) (up.setLine 7 { perStaged := 999, widStaged := 4 }) ((up.setLine 7 { perStaged := 999, widStaged := 4 }).raise F.HB_STAT_CFGERR) (R.HB_LCFG 7),
    run (.hbLcfgCommit 0 own 7 1) (up.setLine 7 { perStaged := 1000, phsStaged := 999, widStaged := 4 }) (fun s => s.get (F.HB_LCFG_MODE 7) == 1 && s.linePer 7 == 1000 && s.linePhs 7 == 999
      && s.word (R.HB_LWID 7) == 4 && (s.line 7).next == some 1000002999),
    run (.hbLcfgCommit 0 own 31 0) up (fun s => s.get (F.HB_LCFG_MODE 31) == 0 && s.linePer 31 == 1000000 && (s.line 31).next == none)
    ].all id = true := by decide +kernel

theorem wit_timebase_events : [
    gives (.plltLock 0) (State.reset.raise F.HB_STAT_REFOK) ((({ State.reset with start := some 0 } : State).raise F.HB_STAT_REFOK).raise F.HB_STAT_LOCK) && gives (.plltLock 0) up up,
    run (.refinAbsentTimeout 10000000) State.reset (fun s => s.start == some 10000000 && s.flag F.HB_STAT_REFLOSS),
    run (.referenceLoss 0 false) (sets up [(F.HB_STAT_STATE, 1), (F.HB_STAT_REFOK, 1), (F.HB_STAT_LOCK, 1)]) (fun s => !s.flag F.HB_STAT_REFOK && s.flag F.HB_STAT_REFLOSS && !s.flag F.HB_STAT_LOCK
      && s.get F.HB_STAT_STATE == 2),
    run (.referenceLoss 0 true) (up.raise F.HB_STAT_OCXOOK) (fun s => !s.flag F.HB_STAT_OCXOOK && s.hb.ocxoSince == none && s.evr == up.evr && s.flt == up.flt),
    run (.referenceReturn 0 true) up (fun s => s.flag F.HB_STAT_OCXOOK && s.hb.ocxoSince == some 1000000000),
    gives (.referenceReturn 0 false) up ((up.raise F.HB_STAT_REFOK).raise F.HB_STAT_LOCK),
    gives (.ocxoReturn 10000000000) ((sets up [(F.HB_STAT_OCXOOK, 1), (F.HB_DISC_REFSEL, 1)]).withHb { up.hb with ocxoSince := some 0 })
      ((((after' (sets up [(F.HB_STAT_OCXOOK, 1), (F.HB_DISC_REFSEL, 1)]) 9000000000).withHb { up.hb with ocxoSince := some 0 }).raise F.HB_STAT_REFUSED).raise F.HB_STAT_LOCK),
    gives (.ocxoReturn 9999999999) ((sets up [(F.HB_STAT_OCXOOK, 1), (F.HB_DISC_REFSEL, 1)]).withHb { up.hb with ocxoSince := some 0 })
      ((after' (sets up [(F.HB_STAT_OCXOOK, 1), (F.HB_DISC_REFSEL, 1)]) 8999999999).withHb { up.hb with ocxoSince := some 0 }),
    run (.slewStep 0) (up.withHb { up.hb with pend := .slew (-2) 1000000000 }) (fun s => s.gofs == -1 && s.hb.pend == .slew (-1) 1010000000),
    run (.slewStep 0) (up.withHb { up.hb with pend := .slew 1 1000000000 }) (fun s => s.gofs == 1 && s.hb.pend == .none),
    gives (.disciplineTimeout 0) (sets up [(F.HB_STAT_STATE, 1), (F.HB_DISC_TMO, 1)]) (((sets up [(F.HB_STAT_STATE, 1), (F.HB_DISC_TMO, 1)]).put F.HB_STAT_STATE 2).raise F.HB_STAT_HOLD |>.withHb { up.hb with tuncSec := 1 })
      && gives (.disciplineTimeout 0) (sets up [(F.HB_STAT_STATE, 1), (F.HB_DISC_TMO, 2)]) (sets up [(F.HB_STAT_STATE, 1), (F.HB_DISC_TMO, 2)]),
    run (.tuncGrowth 0) (sets up [(F.HB_STAT_STATE, 2), (F.HB_HRATE_RATE, 5)]) (fun s => s.word R.HB_TUNC == min (up.word R.HB_TUNC + 5) 0xFFFFFFFF && s.hb.tuncSec == 1),
    run (.baseTick 0) up (fun s => s.hb.tick == 20000 && s.hb.fusp == up.get F.HB_FUSP_PER && s.regs == up.regs),
    gives (.ppsPulseEnd 0) ((up.raise F.PPS_STAT_ACTIVE).withHb { up.hb with ppsEnds := 1000000000 }) (((up.raise F.PPS_STAT_ACTIVE).withHb { up.hb with ppsEnds := 1000000000 }).put F.PPS_STAT_ACTIVE 0),
    run (.trgCaptureEdge 0 7 true) ((up.put (F.HB_LCFG_MODE 7) 2).setLine 7 { lastEdge := some 999999000 }) (fun s => s.word (R.HB_LSEQ 7) == 1 && (s.line 7).lastEdge == some 1000000000),
    gives (.trgCaptureEdge 0 7 true) ((up.put (F.HB_LCFG_MODE 7) 2).setLine 7 { lastEdge := some 999999001 })
      (((up.put (F.HB_LCFG_MODE 7) 2).setLine 7 { lastEdge := some 999999001 }).countSat (F.HB_LOMIT_OMIT 7))
    ].all id = true := by decide +kernel

theorem wit_boundaries : [
    run (.gnssSecondBoundary 0) (up.withHb { up.hb with pend := .set (-5) }) (fun s => s.gofs == -5 && s.hb.pend == .none && s.flag F.HB_STAT_STEP && s.hb.bound == some 1000000000),
    run (.gnssSecondBoundary 0) ((up.put64 R.HB_GOFS_LO R.HB_GOFS_HI 1000000000).withHb { up.hb with pend := .add 7 }) (fun s => s.gofs == 1000000007 && s.hb.pend == .none),
    run (.gnssSecondBoundary 0) (sets up [(F.PPS_CFG_EN, 1), (F.HB_STAT_STATE, 1), (F.PPS_CFG_WIDTH, 100), (F.HB_LEAP_LEAP, 18)]) (fun s => s.flag F.PPS_STAT_ACTIVE && s.word R.PPS_CNT == 1
      && s.hb.ppsEnds == 1100000000 && s.hb.leap == 18 && s.gofs == 0),
    gives (.gnssSecondBoundary 0) (up.withHb { up.hb with bound := some 1000000000, pend := .add 7 }) (up.withHb { up.hb with bound := some 1000000000, pend := .add 7 }),
    run (.strike 0 31) ((sets up [(F.HB_LCFG_MODE 31, 1), (⟨R.HB_LPER_LO 31, 31, 0⟩, 1000000)]).setLine 31 { next := some 1000000000, nextSeq := 9 }) (fun s => s.word (R.HB_LSEQ 31) == 9
      && (s.line 31).strikes.head? == some (9, 1000000000) && (s.line 31).next == some 1001000000),
    run (.strike 0 31) (((sets up [(F.HB_LCFG_MODE 31, 1), (F.HB_LCFG_ALIGN 31, 1), (⟨R.HB_LPER_LO 31, 31, 0⟩, 1000000)]).put64 R.HB_GOFS_LO R.HB_GOFS_HI 500).setLine 31
        { next := some 1000000500, nextSeq := 9, align := true }) (fun s => s.gnssOffset == 500 && (s.line 31).strikes.head? == some (9, 1000000000) && (s.line 31).align && (s.line 31).next == some 1001000000
      && (s.line 31).nextSeq == 1001 && (s.line 31).per == 1000000)
    ].all id = true := by decide +kernel

/-! Cameras and pipelines (R86–R116). -/

/-- Port 3 on, its slot 1 on channel 2: context 7, enabled on pipeline 1 with weight 4, lines of 8 pixels of 10 bits, two lines a frame. -/
def camera : State :=
  sets up [(F.CSI_CFG_EN 3, 1), (F.CSI_CFG_VEN1 3, 1), (F.CSI_CFG_VCS1 3, 2), (F.VSC_CCFG_EN 7, 1), (F.VSC_CCFG_PIPE 7, 1), (F.VSC_CCFG_WEIGHT 7, 4), (F.VSC_CGEO_WIDTH 7, 8),
    (F.VSC_CGEO_HEIGHT 7, 2), (F.VSC_BUF_NBUF 7, 4)]

/-- The same with frames in the context, bound to pipeline 1. -/
def shooting (l : List Frame) : State := camera.setCtx 7 { frames := l, pipe := 1, credit := 4 }

theorem wit_cameras : [
    camera.slotOf 3 2 == some 1 && camera.isOwner own && ok camera (R.CSI_CFG 3) && (shooting [{}]).lineBytes 7 == 10,
    gives (.highSpeedEntry 0 3 true) camera ((camera.raise (F.CSI_STAT_LINK 3)).putB (F.CSI_STAT_DESKEW 3) true),
    gives (.highSpeedExit 0 3) (camera.raise (F.CSI_STAT_LINK 3)) ((camera.raise (F.CSI_STAT_LINK 3)).put (F.CSI_STAT_LINK 3) 0),
    run (.frameStartPacket 0 3 2 9 0) camera (fun s => ((s.ctx 7).frames.map fun f => (f.isOpen, f.csifn, f.ctxfn, f.tfs)) == [(true, 9, 0, 1000000000)] && s.word (R.VSC_FCNT 7) == 1
      && s.flag (F.VSC_CSTAT_OPEN 7)),
    run (.frameEndPacket 0 3 2 0) ((shooting [{}]).raise (F.VSC_CSTAT_OPEN 7)) (fun s => (s.ctx 7).openFrame == none && !s.flag (F.VSC_CSTAT_OPEN 7)),
    run (.longPacket 0 3 2 0x2B 0 true (List.replicate 10 5) 0) (shooting [{}]) (fun s => (s.ctx 7).openFrame == some { waiting := [(false, List.replicate 10 5)] }),
    run (.frameStartPacket 0 3 2 0 2) camera (fun s => s.get (F.CSI_ECNT_HDR 3) == 1 && s.flag (F.CSI_STAT_HDR 3) && s.word (R.VSC_FCNT 7) == 0),
    run (.csiDisable 0 own 3 (BitVec.ofNat 32 ((camera.word (R.CSI_CFG 3)) - 1))) (shooting [{}]) (fun s => !s.flag (F.CSI_CFG_EN 3) && (s.ctx 7).openFrame == none && s.reply == some (stOk, []))
    ].all id = true := by decide +kernel

/-- A frame that is closed, with nothing left to process. -/
def shot : Frame := { isOpen := false }

theorem wit_pipelines : [
    run (.pipelineGrant 0 1) (shooting [shot]) (fun s => s.flag (F.MPL_STAT_BUSY 1) && s.get (F.MPL_STAT_CTX 1) == 7 && s.get (F.MPL_STAT_PTR 1) == 7 && (s.ctx 7).credit == 3),
    gives (.grantEnd 0 1) (sets camera [(F.MPL_STAT_BUSY 1, 1), (F.MPL_STAT_CTX 1, 7)]) ((sets camera [(F.MPL_STAT_BUSY 1, 1), (F.MPL_STAT_CTX 1, 7)]).put (F.MPL_STAT_BUSY 1) 0),
    run (.frameComplete 0 7 []) (shooting [shot]) (fun s => s.get (F.VSC_WR_WR 7) == 1 && (s.ctx 7).frames == []),
    ok camera (R.VSC_REL 7) && acked (.vscRelWrite 0 own 7 5) (camera.put (F.VSC_WR_WR 7) 9) ((camera.put (F.VSC_WR_WR 7) 9).put (F.VSC_REL_REL 7) 5) (R.VSC_REL 7),
    acked (.vscRelWrite 0 own 7 4) (camera.put (F.VSC_WR_WR 7) 9) (camera.put (F.VSC_WR_WR 7) 9) (R.VSC_REL 7),
    ok camera (R.VSC_CCFG 6) && run (.contextEnable 0 own 6 0x01000003) camera (fun s => s.flag (F.VSC_CCFG_EN 6) && s.ctx 6 == { credit := 1, pipe := 1 }),
    run (.contextDisable 0 own 7 (BitVec.ofNat 32 (camera.word (R.VSC_CCFG 7) - 1))) (sets (shooting [{}]) [(F.MPL_STAT_BUSY 1, 1), (F.MPL_STAT_CTX 1, 7)]) (fun s => !s.flag (F.VSC_CCFG_EN 7)
      && (s.ctx 7).frames == [] && !s.flag (F.MPL_STAT_BUSY 1)),
    run (.contextMigrate 0 own 7 (BitVec.ofNat 32 (camera.word (R.VSC_CCFG 7) - 2))) (shooting []) (fun s => s.get (F.VSC_CCFG_PIPE 7) == 0 && (s.ctx 7).pipe == 0 && !s.flag (F.VSC_CSTAT_MIGPEND 7)),
    run (.contextMigrate 0 own 7 (BitVec.ofNat 32 (camera.word (R.VSC_CCFG 7) - 2))) (shooting [{}]) (fun s => s.get (F.VSC_CCFG_PIPE 7) == 0 && (s.ctx 7).pipe == 1 && (s.ctx 7).migAfter == 1
      && s.flag (F.VSC_CSTAT_MIGPEND 7)),
    run (.contextMigrate 0 own 7 (BitVec.ofNat 32 (camera.word (R.VSC_CCFG 7) - 2))) (shooting [shot]) (fun s => s.get (F.VSC_CCFG_PIPE 7) == 0 && (s.ctx 7).pipe == 0 && !s.flag (F.VSC_CSTAT_MIGPEND 7))
    ].all id = true := by decide +kernel

/-- A frame of two lines of 8 red pixels at 512, whose tone curve is at its top. -/
def bright : Frame :=
  { isOpen := false, tseq := 9, tstrike := 2 ^ 32 + 7, taken := List.replicate 2 ([0x80, 0x80, 0x80, 0x80, 0, 0x80, 0x80, 0x80, 0x80, 0] : List Byte),
    pb := List.replicate 10 0 ++ [0, 0x40] ++ List.replicate 52 0 ++ List.replicate 130 0xFF ++ List.replicate 318 0 }

/-- The same in context 7, whose buffers lie in field DRAM. -/
def written : State :=
  with' (shooting [bright]) [(R.VSC_OUT_HI 7, 2), (R.VSC_TAP_HI 7, 2), (R.VSC_TAP_LO 7, 0x10000), (R.VSC_ST_HI 7, 2), (R.VSC_ST_LO 7, 0x20000)]

theorem wit_frame_images : [
    written.mplOn 1 && !written.armed true && !written.flag (F.VSC_NQ_EN 7) && written.inDram 0x200000000 16 && written.inDram 0x200020000 1152,
    run (.frameComplete 0 7 []) written (fun s => s.readBytes 0x200000000 16 == List.replicate 16 0xFF && s.byte 0x200000010 == 0 && s.get (F.VSC_WR_WR 7) == 1
      && s.readWords 0x200020000 18 == [15, 0, 0, 9, 7, 1, 0, 0, 0, 0, 2, 0, 0, 0, 0, 0, 16 * 0x8000, 0] && s.readN 0x200020088 4 == 4 && s.readN 0x200020148 4 == 4)
    ].all id = true := by decide +kernel

/-- A pipeline of 8 by 8 pixels: black level 16, gain 1, a flat shading table of gain 1/2, a tone curve that is the identity up to 1,024. -/
def pipe8 : Pipe :=
  { ctx := 7, width := 8, height := 8, bits := 10, recon := 0, tap := 0, mos := 0,
    pb := [16, 0] ++ List.replicate 9 0 ++ [0x40] ++ List.replicate 54 0 ++ [0, 4] ++ List.replicate 500 0,
    lsc := List.flatten (List.replicate 289 [0, 0x20]) }

/-- A plane of one level with one pixel out of it. -/
def spot (v : Nat) : Plane := plane 8 8 (fun y x => if y = 2 ∧ x = 2 then v else 100)

theorem wit_pixel_stages : [
    pipe8.blackLevel 0 20 == 4 && pipe8.blackLevel 0 15 == 0 && pipe8.defect 8 (spot 500) 2 2 == 100 && pipe8.defect 8 (spot 500) 3 3 == 100,
    pipe8.lens 0 7 7 3 == 2 && pipe8.lens 0 0 0 4 == 2 && pipe8.interpolate 8 (spot 9) 0 2 2 == 9,
    ({ pipe8 with mos := 0o1000000000000 } : Pipe).interpolate 8 (spot 9) 1 2 2 == 100 && (window 1 8 8 7 7).length == 4,
    pipe8.tone 512 == 512 && pipe8.tone 1023 == 1023 && pipe8.tone 1024 == 1024,
    (let o := pipe8.process [[1, 1, 1, 1, 0, 1, 1, 1, 1, 0]]; o.hist.getD 0 0 == 2 && o.hist.getD 48 0 == 2 && o.hist.sum == 8 && o.sums == [8 * 240, 0, 0, 0, 0] && o.tap == [])
    ].all id = true := by decide +kernel

/-! Inputs (R122–R156). -/

/-- Line 5 has made strike 9 at 1 s, with the period `per`. -/
def struck (s : State) (per : Nat) : State :=
  (sets s [(F.HB_LCFG_MODE 5, 1), (⟨R.HB_LPER_LO 5, 31, 0⟩, per)]).setLine 5 { strikes := [(9, 1000000000)] }

/-- Channel 7 of HRIN on line 5. -/
def sampled (per : Nat) : State := struck (sets up [(F.HRA_CFG_EN 7, 1), (F.HRA_CFG_TLINE 7, 5)]) per

/-- Channel 7 in its calibration since module time `a`, on the line of 1 ms that it has at reset. -/
def calibrating (a : Nat) : State := (up.withInp { up.inp with calQueue := [7] }).setHrin 7 { calFrom := some a }

theorem wit_high_rate : [
    gives (.hrinCalComplete 0 7 5000 0) (calibrating 844000001) (calibrating 844000001),
    run (.hrinSample 1000013721 7 9 { vin := 2500000000000 }) (sampled 3907) (fun s => s.word (R.HRA_DATA 7) % 2 ^ 24 == 8388607 && (s.reg (R.HRA_DATA 7)).getLsbD 26 && (s.hrin 7).lastSeq == some 9),
    run (.hrinSample 1000377000 7 9 { vin := -2499999701977 }) (sampled 125000) (fun s => s.word (R.HRA_DATA 7) % 2 ^ 24 == 0x800001 && !(s.reg (R.HRA_DATA 7)).getLsbD 26),
    run (.hrinSample 1000377000 7 9 { vin := 1250000000000, vsp := 5000000 }) ((sampled 125000).raise (F.HRA_CFG_RAT 7)) (fun s => s.word (R.HRA_DATA 7) % 2 ^ 24 == 4194304),
    gives (.calRotationStart 0 none) (up.put F.HRA_CAL_PER 2) (up.put F.HRA_CAL_PER 2),
    run (.calRotationStart 0 none) (sets up [(F.HRA_CAL_PER, 1), (F.HRA_CFG_EN 7, 1)]) (fun s => s.inp.rotAt == 1000000000 && s.inp.calQueue == [7] && s.flag F.HRA_STAT_CALACT),
    run (.hrinCalComplete 0 7 5000 (-1000)) (calibrating 844000000) (fun s => (s.hrin 7).corr == (5000, -1000) && (s.hrin 7).calAt == some 1000000000 && s.inp.calQueue == []),
    run (.hrinCalComplete 0 7 5001 0) (calibrating 844000000) (fun s => (s.hrin 7).corr == (0, 0) && s.flag F.HRA_STAT_CALFAIL && s.flag (F.HRA_CSTAT_CALFAIL 7)),
    run (.hrinTempCal 0 7) (sets up [(F.HRA_CAL_TEMP, 1), (F.HRA_CFG_EN 7, 1)]) (fun s => s.inp.calQueue == [7] && s.flag F.HRA_STAT_CALACT && s.get F.HRA_STAT_CALCH == 7)
    ].all id = true := by decide +kernel

/-- Channel 7 with its detector on in bin 1,000: threshold 256, hold 2, longest pulse 3, histogram from 2^0. -/
def listening (x : Hrin) : State :=
  ((sampled 3907).put (F.HRA_IMP_IEN 7) 1).setHrin 7 { x with bin := some 1000, thr := 256, hld := 3 * 2 ^ 16 + 2 }

/-- The input of one count of 2^23 for each unit. -/
def counts (n : Int) : Analog := { vin := n * 298024 }

/-- The next sample of `n` counts. -/
def impact (x : Hrin) (n : Int) (p : Hrin → Bool) : Bool := run (.hrinSample 1000013721 7 9 (counts n)) (listening x) (fun s => p (s.hrin 7))

/-- Queue 127, with 128-byte entries, takes the records of channel 7. -/
def recording : State :=
  (with' (sets (listening { count := 5, kcount := 4, esum := 9, flags := 9, recSeq := 2 ^ 32 - 10, recTime := 2 ^ 32 + 3, samples := List.replicate 15 (-1) })
    [(F.QUE_CFG_EN 127, 1), (F.QUE_CFG_ESIZE 127, 2), (F.HRA_Q_IQEN 7, 1), (F.HRA_Q_IQUEUE 7, 127), (F.HRA_Q_SQEN 7, 1), (F.HRA_Q_SQUEUE 7, 127)]) [(R.QUE_BASE_HI 127, 2)])

theorem wit_impact : [
    (listening {}).strikeOf 5 9 none == some 1000000000 && !(listening {}).flag (F.HRA_CFG_RAT 7),
    impact {} 255 (fun x => !x.pulse && x.count == 0 && x.base == 0 && x.bin == some 1000),
    impact {} 256 (fun x => x.pulse && x.energy == 1 && x.run == 1 && x.quiet == 0 && x.count == 0),
    impact { pulse := true, energy := 4, run := 1, quiet := 1 } (-512) (fun x => x.pulse && x.energy == 8 && x.run == 2 && x.quiet == 0),
    impact { pulse := true, energy := 4, run := 1, quiet := 1 } 0 (fun x => !x.pulse && x.count == 1 && x.kcount == 1 && x.esum == 4 && x.hist.getD 2 0 == 1 && x.flags == 16),
    impact { pulse := true, energy := 4, run := 2, count := 0xFFFF } 512 (fun x => !x.pulse && x.count == 0xFFFF && x.esum == 8 && x.hist.getD 3 0 == 1 && x.flags.testBit 3),
    run (.hrinSample 1000013721 7 9 (counts 0)) ((listening {}).setHrin 7 { bin := some 999, count := 5, kcount := 4, thr := 256 }) (fun s => (s.hrin 7).bin == some 1000
      && (s.hrin 7).lastBin == 0x40005 && (s.hrin 7).count == 0),
    (let s := recording.closeBin 7 1000;
     recording.inDram 0x200000000 128 && !recording.armed true && !recording.blockHeld (fieldBlock 7 0) && s.readN 0x200000000 4 == 0x0D200000
       && s.readWords 0x200000008 13 == [0x907, 0x40005, 1000000000, 0, 9, 0, 0, 0, 0, 0, 0, 0, 0] && s.get (F.QUE_PIDX_PIDX 127) == 1 && (s.hrin 7).count == 0),
    (let s := recording.recordSample 7 5 1000000000 7 2;
     s.readN 0x200000000 4 == 0x14210000 && s.readWords 0x200000008 5 == [7 + 0x200 + 16 * 2 ^ 16, 2 ^ 32 - 10, 3, 1, 2 ^ 32 - 1] && s.readWords 0x200000054 1 == [7]
       && (s.hrin 7).samples == [])
    ].all id = true := by decide +kernel

/-- Scan list 3 on line 5 with one entry, channel 0; pair 3 on line 5, 10 cycles at 200 kHz. -/
def scanning : State :=
  struck (sets up [(F.GPA_LCFG_EN 3, 1), (F.GPA_LCFG_TLINE 3, 5), (F.GPA_LCFG_LEN 3, 1), (F.GPA_CAPCFG_EN 3, 1), (F.GPA_CAPCFG_TLINE 3, 5), (F.GPA_CAPCFG_FREQ 3, 200), (F.GPA_CAPCFG_NCYC 3, 10)]) 100000

theorem wit_general : [
    scanning.listChannels 3 == [0] && scanning.strikeOf 5 9 none == some 1000000000 && scanning.strikeOf 5 9 (some 1000000000) == none,
    gives (.gpaListStrike 0 3 9) scanning (scanning.setScan 3 { waiting := some (9, 1000000000), after := some 1000000000 }),
    gives (.gpaListStrike 0 3 9) (scanning.setScan 3 { running := some (8, 5) }) (((scanning.setScan 3 { running := some (8, 5), after := some 1000000000 }).countSat (F.GPA_LOMIT_OMIT 3)).raise F.GPA_STAT_OMIT),
    gives (.gpaRunStart 2000) (scanning.setScan 3 { waiting := some (9, 999000000) }) ((scanning.setScan 3 { running := some (9, 999000000), wait := 1000, began := 1000000000, chans := [0] }).raise F.GPA_STAT_BUSY),
    run (.gpaRunComplete 0 3 [{ vin := 20000000000 }]) ((scanning.setScan 3 { running := some (9, 5), began := 999999000, chans := [0] }).raise F.GPA_STAT_BUSY) (fun s => (s.scan 3).running == none && !s.flag F.GPA_STAT_BUSY
      && s.word (R.GPA_CDATA 0) % 2 ^ 18 == 0x3FFFF && (s.reg (R.GPA_CDATA 0)).getLsbD 31 && (s.reg (R.GPA_CDATA 0)).getLsbD 29),
    run (.gpaRunComplete 0 3 [{ vin := -9537 }]) ((scanning.setScan 3 { running := some (9, 5), chans := [0] }).raise F.GPA_STAT_BUSY) (fun s => s.word (R.GPA_CDATA 0) % 2 ^ 18 == 0 && (s.reg (R.GPA_CDATA 0)).getLsbD 29),
    run (.gpaRunComplete 0 3 [{ vin := 2500000000, vsp := 5000000 }]) (((scanning.setScan 3 { running := some (9, 5), chans := [0] }).raise F.GPA_STAT_BUSY).raise (F.GPA_CCFG_RAT 0)) (fun s =>
      s.word (R.GPA_CDATA 0) % 2 ^ 18 == 0x20000 && !(s.reg (R.GPA_CDATA 0)).getLsbD 29),
    gives (.gpaBackgroundCal 0) (up.withInp { up.inp with gcalNow := true, gcalLate := true }) (up.withInp { up.inp with gcalAt := 1000000000, gcalEnds := 1000002000 }),
    ok up R.GPA_CAL && run (.gpaCalNow 0 own 0xFF01) up (fun s => s.inp == { up.inp with gcalNow := true } && s.get F.GPA_CAL_PER == 255 && s.reply == some (stOk, [])),
    gives (.capMeasureStart 0 3 9) (scanning.setPair 3 { busy := some (8, 5) }) (((scanning.setPair 3 { busy := some (8, 5), after := some 1000000000 }).countSat (F.GPA_LOMIT_OMIT 3)).raise F.GPA_STAT_OMIT),
    run (.capMeasureStart 0 3 9) scanning (fun s => (s.pair 3) == { busy := some (9, 1000000000), onRef := true, refAt := some 1000000000, after := some 1000000000 }),
    run (.capMeasureStart 0 3 9) (scanning.setPair 3 { refAt := some 0 }) (fun s => (s.pair 3).busy == some (9, 1000000000) && !(s.pair 3).onRef),
    gives (.capMeasureDone 1000060000 3 7 8) (scanning.setPair 3 { busy := some (9, 1000000000), onRef := true }) (after' (scanning.setPair 3 { corr := some (7, 8) }) 60000),
    run (.capMeasureDone 1000060000 3 100001 (-1)) (scanning.setPair 3 { busy := some (9, 1000000000) }) (fun s => (s.pair 3).busy == none && s.word (R.GPA_CAPC 3) % 2 ^ 31 == 100000
      && (s.reg (R.GPA_CAPC 3)).getLsbD 31 && s.word (R.GPA_CAPG 3) % 2 ^ 31 == 0)
    ].all id = true := by decide +kernel

/-- Input 23 on, rising edges, glitch filter 10 (1 µs). -/
def turning (l : List Nat) (last : Option Nat) : State := (sets up [(F.FQI_CFG_EN 23, 1), (F.FQI_CFG_EDGE 23, 0), (F.FQI_CFG_GF 23, 10)]).setFin 23 { stamps := l, last := last }

/-- A change that has stood for 1 µs. -/
def change (rising : Bool) (peak : Nat := 0) : FinChange := { rising := rising, stable := 1000, peak := peak }

theorem wit_frequency : [
    gives (.finEdge 0 23 { rising := true, stable := 999 }) (turning [] none) (turning [] none),
    run (.finEdge 0 23 (change false 100)) ((sets (turning [] none) [(F.FQI_CFG_VR 23, 1), (F.FQI_VR_VRMIN 23, 49), (F.FQI_VR_VRFRAC 23, 1)]).setFin 23 { vrPeak := 199 }) (fun s => (s.fin 23).last == some 999999000
      && (s.fin 23).vrPeak == 100 && s.word (R.FQI_ECNT 23) == 1),
    run (.finEdge 0 23 (change true)) (turning [999989000] (some 999989000)) (fun s => (s.fin 23).last == some 999999000 && (s.fin 23).stamps == [999999000, 999989000] && s.word (R.FQI_ECNT 23) == 1
      && s.get64 (R.FQI_TLO 23) (R.FQI_THI 23) == 999999000 && !s.flag (staleBit 23)),
    gives (.finEdge 0 23 (change true)) (turning [999989001] (some 999989001)) ((((turning [999989001] (some 999989001)).countSat (F.FQI_OCNT_COUNT 23)).raise (overBit 23)).raise F.FQI_STAT_OVRS
      |>.setFin 23 { stamps := [999989001], last := some 999989001, level := some true, excessAt := 1000000000 }),
    gives (.finStall 0 23) ((turning [999900000] none).put (F.FQI_STALL_STALL 23) 100) ((turning [999900000] none).put (F.FQI_STALL_STALL 23) 100),
    run (.finStall 0 23) ((turning [999899999] none).put (F.FQI_STALL_STALL 23) 100) (fun s => s.flag (staleBit 23) && (s.fin 23).stamps == [] && s.finFreq 23 == 0),
    gives (.finOvrClear 0 23) ((up.raise (overBit 23)).setFin 23 { excessAt := 999000000 }) (((up.raise (overBit 23)).setFin 23 { excessAt := 999000000 }).put (overBit 23) 0),
    gives (.finOvrClear 0 23) ((up.raise (overBit 23)).setFin 23 { excessAt := 999000001 }) ((up.raise (overBit 23)).setFin 23 { excessAt := 999000001 })
    ].all id = true := by decide +kernel

/-! Fusion (R172–R202). -/

/-- Source 31 in effect as a camera, a job of it waiting. -/
def job : FrameJob := { src := 31, ctx := 7, ctxfn := 5, tstrike := 1000000000, tseq := 3 }
def fusing : State := ((with' up [(R.FEX_PVAL_LO, 1)]).withFus { up.fus with jobs := [job] }).setSrc 31 { cur := some { kind := 1, grid := 3, elem := 7 } }

/-- Grid 3 enabled, 4 by 4 cells of 2 channels. -/
def gridded (g : Grid) : State := (sets up [(F.FUS_GCFG_EN 3, 1), (F.FUS_GCFG_C 3, 2), (F.FUS_GCFG_WM1 3, 3), (F.FUS_GCFG_HM1 3, 3)]).setGrid 3 g

theorem wit_instants : [
    fusing.admission 31 { kind := 1, grid := 3, elem := 7 } 1000000000 (some 3) false != .late && (0, 0) == ((fusing.prog 0).inw, (fusing.prog 0).inh),
    run (.workUnitBoundary 0) fusing (fun s => s.fus.started == some job && s.fus.jobs == [] && s.flag F.FEX_STAT_BUSY && s.fus.lastUnit == 1000000000),
    run (.frameJobComplete 0) (fusing.withFus { fusing.fus with started := some job }) (fun s => s.fus.started == none && s.word (R.FUS_SDONE 31) == 5 && s.get F.FEX_JCNT_COUNT == 1),
    run (.instantClose 0 3) (gridded {}) (fun s => s.grid 3 == { run := true, first := true, closed := 1000000000, opens := 1010000000 }),
    run (.instantClose 0 3) (gridded { run := true, opens := 1000000000 }) (fun s => (s.grid 3).closed == 1000000000 && s.word (R.FUS_GINST 3) == 20000 && s.get (F.FUS_GLAST_BUF 3) == 0 && (s.grid 3).set == 1),
    run (.headPublish 0 31) ((gridded {}).withFus { up.fus with heads := [{ head := 31, grid := 3, closes := 1000000000, addr := 0x1000 }] }) (fun s => s.fus.heads == [] && s.word (R.FUS_HINST 31) == 20000
      && s.word (R.FUS_HSTAT 31) == 1 && s.get F.FEX_JCNT_COUNT == 1 && s.word (R.FUS_HOUT 31) == bitsOf 32 (up.headValue { head := 31, grid := 3, closes := 1000000000, addr := 0x1000 })),
    run (.frameJobComplete 0) (fusing.withFus { fusing.fus with started := some job, jobBad := true }) (fun s => s.fus.started == none && s.word (R.FUS_SDONE 31) == 5 && s.get F.FEX_JCNT_COUNT == 0
      && s.get (F.FUS_SLOSS_DROP 31) == 1 && s.flag F.FEX_STAT_POISON)
    ].all id = true := by decide +kernel

/-- Descriptor 31 at 0x10F80: kind 7 for grid 3, one channel, weight 1. -/
def described : State := (with' (gridded {}) [(R.FUS_SD_LO, 0x10000)]).writeBytes 0x10F80 [0x37, 0, 0, 1, 0x40, 0, 0, 0]

theorem wit_fusion_writes : [
    described.srcErr 31 == 0 && up.srcErr 31 == 1 && ok up (R.FUS_SCTL 31) && ok up (R.FUS_SPUT 31) && ok up (R.FUS_GCFG 3) && ok up R.YT_COMMIT,
    run (.sourceEnable 0 own 31 1) described (fun s => s.flag (F.FUS_SCTL_EN 31) && (s.src 31).next == some (described.readSrc 31) && (s.src 31).cur == none),
    run (.sourceEnable 0 own 31 1) fusing (fun s => !s.flag (F.FUS_SCTL_EN 31) && s.get (F.FUS_SCTL_ERR 31) == 1 && (s.src 31).cur == none),
    acked (.sourceDisable 0 own 31 0) fusing ((fusing.put (F.FUS_SCTL_EN 31) 0).setSrc 31 { fusing.src 31 with next := none, leaving := true }) (R.FUS_SCTL 31),
    acked (.fusSputWrite 0 udp 31 9) up (up.setReg (R.FUS_SPUT 31) 9) (R.FUS_SPUT 31),
    run (.fusSputWrite 0 udp 31 9) (((gridded { run := true }).put (F.FUS_GWIN_WLEN 3) 0).setSrc 31 { cur := some { kind := 7, grid := 3 } }) (fun s => (s.grid 3).outside == 1),
    run (.fusSputWrite 0 udp 31 (-9)) (((gridded { run := true, opens := 1010000000 }).put (F.FUS_GWIN_WLEN 3) 65535).setSrc 31 { cur := some { kind := 7, grid := 3, nch := 1 } }) (fun s => (s.grid 3).contribs ==
      [{ src := 31, closes := 1010000000, stamp := 1000000000, vals := [-9] }]),
    run (.gridEnable 0 own 3 0xFFFF81) up (fun s => s.flag (F.FUS_GCFG_EN 3) && s.gridC 3 == 64 && s.gridW 3 == 256 && s.gridH 3 == 256),
    run (.gridDisable 0 own 3 0x30304) (gridded { run := true }) (fun s => !s.flag (F.FUS_GCFG_EN 3) && s.grid 3 == {}),
    acked (.ytCommit 0 udp 1) (with' up [(R.YT_X, 0xFFFFFFFF), (R.YT_Y, 3)]) ((with' up [(R.YT_X, 0xFFFFFFFF), (R.YT_Y, 3)]).withFus { up.fus with ytPos := some (-1, 3, up.get F.YT_HDG_HDG, up.get F.YT_WID_WID) })
      R.YT_COMMIT
    ].all id = true := by decide +kernel

/-! The control engine (R250–R279). -/

/-- Lane 7 of half A in a state. -/
def laneIn (st : Nat) : State := up.put (F.LAN_STAT_STATE 0 7) st

theorem wit_control : [
    up.isOwner own && ok up (R.LAN_CTL 0 7) && ok up (R.LPD_CTL 0 255) && ok up (R.LPH_SWAP 0) && ok up (R.CE_MIG 0),
    run (.laneStart 0 own 0 7 1) (laneIn lnHalted) (fun s => s.lnst 0 7 == lnPending && (s.ln 0 7).startAt == 1000000000),
    acked (.laneStart 0 own 0 7 1) (laneIn lnWaiting) ((laneIn lnWaiting).raise (F.CE_STAT_CFGERR 0)) (R.LAN_CTL 0 7),
    run (.laneStop 0 own 0 7 2) (laneIn lnRunning) (fun s => s.lnst 0 7 == lnIdle && (s.ln 0 7).staged == []),
    run (.loopEnable 0 own 0 255 0x1C01) up (fun s => s.flag (F.LPD_CTL_EN 0 255) && s.flag (loopBit 0 255 4) && s.get (F.LPD_CTL_OWNER 0 255) == 7 && !s.flag (F.LPH_STAT_CFGERR 0)),
    run (.loopEnable 0 own 0 255 0xFF0041) up (fun s => !s.flag (F.LPD_CTL_EN 0 255) && s.flag (F.LPH_STAT_CFGERR 0) && s.get (F.LPH_STAT_LAST 0) == 255),
    run (.lphSwapReq 0 own 0 0x3FF) (up.raise (F.LPD_CTL_EN 0 255)) (fun s => s.flag (loopBit 0 255 3) && s.get (F.LPD_CTL_BANK 0 255) == 0),
    run (.migrationArm 0 own 0 0x167) (laneIn lnWaiting) (fun s => (s.ce 0).mig == some (7, 6) && s.flag (F.CE_STAT_MIGPEND 0) && !s.flag (F.CE_STAT_MIGRDY 0)),
    acked (.migrationArm 0 own 0 0x177) (laneIn lnWaiting) ((laneIn lnWaiting).raise (F.CE_STAT_MIGFAIL 0)) (R.CE_MIG 0),
    run (.migrationAbort 0 own 0 0x200) (up.setCe 0 { mig := some (7, 6) }) (fun s => (s.ce 0).mig == none && s.flag (F.CE_STAT_MIGFAIL 0) && !s.flag (F.CE_STAT_MIGPEND 0)),
    run (.migrationCopyDone 0 0) ((filled up (instTcm 0 7)).setCe 0 { mig := some (7, 6) }) (fun s => s.readN (instTcm 0 6) 8 == 0xF8F7F6F5F4F3F2F1 && s.flag (F.CE_STAT_MIGRDY 0))
    ].all id = true := by decide +kernel

/-- Lane 7 in a state at 50 µs past 1 s, where the lanes 0 to 6, of class 1, have no boundary. -/
def lane7 (st : Nat) : State :=
  after' (sets (laneIn st) ((List.range 7).map fun l => (F.LAN_CFG_CLASS 0 l, 1))) 50000

theorem wit_lane_boundaries : [
    run (.laneBoundary 0 0 []) ((lane7 lnWaiting).modCpu (.l ⟨0, 7⟩) fun c => { c with pc := 8 }) (fun s => (s.ce 0).boundAt == some 1000050000 && s.lnst 0 7 == lnRunning && (s.lanes.getD 7 {}).pc == 8),
    run (.laneBoundary 0 0 []) ((lane7 lnPending).modCpu (.l ⟨0, 7⟩) fun c => { c with pc := 8 }) (fun s => s.lnst 0 7 == lnRunning && (s.lanes.getD 7 {}).pc == 0 && (s.lanes.getD 7 {}).started),
    run (.laneBoundary 0 0 []) ((lane7 lnWaiting).put (F.LAN_CFG_CLASS 0 7) 1) (fun s => s.lnst 0 7 == lnWaiting && (s.ln 0 7) == up.ln 0 7)
    ].all id = true := by decide +kernel

/-! Fingers and palms (R286–R330). -/

/-- The power die's outputs are on. -/
def powered : State := { up with drv := { up.drv with forced := false } }

/-- Finger 31 enabled, its palm on battery, in a state, with what it holds beside its registers. -/
def finger (st : Nat) (x : FngSt) : State := (sets powered [(F.FNG_CFG_EN 31, 1), (F.PLM_STAT_CMD 7, 1), (F.FNG_STAT_STATE 31, st)]).setFng 31 x

/-- A phase of 1000 µs at 2000 mA on battery. -/
def onePhase : List (Nat × Nat) := [(2000, 1000)]

/-- The calibration visits finger 31 since `a`. -/
def visiting (a : Nat) : State :=
  let s := sets powered [(F.FNG_GCTL_CALEN, 1), (F.FNG_CALPOS_POS, 31)]
  s.withDrv { s.drv with visitAt := a }

theorem wit_finger_drive : [
    gives (.fingerCalVisit 0 0 0) (visiting 989999999) (visiting 989999999),
    phTime 1000 == 1000 && phEnd 2000 == 0,
    gives (.decayComplete 0 31) (finger fDecay {}) (((finger fDecay {}).put (F.FNG_STAT_STATE 31) fOff).gflt 31) && gives (.decayComplete 0 31) (finger fRun {}) (finger fRun {}),
    run (.regulatorUpdate 0 31 2000000 2000000 5000 70000 0 none) (finger fRun { phases := onePhase }) (fun s => s.get (F.PLM_VP_VP 7) == 65535
      && s.word (R.FNG_IMEAS 31) % 2 ^ 20 == 43691 % 2 ^ 20 && s.fst 31 == fRun),
    gives (.phaseEnd 1000999999 31 0 none) (finger fRun { phases := onePhase, phaseAt := 1000000000 }) (after' (finger fRun { phases := onePhase, phaseAt := 1000000000 }) 999999),
    run (.phaseEnd 1001000000 31 0 none) (finger fRun { phases := onePhase, phaseAt := 1000000000 }) (fun s => s.fst 31 == fDecay && s.flag (F.FNG_STAT_ENDED 31) && (s.fng 31).ended),
    run (.boostDefer 0 31) ((finger fWait { wcfg := 50000 * 2 ^ 20 % 2 ^ 27, phases := onePhase }).setPalm 7 { queue := [31] }) (fun s => s.flag (F.FNG_STAT_DEFERRED 31) && s.fst 31 == fRun
      && (s.fng 31).deferred && s.get (F.FNG_CNT_DEFER 31) == 1 && (s.palm 7).queue == []),
    run (.boostTimeout 0 7) ((sets (finger fRun {}) [(F.PLM_STAT_HVAL 7, 1), (F.PLM_STAT_HOLDER 7, 3)]).setPalm 7 { grantAt := 998000000 }) (fun s => s.flag (F.FNG_STAT_BTMO 31)),
    gives (.dzCurrentCut 0 31) (finger fRun { wcfg := 4, phases := onePhase, duty := 1 }) (finger fRun { wcfg := 4, phases := onePhase, cut := true, duty := 0 }),
    run (.fingerCalVisit 0 (-5000) 500) (visiting 990000000) (fun s => s.getS (F.FNG_CAL_GCOR 31) == -5000 && s.getS (F.FNG_CAL_OCOR 31) == 500
      && s.get F.FNG_CALPOS_POS == 0 && s.drv.visitAt == 1000000000),
    run (.fingerCalVisit 0 0 (-501)) (visiting 990000000) (fun s => s.flag (F.FNG_STAT_CALFAIL 31) && s.word (R.FNG_CAL 31) == up.word (R.FNG_CAL 31)
      && s.get F.FNG_CALPOS_POS == 0),
    gives (.fingerCalSkip 0) (powered.raise F.FNG_GCTL_CALEN) ((((powered.raise F.FNG_GCTL_CALEN).countSat F.FNG_CALPOS_CALSKIP).put F.FNG_CALPOS_POS 1).withDrv { powered.drv with visitAt := 1000000000 }),
    run (.resistanceStep 0 31) (finger fRun { va := 100, ia := 50, mN := 100 }) (fun s => s.flag (F.FNG_REST_RVALID 31) && (s.fng 31).va == 0 && (s.fng 31).mN == 0 && (s.fng 31).stepAt == 1000000000),
    run (.coilModelSave 60000000000) (sets powered [(F.FNG_REST_REST 31, 7), (F.FNG_LEST_LEST 31, 9)]) (fun s => s.drv.savedAt == 60000000000 && s.readN 0x3011F01F0 4 == 7 && s.readN 0x3011F01F4 4 == 9
      && s.byte 0x3011F0200 == 0)
    ].all id = true := by decide +kernel

/-- A duty window of 64 slots of 1 ms, full, with the limit at 100 %. -/
def worn : FngSt :=
  { slots := List.replicate 64 1000000, dutyCfg := 2 ^ 21 + 100 * 2 ^ 14 + 64, slotAt := 1000000000, markAt := 1000000000 }

theorem wit_finger_protection : [
    (((finger fRun worn).atTime 0).dutyMark 31 |>.fng 31).dutyPct == 100,
    run (.dutyLimit 0 31) (finger fRun worn) (fun s => s.flag (F.FNG_STAT_DUTYLIM 31) && s.fst 31 == fHeld),
    gives (.pairThermalStep 0 15 5) powered powered,
    run (.pairThermalStep 0 15 0) (sets powered [(F.FNG_TH2_TEN 30, 1), (F.FNG_CFG_PAIR 30, 1)]) (fun s => s.getS (F.FNG_TEMP_TMOD 30) == satS 16 (ratRound ((s.fng 30).tw * 10))),
    run (.switchOvertemp 0 (.inl 31)) (finger fRun {}) (fun s => s.flag (F.FNG_STAT_OTEMP 31) && s.fst 31 == fHeld),
    run (.switchOvertemp 0 (.inr 7)) (finger fRun {}) (fun s => s.flag (F.PLM_STAT_OTEMP 7) && !s.supplies 7),
    gives (.switchTempRecover 0 (.inl 31)) ((finger fRun {}).raise (F.FNG_STAT_OTEMP 31)) (((finger fRun {}).raise (F.FNG_STAT_OTEMP 31)).put (F.FNG_STAT_OTEMP 31) 0),
    run (.switchTempRecover 0 (.inr 7)) (powered.raise (F.PLM_STAT_OTEMP 7)) (fun s => !s.flag (F.PLM_STAT_OTEMP 7)),
    run (.fingerOvercurrent 0 31) ((finger fRun {}).raise (F.FNG_CFG_PAIR 30)) (fun s => s.flag (F.FNG_STAT_OC 30) && s.fst 30 == fLatch),
    ok powered (R.FNG_CTL 31) && acked (.fingerRearm 0 own 31 1) ((finger fRun {}).raise (F.FNG_STAT_OC 31)) (((finger fRun {}).raise (F.FNG_STAT_OC 31)).put (F.FNG_STAT_OC 31) 0) (R.FNG_CTL 31),
    run (.fingerRearm 0 own 31 1) ((finger fLatch {}).raise (F.FNG_STAT_OC 31)) (fun s => !s.flag (F.FNG_STAT_OC 31) && s.fst 31 == fDecay),
    run (.openLoadDetect 0 31) (finger fRun { openN := 250 }) (fun s => s.flag (F.FNG_STAT_OPEN 31) && !s.flag (F.FNG_REST_RVALID 31)),
    gives (.shortToGround 0 31 false) (powered.raise (F.FNG_STAT_SHGND 31)) ((powered.raise (F.FNG_STAT_SHGND 31)).put (F.FNG_STAT_SHGND 31) 0),
    run (.shortToGround 0 31 true) (sets (finger fRun {}) [(F.PLM_STAT_SRC 7, 1), (F.PLM_CFG_SGOFF 7, 1)]) (fun s => s.flag (F.FNG_STAT_SHGND 31) && s.flag (F.PLM_STAT_SGND 7) && s.flag (F.PLM_STAT_OC 7)),
    run (.palmOvercurrent 0 7) (finger fRun {}) (fun s => s.flag (F.PLM_STAT_OC 7) && !s.supplies 7),
    ok powered (R.PLM_CTL 7) && run (.palmRearm 0 own 7 1) ((finger fRun {}).raise (F.PLM_STAT_OC 7)) (fun s => !s.flag (F.PLM_STAT_OC 7) && !s.flag ⟨R.PLM_SUM, 7, 7⟩ && s.reply == some (stOk, [])),
    run (.palmOverload 0 7 9001 70000) powered (fun s => s.get (F.PLM_I_IAVG 7) == 9001 && s.get (F.PLM_I_IPK 7) == 65535 && s.flag (F.PLM_STAT_OVLD 7)),
    run (.palmOverload 0 7 9000 0) powered (fun s => !s.flag (F.PLM_STAT_OVLD 7))
    ].all id = true := by decide +kernel

/-! Load channels (R331–R349). -/

/-- Channel 15 commanded on, in a state. -/
def load (st : Nat) (x : LdsSt) : State := (sets powered [(F.LDS_STAT_CMD 15, 1), (F.LDS_STAT_STATE 15, st)]).setLd 15 x

theorem wit_loads : [
    gives (.inrushEnd 1009999999 15) (load lInrush { startAt := 1000000000, wcfg := 10 * 2 ^ 13 }) (after' (load lInrush { startAt := 1000000000, wcfg := 10 * 2 ^ 13 }) 9999999),
    run (.inrushEnd 1010000000 15) (load lInrush { startAt := 1000000000, wcfg := 10 * 2 ^ 13 }) (fun s => s.lst 15 == lOn && (s.ld 15).onAt == 1010000000),
    run (.loadOvercurrent 0 15 20000001) (load lOn { wcfg := 0 }) (fun s => s.flag (F.LDS_STAT_OC 15) && s.flag (F.LDS_STAT_HWSC 15) && s.get (F.LDS_CNT_OCCNT 15) == 1 && s.lst 15 == lLatch),
    run (.loadOvercurrent 0 15 5000001) (load lOn { wcfg := 2, wcur := 50 }) (fun s => s.flag (F.LDS_STAT_OC 15) && !s.flag (F.LDS_STAT_HWSC 15) && s.lst 15 == lRetry),
    gives (.loadOvercurrent 0 15 99999999) (load lRetry {}) (load lRetry {}),
    run (.groupUndervoltage 0 1 6999) (load lOn {}) (fun s => s.flag (F.LDS_GV_UVNOW 1) && s.get (F.LDS_GV_MV 1) == 6999 && s.lst 15 == lUvoff && s.flag (F.LDS_STAT_UV 15)),
    run (.groupUndervoltage 0 0 6999) (load lOn {}) (fun s => s.lst 15 == lOn),
    run (.groupUvRecover 0 1 7500) ((load lUvoff {}).raise (F.LDS_GV_UVNOW 1)) (fun s => s.flag (F.LDS_GV_UVNOW 1)) && run (.groupUvRecover 0 1 7501) ((load lUvoff {}).raise (F.LDS_GV_UVNOW 1)) (fun s => !s.flag (F.LDS_GV_UVNOW 1)),
    gives (.retryBudgetRefill 0 15) ((load lOn {}).put (F.LDS_STAT_RTUSED 15) 3) (((load lOn {}).put (F.LDS_STAT_RTUSED 15) 3).put (F.LDS_STAT_RTUSED 15) 0),
    gives (.loadThermalTrip 0 15) ((load lTherm {}).raise (F.LDS_STAT_THL 15)) ((load lTherm {}).raise (F.LDS_STAT_THL 15)),
    run (.loadThermalTrip 0 15) (load lOn {}) (fun s => s.flag (F.LDS_STAT_THL 15) && !s.closed 15 && s.flag (F.LDS_STAT_THTRIP 15)),
    run (.thermalLatchClear 0 15) ((load lTherm {}).raise (F.LDS_STAT_THL 15)) (fun s => !s.flag (F.LDS_STAT_THL 15) && s.lst 15 == lRetry),
    run (.restartTest 0) (load lRetry { counted := true, byOc := true, latchAt := 0, wcfg := 2 + 1 * 4 }) (fun s => s.lst 15 == lInrush && s.get (F.LDS_STAT_RTUSED 15) == 1),
    run (.restartTest 0) ((load lRetry { counted := true, byOc := true, latchAt := 0, wcfg := 2 + 1 * 4 }).put (F.LDS_STAT_RTUSED 15) 1) (fun s => s.lst 15 == lLatch && s.flag (F.LDS_STAT_RTEXH 15)),
    ok powered (R.LDS_CTL 15) && run (.loadRearm 0 own 15 1) (sets (load lLatch {}) [(F.LDS_STAT_RTUSED 15, 3), (F.LDS_STAT_OC 15, 1)]) (fun s => s.get (F.LDS_STAT_RTUSED 15) == 0 && !s.flag (F.LDS_STAT_OC 15)
      && s.lst 15 == lRetry),
    run (.loadCurrentReport 0 7 40950000 0 70000) powered (fun s => s.word (R.LDS_IMEAS 7) % 4096 == 4095 && s.get (F.LDS_GV_MV 0) == 65535 && s.lst 7 == lOff),
    gives (.iselChange 0 7) powered (powered.put F.LDS_ISEL_ISEL 7),
    gives (.loadCurrentReport 1000020001 7 40950000 0 70000) powered (after' powered 20001),
    gives (.loadCurrentReport 0 7 40950000 0 70000) (powered.setLd 7 { repMs := 1000 }) (powered.setLd 7 { repMs := 1000 }),
    run (.groupUndervoltage 0 1 6999) (load lOn { wcfg := 2 }) (fun s => run (.loadOvercurrent 1000009999 15 20000001) s (fun s => s.flag (F.LDS_STAT_OC 15) && !s.flag (F.LDS_STAT_UV 15)
      && s.lst 15 == lRetry)),
    run (.groupUndervoltage 0 1 6999) (load lOn { wcfg := 2 }) (fun s => gives (.loadOvercurrent 1000010000 15 20000001) s (after' s 10000)),
    run (.groupUvRecover 0 1 7501) { (load lUvoff {}).raise (F.LDS_GV_UVNOW 1) with ldGroups := [{}, { lowAt := some 990000001 }] } (fun s => s.flag (F.LDS_GV_UVNOW 1))
      && run (.groupUvRecover 0 1 7501) { (load lUvoff {}).raise (F.LDS_GV_UVNOW 1) with ldGroups := [{}, { lowAt := some 990000000 }] } (fun s => !s.flag (F.LDS_GV_UVNOW 1))
    ].all id = true := by decide +kernel

/-! Reservoirs, sensor ports, rails (R356–R370). -/

/-- Reservoir 1 enabled, 1000 µF declared. -/
def charged : State := sets powered [(F.BRM_CFG_EN 1, 1), (F.BRM_CDECL_CDECL 1, 1000), (F.BRM_CFG_VSET 1, 60)]

theorem wit_brim : [
    charged.chargerOn 1,
    run (.energyUpdate 0 1 60000) charged (fun s => s.get (F.BRM_V_V 1) == 60000 && !s.flag (F.BRM_STAT_CHG 1) && s.flag (F.BRM_STAT_FULL 1)
      && (charged.publishV 1 60000).get (F.BRM_E_E 1) == 18181 && s.get (F.BRM_E_E 1) == 18181),
    run (.energyUpdate 0 1 60000) (charged.put (F.BRM_CFG_EN 1) 0) (fun s => !s.flag (F.BRM_STAT_CHG 1) && !s.flag (F.BRM_STAT_FULL 1)),
    gives (.diversionStart 0 1 65000) charged (((((charged.publishV 1 65000).raise (F.BRM_STAT_DIVNOW 1)).raise (F.BRM_STAT_DIV 1))).countSat (F.BRM_DIVCNT_COUNT 1)),
    gives (.diversionEnd 0 1 0 9) (sets charged [(F.BRM_STAT_DIVNOW 1, 1), (F.BRM_CEIL_CEIL 1, 100)]) (((((sets charged [(F.BRM_STAT_DIVNOW 1, 1), (F.BRM_CEIL_CEIL 1, 100)])).publishV 1 0).put (F.BRM_STAT_DIVNOW 1) 0).count (F.BRM_DIVE_UJ 1) 9),
    run (.capacitanceSample 0 1 (4999, 500)) charged (fun s => s.flag (F.BRM_STAT_COPEN 1) && !s.flag (F.BRM_STAT_CHG 1)),
    run (.capacitanceSample 0 1 (5000, 500)) (charged.setRes 1 { samples := [(5000, 500), (5000, 500), (5000, 500), (5000, 500), (5000, 500), (5000, 500), (5050, 500)] }) (fun s => s.get (F.BRM_C_CMEAS 1) == 100 && s.flag (F.BRM_C_CVALID 1)),
    run (.capSampleBleed 60000000000 1) (charged.put (F.BRM_V_V 1) 60000) (fun s => s.flag (F.BRM_STAT_BLEED 1) && (s.res 1).bleedTo == some 58000),
    run (.bleedEnd 0 1 58000) ((charged.raise (F.BRM_STAT_BLEED 1)).setRes 1 { bleedTo := some 58000 }) (fun s => !s.flag (F.BRM_STAT_BLEED 1) && (s.res 1).bleedTo == none),
    ok charged (R.BRM_CEIL 1) && run (.brmCeilWrite 0 own 1 200) charged (fun s => s.get (F.BRM_CEIL_CEIL 1) == 200),
    run (.brmCeilWrite 0 own 1 100) (charged.put (F.BRM_LOCK_LOCK 1) 100) (fun s => s.get (F.BRM_CEIL_CEIL 1) == 100),
    gives (.portLimit 0 7 5000 100) (powered.put (F.SNP_STAT_STATE 7) pReg) ((((powered.put (F.SNP_STAT_STATE 7) pReg).portMeas 7 5000 100).put (F.SNP_STAT_STATE 7) pLimit).setSnp 7 { powered.snp 7 with limAt := 1000000000 }),
    gives (.portLimitEnd 0 7 5000 100) (powered.put (F.SNP_STAT_STATE 7) pLimit) (((powered.put (F.SNP_STAT_STATE 7) pLimit).portMeas 7 5000 100).put (F.SNP_STAT_STATE 7) pReg),
    run (.portFold 0 7 3999 100) (powered.put (F.SNP_STAT_STATE 7) pLimit) (fun s => s.get (F.SNP_STAT_STATE 7) == pFold && s.flag (F.SNP_STAT_FOLDED 7) && s.get (F.SNP_STAT_FOLDCNT 7) == 1),
    gives (.portUnfold 0 7 4501 0) (powered.put (F.SNP_STAT_STATE 7) pFold) (((powered.put (F.SNP_STAT_STATE 7) pFold).portMeas 7 4501 0).put (F.SNP_STAT_STATE 7) pReg),
    run (.railOvercurrent 0 3 true) powered (fun s => s.flag ⟨R.SNP_RAIL, 7, 7⟩ && !s.flag ⟨R.SNP_RAIL, 3, 3⟩) && run (.railOvercurrent 0 3 false) powered (fun s => !s.flag ⟨R.SNP_RAIL, 7, 7⟩),
    gives (.portUnfold 0 7 4501 0) ((powered.put (F.SNP_STAT_STATE 7) pFold).setSnp 7 { foldAt := 990000001 }) (((powered.put (F.SNP_STAT_STATE 7) pFold).setSnp 7 { foldAt := 990000001 }).portMeas 7 4501 0)
    ].all id = true := by decide +kernel

/-! GNSS and the IMU port (R380–R398). -/

/-- Channel 95 in a state. -/
def tracking (st : Nat) : State := sets up [(F.GNB_CHST_STATE 95, st), (F.GNB_STAT_FECLK, 1), (F.GNB_CHCFG_SIG 95, 6), (F.GNB_BCFG_EN 1, 1)]

theorem wit_channels : [
    ok up (R.GNB_CHCFG 95) && ok up R.GNB_AQ0 && sigOk 6 63 && tcOk 1 10,
    run (.channelEnable 0 own 95 0x7ED) (((tracking gLost).put F.GNB_AQR0_RES 2).withGnb { up.gnb with found := (6, 63) }) (fun s => s.gst 95 == gPull && (s.gch 95).since == 1000000000
      && s.get (F.GNB_CHCFG_SIG 95) == 6 && s.get (F.GNB_CHCFG_PRN 95) == 63 && s.flag (F.GNB_CHCFG_EN 95)),
    acked (.channelEnable 0 own 95 0x7ED) (tracking gIdle) ((tracking gIdle).raise F.GNB_STAT_CFGERR) (R.GNB_CHCFG 95),
    run (.channelLock 0 95) (tracking gPull) (fun s => s.gst 95 == gTrack && (s.gch 95).slipAt == 1000000000),
    run (.channelLockLoss 0 95) (tracking gTrack) (fun s => s.gst 95 == gReacq && !(s.gch 95).codeLock) && gives (.channelLockLoss 0 95) (tracking gPull) (tracking gPull),
    gives (.channelLost 0 95) ((tracking gPull).setGch 95 { since := 500000000 }) (((tracking gPull).setGch 95 { since := 500000000 }).setGst 95 gLost),
    gives (.channelLost 0 95) ((tracking gReacq).setGch 95 { since := 1 }) ((tracking gReacq).setGch 95 { since := 1 }),
    run (.gclkLoss 0) (tracking gTrack) (fun s => !s.flag F.GNB_STAT_FECLK && s.gst 95 == gReacq),
    gives (.gclkReturn 0) (up.put F.GNB_STAT_FECLK 0) ((up.put F.GNB_STAT_FECLK 0).raise F.GNB_STAT_FECLK),
    run (.acqStart 0 own 0x80037C11) (sets up [(F.GNB_AQ4_TC, 10), (F.GNB_AQ4_THR, 20), (F.GNB_AQ4_NNC, 1)]) (fun s => s.gnb.acq.any (fun a => a.sig == 1 && a.prn == 1 && a.chan == 95 && a.auto && a.thr == 20)
      && s.gnb.found == (1, 1) && s.flag F.GNB_STAT_ACQBUSY && s.get F.GNB_AQR0_RES == 1),
    run (.acqStep 0 20 1023) (up.withGnb { up.gnb with acq := some { sig := 1, prn := 1, thr := 20, nnc := 1, tc := 1, nb := 1, pstart := 5 } }) (fun s => s.gnb.acq == none && s.get F.GNB_AQR0_RES == 2
      && s.get F.GNB_AQR0_RATIO == 20 && s.word R.GNB_AQR1 == 1028),
    run (.acqStep 0 19 0) (up.withGnb { up.gnb with acq := some { sig := 1, prn := 1, thr := 20, nnc := 1, tc := 1, nb := 1, blk := 0, bin := 0 } }) (fun s => s.gnb.acq == none && s.get F.GNB_AQR0_RES == 3),
    run (.acqStep 0 19 0) (up.withGnb { up.gnb with acq := some { sig := 1, prn := 1, thr := 20, nnc := 1, tc := 1, nb := 2, blk := 0 } }) (fun s => s.gnb.acq.any (fun b => b.blk == 1 && b.stepAt == 1000000000)
      && s.regs == up.regs)
    ].all id = true := by decide +kernel

/-- GNB enabled with 4 buffers. -/
def gnss : State := sets up [(F.GNB_CFG_EN, 1), (F.GNB_CFG_NBUF, 4), (F.GNB_CFG_SQEN, 1)]

/-- The IMU port on line 5 with strikes at 999 ms and 1 s. -/
def sampledImu (l : List (Fld × Nat)) : State :=
  (sets up ([(F.IMU_CFG_EN, 1), (F.IMU_CFG_TLINE, 5), (F.HB_LCFG_MODE 5, 1)] ++ l)).setLine 5 { strikes := [(9, 1000000000), (8, 999000000)] }

theorem wit_gnss_data : [
    run (.measurementEpoch 0 [] (0, 0) (0x1234, 5)) gnss (fun s => s.word R.GNB_EPOCH == 1 && s.gnb.block.any (fun b => b.words[0]? == some 1 && b.words[2]? == some 1000000000) && s.word (R.GNB_AGC 0) == 0x1234),
    run (.epochBlockWrite 0) ((gnss.put F.GNB_WR_WR 3).withGnb { up.gnb with block := some { words := [7, 8] } }) (fun s => s.gnb.block == none && s.get F.GNB_WR_WR == 4 && s.gnb.lastBlock == 7 && !s.gnb.omitted),
    run (.epochBlockWrite 0) ((gnss.put F.GNB_WR_WR 4).withGnb { up.gnb with drops := 1, block := some { words := [7, 8], drops := 3, stepped := true, slips := [95] } }) (fun s => s.gnb.block == none && s.gnb.omitted && s.gnb.drops == 4
      && s.hb.stepped && (s.gch 95).slip && s.regs == (gnss.put F.GNB_WR_WR 4).regs),
    run (.symbolRecord 0 95 32 0xFFFFFFFF 0 0) ((gnss.put (F.GNB_CHST_STATE 95) gTrack).setGch 95 { bitSync := true }) (fun s => s.word R.GNB_SYMW == 1 && s.readN 0x400508004 4 == 0xFFFFFFFF),
    run (.symbolRecord 0 95 1 0xFFFFFFFF 0 0) (((with' gnss [(R.GNB_SYMW, 1023)]).put (F.GNB_CHST_STATE 95) gTrack).setGch 95 { bitSync := true }) (fun s => s.word R.GNB_SYMW == 1024 && s.readN 0x40050FFE4 4 == 1),
    ok up (R.GNB_PRD 95) && run (.prdWrite 0 udp 95 (-5)) (with' gnss [(R.GNB_EPOCH, 9), (R.GNB_PRR 95, 77)]) (fun s => (s.gch 95).pred == some (0, 77, -5) && s.reg (R.GNB_PRD 95) == -5),
    ok up R.GNB_CLKE && run (.clkeWrite 0 own 9) (sets gnss [(F.GNB_CLKB_BIAS, 3), (F.GNB_CLKD_DRIFT, 4)]) (fun s => s.gnb.clk == some (3, 4, 9)),
    ok up R.GNB_NAVC && acked (.navCommit 0 udp 1) (with' gnss [(R.GNB_NAVP 31, 6)]) ((with' gnss [(R.GNB_NAVP 31, 6)]).withGnb { up.gnb with navp := List.replicate 31 0 ++ [6] }) R.GNB_NAVC,
    run (.tvalidLoss 0) ((up.raise F.GNB_STAT_TVALID).withGnb { up.gnb with codeAt := 0 }) (fun s => !s.flag F.GNB_STAT_TVALID) && run (.tvalidLoss 0) ((up.raise F.GNB_STAT_TVALID).withGnb { up.gnb with codeAt := 1 }) (fun s => s.flag F.GNB_STAT_TVALID),
    run (.tvalidLoss 0) (((up.raise F.GNB_STAT_TVALID).withGnb { up.gnb with codeAt := 0 }).setGch 95 { codeLock := true }) (fun s => s.flag F.GNB_STAT_TVALID),
    ok up R.GNB_REL && acked (.gnbRelWrite 0 own 5) (gnss.put F.GNB_WR_WR 9) ((gnss.put F.GNB_WR_WR 9).put F.GNB_REL_REL 5) R.GNB_REL && acked (.gnbRelWrite 0 own 4) (gnss.put F.GNB_WR_WR 9) (gnss.put F.GNB_WR_WR 9) R.GNB_REL,
    ok up R.GNB_FECMD && acked (.feFrame 0 own 0xC0000000) (gnss.raise F.GNB_FERD_BUSY) ((gnss.raise F.GNB_FERD_BUSY).raise F.GNB_STAT_FEERR) R.GNB_FECMD,
    run (.feFrame 0 own 0xC0000000) gnss (fun s => s.flag F.GNB_FERD_BUSY && s.flag F.GNB_FECMD_RD),
    run (.feFrameDone 0 0xABCD) ((sets gnss [(F.GNB_FERD_BUSY, 1)]).withGnb { up.gnb with feRead := true }) (fun s => !s.flag F.GNB_FERD_BUSY && s.get F.GNB_FERD_DATA == 0xABCD),
    run (.beanieBurst 0) { gnss with inBeanie := true } (fun s => s.gnb.burst.any (fun b => b.1 == 1000000000)),
    run (.beanieBurstEnd 0 [] ((0, 0), 0, 0)) ((with' gnss [(R.GNB_EPOCH, 9)]).withGnb { up.gnb with burst := some (950000000, false) }) (fun s => s.gnb.burst == none && s.gnb.lastBlock == 9),
    gives (.imuTransaction 0) (sets up [(F.IMU_CFG_EN, 1)]) (sets up [(F.IMU_CFG_EN, 1)]) && gives (.imuTransaction 0) { sampledImu [] with imu := { after := some 1000000000 } } { sampledImu [] with imu := { after := some 1000000000 } },
    gives (.imuTransaction 0) (sampledImu [(F.IMU_STAT_BUSY, 1)]) { ((sampledImu [(F.IMU_STAT_BUSY, 1)]).countSat F.IMU_OCNT_COUNT).raise F.IMU_STAT_OMIT with imu := { after := some 999000000 } },
    run (.imuTransaction 0) { with' (sampledImu [(F.IMU_CFG_NBYTE, 5)]) [(R.IMU_TX 0, 0x04030201), (R.IMU_TX 1, 0x0605)] with imu := { after := some 999000000 } } (fun s => s.flag F.IMU_STAT_BUSY
      && s.imu == { seq := 9, time := 1000000000, cfg := (sampledImu [(F.IMU_CFG_NBYTE, 5)]).word R.IMU_CFG, after := some 1000000000, sdo := [1, 2, 3, 4, 5] }),
    run (.imuTransactionDone 0 [1, 2] []) { up.raise F.IMU_STAT_BUSY with imu := { seq := 9, time := 2 ^ 32 + 7 } } (fun s => !s.flag F.IMU_STAT_BUSY && s.word R.IMU_SEQ == 9 && s.get64 R.IMU_TLO R.IMU_THI == 2 ^ 32 + 7)
    ].all id = true := by decide +kernel

/-! CAN (R404–R445). -/

/-- Channel 3 on the bus. -/
def bus : State := sets up [(F.CAN_CFG_EN 3, 1), (F.CAN_TRX_MODE 3, 1)]

/-- Channel 3 asleep, to wake as `mode` says. -/
def asleep (mode : Nat) : State := sets up [(F.CAN_TRX_MODE 3, 0), (F.CAN_WAKE_WMODE 3, mode)]

theorem wit_can_channels : [
    bus.canOn 3,
    run (.dominantTimeout 0 3) bus (fun s => s.flag (F.CAN_STAT_TXDTO 3) && (s.can 3).released) && gives (.dominantTimeout 0 3) (asleep 0) (asleep 0),
    gives (.autonomousBiasing 0 3 true) (asleep 0) ((asleep 0).setCan 3 { biased := true, heard := 1000000000 }) && gives (.autonomousBiasing 0 3 false) ((asleep 0).setCan 3 { biased := true, heard := 0 }) (asleep 0)
      && gives (.autonomousBiasing 0 3 false) ((asleep 0).setCan 3 { biased := true, heard := 1 }) ((asleep 0).setCan 3 { biased := true, heard := 1 }) && gives (.autonomousBiasing 0 3 true) bus bus,
    gives (.busOffRecoveryStart 0 3) (sets bus [(F.CAN_STAT_ESTATE 3, 2), (F.CAN_CFG_BOREC 3, 1), (F.CAN_CFG_BODLY 3, 100)])
      ((sets bus [(F.CAN_STAT_ESTATE 3, 2), (F.CAN_CFG_BOREC 3, 1), (F.CAN_CFG_BODLY 3, 100)]).setCan 3 { recovering := true }),
    gives (.busOffRecoveryStart 0 3) (sets bus [(F.CAN_STAT_ESTATE 3, 2), (F.CAN_CFG_BOREC 3, 1), (F.CAN_CFG_BODLY 3, 101)]) (sets bus [(F.CAN_STAT_ESTATE 3, 2), (F.CAN_CFG_BOREC 3, 1), (F.CAN_CFG_BODLY 3, 101)]),
    ok up (R.CAN_CTL 3) && acked (.canRecov 0 own 3 1) (bus.put (F.CAN_STAT_ESTATE 3) 2) ((bus.put (F.CAN_STAT_ESTATE 3) 2).setCan 3 { recovering := true }) (R.CAN_CTL 3) && acked (.canRecov 0 own 3 1) bus bus (R.CAN_CTL 3),
    run (.busOffRejoin 0 3) ((sets bus [(F.CAN_STAT_ESTATE 3, 2), (F.CAN_ERR_TEC 3, 255)]).setCan 3 { recovering := true }) (fun s => s.get (F.CAN_STAT_ESTATE 3) == 0 && s.get (F.CAN_ERR_TEC 3) == 0
      && !(s.can 3).recovering),
    run (.errorFrame 0 3 6 true) (bus.put (F.CAN_ERR_REC 3) 119) (fun s => s.get (F.CAN_CNT_ERRF 3) == 1 && s.get (F.CAN_ERR_LEC 3) == 6 && s.get (F.CAN_ERR_REC 3) == 128 && s.get (F.CAN_STAT_ESTATE 3) == 1),
    run (.errorFrame 0 3 1 false) (bus.put (F.CAN_ERR_REC 3) 126) (fun s => s.get (F.CAN_ERR_REC 3) == 127 && s.get (F.CAN_STAT_ESTATE 3) == 0),
    gives (.canWakeDetect 0 3 .wup) bus bus,
    run (.canWakeDetect 0 3 .dominant) (asleep 1) (fun s => s.flag (F.CAN_STAT_WKPEND 3) && s.get (F.CAN_STAT_WKSRC 3) == 1) && run (.canWakeDetect 0 3 .wup) (asleep 2) (fun s => s.get (F.CAN_STAT_WKSRC 3) == 2),
    run (.canWakeDetect 0 3 (.frame {})) (asleep 3) (fun s => s.flag (F.CAN_STAT_WKPEND 3) && s.get (F.CAN_STAT_WKSRC 3) == 3) && (asleep 3).wakeFrame 3 {},
    run (.canWakeDetect 0 3 .badFrame) ((asleep 3).setCan 3 { wakeErr := 31 }) (fun s => s.flag (F.CAN_STAT_WKPEND 3) && s.get (F.CAN_STAT_WKSRC 3) == 4)
    ].all id = true := by decide +kernel

/-- Object 2047 sends on channel 3 (`ctl`: further bits of CTL). -/
def object (ctl : Nat) : State := with' bus [(R.OBJ_CTL 2047, 0x0F + ctl), (R.OBJ_ID 2047, 0x123), (R.OBJ_MASK 2047, 0x7FF), (R.OBJ_TXP 2047, 0x02030004)]

theorem wit_objects : [
    ok up R.OBJ_TXREQ && (object 0).objTx 2047,
    run (.objTxreq 0 own 0x80008001) (object 0) (fun s => s.objs == up.objs && s.mem == up.mem),
    run (.objTxreq 0 own 0x800087FF) (object 0) (fun s => (s.obj 2047).pend == some 8 && (s.obj 2047).deadline == some 1000400000 && s.flag (F.OBJ_ESTAT_TXPEND 2047) && (s.can 3).items == [{ src := .obj 2047 }]),
    run (.objTxreq 0 own 0x800087FF) ((object 0).setObj 2047 { inBuf := true }) (fun s => (s.obj 2047).wait == some 8 && (s.obj 2047).pend == none && s.cans == bus.cans),
    run (.objectRepeat 0 2047) ((object 0).setObj 2047 { rptFrom := some 970000000, rpts := 1 }) (fun s => (s.obj 2047).rpts == 2 && (s.obj 2047).rptFrom == some 1000000000 && s.flag (F.OBJ_ESTAT_TXPEND 2047)),
    gives (.objectRepeat 0 2047) ((object 0).setObj 2047 { rptFrom := some 970000000, rpts := 2 }) ((object 0).setObj 2047 { rptFrom := some 970000000, rpts := 2 }),
    gives (.objectRepeat 0 2047) ((object 0).setObj 2047 { rptFrom := some 970000001 }) ((object 0).setObj 2047 { rptFrom := some 970000001 }),
    gives (.objectStale 0 2047) ((with' bus [(R.OBJ_CTL 2047, 0x6400000D)]).setObj 2047 { since := 0 }) (((with' bus [(R.OBJ_CTL 2047, 0x6400000D)]).setObj 2047 { since := 0 }).raise (F.OBJ_ESTAT_STALE 2047)),
    gives (.objectStale 0 2047) ((with' bus [(R.OBJ_CTL 2047, 0x6400000D)]).setObj 2047 { since := 1 }) ((with' bus [(R.OBJ_CTL 2047, 0x6400000D)]).setObj 2047 { since := 1 }),
    run (.objStatRead 0 own 511) { (with' bus [(R.OBJ_TLO 511, 5), (R.OBJ_DHI 511, 6)]) with poison := [] } (fun s => s.reply == some (stOk, [up.word (R.OBJ_ESTAT 511)]) && assoc (own, objHold 4) s.held == some 5
      && assoc (own, objHold 7) s.held == some 6 && (s.regRead own 0x400657FF0).1 == 5 && (s.regRead own 0x400654010).1 == 5)
    ].all id = true := by decide +kernel

/-- Object 2047 receives identifier 0x123 on channel 3, its data at 0x40000 + 64 × 2047. -/
def receiving : State := with' bus [(R.OBJ_CTL 2047, 0x0D), (R.OBJ_ID 2047, 0x123), (R.OBJ_MASK 2047, 0x7FF), (R.OBJ_DBASE_LO, 0x40000)]

/-- A frame of two bytes. -/
def short : CanFrame := { ident := 0x123, dlc := 2, data := [7, 8] }

/-- A claim frame waits on channel 3; or stands in a buffer. -/
def claimItem : TxItem := { src := .claim, ident := 0x18EEFF80, data := [1, 2, 3, 4, 5, 6, 7, 8] }
def claimFrame : CanFrame := { ident := 0x18EEFF80, ide := true, dlc := 8, data := [1, 2, 3, 4, 5, 6, 7, 8] }
def buffered (s : State) (b : Option (Option (Nat × Bool))) : State := s.setBuf 3 2 (some { item := claimItem, frame := claimFrame, cancel := b })

/-- The same beside a frame of higher priority. -/
def outranked : State :=
  let s := (buffered bus none).setBuf 3 0 (some { frame := { ident := 5 } })
  s.setCan 3 { s.can 3 with offered := [] }

theorem wit_frames : [
    gives (.frameReceived 0 3 short false) (asleep 0) (asleep 0) && gives (.frameReceived 0 3 short false) (bus.put (F.CAN_STAT_ESTATE 3) 2) (bus.put (F.CAN_STAT_ESTATE 3) 2)
      && gives (.frameReceived 0 3 { short with fdf := true } false) bus bus,
    run (.frameReceived 0 3 { short with rtr := true } false) receiving (fun s => s.get (F.CAN_RXNM_COUNT 3) == 1 && s.objs == receiving.objs && s.mem == receiving.mem),
    receiving.objMatches 2047 3 short && run (.frameReceived 0 3 short false) (receiving.raise (F.OBJ_ESTAT_NEW 2047)) (fun s => s.flag (F.OBJ_ESTAT_NEW 2047) && s.flag (F.OBJ_ESTAT_LOST 2047) && s.get (F.OBJ_ESTAT_DLC 2047) == 2
      && s.get64 (R.OBJ_TLO 2047) (R.OBJ_THI 2047) == 1000000000 && (s.obj 2047).since == 1000000000 && s.readN 0x5FFC0 4 == 0x807),
    run (.frameReceived 0 3 { short with ident := 0x124 } false) receiving (fun s => s.get (F.CAN_RXNM_COUNT 3) == 1),
    gives (.txBufferFill 0 3 none) bus bus,
    run (.txBufferFill 0 3 none) ((bus.raise (F.CAN_CFG_TXORD 3)).setCan 3 { items := [claimItem], nextBuf := 2 }) (fun s => s.buf 3 2 == some { item := claimItem, frame := claimFrame } && (s.can 3).items == []
      && (s.can 3).nextBuf == 0),
    gives (.txBufferFill 0 3 none) (bus.setCan 3 { items := [claimItem], bufs := List.replicate 3 (some { frame := { ident := 0x18EEFF80, ide := true } }) })
      (bus.setCan 3 { items := [claimItem], bufs := List.replicate 3 (some { frame := { ident := 0x18EEFF80, ide := true } }) }),
    run (.frameSent 0 3 2) (buffered (bus.put (F.CAN_ERR_TEC 3) 5) none) (fun s => s.buf 3 2 == none && s.get (F.CAN_TXCNT_COUNT 3) == 1 && s.get (F.CAN_ERR_TEC 3) == 4),
    !(bus.flag (F.CAN_CFG_TXORD 3)) && bus.canSends 3 && gives (.frameSent 0 3 2) outranked outranked && gives (.frameSent 0 3 2) (outranked.busFree 3) (outranked.busFree 3)
      && run (.frameSent 0 3 0) outranked (fun s => s.buf 3 0 == none),
    run (.frameTxError 0 3 2 none) (buffered bus none) (fun s => s.get (F.CAN_CNT_ALOST 3) == 1 && (s.buf 3 2).isSome && s.get (F.CAN_ERR_TEC 3) == 0),
    run (.frameTxError 0 3 2 (some (6, false))) (buffered (bus.put (F.CAN_ERR_TEC 3) 248) none) (fun s => s.get (F.CAN_STAT_ESTATE 3) == 2 && s.flag (F.CAN_STAT_BOFF 3) && s.get (F.CAN_ERR_LEC 3) == 6 && (s.can 3).boffAt == 1000000000),
    run (.frameTxError 0 3 2 (some (1, false))) (buffered (bus.put (F.CAN_ERR_TEC 3) 247) none) (fun s => s.get (F.CAN_ERR_TEC 3) == 255 && s.get (F.CAN_STAT_ESTATE 3) != 2 && (s.buf 3 2).isSome)
    ].all id = true := by decide +kernel

/-- TXQ is queue 127 with one request: 8 bytes of PGN 0x0EF00 to address 5 by channel 3, deadline 100 µs, tag 77. -/
def requested (tag : Nat) : State :=
  (sets (queue 1 0) [(F.QUE_CFG_ESIZE 127, 1), (F.MSG_CFG_TXEN, 1), (F.MSG_CFG_TXQ, 127)]).writeWords 0x1000 [0x07600000 + tag, 0, 0x503, 0x0EF00, 8, 0x2000, 0, 100, 77]

/-- Channel 3 holds message 9 with tag 77. -/
def holding (d : Option Nat) : State := bus.setCan 3 { msgs := [{ id := 9, tag := 77, deadline := d }], items := [{ src := .msg 9 }] }

theorem wit_messages : [
    gives (.txRequestConsume 0) up up,
    (requested 0).queHead 127 == some (true, [0x503, 0x0EF00, 8, 0x2000, 0, 100, 77], false),
    gives (.txRequestConsume 0) (requested 1) ((requested 1).quePop 127 true),
    gives (.txRequestConsume 0) ((requested 0).setCan 0 { msgs := List.replicate 64 {} }) ((requested 0).setCan 0 { msgs := List.replicate 64 {} }),
    gives (.txRequestConsume 0) ((requested 0).setCan 3 { msgs := List.replicate 64 {} }) ((requested 0).setCan 3 { msgs := List.replicate 64 {} }),
    run (.txRequestConsume 0) (requested 0) (fun s => ((s.can 3).msgs.map fun y => (y.tag, y.len, y.pgn, y.da, y.transport, y.deadline)) == [(77, 8, 0x0EF00, 5, false, some 1000100000)]
      && (s.can 3).items.length == 1 && s.get (F.QUE_CIDX_CIDX 127) == 1),
    run (.txRequestConsume 0) ((requested 0).put (F.QUE_CFG_ESIZE 127) 0) (fun s => s.flag F.MSG_STAT_BADREQ && s.cans == up.cans && s.get (F.QUE_CIDX_CIDX 127) == 1),
    run (.txRequestConsume 0) ((requested 0).writeWords 0x1000 [0x07610000]) (fun s => s.flag F.MSG_STAT_BADREQ && s.cans == up.cans),
    run (.messageDeadline 0 3 none) (holding (some 1000000000)) (fun s => s.msgOf 3 9 == none) && run (.messageDeadline 0 3 none) (holding (some 1000000001)) (fun s => s.msgOf 3 9 != none),
    ok up R.MSG_CANCEL && run (.msgCancel 0 own 0x80000003 none) (with' (holding none) [(R.MSG_CTAG, 77)]) (fun s => s.msgOf 3 9 == none),
    run (.msgCancel 0 own 0x80000003 none) (with' (holding none) [(R.MSG_CTAG, 78)]) (fun s => s.cans == (holding none).cans && s.sess == up.sess),
    gives (.transportTimeout 0 63) (up.setSes 63 { timer := some 1000000001 }) (up.setSes 63 { timer := some 1000000001 }),
    run (.transportTimeout 0 63) { (up.put (F.MSG_SES_KIND 63) 4).setSes 63 { timer := some 1000000000, block := 5 } with blocks := [5, 6] } (fun s => s.sesKind 63 == 0 && s.blocks == [6] && s.get (F.MSG_SCNT_ABORT 3) == 1),
    gives (.bamPacketSend 0 63) ((up.put (F.MSG_SES_KIND 63) 3).setSes 63 { timer := some 1000000000 }) (((up.put (F.MSG_SES_KIND 63) 3).setSes 63 {}).queuePacket 63),
    ok up R.MSG_PREL && acked (.msgPrel 0 own 5) { up with blocks := [5, 6] } { up with blocks := [6] } R.MSG_PREL,
    ok bus (R.MSG_AC 3) && run (.addressClaimStart 0 own 3 0x180) (with' bus [(R.MSG_NAME_LO 3, 9)]) (fun s => s.acState 3 == 1 && s.get (F.MSG_AC_ADDR 3) == 0xFE && s.get (F.MSG_AC_PREF 3) == 0x80
      && (s.can 3).items == [{ src := .claim, ident := 0x18EEFF80, data := [9, 0, 0, 0, 0, 0, 0, 0] }]),
    run (.addressClaimStart 0 own 3 0x80) (sets bus [(F.MSG_AC_EN 3, 1), (F.MSG_AC_STATE 3, 2)]) (fun s => s.acState 3 == 0 && s.get (F.MSG_AC_ADDR 3) == 0xFE && (s.can 3).claimAt == none),
    gives (.claimSettled 0 3) ((bus.put (F.MSG_AC_STATE 3) 1).setCan 3 { claimAt := some 750000001 }) ((bus.put (F.MSG_AC_STATE 3) 1).setCan 3 { claimAt := some 750000001 }),
    run (.claimSettled 0 3) ((bus.put (F.MSG_AC_STATE 3) 1).setCan 3 { claimAt := some 750000000, cand := 0x81 }) (fun s => s.acState 3 == 2 && s.get (F.MSG_AC_ADDR 3) == 0x81 && (s.can 3).claimAt == none),
    run (.cannotClaimSend 0 3) ((bus.put (F.MSG_AC_STATE 3) 3).setCan 3 { cannotDue := true }) (fun s => !(s.can 3).cannotDue && (s.can 3).items == [{ src := .claim, ident := 0x18EEFFFE, data := List.replicate 8 0 }]),
    gives (.cannotClaimSend 0 3) bus bus
    ].all id = true := by decide +kernel

/-! Lamip, ownership, Ethernet (R446–R473). -/

theorem wit_lamip_refused : [
    (up.atTime 0).lampUp && midKind own == 0 && midKind udp == 1,
    up.lampRefuse udp tyRead (ask []) == some stBadLen && tells (.read 0 udp (ask [])) up tyRead stBadLen [],
    up.lampRefuse udp tyWrite { ask [1] with addr := 0x42 } == some stBadAddr && tells (.write 0 udp { ask [1] with addr := 0x42 }) up tyWrite stBadAddr [],
    up.lampRefuse udp tyClaim { ask [1] with place := 0x5000FFFF } == some stBadPlace && tells (.claim 0 udp (some { ask [1] with place := 0x5000FFFF }) 0) up tyClaim stBadPlace [],
    tells (.reset 0 udp (ask [])) up tyReset stNotOwner [] && tells (.renew 0 udp (some (ask [])) 0) up tyRenew stNotOwner [] && tells (.release 0 udp (some (ask [])) 0) up tyRelease stNotOwner []
      && tells (.handover 0 udp (some (ask [1, 0])) 0) up tyHandover stNotOwner [] && tells (.stage 0 udp (some (ask [1])) 0) up tyStage stNotOwner [] && tells (.commit 0 udp (some (ask [])) 0) up tyCommit stNotOwner [],
    tells (.subscribe 0 udp (ask [])) up tySubscribe stBadLen [] && up.lampRefuse udp tySubscribe (ask []) == some stBadLen
    ].all id = true := by decide +kernel

theorem wit_lamip : [
    up.lampRefuse udp tyRead (ask [1024]) == none && readRefuse (ask [1024]) 1028 == some stBadLen && tells (.read 0 udp (ask [1028])) up tyRead stBadLen [],
    readRefuse (ask [8]) 8 == none && tells (.read 0 udp (ask [8])) (filled up 0x100040) tyRead stOk [0xF4F3F2F1, 0xF8F7F6F5],
    up.wordRefused udp 0x100040 && tells (.write 0 udp (ask [5, 6])) up tyWrite stNotOwner [],
    !up.wordRefused own 0x100040 && run (.write 0 own (ask [5, 6])) up (fun s => s.net.heldResps.map (fun r => (r.frame.status, r.epoch)) == [(stOk, 1)] && s.net.sent == [] && s.readWords 0x100040 2 == [5, 6] && s.byte 0x100048 == 0),
    up.lampRefuse own tyReset (ask []) == none && reachOk 0x1300FFFF && run (.reset 0 own (ask [])) up (fun s => s.net.heldResps.map (fun r => (r.frame.type, r.frame.status)) == [(tyReset, stOk)] && s.regs == up.regs),
    !reachOk 0x30020000 && tells (.reset 0 own { ask [] with place := 0x30020000 }) up tyReset stBadPlace [],
    tells (.subscribe 0 udp (ask [0, 4])) up tySubscribe stOk [] && tells (.subscribe 0 udp (ask [9, 4])) up tySubscribe stBadLen [] && tells (.subscribe 0 udp (ask [60001, 4])) up tySubscribe stBadLen [],
    run (.subscribe 0 udp (ask [10, 4])) up (fun s => s.net.subs == [{ mid := udp, tid := 9, place := 0x1300FFFF, addr := 0x100040, bytes := 4, period := 10, at1 := 1000000000 }] && answerOf s == some (tySubscribe, stOk, [])),
    tells (.subscribe 0 udp (ask [60000, 4])) (up.withNet { up.net with subs := List.replicate 32 {} }) tySubscribe stBusy [],
    up.lampRefuse udp tyEvlog ((ask [0, 0, 32]).withOp 0) == none && run (.evlogRead 0 udp (ask [0, 0, 32])) (up.withEvr { up.evr with buf := [{ seq := 3 }] }) (fun s => s.net.sent.map (fun f => (f.status, f.payload.length)) == [(stOk, 8)]),
    tells (.evlogRead 0 udp (ask [0, 0, 33])) up tyEvlog stBadLen [] && tells (.evlogRead 0 udp (ask [0, 0, 0])) up tyEvlog stBadLen []
    ].all id = true := by decide +kernel

/-- A change of owner for the reason `why`. -/
def newOwner (s : State) (why : Nat) : Bool :=
  s.flag F.OWN_STAT_CHG && s.get F.OWN_LAST_WHY == why && !s.flag F.TLY_STAT_ARMED && s.word R.OWN_CCNT == up.word R.OWN_CCNT + 1 && s.get (F.UPD_KSTAT_STG 5) == 4

/-- Kind 5 is being staged and a burn is armed. -/
def busyOwner : State := sets up [(F.UPD_KSTAT_STG 5, 1), (F.TLY_STAT_ARMED, 1)]
def unowned : State := busyOwner.put F.OWN_STAT_STATE oFree
def settling (l : List Claim) : State := (busyOwner.put F.OWN_STAT_STATE oSettle).withNet { up.net with claims := l, settleAt := 1000000000 }

theorem wit_ownership : [
    up.ownState == oOwned && up.isOwner own && up.lampRefuse udp tyClaim (ask [7]) == none && up.lampRefuse own tyRenew (ask []) == none && up.lampRefuse own tyHandover (ask [5, 0]) == none && ok up R.OWN_CTL && up.isActiveCore own,
    run (.claim 0 own (some (ask [7])) 0) up (fun s => answerOf s == some (tyClaim, stOk, []) && s.net.leaseAt == some 1000000000) && tells (.claim 0 udp (some (ask [7])) 0) up tyClaim stHeld [],
    run (.claim 0 udp (some (ask [7])) 0) unowned (fun s => s.net.claims.map (fun c => (c.mid, c.cls, c.at1)) == [(udp, 7, 1000000000)] && s.ownState == oSettle && s.net.settleAt == 1050000000 && s.get F.OWN_STAT_NCLAIM == 1
      && s.net.sent == []),
    run (.renew 0 own (some (ask [])) 0) up (fun s => answerOf s == some (tyRenew, stOk, []) && s.net.leaseAt == some 1000000000),
    busyOwner.lampRefuse own tyRelease (ask []) == none && run (.release 0 own (some (ask [])) 0) busyOwner (fun _ => true),
    midKind (5 + 0x03000000 * 2 ^ 32) == 3 && run (.handover 0 own (some (ask [5, 0x03000000])) 0) busyOwner (fun _ => true),
    tells (.handover 0 own (some (ask [5, 0x04000000])) 0) busyOwner tyHandover stBadLen [],
    gives (.claim 0 udp none 4) up { up with reply := some (stNotOwner, []) } && gives (.renew 0 udp none 1) up { up with reply := some (stNotOwner, []) } && gives (.release 0 udp none 2) up { up with reply := some (stNotOwner, []) }
      && gives (.handover 0 udp none 8) up { up with reply := some (stNotOwner, []) },
    acked (.renew 0 own none 1) up up.ownLease R.OWN_CTL,
    run (.release 0 own none 2) busyOwner (fun _ => true),
    run (.handover 0 own none 8) (with' busyOwner [(R.OWN_HSUCC_LO, 7), (R.OWN_HSUCC_HI, 0x03FFFFFF)]) (fun s => s.reply == some (stOk, [])),
    run (.claim 0 own none 0x74) unowned (fun s => s.net.claims == [{ mid := own, cls := 7, at1 := 1000000000 }] && s.ownState == oSettle),
    gives (.settleWindowEnd 0) (settling []) ((settling []).put F.OWN_STAT_STATE oFree),
    run (.settleWindowEnd 0) (settling [{ mid := 5, cls := 1 }, { mid := 6, cls := 2, at1 := 9 }, { mid := 4, cls := 2, at1 := 9 }]) (fun s => s.ownState == oOwned && s.ownMid == 4 && s.get F.OWN_STAT_CLASS == 2 && s.net.claims == []
      && newOwner s 1),
    gives (.settleWindowEnd 0) { settling [{ mid := 5 }] with inBeanie := true } { settling [{ mid := 5 }] with inBeanie := true } && gives (.settleWindowEnd 0) ((settling []).withNet { up.net with settleAt := 1000000001 })
      ((settling []).withNet { up.net with settleAt := 1000000001 }),
    gives (.leaseExpire 9000000000) { busyOwner.withNet { up.net with leaseAt := some 1 } with inBeanie := true } (after' { busyOwner.withNet { up.net with leaseAt := some 1 } with inBeanie := true } 8000000000),
    gives (.settleWindowEnd 0) up up,
    gives (.leaseExpire 3000000000) (up.withNet { up.net with leaseAt := some 1 }) (after' (up.withNet { up.net with leaseAt := some 1 }) 2000000000),
    (busyOwner.withNet { up.net with leaseAt := some 1 }).ownState == oOwned && gives (.leaseExpire 3000999999) (busyOwner.withNet { up.net with leaseAt := some 1 }) (after' (busyOwner.withNet { up.net with leaseAt := some 1 }) 2000999999)
      && run (.leaseExpire 3001000000) (busyOwner.withNet { up.net with leaseAt := some 1 }) (fun _ => true)
    ].all id = true := by decide +kernel

/-- A READ of 8 bytes at 0x40 as a frame, with its CRC; `ver`: its version. -/
def frame (ver : Byte) : List Byte :=
  let b : List Byte := [ver, 1, 0, 0] ++ leBytes 4 9 ++ leBytes 4 0x1300FFFF ++ leBytes 8 0x40 ++ leBytes 4 4 ++ leBytes 4 8
  b ++ leBytes 4 (crc32c b).toNat

/-- The service port is in use. -/
def served : State := sets up [(F.LMP_CFG_USBEN, 1), (F.USB_CFG_EN, 1), (F.USB_STAT_CFGD, 1), (F.LMP_CFG_UDPEN, 1), (⟨R.ETH_IP, 31, 0⟩, 0x0A000001)]
def cached (a : Option LampFrame) : State := served.withNet { up.net with cache := [{ mid := 3 * 2 ^ 56, tid := 9, answer := a }] }

/-- A subscription of `udp` to 8 bytes at 0x40, every 10 ms. -/
def subscribed : State := (filled up 0x40).withNet { up.net with subs := [{ mid := udp, tid := 9, place := 0x1300FFFF, addr := 0x40, bytes := 8, period := 10, at1 := 1000000000 }] }

theorem wit_lamip_frames : [
    frameOk (frame 1) && !frameOk (frame 2) && (frameReq (frame 1)).tid == 9 && lampWords 1 != none,
    gives (.lamipFrameReceive 0 .udp) { served with inBeanie := true } { served with inBeanie := true },
    gives (.lamipFrameReceive 0 (.usb (frame 2))) served ((served.countSat F.LMP_CRCCNT_COUNT).raise F.LMP_STAT_CRCERR),
    gives (.lamipFrameReceive 0 (.usb (frame 1))) (cached none) ((cached none).count F.LMP_RXCNT_COUNT),
    run (.lamipFrameReceive 0 (.usb (frame 1))) (cached (some { mid := 3 * 2 ^ 56, type := 1, payload := [7] })) (fun s => answerOf s == some (1, 0, [7]) && s.word R.LMP_RETRY == 1 && s.net.heldResps == []),
    gives (.lamipFrameReceive 0 (.usb (frame 1))) (filled served 0x40) (((filled served 0x40).count F.LMP_RXCNT_COUNT).withNet { up.net with cache := [{ mid := 3 * 2 ^ 56, tid := 9 }] }
      |>.lampTransact (3 * 2 ^ 56) 1 (frameReq (frame 1))),
    gives (.lamipFrameReceive 0 .udp) served served,
    run (.lamipFrameReceive 0 .udp) (served.withNet { up.net with lmpUdp := [(5, 6, frame 2)] }) (fun s => s.net.lmpUdp == [] && s.flag F.LMP_STAT_CRCERR && s.net.sent == []),
    gives (.subscriptionPush 0 udp 9) up up,
    gives (.subscriptionPush 1000000001 udp 9) subscribed (after' subscribed 1),
    run (.subscriptionPush 0 udp 9) subscribed (fun s => s.net.sent.map (fun f => (f.mid, f.push, f.type, f.status, f.payload)) == [(udp, true, tySubscribe, stOk, [0xF4F3F2F1, 0xF8F7F6F5])] && s.regs == up.regs),
    gives (.subscriptionExpire 31000000000 udp 9) subscribed (after' (subscribed.withNet up.net) 30000000000) && gives (.subscriptionExpire 30999999999 udp 9) subscribed (after' subscribed 29999999999),
    gives (.cacheEntryExpire 10000000000 (3 * 2 ^ 56) 9) (cached (some {})) (after' (served.withNet up.net) 9000000000) && gives (.cacheEntryExpire 10000000000 (3 * 2 ^ 56) 9) (cached none) (after' (cached none) 9000000000),
    run (.lamipResetApply 0) (up.withNet { up.net with resets := [(0x3000FFFF, 1000000001)] }) (fun s => s.net.resets == [(0x3000FFFF, 1000000001)] && s.rst == up.rst),
    gives (.lamipResetApply 0) (up.withNet { up.net with resets := [(0x3002FFFF, 1000000000)] }) (up.resetReach 0x3002FFFF 6)
    ].all id = true := by decide +kernel

/-- Ports 0 and 1 have links; station 0x020000000001 is at port 1. -/
def switch : State :=
  (sets up [(F.ETH_PCFG_EN 0, 1), (F.ETH_PSTAT_LINK 0, 1), (F.ETH_PCFG_EN 1, 1), (F.ETH_PSTAT_LINK 1, 1)]).withNet { up.net with macs := [(0x020000000001, 1, 0)], port3 := some 0 }

/-- A frame to `dst` from `src`, of an EtherType that means nothing to the switch. -/
def eth (dst src : Nat) : List Byte := beBytes 6 dst ++ beBytes 6 src ++ [0x99, 0x99] ++ List.replicate 46 0

/-- A tagged one to that station, with these upper bits of its tag. -/
def tagged (tci : Nat) : List Byte := beBytes 6 0x020000000001 ++ beBytes 6 0x020000000005 ++ [0x81, 0, BitVec.ofNat 8 tci, 0, 0x99, 0x99] ++ List.replicate 46 0

/-- The switch of a module at 10.0.0.1; a request for that address by ARP, and a datagram of two bytes to it, from port 5 of 10.0.0.2. -/
def hosted : State := with' switch [(R.ETH_IP, 0x0A000001)]
def arp : List Byte := beBytes 6 (2 ^ 48 - 1) ++ beBytes 6 0x020000000005 ++ [8, 6, 0, 1, 8, 0, 6, 4, 0, 1] ++ beBytes 6 0x020000000005 ++ beBytes 4 0x0A000002 ++ beBytes 6 0 ++ beBytes 4 0x0A000001 ++ List.replicate 18 0
def datagram (port : Nat) : List Byte :=
  beBytes 6 0x020000000001 ++ beBytes 6 0x020000000005 ++ [8, 0, 0x45, 0, 0, 30, 0, 0, 0, 0, 64, 17, 0, 0] ++ beBytes 4 0x0A000002 ++ beBytes 4 0x0A000001 ++ beBytes 2 5 ++ beBytes 2 port ++ [0, 10, 0, 0, 7, 8] ++ List.replicate 16 0

theorem wit_ethernet : [
    (switch.atTime 0).ethUp && switch.portUp 0 && isGroup 0x030000000001 && !isGroup 0x020000000001 && !switch.isArp (eth 1 2) && ipAt (eth 1 2) == none && ptpAt (eth 1 2) == none,
    gives (.switchFrame 0 2 (eth 1 2) {}) switch switch,
    run (.switchFrame 0 0 (eth 0x020000000009 0x030000000005) {}) switch (fun s => s.net.ethOut == [(1, eth 0x020000000009 0x030000000005), (3, eth 0x020000000009 0x030000000005)] && s.net.macs == switch.net.macs
      && s.word (R.ETH_PRX 0) == 1),
    run (.switchFrame 0 0 (eth 0x020000000001 0x030000000005) {}) switch (fun s => s.net.ethOut == [(1, eth 0x020000000001 0x030000000005)]),
    run (.switchFrame 0 1 (eth 0x020000000001 0x030000000005) {}) switch (fun s => s.net.ethOut == []),
    run (.switchFrame 0 0 (eth 0x020000000001 0x020000000005) {}) switch (fun s => s.net.macs == [(0x020000000001, 1, 0), (0x020000000005, 0, 1000000000)]),
    run (.switchFrame 0 0 (eth 0x020000000001 0x020000000005) {}) switch (fun s => s.net.ethOut == [(1, eth 0x020000000001 0x020000000005)]),
    run (.switchFrame 0 0 (eth 0x020000000001 0x020000000005) { full := [(1, 0)] }) switch (fun s => s.net.ethOut == [] && s.net.egress == [] && s.word R.ETH_DROP == 1),
    run (.switchFrame 0 0 (tagged 0xE0) { busy := [1], full := [(1, 0)] }) switch (fun s => s.net.ethOut == [] && s.net.egress == [{ port := 1, queue := 3, bytes := tagged 0xE0 }]),
    nextEgress 1 [{ port := 1, queue := 0, bytes := [1] }, { port := 1, queue := 3, bytes := [2] }, { port := 1, queue := 3, bytes := [3] }] == some { port := 1, queue := 3, bytes := [2] },
    run (.switchFrame 0 0 arp {}) hosted (fun s => s.net.ethOut == [(0, hosted.arpReply arp)]) && hosted.isArp arp,
    run (.switchFrame 0 0 (datagram 41954) {}) hosted (fun s => s.net.ethOut == [] && s.net.lmpUdp == [(0x0A000002, 5, [7, 8])]) && hosted.lampUp,
    run (.switchFrame 0 0 (datagram 41955) {}) hosted (fun s => s.net.ethOut == [(1, datagram 41955)]),
    assoc 0x0A000002 [(0x0A000002, 0x020000000001, ([] : List Byte))] == some (0x020000000001, []) && hosted.ethUp && hosted.ethPorts 0x020000000001 4 == [1] && hosted.net.egress == [],
    run (.linkLoss 0 1) switch (fun s => !s.flag (F.ETH_PSTAT_LINK 1) && s.net.macs == []) && gives (.linkLoss 0 2) switch switch,
    gives (.linkUp 0 2) (switch.raise (F.ETH_PCFG_EN 2)) ((switch.raise (F.ETH_PCFG_EN 2)).raise (F.ETH_PSTAT_LINK 2)) && gives (.linkUp 0 2) switch switch,
    run (.macAddressAgeing 300000000000) switch (fun s => s.net.macs == []) && run (.macAddressAgeing 299999999999) switch (fun s => s.net.macs == switch.net.macs),
    gives (.macAddressAgeing 300000000000) { switch with inBeanie := true } (after' { switch with inBeanie := true } 299000000000),
    run (.usbBusChange 0 true true true) (up.put F.USB_CFG_EN 0) (fun s => !s.flag F.USB_STAT_CONN && !s.flag F.USB_STAT_CFGD),
    run (.usbBusChange 0 true true true) served (fun s => s.flag F.USB_STAT_CONN && s.flag F.USB_STAT_HS && s.flag F.USB_STAT_CFGD)
    ].all id = true := by decide +kernel

/-! The recorder and the fault concentrator (R534–R551). -/

/-- EVR runs with one record; or frozen. -/
def logging : State := up.withEvr { up.evr with running := true, buf := [{ seq := 3, entry := { code := 0x2001 } }] }
def frozen : State := (logging.raise F.EVR_STAT_FROZEN).withFlt { up.flt with queue := [{ code := 0x2002 }] }
def freezing : State := logging.put F.ROLE_STAT_STATE rTakeover

theorem wit_event_log : [
    ok up R.EVR_CTL && freezing.freezable && up.lampRefuse udp tyEvlog (ask [1, 0, 0]) == none,
    acked (.logClear 0 own none) frozen (frozen.raise F.EVR_STAT_REFUSED) R.EVR_CTL && acked (.logFlushCmd 0 own) frozen frozen R.EVR_CTL,
    run (.logUnfreeze 0 own none) frozen (fun s => !s.flag F.EVR_STAT_FROZEN && s.flt.queue == [] && s.reply == some (stOk, [])),
    run (.logClear 0 own none) logging (fun s => s.get F.EVR_LCNT_LCNT == 0 && (s.evr.buf.getLast?.map (fun e => (e.entry.code, e.flushed)) == some (0x200C, false))),
    run (.logFlushCmd 0 own) logging (fun s => s.evr.buf.map (fun e => e.flushed) == [true] && s.get F.EVR_BCNT_BCNT == 0),
    acked (.logUnfreeze 0 own none) logging logging R.EVR_CTL,
    acked (.logFreeze 0 own none) (freezing.put F.EVR_FRZ_TMO 50) (((freezing.put F.EVR_FRZ_TMO 50).raise F.EVR_STAT_FROZEN).withEvr { logging.evr with freezeEnds := 1050000000 }) R.EVR_CTL,
    acked (.logFreeze 0 own none) (logging.withRole { up.role with bootAt := some 0 }) ((logging.withRole { up.role with bootAt := some 0 }).raise F.EVR_STAT_REFUSED) R.EVR_CTL,
    run (.logClear 0 udp (some (ask [9, 0, 0]))) frozen (fun s => answerOf s == some (tyEvlog, stBusy, []) && s.flag F.EVR_STAT_REFUSED && s.mem == frozen.mem),
    run (.logClear 0 udp (some (ask [9, 0, 0]))) logging (fun s => answerOf s == some (tyEvlog, stOk, []) && s.get F.EVR_LCNT_LCNT == 0),
    run (.logFreeze 0 udp (some (ask [9, 0, 0]))) freezing (fun s => answerOf s == some (tyEvlog, stOk, []) && s.flag F.EVR_STAT_FROZEN),
    run (.logUnfreeze 0 udp (some (ask [9, 0, 0]))) frozen (fun s => answerOf s == some (tyEvlog, stOk, []) && !s.flag F.EVR_STAT_FROZEN),
    run (.freezeTimeout 0) (frozen.withEvr { logging.evr with freezeEnds := 1000000000 }) (fun s => !s.flag F.EVR_STAT_FROZEN && s.flt.queue == []),
    gives (.freezeTimeout 0) (frozen.withEvr { logging.evr with freezeEnds := 1000000001 }) (frozen.withEvr { logging.evr with freezeEnds := 1000000001 })
    ].all id = true := by decide +kernel

theorem wit_fault_reports : [
    !logging.armed true && logging.flt.own == [] && eventParams 0x200A == [1, 2, 3],
    gives (.faultReport 0 0x2013 0x3002FFFF 0 0 0 0) logging logging && gives (.faultReport 0 0x2001 0x5002FFFF 0 0 0 0) logging logging,
    run (.faultReport 0 0x2001 0x3002FFFF 1 2 3 4) logging (fun s => s.flt.windows == [{ ancestor := 0x3002FFFF, count := 1, ends := 1001000000, first := { code := 0x2001, place := 0x3002FFFF, time := 1000000000, p1 := 2 } }]),
    run (.faultReport 0 0x2001 0x3002FFFF 1 2 3 4) (logging.withFlt { up.flt with windows := [{ ancestor := 0x3002FFFF, count := 5, ends := 2000000000, first := { code := 0x2001 } }] }) (fun s => s.word R.FLT_COAL == 1
      && s.flt.windows.map (fun w => w.count) == [6]),
    run (.windowEnd 0) (logging.withFlt { up.flt with sec := 1, windows := [{ ends := 1000000000, count := 1, first := { code := 0x2001, place := 0x3002FFFF } }] }) (fun s => s.flt.windows == [] && s.word R.FLT_RCNT == 1),
    gives (.windowEnd 0) (up.withFlt { up.flt with windows := [{ ends := 1000000000 }] }) (up.withFlt { up.flt with windows := [{ ends := 1000000000 }] }),
    run (.faultReport 0 0x2001 0x3002FFFF 1 2 3 4) (logging.withFlt { up.flt with windows := [{ ancestor := 0x3002FFFF, count := 5, ends := 999999999, first := { code := 0x2001 } }] }) (fun s => s.flt.windows.map (fun w => w.count) == [1]),
    run (.faultReport 0 0x2001 0x3002FFFF 1 2 3 4) (logging.withFlt { up.flt with windows := [{ ancestor := 0x3002FFFF, count := 5, ends := 1000000000, first := { code := 0x2001 } }] }) (fun s => s.flt.windows.map (fun w => w.count) == [6]),
    run (.windowEnd 0) (logging.withFlt { up.flt with windows := [{ ends := 1000000001 }] }) (fun s => s.flt.windows.length == 1),
    gives (.dieTemperatureHigh 0 1 1599) logging logging && run (.dieTemperatureHigh 0 1 1600) logging (fun s => s.flt.windows.map (fun w => (w.first.code, w.first.place, w.first.p1)) == [(0x0001, 0x0001FFFF, 1)])
    ].all id = true := by decide +kernel

/-! The halves (R474–R505). -/

/-- Half A has booted, with B healthy: NORMAL, journal on. -/
def normal : State :=
  ((sets up [(F.ROLE_STAT_STATE, rNormal), (F.ROLE_JCFG_EN, 1), (F.ROLE_CFG_FAILEN, 1), (F.ROLE_HEALTH_OK 2, 1)]).withRole { up.role with bootAt := some 0, hbAt := some 998500000 })
    |>.withJnl { up.jnl with ems := 10 }

/-- Every image verifies; or the current one fails. -/
def fine : BootImages := { staged := [], current := [], trialLanes := [], lanes := [] }
def rotten : BootImages := { fine with current := [2] }

theorem wit_epochs : [
    normal.active == some 0 && normal.epochDue && !(after' normal 1).epochDue,
    gives (.epochBoundary 1000000001) normal (after' normal 1),
    run (.epochBoundary 0) (normal.withJnl { normal.jnl with pend := some (7, 5, false, false), next := 8 }) (fun s => s.jnl.pend == some (8, 1000000000, false, false) && s.jnl.next == 9 && s.flag F.ROLE_JSTAT_NOCOMMIT
      && s.get F.ROLE_JSTAT_SKIP == 1 && s.flag F.ROLE_JSTAT_BUSY),
    run (.epochCommit 0) ((normal.put F.ROLE_JSTAT_BUSY 1).withJnl { normal.jnl with pend := some (7, 998499999, false, false) }) (fun _ => true),
    run (.epochCommit 0) (normal.withJnl { normal.jnl with pend := some (7, 998499999, false, false), bad := true }) (fun s => s.jnl.pend == none && s.flag F.ROLE_JSTAT_NOCOMMIT && s.mem == up.mem),
    gives (.epochCommit 0) (normal.withJnl { normal.jnl with pend := some (7, 998500000, false, false) }) (normal.withJnl { normal.jnl with pend := some (7, 998500000, false, false) })
    ].all id = true := by decide +kernel

/-- Failures wait: watchdog before heartbeat. -/
def failing (st : Nat) (r : Option Nat) : State := (normal.put F.ROLE_STAT_STATE st).withRole { normal.role with srcs := [(5, 0x1002FFFF), (1, 0x1002FFFE)], restartAt := r }

theorem wit_failover : [
    run (.heartbeat 1000490000) normal (fun s => s.role.hbAt == some 1000490000 && s.get64 R.ROLE_LHB_LO R.ROLE_LHB_HI == 1000490000 && s.word (R.HMN_HBCNT 0) == 1),
    gives (.heartbeat 1000490000) (normal.withRole { normal.role with beatAt := some 1000000000 }) (after' (normal.withRole { normal.role with beatAt := some 1000000000 }) 490000),
    run (.heartbeat 1000510000) (normal.withRole { normal.role with beatAt := some 999999999 }) (fun s => s.role.hbAt == some 1000510000),
    gives (.heartbeat 1000510001) normal (after' normal 510001) && gives (.heartbeat 1000489999) normal (after' normal 489999),
    gives (.heartbeatLoss 1000499999) normal (after' normal 499999),
    run (.heartbeatLoss 1000500000) normal (fun s => s.role.srcs == [(5, hmnPlace 0)] && s.regs == normal.regs),
    gives (.acoreWatchdogExpire 0 ⟨0, 3⟩) (sets normal [(F.HMN_WDCFG_EN 0, 8), (F.HMN_WDCFG_TMO 0, 1001)]) (sets normal [(F.HMN_WDCFG_EN 0, 8), (F.HMN_WDCFG_TMO 0, 1001)]),
    run (.acoreWatchdogExpire 0 ⟨0, 3⟩) (sets normal [(F.HMN_WDCFG_EN 0, 8), (F.HMN_WDCFG_TMO 0, 1000)]) (fun s => s.role.srcs == [(1, hmnPlace 0)] && s.get (F.HMN_STAT_EXP 0) == 8),
    ok normal (R.HMN_KICK 1 3) && acked (.hmnKick 0 own ⟨1, 3⟩ 0) normal (normal.withRole { normal.role with kicks := [0, 0, 0, 0, 0, 0, 0, 1000000000] }) (R.HMN_KICK 1 3),
    ok normal R.ROLE_CTL && gives (.roleFail 0 udp 1) normal { normal with reply := some (stNotOwner, []) },
    run (.roleFail 0 own 0xABCD0001) normal (fun s => s.role.fcode == 0xABCD && s.role.srcs == [(6, 0x10FFFFFF)] && s.regs == normal.regs),
    run (.roleFail 0 own 0xABCD0001) (sets up [(F.ROLE_STAT_ACTIVE, 0), (F.ROLE_STAT_STATE, rRestart)]) (fun s => s.active == none && s.role.fcode == 0xABCD && s.role.srcs == [(6, rolePlace)] && s.reply == some (stOk, [])),
    run (.failoverDetect 0) ((sets up [(F.ROLE_STAT_ACTIVE, 0), (F.ROLE_STAT_STATE, rRestart)]).withRole { up.role with booting := some 1, srcs := [(6, rolePlace)] }) (fun s => s.active == none && s.roleState == rNohalf
      && s.role.srcs == [] && s.role.booting == none),
    gives (.failoverDetect 0) normal normal,
    gives (.failoverDetect 0) (normal.withRole { normal.role with srcs := [(4, 0x20FFFFFF)] }) ((normal.withRole { normal.role with srcs := [] }).halfFails 1 4 0x20FFFFFF),
    (failing rNormal none).active == some 0 && lowestSource (failing rNormal none).role.srcs == (1, 0x1002FFFE) && run (.failoverDetect 0) (failing rNormal none) (fun _ => true),
    run (.failoverDetect 0) (failing rSingle none) (fun s => s.role.booting == some 0 && s.role.restartAt == some 1000000000),
    run (.failoverDetect 0) (failing rSingle (some 0)) (fun s => s.rst.faultN && s.role.booting == none)
    ].all id = true := by decide +kernel

/-- Half B boots after a failure of A, 150 ms ago or later. -/
def taking (d : Nat) : State := (sets normal [(F.ROLE_STAT_STATE, rTakeover), (F.ROLE_STAT_ACTIVE, 0)]).withRole { normal.role with booting := some 1, failed := 0, detectAt := d, bootAt := none }

theorem wit_takeover : [
    gives (.takeoverComplete 0 fine) normal normal,
    ((taking 850000000).recoverBoot 1 fine).2 && !((taking 850000000).recoverBoot 1 rotten).2,
    run (.takeoverComplete 0 rotten) (taking 850000000) (fun s => s.rst.faultN && s.role.booting == none),
    run (.takeoverComplete 0 fine) (taking 849999999) (fun s => s.rst.faultN && s.role.booting == none),
    run (.takeoverComplete 0 fine) (taking 850000000) (fun _ => true)
    ].all id = true := by decide +kernel

/-- A self-test is due; one runs. -/
def testable : State := (normal.put F.ROLE_STCFG_PER 0).withRole { normal.role with asked := some 1000000000 }
def testing : State := sets normal [(F.ROLE_STAT_SBST, sbTest), (F.ROLE_HEALTH_RUNNING 2, 1)]
/-- A swap waits for its standby. -/
def swapping (n : Nat) (b : Option Nat) : State := (sets normal [(F.ROLE_STAT_STATE, rSwap), (F.ROLE_STAT_SBST, sbBoot)]).withRole { normal.role with swapAt := 800000000, swapMiss := n, swapB := b }

theorem wit_standby : [
    testable.testAllowed && testable.testDue == 1000000000 && testable.role.tested.length == 2,
    run (.selfTestStart 0 39550) testable (fun s => s.sbst == sbTest && s.flag (F.ROLE_HEALTH_RUNNING 2) && s.role.asked == none && s.role.testBase == 1000000000),
    gives (.selfTestStart 0 39551) testable (testable.withRole { testable.role with tryAt := 11000000000 }),
    gives (.selfTestStart 0 0) testing testing,
    run (.selfTestComplete 0 1 fine) testing (fun s => s.sbst == sbOff && !s.flag (F.ROLE_HEALTH_RUNNING 2) && s.get (F.ROLE_HEALTH_RESULT 2) == 1 && s.role.tested.getD 1 none == some 1000000000 && s.flag (F.ROLE_HEALTH_OK 2)
      && s.get (F.ROLE_HEALTH_FAILS 2) == 0),
    run (.selfTestComplete 0 2 fine) testing (fun s => s.get (F.ROLE_HEALTH_RESULT 2) == 2 && !s.flag (F.ROLE_HEALTH_OK 2) && s.get (F.ROLE_HEALTH_FAILS 2) == 1),
    run (.selfTestOverdue 3601000000000) testable (fun s => s.flag (F.ROLE_HEALTH_OVERDUE 2)) && gives (.selfTestOverdue 3600999999999) testable (after' testable 3599999999999),
    ok normal R.ROLE_CTL && acked (.stest 0 own 4) normal (normal.withRole { normal.role with asked := some 1000000000, tryAt := 1000000000 }) R.ROLE_CTL && acked (.stest 0 own 4) testing (testing.raise F.ROLE_STAT_CFGERR) R.ROLE_CTL,
    acked (.swap 0 own 2) (normal.put F.ROLE_STAT_STATE rSingle) ((normal.put F.ROLE_STAT_STATE rSingle).raise F.ROLE_STAT_CFGERR) R.ROLE_CTL,
    run (.swap 0 own 2) normal (fun s => s.roleState == rSwap && s.sbst == sbBoot && s.role.swapAt == 1000000000 && s.active == some 0),
    acked (.swapAbort 0 own 8) normal normal R.ROLE_CTL && run (.swapAbort 0 own 8) (swapping 0 none) (fun s => s.roleState == rNormal && s.sbst == sbOff && s.active == some 0),
    run (.standbyReady 0 fine) (swapping 0 none) (fun s => s.sbst == sbReady && s.roleState == rSwap && s.flag (F.ROLE_HEALTH_IMGOK 2)),
    run (.standbyReady 0 rotten) (swapping 0 none) (fun s => s.roleState == rSingle && s.sbst == sbOff && !s.flag (F.ROLE_HEALTH_OK 2)),
    gives (.swapAbandon 0 0) normal normal && run (.swapAbandon 0 0) (swapping 0 none) (fun s => s.roleState == rSingle && !s.flag (F.ROLE_HEALTH_OK 2)),
    run (.swapAbandon 0 2) (swapping 0 (some 998500000)) (fun s => s.roleState == rNormal && s.jnl.pend == none) && run (.swapAbandon 0 3) (swapping 10 none) (fun s => s.roleState == rNormal)
    ].all id = true := by decide +kernel

/-- Mitten holds since `a`, or ramps finger 31 from code 1000. -/
def mitten (a : Nat) : State := (sets powered [(F.MIT_STAT_STATE, mHold), (⟨R.MIT_FHELD, 31, 0⟩, 0x80000000), (F.MIT_CFG_HOLD, 250), (F.MIT_CFG_RAMP, 10)]).withMit { up.mit with engagedAt := some a }
def ramping : State := ((powered.put F.MIT_STAT_STATE mRamp).setFng 31 { code := 1000 }).withMit { up.mit with expiredAt := 999000000, ramp := 10, fingers := [(31, 1000)] }

theorem wit_mitten : [
    gives (.mittenExpire 0) (mitten 750000001) (mitten 750000001),
    run (.mittenExpire 0) (mitten 750000000) (fun s => s.flag F.MIT_STAT_EXP && s.get F.MIT_CNT_EXP == 1 && s.word R.MIT_FHELD == 0 && s.get F.MIT_STAT_STATE == mRamp),
    gives (.mittenExpire 0) powered powered,
    ramping.mitReaches ⟨R.PST_FHELD, 31, 31⟩ && run (.mittenRampStep 0) ramping (fun s => s.mit.step == 1 && s.mit.fingers == [(31, 1000)] && (s.fng 31).code == ramping.rampCode 31 1000 1 10 && (s.fng 31).code == 900),
    run (.mittenRampStep 0) (ramping.withMit { ramping.mit with step := 0, ramp := 1 }) (fun s => s.mit.fingers == [] && (s.fng 31).code == 0),
    gives (.mittenRampStep 0) (ramping.withMit { ramping.mit with expiredAt := 999000001 }) (ramping.withMit { ramping.mit with expiredAt := 999000001 })
    ].all id = true := by decide +kernel

/-! Reset, power, the boundary scan (R506–R533, R590–R592, R601). -/

/-- A module reset of cause 1 since 1 s, its source released at `a`. -/
def held (a : Option Nat) : State := (up.put F.ROLE_STAT_ACTIVE 0).withRst { up.rst with hold := some (1, 1000000000), released := a, resetN := true }
def flushed : State := (up.put F.RST_STAT_FLUSH 1).withRst { up.rst with powered := false, flushAt := some 1000000000 }

/-- Before power; neither location of the boot selector can be read. -/
def unwritten : State := { State.reset with poison := [selBase 0, selBase 1] }

theorem wit_module_resets : [
    run (.thermalShutdown 0) flushed (fun s => s.rst.hold == some (4, 1000000000) && s.rst.released == none && s.rst.powered && s.rst.nextCause == 1 && !s.flushing),
    (flushed.atTime 1019999999).down == false && (flushed.atTime 1020000000).flushOver && (flushed.atTime 1020000000).down && gives (.flushAbandon 1020000000) flushed (after' flushed 20000000),
    up.rst.powered && !up.flushing,
    run (.resetNAssert 0) (filled up 0x40) (fun s => s.rst.hold == some (3, 1000000000) && s.get F.RST_CAUSE_CAUSE == 3 && s.active == none && s.rst.resetN && s.rst.released == none && s.start == some 0 && s.byte 0x40 == 0),
    gives (.resetNAssert 0) (held none) (held none),
    run (.brownOut 0) (filled up 0x300020000) (fun s => s.rst.hold == some (2, 1000000000) && !s.rst.powered && s.rst.nextCause == 2 && s.start == none && s.byte 0x300020000 == 0xF1),
    run (.thermalShutdown 0) up (fun s => s.rst.hold == some (4, 1000000000) && s.rst.released == none && s.rst.powered),
    gives (.brownOut 0) State.reset State.reset && gives (.resetNAssert 0) State.reset State.reset && gives (.powerOn 0) up up,
    run (.powerOn 5) unwritten (fun s => s.rst.hold == some (1, 5) && s.get F.RST_CAUSE_CAUSE == 1 && s.rst.powered && s.rst.released == some 5 && s.tly.since == some 5 && s.readN 0x3010FFF10 4 == 0),
    gives (.thermalRelease 0) (up.withRst { up.rst with hold := some (4, 5) }) (up.withRst { up.rst with hold := some (4, 5), released := some 1000000000 }) && gives (.thermalRelease 0) up up,
    run (.flushAbandon 0) flushed (fun s => !s.rst.powered && s.rst.nextCause == 1 && !s.flushing) && gives (.flushAbandon 0) up up,
    !up.down && run (.powerFailFlush 0 false) up (fun s => s.flushing && !s.rst.powered && s.rst.nextCause == 8 && s.rst.flushAt == some 1000000000 && s.flag F.RST_STAT_PWRF),
    gives (.vholdCharged 0) up (up.raise F.RST_STAT_VHOK) && gives (.vholdCharged 0) State.reset State.reset
    ].all id = true := by decide +kernel

/-- Half A boots after a reset. -/
def booting : State := (up.put F.ROLE_STAT_STATE rSingle).withRst { up.rst with booting := true }

/-- IGN is high; RESET_N is not driven low from outside since `a`. -/
def pins (a : Nat) : ResetPins := { ign := true, resetHigh := a }

/-- A reset by RESET_N since 1 s. -/
def heldLow : State := (held none).withRst { (held none).rst with hold := some (3, 1000000000) }

theorem wit_boot : [
    heldLow.sourceEnd 1000000005 == some 1000000005 && heldLow.sourceEnd 5 == some 1000000000 && (held none).sourceEnd 0 == none && up.sourceEnd 0 == none,
    gives (.resetRelease 1010000000 1 false (pins 1010000001) none fine fine []) heldLow (after' heldLow 10000000)
      && gives (.resetRelease 1010000004 1 false (pins 1000000005) none fine fine []) heldLow (after' heldLow 10000004),
    run (.resetRelease 1010000005 1 false (pins 1000000005) none fine fine []) heldLow (fun s => s.rst.hold == none && s.rst.booting && s.flag F.RST_STAT_IGN),
    gives (.resetRelease 0 1 false (pins 0) none fine fine []) up up,
    gives (.resetRelease 1009999999 1 false (pins 0) none fine fine []) (held (some 1000000000)) (after' (held (some 1000000000)) 9999999),
    !tapHolds (held none).tap.ir && run (.resetRelease 1010000000 1 false (pins 0) none fine fine []) (held (some 1000000000)) (fun s => s.rst.hold == none && s.rst.booting && s.evr.running && s.roleState == rSingle && s.ownState == oOwned
      && s.active == some (s.get F.RST_STRAP_CODE % 2) && s.get F.RST_STRAP_N == 1 && s.flag F.RST_STAT_IGN),
    gives (.bootComplete 0 fine) up up,
    run (.bootComplete 0 fine) booting (fun s => s.role.bootAt == some 1000000000 && !s.rst.faultN && !s.rst.booting && s.flag (F.HMN_STAT_HB 0) && s.flag (F.ROLE_HEALTH_IMGOK 1)),
    ((booting.dropIncomplete).imgBoot 1 rotten).2 == none && run (.bootComplete 0 rotten) booting (fun _ => true)
    ].all id = true := by decide +kernel

theorem wit_power_die : [
    run (.overvoltage 0 37000) (load lOn {}) (fun s => s.drv.ovv && s.flag F.PST_STAT_OVV && !s.closed 15) && gives (.overvoltage 0 37000) State.reset State.reset,
    gives (.overvoltageRecover 0) up up && run (.overvoltageRecover 0) (powered.withDrv { powered.drv with ovv := true }) (fun s => !s.drv.ovv),
    run (.clockCheckFail 0 5000 false) (load lOn {}) (fun s => s.flag F.PST_STAT_CLKF && !s.closed 15) && gives (.clockCheckFail 0 5000 false) State.reset State.reset,
    gives (.clockCheckRecover 0) up up && run (.clockCheckRecover 0) (powered.raise F.PST_STAT_CLKF) (fun s => !s.flag F.PST_STAT_CLKF && s.flag F.PST_STAT_APPLIED),
    gives (.safeNAssert 0) State.reset (State.reset.raise F.RST_STAT_SAFE) && run (.safeNAssert 0) (up.raise F.PST_STAT_SAFE) (fun s => s.flag F.PST_STAT_SAFEL && s.flag F.PST_STAT_HOLDS),
    run (.safeNAssert 0) powered (fun s => s.flag F.PST_STAT_SAFE && s.flag F.PST_STAT_SAFEL && s.word R.PST_FHELD == 0xFFFFFFFF && s.word R.PST_OHELD == 0x00FFFFFF && s.flag F.PST_STAT_HOLDS),
    gives (.safeNRelease 0) (sets up [(F.PST_STAT_SAFE, 1), (F.RST_STAT_SAFE, 1)]) (((sets up [(F.PST_STAT_SAFE, 1), (F.RST_STAT_SAFE, 1)]).put F.PST_STAT_SAFE 0).put F.RST_STAT_SAFE 0)
    ].all id = true := by decide +kernel

/-- RST_PLACE names `p`. -/
def aimed (p : Nat) : State := with' up [(R.RST_PLACE, p)]
/-- Hatband waits for idle since 1 s. -/
def idling (p : Nat) : State := up.withRst { up.rst with blocks := [{ place := p, startAt := 1000000000 }] }
def sleeping : State := { (sets up [(F.ROLE_STAT_ACTIVE, 0), (F.RST_BCFG_IGNW, 1)]) with inBeanie := true }

theorem wit_block_resets : [
    ok up R.RST_CTL && run (.softwareReset 0 own 1) (aimed 0x30020000) (fun s => s.rst == up.rst && s.reply == some (stOk, [])),
    run (.softwareReset 0 own 1) (aimed plModule) (fun s => s.rst.hold == some (5, 1000000000) && s.rst.released == some 1000000000 && s.get F.RST_CAUSE_CAUSE == 5),
    reachOk 0x3002FFFF && run (.softwareReset 0 own 1) (aimed 0x3002FFFF) (fun s => s.blockWaits 0x3002FFFF == some 1000000000),
    ok (up.put F.RST_STAT_FLUSH 1) R.RST_CTL && acked (.beanieEnter 0 own 2) (up.put F.RST_STAT_FLUSH 1) (up.put F.RST_STAT_FLUSH 1) R.RST_CTL,
    acked (.beanieEnter 0 own 2) normal (normal.withRst { normal.rst with entering := true }) R.RST_CTL,
    run (.beanieEnter 0 own 2) up (fun s => s.inBeanie && s.active == none && !s.evr.running && s.reply == some (stOk, [])),
    gives (.blockIdle 0 0x3002FFFF) up up && gives (.blockResetForce 0 0x3002FFFF) up up,
    run (.blockIdle 0 0x3002FFFF) (idling 0x3002FFFF) (fun s => s.blockWaits 0x3002FFFF == none && s.blockHeld 0x3002FFFF),
    gives (.blockIdle 1000100001 0x3002FFFF) ((idling 0x3002FFFF).put F.RST_IDLE_TMO 100) (after' ((idling 0x3002FFFF).put F.RST_IDLE_TMO 100) 100001)
      && run (.blockIdle 1000100000 0x3002FFFF) ((idling 0x3002FFFF).put F.RST_IDLE_TMO 100) (fun s => s.blockHeld 0x3002FFFF),
    gives (.blockResetForce 1000099999 0x3002FFFF) ((idling 0x3002FFFF).put F.RST_IDLE_TMO 100) (after' ((idling 0x3002FFFF).put F.RST_IDLE_TMO 100) 99999),
    gives (.blockResetForce 2000000000 0x3004FFFF) (idling 0x3004FFFF) (after' (idling 0x3004FFFF) 1000000000) && fieldBlock 0 4 == 0x3004FFFF,
    run (.blockResetForce 1000100000 0x3002FFFF) ((idling 0x3002FFFF).put F.RST_IDLE_TMO 100) (fun s => s.blockWaits 0x3002FFFF == none && s.flag F.RST_STAT_TFORCE && s.word R.RST_FCNT == 1),
    sleeping.beanieDue true && run (.beanieWake 0 true) sleeping (fun s => !s.inBeanie && s.rst.hold == some (9, 1000000000) && s.get F.RST_CAUSE_CAUSE == 9),
    gives (.beanieWake 0 true) up up && gives (.beanieWake 0 false) (sleeping.put F.RST_BCFG_TIMW 0) (sleeping.put F.RST_BCFG_TIMW 0)
    ].all id = true := by decide +kernel

def tck : TapEdge := { time := 0, dbgEn := true }
/-- Levels at the balls: the first cell's is high. -/
def levels : BitVec 88 := 1
/-- The instruction `ir` is in force with `cells` updated. -/
def scan (ir : Byte) (cells : BitVec 88) : State := up.withTap { dbgEn := true, ir := ir, cells := cells }

theorem wit_boundary_scan : [
    run (.extest tck (some (levels, 6))) up (fun s => s.tap == { dbgEn := true, ir := 0x00, cells := 6, out := some (up.captureCells levels) } && s.rst.hold == some (3, 1000000000) && s.rst.released == none),
    run (.extest tck none) up (fun s => s.tap == { dbgEn := true, ir := 0x00 })
      && gives (.samplePreload tck levels 8) up (up.withTap { dbgEn := true, ir := 0x01, cells := 8, out := some (up.captureCells levels) }),
    gives (.idcode tck) up (up.withTap { dbgEn := true, ir := 0x02, out := some 0x04B0774B }) && gives (.bypass tck 250) up (up.withTap { dbgEn := true, ir := 0xFF, out := some 0 }),
    run (.highz tck) up (fun s => s.tap == { dbgEn := true, ir := 0x03, out := some 0 } && s.rst.hold == some (3, 1000000000)) && run (.clamp tck) up (fun s => s.tap == { dbgEn := true, ir := 0x04, out := some 0 }),
    gives (.idcode { time := 0, dbgEn := false }) (up.withTap { dbgEn := true, ir := 0x01, out := some 5 }) (up.withTap { dbgEn := false, ir := 0x02 }),
    gives (.tapResetRelease 0) ((held none).withTap { dbgEn := true, ir := 0x03 }) (((held none).withTap { dbgEn := true, ir := 0x02 }).withRst { (held none).rst with released := some 1000000000 }),
    gives (.dbgEnFall 0) (up.withTap { dbgEn := true, ir := 0x01, out := some 5 }) (up.withTap { dbgEn := false, ir := 0x02 }),
    scanCells.length == 88 && scanCells[87]?.isSome && scanCells.all (fun c => c.1 != .trg 8),
    (List.range 8).all (fun n => scanCells[37 + 3 * n]? == some (.trg n, .output) && scanCells[38 + 3 * n]? == some (.trg n, .enable)),
    (scan 0x04 (3 * 2 ^ 58)).trgLevel 7 == some true && (scan 0x00 (2 * 2 ^ 58)).trgLevel 7 == some false && (scan 0x04 0).trgLevel 7 == none && (scan 0x03 (3 * 2 ^ 58)).trgLevel 7 == none
      && (scan 0x01 (3 * 2 ^ 58)).trgLevel 7 == up.trgLine 7,
    (up.captureCell levels 0 (.ign, .input)) == true && (up.captureCell levels 1 (.faultN, .driveLow)) == up.rst.faultN
    ].all id = true := by decide +kernel

/-! Images and the tally (R552–R573). -/

/-- A STAGE or COMMIT of kind 2 by Lamip: bytes at offset `o`. -/
def image (o : Nat) (p : List Word) : LampReq := { tid := 9, place := 0x30060002, addr := BitVec.ofNat 64 o, payload := p }

/-- The command does nothing in Beanie. -/
def unmoved (i : Instr) (s : State) : Bool := gives i { s with inBeanie := true } { s with inBeanie := true }

/-- Kind 2 is open with 4 bytes received. -/
def opened : State := sets up [(F.UPD_KSTAT_STG 2, stgOpen), (⟨R.UPD_SRCV 2, 31, 0⟩, 4)]

theorem wit_staging : [
    imagePlace (image 0 []).at == some 2 && up.lampRefuse own tyStage (image 0 [7]) == none && ok up R.UPD_SCMD && ok up R.UPD_CTL,
    tells (.stage 0 own (some (ask [7])) 0) up tyStage stBadPlace [],
    opened.stageCheck 2 8 4 == stBadLen && tells (.stage 0 own (some (image 8 [7])) 0) opened tyStage stBadLen [],
    run (.stage 0 own (some (image 4 [0x04030201])) 0) opened (fun s => s.net.heldResps.map (fun r => r.frame.status) == [stOk] && s.stg 2 == stgOpen && s.word (R.UPD_SRCV 2) == 8 && s.nandBytes 2 1 4 4 == [1, 2, 3, 4]),
    run (.stage 0 own (some (image 0 [0x04030201])) 0) up (fun s => s.stg 2 == stgOpen && s.word (R.UPD_SRCV 2) == 4),
    run (.stage 0 own none 0x80000002) (with' up [(R.UPD_SSRC_LO, 0x40), (R.UPD_SLEN, 8)]) (fun s => s.upd.staging == [(2, 0x40, 0, 8)] && s.flag F.UPD_STAT_SBUSY && s.stg 2 == stgOpen),
    run (.stage 0 own none 0x80000002) (with' up [(R.UPD_SOFS, 8), (R.UPD_SLEN, 8)]) (fun s => s.flag F.UPD_STAT_CFGERR && s.upd == up.upd && s.stg 2 == up.stg 2),
    gives (.stageDone 0 2) up up,
    run (.stageDone 0 2) ((filled opened 0x40).withUpd { up.upd with staging := [(2, 0x40, 0, 8)] }) (fun s => s.upd.staging == [] && s.word (R.UPD_SRCV 2) == 8 && s.nandBytes 2 1 0 2 == [0xF1, 0xF2]),
    run (.stageDone 0 2) ((opened.put (F.UPD_KSTAT_STG 2) stgAbandoned).withUpd { up.upd with staging := [(2, 0x40, 0, 8)] }) (fun s => s.upd == up.upd),
    unmoved (.stageDone 0 2) (opened.withUpd { up.upd with staging := [(2, 0x40, 0, 8)] }),
    run (.imageAbort 0 own 0x20004) opened (fun s => s.stg 2 == stgEmpty && s.word (R.UPD_SRCV 2) == 0 && s.reply == some (stOk, [])),
    run (.imageAbort 0 own 0x20004) up (fun s => s.flag F.UPD_STAT_CFGERR && s.upd == up.upd)
    ].all id = true := by decide +kernel

/-- A whole staged image of kind `k`, of 512 bytes, with a header that passes. -/
def staged (k : Nat) : State :=
  let h : List (Nat × Byte) := [(0, 0x47), (1, 0x4D), (2, 0x49), (3, 0x4B), (4, 1), (6, BitVec.ofNat 8 k), (9, 2), (24, 1)]
  (sets up [(F.UPD_KSTAT_STG k, stgOpen), (⟨R.UPD_SRCV k, 31, 0⟩, 512)]).withUpd { up.upd with nand := h.map fun e => (nandBase k 1 + e.1, e.2) }

/-- Kind 2 runs its trial since `a`. -/
def trying (a : Nat) : State :=
  (sets up [(F.UPD_KSTAT_TRY 2, 1), (F.UPD_KSTAT_RUNTRY 2, 1), (F.UPD_KSTAT_STG 2, stgTrial), (⟨R.UPD_TVER 2, 31, 0⟩, 77)]).setImg 2 { runAt := some a }

theorem wit_images : [
    headerOk 2 ((staged 2).nandBytes 2 1 0 512) && headerOk 1 ((staged 1).nandBytes 1 1 0 512) && up.lampRefuse own tyCommit (image 0 []) == none && ok up R.UPD_FRST,
    run (.commit 0 own (some (image 0 [])) 0) opened (fun s => s.net.sent.any (fun f => f.type == tyCommit && f.status != stOk) && s.upd == opened.upd),
    run (.commit 0 own (some (image 0 [])) 0) (staged 2) (fun s => s.flag (F.UPD_KSTAT_TRY 2) && s.get (F.UPD_KSTAT_TRIES 2) == 0 && s.stg 2 == stgTrial && s.word R.UPD_BSEQ == 1 && s.net.heldResps.length == 1),
    run (.commit 0 own (some { image 0 [] with place := 0x30060001 }) 0) (staged 1) (fun s => (s.img 1).committing && s.stg 1 == stgComplete && (s.img 1).resp.isSome && s.flag F.UPD_STAT_SBUSY),
    run (.commit 0 own none 0x20002) (staged 2) (fun s => s.flag (F.UPD_KSTAT_TRY 2) && s.reply == some (stOk, [])) && run (.commit 0 own none 0x20002) up (fun s => s.flag F.UPD_STAT_CFGERR && s.upd == up.upd),
    run (.confirm 600999999999 own 0x20001) (trying 1000000000) (fun s => s.get (F.UPD_KSTAT_CUR 2) == 1 && !s.flag (F.UPD_KSTAT_TRY 2) && !s.flag (F.UPD_KSTAT_RUNTRY 2) && s.stg 2 == stgEmpty && s.word (R.UPD_CVER 2) == 77),
    run (.confirm 601000000000 own 0x20001) (trying 1000000000) (fun s => s.flag F.UPD_STAT_CFGERR && s.get (F.UPD_KSTAT_CUR 2) == 0),
    gives (.commitCopyDone 0) up up,
    run (.commitCopyDone 0) ((staged 1).setImg 1 { committing := true, resp := some {} }) (fun s => !(s.img 1).committing && s.flag (F.UPD_KSTAT_TRY 1) && s.stg 1 == stgTrial && s.net.heldResps.length == 1),
    run (.trialTimeout 601000000000 2) (trying 1000000000) (fun s => !s.flag (F.UPD_KSTAT_TRY 2) && s.flag (F.UPD_KSTAT_FALLBK 2) && s.stg 2 == stgComplete),
    gives (.trialTimeout 600999999999 2) (trying 1000000000) (after' (trying 1000000000) 599999999999) && gives (.trialTimeout 0 2) up up,
    unmoved (.commitCopyDone 0) ((staged 1).setImg 1 { committing := true }) && gives (.trialTimeout 601000000000 2) { trying 1000000000 with inBeanie := true } (after' { trying 1000000000 with inBeanie := true } 600000000000)
      && gives (.blockRestartDone 0 0x3002FFFF fine []) { up.withUpd { up.upd with restarting := [0x3002FFFF] } with inBeanie := true } { up.withUpd { up.upd with restarting := [0x3002FFFF] } with inBeanie := true },
    run (.blockRestart 0 own 0x3002FFFF) up (fun s => s.upd.restarting == [0x3002FFFF] && s.reply == some (stOk, [])) && acked (.blockRestart 0 own 0x30020000) up (up.raise F.UPD_STAT_CFGERR) R.UPD_FRST,
    gives (.blockRestartDone 0 0x3002FFFF fine []) up up && run (.blockRestartDone 0 0x3002FFFF fine []) (up.withUpd { up.upd with restarting := [0x3002FFFF] }) (fun s => s.upd.restarting == [])
    ].all id = true := by decide +kernel

/-- The tally is armed until `e`; a burn of setting 1 runs in row 0. -/
def armed (e : Nat) : State := (up.raise F.TLY_STAT_ARMED).withTly { up.tly with armEnds := e }
def burning : State := (up.raise F.TLY_STAT_BUSY).withTly { up.tly with burn := some (1, 0, List.replicate (tallyLen 1) 5, 2, own) }

theorem wit_tally : [
    ok up R.TLY_ARM && ok up R.TLY_CMD && acked (.tallyArm 0 own 0x54414C59) up ((up.raise F.TLY_STAT_ARMED).withTly { up.tly with armEnds := 1001000000 }) R.TLY_ARM && acked (.tallyArm 0 own 0x54414C58) up up R.TLY_ARM,
    gives (.tallyArmExpire 0) (armed 1000000000) ((armed 1000000000).put F.TLY_STAT_ARMED 0) && gives (.tallyArmExpire 0) (armed 1000000001) (armed 1000000001),
    up.tallyAllowed 1 && up.tallyNext 1 == some 0 && run (.tallyBurn 0 own 0x80000001 8000) (armed 1000000000) (fun s => s.flag F.TLY_STAT_BUSY && s.tly.burn == some (1, 0, up.tallyData 1, 0, own) && s.mem == up.mem),
    run (.tallyBurn 0 own 0x80000001 7999) (armed 1000000000) (fun s => s.flag F.TLY_STAT_REFUSED && s.tly == (armed 1000000000).tly) && run (.tallyBurn 0 own 0x80000001 8000) (armed 999999999) (fun s => s.flag F.TLY_STAT_REFUSED),
    gives (.tallyBurnDone 0 []) up up,
    unmoved (.tallyBurnDone 0 []) burning,
    run (.tallyBurnDone 0 (tallyImage 0 burning.tallyHours 2 own (List.replicate (tallyLen 1) 5))) burning (fun s => s.tly.burn == none && !s.flag F.TLY_STAT_BUSY && s.get F.TLY_STAT_LASTROW == 0 && s.get F.TLY_STAT_LASTSET == 1 && s.flag F.TLY_STAT_DONE),
    run (.tallyBurnDone 0 []) burning (fun s => s.flag F.TLY_STAT_BURNFAIL && (s.byte (tallyRow 1 0)).getLsbD 1)
    ].all id = true := by decide +kernel

theorem test_reset_state : [
    State.reset.canonical, State.reset.get (F.QUE_CFG_LOG2N 127) == 4, State.reset.word R.RST_PLACE == 0x0FFFFFFF, State.reset.get (F.LDS_CUR_ILAT 15) == 0x19, State.reset.get (F.LDS_CUR_ILAT 0) == 0x32,
    State.reset.word (R.LPD_CSCL 1 255) == 2 ^ 24, State.reset.ownMid == 1, State.reset.word (R.HRA_CALAGE 7) == 65535].all id = true := by decide +kernel

/-! WellFormed: for each check a term that it refuses. -/

theorem test_wellformed : [
    (Instr.registerWrite 0 own 0x400020000 1).wellFormed, (Instr.captureRead 0 udp 0xFFFFFFFFFFFC).wellFormed, (Instr.captureRead 0 (2 ^ 57 + 0x3FF) 0).wellFormed, (Instr.captureRead 0 (3 * 2 ^ 56) 0).wellFormed,
    (Instr.frameReceived 0 0 { ident := 0x7FF, dlc := 8, data := List.replicate 8 0 } false).wellFormed, (Instr.canWakeDetect 0 0 .badFrame).wellFormed, (Instr.read 0 udp (ask [4])).wellFormed].all id = true := by decide +kernel

theorem test_ill_formed : [
    Instr.registerWrite 0 3 0x400020000 1, .registerWrite 0 own 0x400020002 1, .captureRead 0 own (2 ^ 48), .hmnKick 0 (2 ^ 56 * 4) ⟨0, 0⟩ 0, .stest 0 (3 * 2 ^ 56 + 1) 4, .swap 0 (2 ^ 57 + 0x400) 2,
    .calRotationStart 0 (some (0, 1)), .frameReceived 0 0 { ident := 0x800 } false, .frameReceived 0 0 { dlc := 16 } false, .frameReceived 0 0 { data := List.replicate 9 0 } false,
    .frameReceived 0 0 { fdf := true, rtr := true } false, .canWakeDetect 0 0 (.frame { ident := 0x800 }), .read 0 own (ask (List.replicate 257 0)), .claim 0 own (some (ask (List.replicate 257 0))) 0,
    .lamipFrameReceive 0 (.usb (List.replicate 1053 0)), .blockIdle 0 (2 ^ 32), .blockResetForce 0 (2 ^ 32), .tallyBurnDone 0 (List.replicate 65 0),
    .measurementEpoch 0 [⟨5, 0, 0, 0, 0, 0, 0, false⟩, ⟨5, 0, 0, 0, 0, 0, 0, false⟩] (0, 0) (0, 0)].all (fun i => !i.wellFormed) = true := by decide +kernel
theorem test_long_packet_too_long (payload : List Byte) (h : 2 ^ 16 ≤ payload.length) : (Instr.longPacket 0 0 0 0x2B 0 true payload 0).wellFormed = false := by
  simpa [Instr.wellFormed] using h

end Sys2Proof.Tests
end

section
/-! Writes of registers over the fabric (R26, R595): a write that reaches its block is that block's own write, answered with OK. -/

open Sys2Proof Sys2Proof.Machine

namespace Sys2Proof.Machine

/-- Address `a` names the register at offset `o` of the tables of kind `b`, outside memory and the object page, with no field of the tally's access
code. -/
abbrev NamesReg (a : Nat) (b : Blk) (o : Nat) : Prop :=
  isMemory a = false ∧ ¬ (R.OBJ_PAGE + 0x4000 ≤ a ∧ a < R.OBJ_PAGE + 0x8000)
    ∧ (regDescAt a).any (fun e => e.1 == b && e.2.off == o && !e.2.fields.any (fun f => f.acc == .tly)) = true

/-- The write that the blocks of kind `b` give the register at offset `o` of their tables, at address `a`. -/
def State.registerEffect (s : State) (m : Master) (b : Blk) (o a v : Nat) (x : Outside) : Acc2 :=
  match b with
  | .que | .fab | .hb | .pps => s.writeTiming m b o a v
  | .csi | .mpl | .vsc => s.writeVision m b o a v
  | .hra | .gpa | .fqi => s.writeInputs m b o a v
  | .fex | .prj | .fus | .yt => s.writeFusion m b o a v
  | .lpd | .ce | .lan => s.writeControl m b o a v
  | .fng | .plm | .lds | .brm | .snp | .mit | .pst => s.writePower m b o a v
  | .gnb | .imu => s.writeGnss m b o a v
  | .can | .obj | .msg => s.writeCan m b o a v x
  | .own | .lmp | .usb | .eth | .role | .hmn | .rst | .evr | .flt | .upd | .tly => s.writeSystem m b o a v x
  | .obe => okay s

/-- The table row that an address names. -/
theorem NamesReg.row {a o : Nat} {b : Blk} (h : NamesReg a b o) :
    ∃ d, regDescAt a = some (b, d) ∧ d.off = o ∧ d.fields.any (fun f => f.acc == .tly) = false := by
  obtain ⟨-, -, h⟩ := h
  cases hr : regDescAt a with
  | none => simp [hr] at h
  | some e =>
    obtain ⟨k, d⟩ := e
    simp only [hr, Option.any_some, Bool.and_eq_true, beq_iff_eq, Bool.not_eq_true'] at h
    obtain ⟨⟨rfl, rfl⟩, ht⟩ := h
    exact ⟨d, rfl, rfl, ht⟩

/-- A write of a register that an address names is the write of its block. -/
theorem regWrite_named (s : State) (m : Master) {a o : Nat} {b : Blk} (v : Nat) (x : Outside) (hn : NamesReg a b o) :
    s.regWrite m a v x = s.registerEffect m b o a v x := by
  obtain ⟨d, hd, rfl, ht⟩ := hn.row
  simp only [State.regWrite, if_neg hn.2.1, hd, ht, Bool.false_and]
  cases b <;> rfl

/-- A register outside the object page carries its poison mark at its own address. -/
theorem markAddr_named (s : State) (m : Master) {a o : Nat} {b : Blk} (hn : NamesReg a b o) : s.markAddr m a = a :=
  if_neg hn.2.1

/-- A write that reaches its block and that the block takes is the block's write, answered. -/
theorem access_named (s : State) (t : Nat) (m : Master) {a o : Nat} {b : Blk} (v : Nat) (y : State) (hn : NamesReg a b o) (hr : Reaches s t a)
    (hw : (s.atTime t).registerEffect m b o a v {} = okay y) : (s.atTime t).access m a v = y.answered a := by
  have harm : (s.atTime t).armed true = false := hr.2
  simp only [State.access, State.busWrite, hr.1, hn.1, harm, Bool.false_eq_true, if_false, regWrite_named (s.atTime t) m v {} hn, hw, okay,
    markAddr_named y m hn]
  rfl

/-- A bit of a word that is written. -/
theorem wbit_toNat (v : Word) (k : Nat) : wbit v.toNat k = v.getLsbD k := by
  rw [wbit, BitVec.getLsbD, Nat.testBit_eq_decide_div_mod_eq]
  rfl

end Sys2Proof.Machine
end

section
/-! The hardware queues (R37–R42): the writes of a queue's registers, and a hardware producer's record. -/

open Sys2Proof Sys2Proof.Machine

namespace Sys2Proof.Machine

/-! What the update of EMPTY and FULL leaves. -/

/-- A flag reads as it was put. -/
theorem flag_putB_same (s : State) (f : Fld) (b : Bool) (h : f.lo ≤ f.hi) (h32 : f.hi < 32) : (s.putB f b).flag f = b := by
  have hw : 1 < 2 ^ f.width := Nat.one_lt_two_pow (by unfold Fld.width; omega)
  cases b with
  | false =>
    rw [State.flag, State.putB, get_put_same s f _ h h32, show bit false = 0 from rfl, Nat.zero_mod]
    rfl
  | true =>
    rw [State.flag, State.putB, get_put_same s f _ h h32, show bit true = 1 from rfl, Nat.mod_eq_of_lt hw]
    rfl

/-- Putting a flag changes no other field of its register. -/
theorem get_putB_disjoint (s : State) (f g : Fld) (b : Bool) (h : f.lo ≤ f.hi) (h32 : f.hi < 32) (hg : g.lo ≤ g.hi) (hr : g.reg = f.reg)
    (hd : g.hi < f.lo ∨ f.hi < g.lo) : (s.putB f b).get g = s.get g :=
  get_put_disjoint s f g (bit b) h h32 hg hr hd

/-- Words outside QUE_STAT stay. -/
theorem word_queRefresh (s : State) (q a : Nat) (h : a ≠ R.QUE_STAT q) : (s.queRefresh q).word a = s.word a :=
  (word_put_other _ (F.QUE_STAT_FULL q) _ a h).trans (word_put_other s (F.QUE_STAT_EMPTY q) _ a h)

/-- Fields outside QUE_STAT stay. -/
theorem get_queRefresh (s : State) (q : Nat) (f : Fld) (h : f.reg ≠ R.QUE_STAT q) : (s.queRefresh q).get f = s.get f := by
  rw [State.get, word_queRefresh s q f.reg h, State.get]

/-- The other fields of QUE_STAT stay. -/
theorem get_queRefresh_stat (s : State) (q : Nat) (f : Fld) (hr : f.reg = R.QUE_STAT q) (h : f.lo ≤ f.hi) (hb : f.hi < 29) :
    (s.queRefresh q).get f = s.get f :=
  (get_putB_disjoint _ (F.QUE_STAT_FULL q) f _ (by simp) (by simp) h hr (.inl hb)).trans
    (get_putB_disjoint s (F.QUE_STAT_EMPTY q) f _ (by simp) (by simp) h hr (.inl (Nat.lt_succ_of_lt hb)))

/-- FULL is whether the ring holds as many records as it has entries. -/
theorem full_queRefresh (s : State) (q : Nat) : (s.queRefresh q).flag (F.QUE_STAT_FULL q) = (s.queDepth q == s.queN q) :=
  flag_putB_same _ (F.QUE_STAT_FULL q) _ (by simp) (by simp)

/-- EMPTY is whether the ring holds no record. -/
theorem empty_queRefresh (s : State) (q : Nat) : (s.queRefresh q).flag (F.QUE_STAT_EMPTY q) = (s.queDepth q == 0) := by
  have hd := get_putB_disjoint (s.putB (F.QUE_STAT_EMPTY q) (s.queDepth q == 0)) (F.QUE_STAT_FULL q) (F.QUE_STAT_EMPTY q) (s.queDepth q == s.queN q)
    (by simp) (by simp) (by simp) rfl (.inr (by simp))
  have he := flag_putB_same s (F.QUE_STAT_EMPTY q) (s.queDepth q == 0) (by simp) (by simp)
  rw [State.flag] at he ⊢
  rw [State.queRefresh, hd, he]

/-- The update changes no byte of memory. -/
@[simp] theorem queRefresh_mem (s : State) (q : Nat) : (s.queRefresh q).mem = s.mem := by
  rw [State.queRefresh, State.putB_mem, State.putB_mem]

/-! A saturating counter. -/

/-- A saturating counter reads the sum, or its greatest value. -/
theorem get_countSat_same (s : State) (f : Fld) (n : Nat) (h : f.lo ≤ f.hi) (h32 : f.hi < 32) :
    (s.countSat f n).get f = min (s.get f + n) (2 ^ f.width - 1) := by
  rw [State.countSat, get_put_same s f _ h h32]
  exact Nat.mod_eq_of_lt (Nat.lt_of_le_of_lt (Nat.min_le_right ..) (Nat.sub_lt (Nat.two_pow_pos _) Nat.one_pos))

/-! The registers of a queue are words of their own. -/

theorem que_pidx_ne_stat (q : Nat) : R.QUE_PIDX q ≠ R.QUE_STAT q := fun h => absurd (Nat.add_right_cancel h) (by decide)
theorem que_cidx_ne_stat (q : Nat) : R.QUE_CIDX q ≠ R.QUE_STAT q := fun h => absurd (Nat.add_right_cancel h) (by decide)
theorem que_cfg_ne_stat (q : Nat) : R.QUE_CFG q ≠ R.QUE_STAT q := fun h => absurd (Nat.add_right_cancel h) (by decide)
theorem que_cfg_ne_pidx (q : Nat) : R.QUE_CFG q ≠ R.QUE_PIDX q := fun h => absurd (Nat.add_right_cancel h) (by decide)
theorem que_cfg_ne_cidx (q : Nat) : R.QUE_CFG q ≠ R.QUE_CIDX q := fun h => absurd (Nat.add_right_cancel h) (by decide)
theorem que_cidx_ne_pidx (q : Nat) : R.QUE_CIDX q ≠ R.QUE_PIDX q := fun h => absurd (Nat.add_right_cancel h) (by decide)

/-! Writes of PIDX. -/

/-- The number of records that the ring would hold with its producer index at the low bits of `v` (R38, R39). -/
def State.queHeldAt (s : State) (q v : Nat) : Nat := (v % 2 ^ 16 + 2 ^ 16 - s.get (F.QUE_CIDX_CIDX q)) % 2 ^ 16

theorem quePidxWrite_refused (s : State) (q v : Nat) (h : s.queN q < s.queHeldAt q v) : s.quePidxWrite q v = s.raise (F.QUE_STAT_OVF q) :=
  if_pos h

theorem quePidxWrite_taken (s : State) (q v : Nat) (h : s.queHeldAt q v ≤ s.queN q) :
    s.quePidxWrite q v = (s.put (F.QUE_PIDX_PIDX q) v).queRefresh q :=
  if_neg (Nat.not_lt.2 h)

/-- PIDX reads what was put. -/
theorem get_put_pidx (s : State) (q v : Nat) : (s.put (F.QUE_PIDX_PIDX q) v).get (F.QUE_PIDX_PIDX q) = v % 2 ^ 16 :=
  get_put_same s (F.QUE_PIDX_PIDX q) v (Nat.zero_le _) (by simp)

/-- The depth of the ring follows PIDX. -/
theorem queDepth_put_pidx (s : State) (q v : Nat) : (s.put (F.QUE_PIDX_PIDX q) v).queDepth q = s.queHeldAt q v := by
  rw [State.queDepth, get_put_pidx, get_put_other s (F.QUE_PIDX_PIDX q) (F.QUE_CIDX_CIDX q) v (que_cidx_ne_pidx q), State.queHeldAt]

/-- The size of the ring does not depend on PIDX. -/
theorem queN_put_pidx (s : State) (q v : Nat) : (s.put (F.QUE_PIDX_PIDX q) v).queN q = s.queN q := by
  rw [State.queN, get_put_other s (F.QUE_PIDX_PIDX q) (F.QUE_CFG_LOG2N q) v (que_cfg_ne_pidx q), State.queN]

/-- A producer index that is taken: the index, EMPTY and FULL follow, and nothing else changes. -/
theorem quePidxWrite_effect (s : State) (q v : Nat) (h : s.queHeldAt q v ≤ s.queN q) :
    let s' := s.quePidxWrite q v
    s'.mem = s.mem ∧ (∀ a, a ≠ R.QUE_PIDX q → a ≠ R.QUE_STAT q → s'.word a = s.word a) ∧ s'.get (F.QUE_PIDX_PIDX q) = v % 2 ^ 16
      ∧ s'.flag (F.QUE_STAT_EMPTY q) = (s.queHeldAt q v == 0) ∧ s'.flag (F.QUE_STAT_FULL q) = (s.queHeldAt q v == s.queN q)
      ∧ ∀ f, f.reg = R.QUE_STAT q → f.lo ≤ f.hi → f.hi < 29 → s'.get f = s.get f := by
  intro s'
  have hs : s' = (s.put (F.QUE_PIDX_PIDX q) v).queRefresh q := quePidxWrite_taken s q v h
  rw [hs]
  refine ⟨?_, fun a hp hq => ?_, ?_, ?_, ?_, fun f hr hf hb => ?_⟩
  · rw [queRefresh_mem, State.put_mem]
  · rw [word_queRefresh _ q a hq, word_put_other s (F.QUE_PIDX_PIDX q) v a hp]
  · rw [get_queRefresh _ q _ (que_pidx_ne_stat q), get_put_pidx]
  · rw [empty_queRefresh, queDepth_put_pidx]
  · rw [full_queRefresh, queDepth_put_pidx, queN_put_pidx]
  · rw [get_queRefresh_stat _ q f hr hf hb, get_put_other s (F.QUE_PIDX_PIDX q) f v (hr ▸ (que_pidx_ne_stat q).symm)]

/-! Writes of CIDX. -/

theorem queCidxWrite_refused (s : State) (q v : Nat) (h : s.queDepth q < s.queHeldAt q v) : s.queCidxWrite q v = s.raise (F.QUE_STAT_OVF q) :=
  if_pos h

theorem queCidxWrite_taken (s : State) (q v : Nat) (h : s.queHeldAt q v ≤ s.queDepth q) :
    s.queCidxWrite q v = ((s.put (F.QUE_CIDX_CIDX q) v).countSat (F.QUE_STAT_STALE q) (v / 2 ^ 16 % 2 ^ 16)).queRefresh q :=
  if_neg (Nat.not_lt.2 h)

/-- Counting stale records leaves the fields outside QUE_STAT. -/
theorem get_countStale (s : State) (q n : Nat) (f : Fld) (h : f.reg ≠ R.QUE_STAT q) : (s.countSat (F.QUE_STAT_STALE q) n).get f = s.get f :=
  get_put_other s (F.QUE_STAT_STALE q) f _ h

/-- CIDX reads what was put. -/
theorem get_put_cidx (s : State) (q v : Nat) : (s.put (F.QUE_CIDX_CIDX q) v).get (F.QUE_CIDX_CIDX q) = v % 2 ^ 16 :=
  get_put_same s (F.QUE_CIDX_CIDX q) v (Nat.zero_le _) (by simp)

/-- A release of no more records than the ring holds leaves the rest in it. -/
theorem queDepth_put_cidx (s : State) (q v : Nat) (h : s.queHeldAt q v ≤ s.queDepth q) :
    (s.put (F.QUE_CIDX_CIDX q) v).queDepth q = s.queDepth q - s.queHeldAt q v := by
  have hp : s.get (F.QUE_PIDX_PIDX q) < 2 ^ 16 := fieldOf_lt (F.QUE_PIDX_PIDX q) _
  have hc : s.get (F.QUE_CIDX_CIDX q) < 2 ^ 16 := fieldOf_lt (F.QUE_CIDX_CIDX q) _
  rw [State.queDepth, get_put_cidx, get_put_other s (F.QUE_CIDX_CIDX q) (F.QUE_PIDX_PIDX q) v (que_cidx_ne_pidx q).symm]
  rw [State.queDepth, State.queHeldAt] at *
  generalize s.get (F.QUE_PIDX_PIDX q) = p at *
  generalize s.get (F.QUE_CIDX_CIDX q) = c at *
  omega

/-- The size of the ring does not depend on CIDX. -/
theorem queN_put_cidx (s : State) (q v : Nat) : (s.put (F.QUE_CIDX_CIDX q) v).queN q = s.queN q := by
  rw [State.queN, get_put_other s (F.QUE_CIDX_CIDX q) (F.QUE_CFG_LOG2N q) v (que_cfg_ne_cidx q), State.queN]

/-- Counting stale records changes neither the depth nor the size of the ring. -/
theorem queDepth_countStale (s : State) (q n : Nat) : (s.countSat (F.QUE_STAT_STALE q) n).queDepth q = s.queDepth q := by
  rw [State.queDepth, get_countStale s q n _ (que_pidx_ne_stat q), get_countStale s q n _ (que_cidx_ne_stat q), State.queDepth]

theorem queN_countStale (s : State) (q n : Nat) : (s.countSat (F.QUE_STAT_STALE q) n).queN q = s.queN q := by
  rw [State.queN, get_countStale s q n _ (que_cfg_ne_stat q), State.queN]

/-- A consumer index that is taken: the index, STALE, EMPTY and FULL follow, and nothing else changes. -/
theorem queCidxWrite_effect (s : State) (q v : Nat) (h : s.queHeldAt q v ≤ s.queDepth q) :
    let s' := s.queCidxWrite q v
    s'.mem = s.mem ∧ (∀ a, a ≠ R.QUE_CIDX q → a ≠ R.QUE_STAT q → s'.word a = s.word a) ∧ s'.get (F.QUE_CIDX_CIDX q) = v % 2 ^ 16
      ∧ s'.get (F.QUE_STAT_STALE q) = min (s.get (F.QUE_STAT_STALE q) + v / 2 ^ 16 % 2 ^ 16) (2 ^ (F.QUE_STAT_STALE q).width - 1)
      ∧ s'.flag (F.QUE_STAT_EMPTY q) = (s.queDepth q - s.queHeldAt q v == 0)
      ∧ s'.flag (F.QUE_STAT_FULL q) = (s.queDepth q - s.queHeldAt q v == s.queN q)
      ∧ ∀ f, f.reg = R.QUE_STAT q → 16 ≤ f.lo → f.lo ≤ f.hi → f.hi < 29 → s'.get f = s.get f := by
  intro s'
  have hs : s' = ((s.put (F.QUE_CIDX_CIDX q) v).countSat (F.QUE_STAT_STALE q) (v / 2 ^ 16 % 2 ^ 16)).queRefresh q := queCidxWrite_taken s q v h
  have hput : ∀ f : Fld, f.reg = R.QUE_STAT q → (s.put (F.QUE_CIDX_CIDX q) v).get f = s.get f := fun f hr =>
    get_put_other s (F.QUE_CIDX_CIDX q) f v (hr ▸ (que_cidx_ne_stat q).symm)
  rw [hs]
  refine ⟨?_, fun a hc hq => ?_, ?_, ?_, ?_, ?_, fun f hr hl hf hb => ?_⟩
  · rw [queRefresh_mem, State.countSat_mem, State.put_mem]
  · rw [word_queRefresh _ q a hq, State.countSat, word_put_other _ (F.QUE_STAT_STALE q) _ a hq, word_put_other s (F.QUE_CIDX_CIDX q) v a hc]
  · rw [get_queRefresh _ q _ (que_cidx_ne_stat q), get_countStale _ q _ _ (que_cidx_ne_stat q), get_put_cidx]
  · rw [get_queRefresh_stat _ q (F.QUE_STAT_STALE q) rfl (Nat.zero_le _) (by decide : 15 < 29),
      get_countSat_same _ (F.QUE_STAT_STALE q) _ (Nat.zero_le _) (by decide : 15 < 32), hput _ rfl]
  · rw [empty_queRefresh, queDepth_countStale, queDepth_put_cidx s q v h]
  · rw [full_queRefresh, queDepth_countStale, queN_countStale, queDepth_put_cidx s q v h, queN_put_cidx]
  · rw [get_queRefresh_stat _ q f hr hf hb, State.countSat,
      get_put_disjoint _ (F.QUE_STAT_STALE q) f _ (Nat.zero_le _) (by decide : 15 < 32) hf hr (.inr hl), hput f hr]

/-! Writes of QUE_STAT. -/

/-- The state after the W1C of OVF alone. -/
def State.queAckOvf (s : State) (q v : Nat) : State := if wbit v 28 then s.put (F.QUE_STAT_OVF q) 0 else s

/-- OVF is cleared first, then STALE and DROP. -/
theorem queStatWrite_eq (s : State) (q v : Nat) :
    s.queStatWrite q v = if wbit v 31 then ((s.queAckOvf q v).put (F.QUE_STAT_STALE q) 0).put (F.QUE_STAT_DROP q) 0 else s.queAckOvf q v := by
  simp only [State.queStatWrite, State.queAckOvf, wbit, beq_iff_eq]

/-- Words outside QUE_STAT stay, and memory. -/
theorem queStatWrite_frame (s : State) (q v : Nat) :
    (s.queStatWrite q v).mem = s.mem ∧ ∀ a, a ≠ R.QUE_STAT q → (s.queStatWrite q v).word a = s.word a := by
  have hovf : (s.queAckOvf q v).mem = s.mem ∧ ∀ a, a ≠ R.QUE_STAT q → (s.queAckOvf q v).word a = s.word a := by
    unfold State.queAckOvf
    split
    · exact ⟨State.put_mem .., fun a h => word_put_other s (F.QUE_STAT_OVF q) 0 a h⟩
    · exact ⟨rfl, fun _ _ => rfl⟩
  rw [queStatWrite_eq]
  split
  · refine ⟨?_, fun a h => ?_⟩
    · rw [State.put_mem, State.put_mem, hovf.1]
    · rw [word_put_other _ (F.QUE_STAT_DROP q) 0 a h, word_put_other _ (F.QUE_STAT_STALE q) 0 a h, hovf.2 a h]
  · exact hovf

/-- A field of QUE_STAT outside the bits that CLR clears is left by it. -/
theorem get_queStatWrite_above (s : State) (q v : Nat) (f : Fld) (hr : f.reg = R.QUE_STAT q) (hl : 28 ≤ f.lo) (hf : f.lo ≤ f.hi) :
    (s.queStatWrite q v).get f = (s.queAckOvf q v).get f := by
  rw [queStatWrite_eq]
  split
  · rw [get_put_disjoint _ (F.QUE_STAT_DROP q) f 0 (by simp) (by simp) hf hr (.inr hl),
      get_put_disjoint _ (F.QUE_STAT_STALE q) f 0 (by simp) (by simp) hf hr (.inr (Nat.lt_of_lt_of_le (by simp) hl))]
  · rfl

/-- OVF is W1C (R42). -/
theorem get_queStatWrite_ovf (s : State) (q v : Nat) :
    (s.queStatWrite q v).get (F.QUE_STAT_OVF q) = if wbit v 28 then 0 else s.get (F.QUE_STAT_OVF q) := by
  rw [get_queStatWrite_above s q v (F.QUE_STAT_OVF q) rfl (by simp) (by simp)]
  unfold State.queAckOvf
  split
  · exact get_put_same s (F.QUE_STAT_OVF q) 0 (by simp) (by simp)
  · rfl

/-- EMPTY and FULL stay. -/
theorem get_queStatWrite_top (s : State) (q v : Nat) (f : Fld) (hr : f.reg = R.QUE_STAT q) (hl : 29 ≤ f.lo) (hf : f.lo ≤ f.hi) :
    (s.queStatWrite q v).get f = s.get f := by
  rw [get_queStatWrite_above s q v f hr (Nat.le_of_succ_le hl) hf]
  unfold State.queAckOvf
  split
  · exact get_put_disjoint s (F.QUE_STAT_OVF q) f 0 (by simp) (by simp) hf hr (.inr hl)
  · rfl

/-- The fields below OVF do not depend on its acknowledgement. -/
theorem get_queAckOvf_below (s : State) (q v : Nat) (f : Fld) (hr : f.reg = R.QUE_STAT q) (hh : f.hi < 28) (hf : f.lo ≤ f.hi) :
    (s.queAckOvf q v).get f = s.get f := by
  unfold State.queAckOvf
  split
  · exact get_put_disjoint s (F.QUE_STAT_OVF q) f 0 (by simp) (by simp) hf hr (.inl hh)
  · rfl

/-- CLR clears STALE (R42). -/
theorem get_queStatWrite_stale (s : State) (q v : Nat) :
    (s.queStatWrite q v).get (F.QUE_STAT_STALE q) = if wbit v 31 then 0 else s.get (F.QUE_STAT_STALE q) := by
  rw [queStatWrite_eq]
  split
  · rw [get_put_disjoint _ (F.QUE_STAT_DROP q) (F.QUE_STAT_STALE q) 0 (by simp) (by simp) (by simp) rfl (.inl (by simp)),
      get_put_same _ (F.QUE_STAT_STALE q) 0 (by simp) (by simp), Nat.zero_mod]
  · exact get_queAckOvf_below s q v (F.QUE_STAT_STALE q) rfl (by simp) (by simp)

/-- CLR clears DROP (R42). -/
theorem get_queStatWrite_drop (s : State) (q v : Nat) :
    (s.queStatWrite q v).get (F.QUE_STAT_DROP q) = if wbit v 31 then 0 else s.get (F.QUE_STAT_DROP q) := by
  rw [queStatWrite_eq]
  split
  · rw [get_put_same _ (F.QUE_STAT_DROP q) 0 (by simp) (by simp), Nat.zero_mod]
  · exact get_queAckOvf_below s q v (F.QUE_STAT_DROP q) rfl (by simp) (by simp)

/-! The commands. -/

/-- Where the three registers of queue `q` that a doorbell or an acknowledgement writes stand in the tables of QUE. -/
theorem names_que (q : Fin 128) : NamesReg (R.QUE_PIDX q) .que 0x0C ∧ NamesReg (R.QUE_CIDX q) .que 0x10 ∧ NamesReg (R.QUE_STAT q) .que 0x18 := by
  revert q
  decide +kernel

/-- A register of a row is found by its index. -/
theorem indexIn_row (base st k : Nat) (h : 0 < st) : indexIn (base + k * st) (base + 0 * st) st = k := by
  rw [indexIn, Nat.zero_mul, Nat.add_zero, Nat.add_sub_cancel_left, Nat.mul_div_cancel k h]

section
variable (s : State) (t : Nat) (m : Master) (q : Fin 128) (v : Word)

/-- A write of PIDX that reaches QUE. -/
theorem exec_quePidxWrite (hr : Reaches s t (R.QUE_PIDX q)) :
    exec (.quePidxWrite t m q v) s = .next (((s.atTime t).quePidxWrite q v.toNat).answered (R.QUE_PIDX q)) := by
  obtain ⟨hn, -, -⟩ := names_que q
  have hi : indexIn (R.QUE_PIDX q) (R.QUE_PIDX 0) 0x20 = q := indexIn_row 0x40070000C 0x20 q (by decide)
  refine congrArg _ (access_named s t m v.toNat _ hn hr ?_)
  show okay ((s.atTime t).quePidxWrite (indexIn (R.QUE_PIDX q) (R.QUE_PIDX 0) 0x20) v.toNat) = _
  rw [hi]

/-- A write of CIDX that reaches QUE. -/
theorem exec_queCidxWrite (hr : Reaches s t (R.QUE_CIDX q)) :
    exec (.queCidxWrite t m q v) s = .next (((s.atTime t).queCidxWrite q v.toNat).answered (R.QUE_CIDX q)) := by
  obtain ⟨-, hn, -⟩ := names_que q
  have hi : indexIn (R.QUE_CIDX q) (R.QUE_CIDX 0) 0x20 = q := indexIn_row 0x400700010 0x20 q (by decide)
  refine congrArg _ (access_named s t m v.toNat _ hn hr ?_)
  show okay ((s.atTime t).queCidxWrite (indexIn (R.QUE_CIDX q) (R.QUE_CIDX 0) 0x20) v.toNat) = _
  rw [hi]

/-- A write of QUE_STAT that reaches QUE. -/
theorem exec_queStatClr (hr : Reaches s t (R.QUE_STAT q)) :
    exec (.queStatClr t m q v) s = .next (((s.atTime t).queStatWrite q v.toNat).answered (R.QUE_STAT q)) := by
  obtain ⟨-, -, hn⟩ := names_que q
  have hi : indexIn (R.QUE_STAT q) (R.QUE_STAT 0) 0x20 = q := indexIn_row 0x400700018 0x20 q (by decide)
  refine congrArg _ (access_named s t m v.toNat _ hn hr ?_)
  show okay ((s.atTime t).queStatWrite (indexIn (R.QUE_STAT q) (R.QUE_STAT 0) 0x20) v.toNat) = _
  rw [hi]

end

/-! A hardware producer's record. -/

/-- Putting a number changes no register. -/
@[simp] theorem putN_regs (n : Nat) (s : State) (a v : Nat) : (s.putN a n v).regs = s.regs := by
  induction n generalizing s a v with
  | zero => rfl
  | succ n ih => rw [State.putN, ih, State.setByte_regs]

/-- Putting words changes no register. -/
@[simp] theorem putWords_regs (l : List Nat) (s : State) (a : Nat) : (s.putWords a l).regs = s.regs := by
  induction l generalizing s a with
  | nil => rfl
  | cons w l ih => rw [State.putWords, ih, putN_regs]

/-- Writing words changes no register. -/
@[simp] theorem writeWords_regs (s : State) (a : Nat) (l : List Nat) : (s.writeWords a l).regs = s.regs := by
  rw [State.writeWords, State.loseResv_regs, putWords_regs]

/-- Putting a number changes no record count. -/
@[simp] theorem putN_queSeq (n : Nat) (s : State) (a v : Nat) : (s.putN a n v).queSeq = s.queSeq := by
  induction n generalizing s a v with
  | zero => rfl
  | succ n ih => rw [State.putN, ih, State.setByte_queSeq]

/-- Putting words changes no record count. -/
@[simp] theorem putWords_queSeq (l : List Nat) (s : State) (a : Nat) : (s.putWords a l).queSeq = s.queSeq := by
  induction l generalizing s a with
  | nil => rfl
  | cons w l ih => rw [State.putWords, ih, putN_queSeq]

/-- Writing words changes no record count. -/
@[simp] theorem writeWords_queSeq (s : State) (a : Nat) (l : List Nat) : (s.writeWords a l).queSeq = s.queSeq := by
  rw [State.writeWords, State.loseResv_queSeq, putWords_queSeq]

/-- An interrupt changes no byte of memory, no register and no record count. -/
@[simp] theorem irq_mem (s : State) (k : Nat) : (s.irq k).mem = s.mem := by
  unfold State.irq
  split <;> rfl

@[simp] theorem irq_regs (s : State) (k : Nat) : (s.irq k).regs = s.regs := by
  unfold State.irq
  split <;> rfl

@[simp] theorem irq_queSeq (s : State) (k : Nat) : (s.irq k).queSeq = s.queSeq := by
  unfold State.irq
  split <;> rfl

/-- Words that were put read back, each to its 32 bits. -/
theorem readWords_putWords (l : List Nat) (s : State) (a : Nat) : (s.putWords a l).readWords a l.length = l.map (· % 2 ^ 32) := by
  induction l generalizing s a with
  | nil => rfl
  | cons w l ih =>
    have hw : ((s.putN a 4 w).putWords (a + 4) l).readN a 4 = w % 2 ^ 32 :=
      (readN_congr 4 a fun x _ hx => byte_putWords_outside l (s.putN a 4 w) (a + 4) x (.inl hx)).trans (readN_putN_same 4 s a w)
    rw [State.putWords, List.length_cons, State.readWords, hw, ih, List.map_cons]

/-- States with the same memory read the same words. -/
theorem readWords_congr {s s' : State} (h : s'.mem = s.mem) (n a : Nat) : s'.readWords a n = s.readWords a n := by
  induction n generalizing a with
  | zero => rfl
  | succ n ih => rw [State.readWords, State.readWords, readN_congr 4 a fun x _ _ => byte_congr h x, ih]

/-- An A-core of the active half has the bit of an interrupt pending. -/
theorem irq_ipend (s : State) (k h i : Nat) (c : Cpu) (hk : k < 64) (ha : s.active = some h) (hi : i / 4 = h) (hc : (s.irq k).aCores[i]? = some c) :
    c.ipend.getLsbD k = true := by
  have hcores : (s.irq k).aCores = s.aCores.mapIdx fun i c => if i / 4 = h then c.setIpend k else c := by
    rw [State.irq, ha]
    rfl
  rw [hcores, List.getElem?_mapIdx, Option.map_eq_some_iff] at hc
  obtain ⟨c0, -, rfl⟩ := hc
  rw [if_pos hi]
  simp only [Cpu.setIpend, BitVec.getLsbD_or, BitVec.getLsbD_ofNat, Nat.testBit_two_pow_self, hk, decide_true, Bool.and_self, Bool.or_true]

/-- The state with the record in its entry and QUE's count of records advanced, before the doorbell. -/
def State.queWrote (s : State) (q kind : Nat) (payload : List Nat) : State :=
  { s.writeWords (s.queEntry q (s.get (F.QUE_PIDX_PIDX q))) (quePushWords s q kind payload) with
    queSeq := sparsePut (fun _ => 0) s.queSeq q ((s.queSeqOf q + 1) % 2 ^ 32) }

@[simp] theorem queWrote_regs (s : State) (q kind : Nat) (payload : List Nat) : (s.queWrote q kind payload).regs = s.regs := by
  simp only [State.queWrote, writeWords_regs]

/-- The entry of the next record holds the record's words. -/
theorem queWrote_mem (s : State) (q kind : Nat) (payload : List Nat) : (s.queWrote q kind payload).mem =
    (s.putWords (s.queEntry q (s.get (F.QUE_PIDX_PIDX q))) (quePushWords s q kind payload)).mem := by
  simp only [State.queWrote, State.writeWords, mem_loseResv]

/-- QUE has counted the record, for its own queue. -/
theorem queSeqOf_queWrote (s : State) (q kind : Nat) (payload : List Nat) (k : Nat) :
    (s.queWrote q kind payload).queSeqOf k = if k = q then (s.queSeqOf q + 1) % 2 ^ 32 else s.queSeqOf k :=
  sparseGet_put (fun _ => 0) s.queSeq q k _

/-- A queue that takes a record has room for it in the ring and in the entry. -/
theorem QueTakes.room {s : State} {q : Nat} {payload : List Nat} (h : QueTakes s q payload) :
    s.queDepth q < s.queN q ∧ payload.length * 4 + 8 ≤ s.queEsize q := by
  simp only [Bool.and_eq_true, decide_eq_true_eq] at h
  obtain ⟨⟨⟨-, hroom⟩, hfit⟩, -⟩ := h
  exact ⟨hroom, hfit⟩

/-- With no injected error waiting, a record that the queue takes is in its entry and the doorbell is rung. -/
theorem quePush_eq (s : State) (q kind : Nat) (payload : List Nat) (ha : s.armed true = false) (hr : s.blockHeld quePlace = false)
    (ht : QueTakes s q payload) :
    s.quePush q kind payload =
      (((s.queWrote q kind payload).put (F.QUE_PIDX_PIDX q) (s.get (F.QUE_PIDX_PIDX q) + 1)).queRefresh q).irq (16 + q % 32) := by
  have harm : ∀ (a : Nat) (l : List Nat), (s.writeWords a l).armed true = false := fun a l => by
    rw [State.armed, State.flag, State.flag, get_congr (writeWords_regs s a l), get_congr (writeWords_regs s a l)]
    exact ha
  rw [quePush_taken s q kind payload hr ht]
  simp only [dmaWrote_clean _ _ _ (harm _ _), writeWords_queSeq]
  rfl

/-- A doorbell touches neither memory nor the record counts. -/
theorem doorbell_mem (s : State) (q v k : Nat) : (((s.put (F.QUE_PIDX_PIDX q) v).queRefresh q).irq k).mem = s.mem := by
  rw [irq_mem, queRefresh_mem, State.put_mem]

theorem doorbell_queSeqOf (s : State) (q v k j : Nat) : (((s.put (F.QUE_PIDX_PIDX q) v).queRefresh q).irq k).queSeqOf j = s.queSeqOf j := by
  rw [State.queSeqOf, irq_queSeq, State.queRefresh, State.putB_queSeq, State.putB_queSeq, State.put_queSeq, State.queSeqOf]

/-- The words of a record are words where the payload's are and the record fits its entry. -/
theorem quePushWords_words (s : State) (q kind : Nat) (payload : List Nat) (hp : ∀ w ∈ payload, w < 2 ^ 32)
    (hfit : payload.length * 4 + 8 ≤ s.queEsize q) :
    (quePushWords s q kind payload).map (· % 2 ^ 32) =
      (s.get (F.QUE_TAG_CUR q) + kind % 256 * 2 ^ 16 + payload.length * 2 ^ 24) :: s.queSeqOf q % 2 ^ 32 :: payload := by
  have htag : s.get (F.QUE_TAG_CUR q) < 2 ^ 16 := fieldOf_lt (F.QUE_TAG_CUR q) _
  have hsize : s.queEsize q ≤ 32 * 2 ^ 3 := by
    have he : s.get (F.QUE_CFG_ESIZE q) < 2 ^ 2 := fieldOf_lt (F.QUE_CFG_ESIZE q) _
    exact Nat.mul_le_mul_left 32 (Nat.pow_le_pow_right (by decide) (by omega))
  have hlen : payload.length < 2 ^ 8 := by omega
  have hhead : s.get (F.QUE_TAG_CUR q) + kind % 256 * 2 ^ 16 + payload.length * 2 ^ 24 < 2 ^ 32 := by
    have : kind % 256 < 256 := Nat.mod_lt _ (by decide)
    omega
  have hpay : payload.map (· % 2 ^ 32) = payload :=
    (List.map_congr_left fun w hw => Nat.mod_eq_of_lt (hp w hw)).trans (List.map_id _)
  rw [quePushWords, List.map_cons, List.map_cons, hpay, Nat.mod_eq_of_lt hhead]

/-- The ring holds at most 2^15 records. -/
theorem queN_le (s : State) (q : Nat) : s.queN q ≤ 2 ^ 15 := by
  have hl : s.get (F.QUE_CFG_LOG2N q) < 2 ^ 4 := fieldOf_lt (F.QUE_CFG_LOG2N q) _
  exact Nat.pow_le_pow_right (by decide) (by omega)

/-- With room in the ring, the next producer index adds one record. -/
theorem queHeldAt_next (s : State) (q : Nat) (h : s.queDepth q < s.queN q) : s.queHeldAt q (s.get (F.QUE_PIDX_PIDX q) + 1) = s.queDepth q + 1 := by
  have hn := queN_le s q
  have hp : s.get (F.QUE_PIDX_PIDX q) < 2 ^ 16 := fieldOf_lt (F.QUE_PIDX_PIDX q) _
  have hc : s.get (F.QUE_CIDX_CIDX q) < 2 ^ 16 := fieldOf_lt (F.QUE_CIDX_CIDX q) _
  have hlt := Nat.lt_of_lt_of_le h hn
  rw [State.queDepth] at hlt
  rw [State.queHeldAt, State.queDepth]
  generalize s.get (F.QUE_PIDX_PIDX q) = p at *
  generalize s.get (F.QUE_CIDX_CIDX q) = c at *
  omega

/-- QUE's registers are not ROLE_STAT. -/
theorem role_ne_que (q : Nat) : R.ROLE_STAT ≠ R.QUE_PIDX q ∧ R.ROLE_STAT ≠ R.QUE_STAT q :=
  ⟨Nat.ne_of_lt (Nat.lt_add_right _ (by decide)), Nat.ne_of_lt (Nat.lt_add_right _ (by decide))⟩

/-- A doorbell leaves the active half. -/
theorem active_doorbell (s : State) (q v : Nat) : ((s.put (F.QUE_PIDX_PIDX q) v).queRefresh q).active = s.active := by
  obtain ⟨hp, hq⟩ := role_ne_que q
  rw [State.active, get_queRefresh _ q F.ROLE_STAT_ACTIVE hq, get_put_other s (F.QUE_PIDX_PIDX q) F.ROLE_STAT_ACTIVE v hp, State.active]

/-- A record that the queue takes stands in its entry: the header, QUE's record count, the payload, and no other byte changes. -/
theorem quePush_memory (s : State) (q kind : Nat) (payload : List Nat) (hp : ∀ w ∈ payload, w < 2 ^ 32) (ha : s.armed true = false)
    (hr : s.blockHeld quePlace = false) (ht : QueTakes s q payload) :
    let s' := s.quePush q kind payload
    let a := s.queEntry q (s.get (F.QUE_PIDX_PIDX q))
    s'.readN a 4 = s.get (F.QUE_TAG_CUR q) + kind % 256 * 2 ^ 16 + payload.length * 2 ^ 24 ∧ s'.readN (a + 4) 4 = s.queSeqOf q % 2 ^ 32
      ∧ s'.readWords (a + 8) payload.length = payload ∧ ∀ b, b < a ∨ a + payload.length * 4 + 8 ≤ b → s'.byte b = s.byte b := by
  intro s' a
  have hmem : s'.mem = (s.putWords a (quePushWords s q kind payload)).mem := by
    show (s.quePush q kind payload).mem = _
    rw [quePush_eq s q kind payload ha hr ht, doorbell_mem, queWrote_mem]
  have hlen : (quePushWords s q kind payload).length = payload.length + 2 := rfl
  obtain ⟨-, hfit⟩ := QueTakes.room ht
  have hread := readWords_putWords (quePushWords s q kind payload) s a
  rw [← readWords_congr hmem, quePushWords_words s q kind payload hp hfit, hlen] at hread
  obtain ⟨hhead, hrest⟩ := List.cons.inj hread
  obtain ⟨hseq, hpay⟩ := List.cons.inj hrest
  refine ⟨hhead, hseq, hpay, fun b hb => ?_⟩
  rw [byte_congr hmem, byte_putWords_outside _ _ _ _ (by rw [hlen]; omega)]

/-- A record that the queue takes is counted for its queue alone, PIDX advances, and EMPTY and FULL follow. -/
theorem quePush_indexes (s : State) (q kind : Nat) (payload : List Nat) (ha : s.armed true = false) (hr : s.blockHeld quePlace = false)
    (ht : QueTakes s q payload) :
    let s' := s.quePush q kind payload
    s'.queSeqOf q = (s.queSeqOf q + 1) % 2 ^ 32 ∧ (∀ k, k ≠ q → s'.queSeqOf k = s.queSeqOf k)
      ∧ s'.get (F.QUE_PIDX_PIDX q) = (s.get (F.QUE_PIDX_PIDX q) + 1) % 2 ^ 16
      ∧ s'.flag (F.QUE_STAT_EMPTY q) = false ∧ s'.flag (F.QUE_STAT_FULL q) = (s.queDepth q + 1 == s.queN q) := by
  obtain ⟨hroom, -⟩ := QueTakes.room ht
  have hget : ∀ f, (s.queWrote q kind payload).get f = s.get f := get_congr (queWrote_regs s q kind payload)
  have hn : (s.queWrote q kind payload).queN q = s.queN q := by rw [State.queN, hget, State.queN]
  have hheld : (s.queWrote q kind payload).queHeldAt q (s.get (F.QUE_PIDX_PIDX q) + 1) = s.queDepth q + 1 := by
    rw [State.queHeldAt, hget, ← queHeldAt_next s q hroom, State.queHeldAt]
  have hirq : ∀ (y : State) (k : Nat) (f : Fld), (y.irq k).get f = y.get f := fun y k => get_congr (irq_regs y k)
  have hflag : ∀ (y : State) (k : Nat) (f : Fld), (y.irq k).flag f = y.flag f := fun y k f => by rw [State.flag, hirq, State.flag]
  intro s'
  have hs : s' = _ := quePush_eq s q kind payload ha hr ht
  rw [hs]
  refine ⟨?_, fun k hk => ?_, ?_, ?_, ?_⟩
  · rw [doorbell_queSeqOf, queSeqOf_queWrote, if_pos rfl]
  · rw [doorbell_queSeqOf, queSeqOf_queWrote, if_neg hk]
  · rw [hirq, get_queRefresh _ q _ (que_pidx_ne_stat q), get_put_pidx]
  · rw [hflag, empty_queRefresh, queDepth_put_pidx, hheld]
    exact beq_false_of_ne (Nat.succ_ne_zero _)
  · rw [hflag, full_queRefresh, queDepth_put_pidx, queN_put_pidx, hheld, hn]

/-- A record that the queue takes sets the queue's interrupt in the cores of the active half. -/
theorem quePush_interrupt (s : State) (q kind : Nat) (payload : List Nat) (ha : s.armed true = false) (hr : s.blockHeld quePlace = false)
    (ht : QueTakes s q payload) (h i : Nat) (c : Cpu) (hh : s.active = some h) (hi : i / 4 = h)
    (hc : (s.quePush q kind payload).aCores[i]? = some c) : c.ipend.getLsbD (16 + q % 32) = true := by
  rw [quePush_eq s q kind payload ha hr ht] at hc
  refine irq_ipend _ (16 + q % 32) h i c (by omega) ?_ hi hc
  rw [active_doorbell, State.active, get_congr (queWrote_regs s q kind payload)]
  exact hh

/-- A dropped record: DROP counts it and OVF is set; memory, PIDX and the record count stay. -/
theorem queDrop_effect (s : State) (q : Nat) :
    let s' := s.queDrop q
    s'.mem = s.mem ∧ s'.get (F.QUE_PIDX_PIDX q) = s.get (F.QUE_PIDX_PIDX q) ∧ s'.queSeqOf q = s.queSeqOf q ∧ s'.flag (F.QUE_STAT_OVF q) = true
      ∧ s'.get (F.QUE_STAT_DROP q) = min (s.get (F.QUE_STAT_DROP q) + 1) (2 ^ (F.QUE_STAT_DROP q).width - 1) := by
  intro s'
  have hs : s' = (s.countSat (F.QUE_STAT_DROP q) 1).raise (F.QUE_STAT_OVF q) := rfl
  rw [hs]
  refine ⟨?_, ?_, ?_, flag_raise_same _ (F.QUE_STAT_OVF q) (by simp) (by simp), ?_⟩
  · rw [State.raise_mem, State.countSat_mem]
  · rw [State.raise, get_put_other _ (F.QUE_STAT_OVF q) (F.QUE_PIDX_PIDX q) 1 (que_pidx_ne_stat q), State.countSat,
      get_put_other s (F.QUE_STAT_DROP q) (F.QUE_PIDX_PIDX q) _ (que_pidx_ne_stat q)]
  · rw [State.queSeqOf, State.raise_queSeq, State.countSat_queSeq, State.queSeqOf]
  · rw [State.raise, get_put_disjoint _ (F.QUE_STAT_OVF q) (F.QUE_STAT_DROP q) 1 (by simp) (by simp) (by simp) rfl (.inl (by simp)),
      get_countSat_same s (F.QUE_STAT_DROP q) 1 (by simp) (by simp)]

/-! The two parts of the statement. -/

/-- The time that passes changes no field, and no word. -/
theorem get_atTime (s : State) (t : Nat) (f : Fld) : (s.atTime t).get f = s.get f := get_congr (State.atTime_regs s t) f

theorem word_atTime (s : State) (t a : Nat) : (s.atTime t).word a = s.word a := word_congr (State.atTime_regs s t) a

theorem queN_atTime (s : State) (t q : Nat) : (s.atTime t).queN q = s.queN q := by rw [State.queN, get_atTime, State.queN]

theorem queDepth_atTime (s : State) (t q : Nat) : (s.atTime t).queDepth q = s.queDepth q := by
  rw [State.queDepth, get_atTime, get_atTime, State.queDepth]

theorem queHeldAt_atTime (s : State) (t q v : Nat) : (s.atTime t).queHeldAt q v = s.queHeldAt q v := by
  rw [State.queHeldAt, get_atTime, State.queHeldAt]

/-- An answer gives OK and changes neither memory nor registers. -/
theorem answered_keeps (s y : State) (a c : Nat) (hm : y.mem = s.mem) (hw : ∀ b, b ≠ a → b ≠ c → y.word b = s.word b) :
    (y.answered a).reply = some (stOk, []) ∧ (y.answered a).mem = s.mem ∧ ∀ b, b ≠ a → b ≠ c → (y.answered a).word b = s.word b :=
  ⟨rfl, hm, hw⟩

theorem get_answered (y : State) (a : Nat) (f : Fld) : (y.answered a).get f = y.get f := get_congr (State.answered_regs y a) f

theorem flag_answered (y : State) (a : Nat) (f : Fld) : (y.answered a).flag f = y.flag f := by rw [State.flag, get_answered, State.flag]

section
variable (s : State) (t : Nat) (m : Master) (q : Fin 128) (v : Word)

/-- A producer index that QUE refuses sets OVF alone (R39). -/
theorem exec_quePidxWrite_refused (hr : Reaches s t (R.QUE_PIDX q)) (h : s.queN q < s.queHeldAt q v.toNat) :
    exec (.quePidxWrite t m q v) s = .next (((s.atTime t).raise (F.QUE_STAT_OVF q)).answered (R.QUE_PIDX q)) := by
  rw [exec_quePidxWrite s t m q v hr, quePidxWrite_refused (s.atTime t) q v.toNat (by rwa [queN_atTime, queHeldAt_atTime])]

/-- A producer index that QUE takes (R38, R39). -/
theorem exec_quePidxWrite_taken (hr : Reaches s t (R.QUE_PIDX q)) (h : s.queHeldAt q v.toNat ≤ s.queN q) :
    ∃ s', exec (.quePidxWrite t m q v) s = .next s'
      ∧ (s'.reply = some (stOk, []) ∧ s'.mem = s.mem ∧ ∀ b, b ≠ R.QUE_PIDX q → b ≠ R.QUE_STAT q → s'.word b = s.word b)
      ∧ s'.get (F.QUE_PIDX_PIDX q) = v.toNat % 2 ^ 16 ∧ s'.flag (F.QUE_STAT_EMPTY q) = (s.queHeldAt q v.toNat == 0)
      ∧ s'.flag (F.QUE_STAT_FULL q) = (s.queHeldAt q v.toNat == s.queN q) ∧ s'.get (F.QUE_STAT_OVF q) = s.get (F.QUE_STAT_OVF q)
      ∧ s'.get (F.QUE_STAT_STALE q) = s.get (F.QUE_STAT_STALE q) ∧ s'.get (F.QUE_STAT_DROP q) = s.get (F.QUE_STAT_DROP q) := by
  obtain ⟨hmem, hword, hpidx, hempty, hfull, hstat⟩ :=
    quePidxWrite_effect (s.atTime t) q v.toNat (by rwa [queN_atTime, queHeldAt_atTime])
  simp only [word_atTime, queN_atTime, queHeldAt_atTime, get_atTime] at hword hempty hfull hstat
  refine ⟨_, exec_quePidxWrite s t m q v hr, answered_keeps s _ _ _ hmem hword, ?_⟩
  simp only [get_answered, flag_answered]
  exact ⟨hpidx, hempty, hfull, hstat (F.QUE_STAT_OVF q) rfl (by simp) (by simp), hstat (F.QUE_STAT_STALE q) rfl (by simp) (by simp),
    hstat (F.QUE_STAT_DROP q) rfl (by simp) (by simp)⟩

/-- A consumer index that QUE refuses sets OVF alone (R39). -/
theorem exec_queCidxWrite_refused (hr : Reaches s t (R.QUE_CIDX q)) (h : s.queDepth q < s.queHeldAt q v.toNat) :
    exec (.queCidxWrite t m q v) s = .next (((s.atTime t).raise (F.QUE_STAT_OVF q)).answered (R.QUE_CIDX q)) := by
  rw [exec_queCidxWrite s t m q v hr, queCidxWrite_refused (s.atTime t) q v.toNat (by rwa [queDepth_atTime, queHeldAt_atTime])]

/-- A consumer index that QUE takes, with its count of stale records (R39, R40). -/
theorem exec_queCidxWrite_taken (hr : Reaches s t (R.QUE_CIDX q)) (h : s.queHeldAt q v.toNat ≤ s.queDepth q) :
    ∃ s', exec (.queCidxWrite t m q v) s = .next s'
      ∧ (s'.reply = some (stOk, []) ∧ s'.mem = s.mem ∧ ∀ b, b ≠ R.QUE_CIDX q → b ≠ R.QUE_STAT q → s'.word b = s.word b)
      ∧ s'.get (F.QUE_CIDX_CIDX q) = v.toNat % 2 ^ 16
      ∧ s'.get (F.QUE_STAT_STALE q) = min (s.get (F.QUE_STAT_STALE q) + v.toNat / 2 ^ 16) (2 ^ (F.QUE_STAT_STALE q).width - 1)
      ∧ s'.flag (F.QUE_STAT_EMPTY q) = (s.queHeldAt q v.toNat == s.queDepth q)
      ∧ s'.flag (F.QUE_STAT_FULL q) = (s.queDepth q - s.queHeldAt q v.toNat == s.queN q)
      ∧ s'.get (F.QUE_STAT_OVF q) = s.get (F.QUE_STAT_OVF q) ∧ s'.get (F.QUE_STAT_DROP q) = s.get (F.QUE_STAT_DROP q) := by
  obtain ⟨hmem, hword, hcidx, hstale, hempty, hfull, hstat⟩ :=
    queCidxWrite_effect (s.atTime t) q v.toNat (by rwa [queDepth_atTime, queHeldAt_atTime])
  simp only [word_atTime, queN_atTime, queDepth_atTime, queHeldAt_atTime, get_atTime] at hword hstale hempty hfull hstat
  have hdisc : v.toNat / 2 ^ 16 < 2 ^ 16 := Nat.div_lt_of_lt_mul v.isLt
  rw [Nat.mod_eq_of_lt hdisc] at hstale
  have hnone : (s.queDepth q - s.queHeldAt q v.toNat == 0) = (s.queHeldAt q v.toNat == s.queDepth q) := by
    rw [Bool.eq_iff_iff, beq_iff_eq, beq_iff_eq]
    omega
  refine ⟨_, exec_queCidxWrite s t m q v hr, answered_keeps s _ _ _ hmem hword, ?_⟩
  simp only [get_answered, flag_answered]
  exact ⟨hcidx, hstale, hempty.trans hnone, hfull, hstat (F.QUE_STAT_OVF q) rfl (by simp) (by simp) (by simp),
    hstat (F.QUE_STAT_DROP q) rfl (by simp) (by simp) (by simp)⟩

/-- A write of QUE_STAT: the acknowledgement of OVF and CLR (R42). -/
theorem exec_queStatClr_effect (hr : Reaches s t (R.QUE_STAT q)) :
    ∃ s', exec (.queStatClr t m q v) s = .next s'
      ∧ (s'.reply = some (stOk, []) ∧ s'.mem = s.mem ∧ ∀ b, b ≠ R.QUE_STAT q → b ≠ R.QUE_STAT q → s'.word b = s.word b)
      ∧ s'.get (F.QUE_STAT_OVF q) = (if v.getLsbD 28 then 0 else s.get (F.QUE_STAT_OVF q))
      ∧ s'.get (F.QUE_STAT_STALE q) = (if v.getLsbD 31 then 0 else s.get (F.QUE_STAT_STALE q))
      ∧ s'.get (F.QUE_STAT_DROP q) = (if v.getLsbD 31 then 0 else s.get (F.QUE_STAT_DROP q))
      ∧ s'.get (F.QUE_STAT_EMPTY q) = s.get (F.QUE_STAT_EMPTY q) ∧ s'.get (F.QUE_STAT_FULL q) = s.get (F.QUE_STAT_FULL q) := by
  obtain ⟨hmem, hword⟩ := queStatWrite_frame (s.atTime t) q v.toNat
  simp only [word_atTime] at hword
  have htop := get_queStatWrite_top (s.atTime t) q v.toNat
  refine ⟨_, exec_queStatClr s t m q v hr, answered_keeps s _ _ _ hmem fun b _ hb => hword b hb, ?_⟩
  simp only [get_answered, get_queStatWrite_ovf, get_queStatWrite_stale, get_queStatWrite_drop, wbit_toNat,
    htop (F.QUE_STAT_EMPTY q) rfl (by simp) (by simp), htop (F.QUE_STAT_FULL q) rfl (by simp) (by simp), get_atTime, and_self]

end

/-- A hardware producer's record: in its entry with the doorbell rung, dropped, or lost in a block reset of QUE (R37–R39, R511). -/
theorem quePush_effect (s : State) (q : Fin 128) (kind : Nat) (payload : List Nat) (hp : ∀ w ∈ payload, w < 2 ^ 32) (ha : s.armed true = false) :
    let a := s.queEntry q (s.get (F.QUE_PIDX_PIDX q))
    let s' := s.quePush q kind payload
    (s.blockHeld quePlace = true → s' = s)
      ∧ (s.blockHeld quePlace = false → QueTakes s q payload →
        s'.readN a 4 = s.get (F.QUE_TAG_CUR q) + kind % 256 * 2 ^ 16 + payload.length * 2 ^ 24
        ∧ s'.readN (a + 4) 4 = s.queSeqOf q % 2 ^ 32 ∧ s'.readWords (a + 8) payload.length = payload
        ∧ s'.queSeqOf q = (s.queSeqOf q + 1) % 2 ^ 32 ∧ (∀ k, k ≠ q.val → s'.queSeqOf k = s.queSeqOf k)
        ∧ s'.get (F.QUE_PIDX_PIDX q) = (s.get (F.QUE_PIDX_PIDX q) + 1) % 2 ^ 16
        ∧ (∀ b, b < a ∨ a + payload.length * 4 + 8 ≤ b → s'.byte b = s.byte b)
        ∧ s'.flag (F.QUE_STAT_EMPTY q) = false ∧ s'.flag (F.QUE_STAT_FULL q) = (s.queDepth q + 1 == s.queN q)
        ∧ ∀ h, s.active = some h → ∀ i c, s.aCores[i]? = some c → i / 4 = h → ∀ c', s'.aCores[i]? = some c' → c'.ipend.getLsbD (16 + q % 32) = true)
      ∧ (s.blockHeld quePlace = false → ¬ QueTakes s q payload → s'.mem = s.mem ∧ s'.get (F.QUE_PIDX_PIDX q) = s.get (F.QUE_PIDX_PIDX q)
        ∧ s'.queSeqOf q = s.queSeqOf q ∧ s'.flag (F.QUE_STAT_OVF q) = true
        ∧ s'.get (F.QUE_STAT_DROP q) = min (s.get (F.QUE_STAT_DROP q) + 1) (2 ^ (F.QUE_STAT_DROP q).width - 1)) := by
  intro a s'
  refine ⟨quePush_held s q kind payload, fun hr ht => ?_, fun hr ht => ?_⟩
  · obtain ⟨hhead, hseq, hpay, hbyte⟩ := quePush_memory s q kind payload hp ha hr ht
    obtain ⟨hcount, hothers, hpidx, hempty, hfull⟩ := quePush_indexes s q kind payload ha hr ht
    exact ⟨hhead, hseq, hpay, hcount, hothers, hpidx, hbyte, hempty, hfull, fun h hh i _ _ hi c hc =>
      quePush_interrupt s q kind payload ha hr ht h i c hh hi hc⟩
  · have hdrop : s' = s.queDrop q := quePush_dropped s q kind payload hr ht
    rw [hdrop]
    exact queDrop_effect s q

end Sys2Proof.Machine

/-- Settles O27: a write of an index or of the status is the queue's own operation, and a record is either in its entry with the doorbell rung, or
dropped, or lost. -/
theorem queues : Obligations.Queues := by
  refine ⟨fun s t m q v => ?_, fun s q kind payload hp ha => ?_⟩
  · exact ⟨fun hr => ⟨exec_quePidxWrite_refused s t m q v hr, exec_quePidxWrite_taken s t m q v hr⟩,
      fun hr => ⟨exec_queCidxWrite_refused s t m q v hr, exec_queCidxWrite_taken s t m q v hr⟩, exec_queStatClr_effect s t m q v⟩
  · obtain ⟨hheld, htaken, hdropped⟩ := quePush_effect s q kind payload hp ha
    exact ⟨hheld, htaken, fun hr hroom => hdropped hr (Bool.eq_false_iff.1 hroom)⟩

end

section
/-! The clear commands (R46, R280, R472, R473, R551): each sets the fields that its block's table names to 0, one after the other. -/

open Sys2Proof Sys2Proof.Machine

namespace Sys2Proof.Machine

/-- The fields of `fs` set to 0, one after the other. -/
def State.clearFields (s : State) (fs : List Fld) : State := fs.foldl (fun s f => s.put f 0) s

/-- A register of 32 bits as one field. -/
abbrev wholeWord (a : Nat) : Fld := ⟨a, 31, 0⟩

/-- A whole word with its field at 0 is 0. -/
theorem withField_wholeWord (a w : Nat) (h : w < 2 ^ 32) : withField (wholeWord a) w 0 = 0 := by
  simp only [withField, Fld.width]
  omega

/-- Setting a word to 0 is clearing it as one field. -/
theorem setWord_zero (s : State) (a : Nat) : s.setWord a 0 = s.put (wholeWord a) 0 := by
  rw [State.put, withField_wholeWord a _ (word_lt s a)]

theorem clearFields_nil (s : State) : s.clearFields [] = s := List.foldl_nil

theorem clearFields_cons (s : State) (f : Fld) (fs : List Fld) : s.clearFields (f :: fs) = (s.put f 0).clearFields fs := List.foldl_cons ..

/-- Clearing fields changes no byte of memory. -/
@[simp] theorem clearFields_mem (fs : List Fld) (s : State) : (s.clearFields fs).mem = s.mem := by
  induction fs generalizing s with
  | nil => rfl
  | cons f fs ih => exact (ih (s.put f 0)).trans (State.put_mem s f 0)

/-- Clearing fields changes no word of another register. -/
theorem word_clearFields_other (fs : List Fld) (s : State) (b : Nat) (h : ∀ f ∈ fs, b ≠ f.reg) : (s.clearFields fs).word b = s.word b := by
  induction fs generalizing s with
  | nil => rfl
  | cons f fs ih =>
    exact (ih (s.put f 0) fun g hg => h g (List.mem_cons_of_mem f hg)).trans (word_put_other s f 0 b (h f List.mem_cons_self))

/-- A field put at 0 leaves its word with that field at 0. -/
theorem word_put_zero (s : State) (f : Fld) (h : f.lo ≤ f.hi) (h32 : f.hi < 32) : (s.put f 0).word f.reg = withField f (s.word f.reg) 0 := by
  rw [State.put, word_setWord_same, Nat.mod_eq_of_lt (withField_lt f _ 0 h h32 (word_lt s f.reg))]

/-- Each of the fields that were cleared reads 0 in a word that is otherwise as it was, where no two of them share a register. -/
theorem word_clearFields_mem (fs : List Fld) (s : State) (hb : ∀ f ∈ fs, f.lo ≤ f.hi ∧ f.hi < 32) (hd : (fs.map Fld.reg).Nodup)
    (f : Fld) (hf : f ∈ fs) :
    (s.clearFields fs).word f.reg = withField f (s.word f.reg) 0 := by
  induction fs generalizing s with
  | nil => exact absurd hf List.not_mem_nil
  | cons g fs ih =>
    obtain ⟨hg, hd⟩ := List.nodup_cons.1 hd
    rcases List.mem_cons.1 hf with rfl | hf
    · have hlater : ∀ e ∈ fs, f.reg ≠ e.reg := fun e he h => hg (h ▸ List.mem_map_of_mem he)
      obtain ⟨hle, h32⟩ := hb f List.mem_cons_self
      exact (word_clearFields_other fs (s.put f 0) f.reg hlater).trans (word_put_zero s f hle h32)
    · have hne : f.reg ≠ g.reg := fun h => hg (h ▸ List.mem_map_of_mem hf)
      have := ih (s.put g 0) (fun e he => hb e (List.mem_cons_of_mem g he)) hd hf
      rw [word_put_other s g 0 f.reg hne] at this
      exact this

/-- Command `i`, a write of `v` to the register at `a`, is a clear command of the fields `fs`. -/
def ClearsFields (s : State) (t : Nat) (v : Word) (i : Instr) (a : Nat) (fs : List Fld) : Prop :=
  Reaches s t a →
    (v.getLsbD 0 = false → exec i s = .next ((s.atTime t).answered a))
      ∧ (v.getLsbD 0 = true → ∃ s', exec i s = .next s' ∧ s'.reply = some (stOk, []) ∧ s'.mem = s.mem
        ∧ (∀ f ∈ fs, s'.word f.reg = withField f (s.word f.reg) 0) ∧ ∀ b, (∀ f ∈ fs, b ≠ f.reg) → s'.word b = s.word b)

/-- The fields lie in registers of their own, each within its word. -/
abbrev OwnRegisters (fs : List Fld) : Prop := (fs.map Fld.reg).Nodup ∧ ∀ f ∈ fs, f.lo ≤ f.hi ∧ f.hi < 32

/-- A write of one register whose block clears the fields `gs` with bit 0 is a clear command of the same fields in any order. -/
theorem clearsFields_of_effect (s : State) (t : Nat) (m : Master) (v : Word) {i : Instr} {a o : Nat} {b : Blk} {gs fs : List Fld}
    (hi : exec i s = .next ((s.atTime t).access m a v.toNat)) (hn : NamesReg a b o)
    (hw : ∀ y : State, y.registerEffect m b o a v.toNat {} = okay (if wbit v.toNat 0 then y.clearFields gs else y))
    (hg : OwnRegisters gs) (hp : ∀ f, f ∈ fs ↔ f ∈ gs) : ClearsFields s t v i a fs := by
  intro hr
  have hx := access_named s t m v.toNat _ hn hr (hw (s.atTime t))
  rw [wbit_toNat] at hx
  refine ⟨fun h0 => ?_, fun h1 => ⟨((s.atTime t).clearFields gs).answered a, ?_, rfl, ?_, fun f hf => ?_, fun c hc => ?_⟩⟩
  · rw [hi, hx, h0]
    rfl
  · rw [hi, hx, h1]
    rfl
  · exact clearFields_mem gs (s.atTime t)
  · exact word_clearFields_mem gs (s.atTime t) hg.2 hg.1 f ((hp f).1 hf)
  · exact word_clearFields_other gs (s.atTime t) c fun f hf => hc f ((hp f).2 hf)

/-- Setting each word of a range to 0 is clearing them. -/
theorem foldl_setWord_zero (s : State) (l : List Nat) (r : Nat → Nat) :
    l.foldl (fun s n => s.setWord (r n) 0) s = s.clearFields (l.map fun n => wholeWord (r n)) := by
  simp only [State.clearFields, List.foldl_map, setWord_zero]

/-- Setting two words of each of a range to 0 is clearing them. -/
theorem foldl_setWord_zero_two (s : State) (l : List Nat) (r r' : Nat → Nat) :
    l.foldl (fun s n => (s.setWord (r n) 0).setWord (r' n) 0) s = s.clearFields (l.flatMap fun n => [wholeWord (r n), wholeWord (r' n)]) := by
  simp only [State.clearFields, List.foldl_flatMap, setWord_zero, List.foldl_cons, List.foldl_nil]

/-- Putting one field of each of a range at 0 is clearing them. -/
theorem foldl_put_zero (s : State) (l : List Nat) (f : Nat → Fld) : l.foldl (fun s n => s.put (f n) 0) s = s.clearFields (l.map f) := by
  rw [State.clearFields, List.foldl_map]

/-- Two fields of each of a range, taken one range after the other or side by side. -/
theorem mem_maps_iff_mem_pairs (l : List Nat) (p q : Nat → Fld) (f : Fld) : f ∈ l.map p ++ l.map q ↔ f ∈ l.flatMap fun n => [p n, q n] := by
  simp only [List.mem_append, List.mem_map, List.mem_flatMap, List.mem_cons, List.not_mem_nil, or_false, and_or_left, exists_or, eq_comm]

/-! Each block's clear command. -/

section
variable (s : State) (t : Nat) (m : Master) (v : Word)

/-- FAB_CLR (R46). -/
theorem clears_fab : ClearsFields s t v (.fabClr t m v) R.FAB_CLR [wholeWord R.FAB_PCNT, wholeWord R.FAB_RCNT, wholeWord R.FAB_ECNT] := by
  refine clearsFields_of_effect s t m v rfl (b := .fab) (o := 0x1C) (by decide) (fun y => ?_) (by decide) fun _ => Iff.rfl
  show y.wFabClr v.toNat = _
  simp only [State.wFabClr, setWord_zero, clearFields_cons, clearFields_nil]

/-- LMP_CLR (R472). -/
theorem clears_lmp : ClearsFields s t v (.lmpClr t m v) R.LMP_CLR [wholeWord R.LMP_CRCCNT, wholeWord R.LMP_REFCNT, wholeWord R.LMP_RETRY] := by
  refine clearsFields_of_effect s t m v rfl (b := .lmp) (o := 0x18) (by decide) (fun y => ?_) (by decide) fun _ => Iff.rfl
  show y.wLmpClr v.toNat = _
  simp only [State.wLmpClr, setWord_zero, clearFields_cons, clearFields_nil]

/-- ETH_CLR (R473). -/
theorem clears_eth : ClearsFields s t v (.ethClr t m v) R.ETH_CLR [wholeWord R.ETH_DROP] := by
  refine clearsFields_of_effect s t m v rfl (b := .eth) (o := 0x14) (by decide) (fun y => ?_) (by decide) fun _ => Iff.rfl
  show y.wEthClr v.toNat = _
  simp only [State.wEthClr, setWord_zero, clearFields_cons, clearFields_nil]

/-- FNG_CLR: beside the counters of the fingers, the count of skipped calibrations. -/
theorem clears_fng : ClearsFields s t v (.fngClr t m v) R.FNG_CLR
    (F.FNG_CALPOS_CALSKIP :: (List.range 32).map fun k => wholeWord (R.FNG_CNT k)) := by
  refine clearsFields_of_effect s t m v rfl (b := .fng) (o := 0x0C) (by decide) (fun y => ?_) (by decide) fun _ => Iff.rfl
  show y.wFngClr v.toNat = _
  simp only [State.wFngClr, foldl_setWord_zero, clearFields_cons]

/-- PLM_CLR: the deferrals of each palm. -/
theorem clears_plm : ClearsFields s t v (.plmClr t m v) R.PLM_CLR ((List.range 8).map fun k => wholeWord (R.PLM_DEF k)) := by
  refine clearsFields_of_effect s t m v rfl (b := .plm) (o := 0x04) (by decide) (fun y => ?_) (by decide) fun _ => Iff.rfl
  show y.wPlmClr v.toNat = _
  simp only [State.wPlmClr, foldl_setWord_zero]

/-- LDS_CLR: the latches of each load channel. -/
theorem clears_lds : ClearsFields s t v (.ldsClr t m v) R.LDS_CLR ((List.range 16).map fun k => wholeWord (R.LDS_CNT k)) := by
  refine clearsFields_of_effect s t m v rfl (b := .lds) (o := 0x0C) (by decide) (fun y => ?_) (by decide) fun _ => Iff.rfl
  show y.wLdsClr v.toNat = _
  simp only [State.wLdsClr, foldl_setWord_zero]

/-- BRM_CLR: the diversions of each reservoir and their energy. -/
theorem clears_brm : ClearsFields s t v (.brmClr t m v) R.BRM_CLR
    [wholeWord (R.BRM_DIVCNT 0), wholeWord (R.BRM_DIVE 0), wholeWord (R.BRM_DIVCNT 1), wholeWord (R.BRM_DIVE 1)] := by
  refine clearsFields_of_effect s t m v rfl (b := .brm) (o := 0x08) (by decide) (fun y => ?_) (by decide) fun _ => Iff.rfl
  show y.wBrmClr v.toNat = _
  simp only [State.wBrmClr, List.foldl_cons, List.foldl_nil, setWord_zero, clearFields_cons, clearFields_nil]

/-- SNP_CLR: the fold counts, each beside the flags of its port. -/
theorem clears_snp : ClearsFields s t v (.snpClr t m v) R.SNP_CLR ((List.range 8).map F.SNP_STAT_FOLDCNT) := by
  refine clearsFields_of_effect s t m v rfl (b := .snp) (o := 0x04) (by decide) (fun y => ?_) (by decide) fun _ => Iff.rfl
  show y.wSnpClr v.toNat = _
  simp only [State.wSnpClr, foldl_put_zero]

/-- MPL_CLR: the parity errors of its own pipeline. -/
theorem clears_mpl (q : Fin 2) : ClearsFields s t v (.mplClr t m q v) (R.MPL_CLR q) [wholeWord (R.MPL_PCNT q)] := by
  refine clearsFields_of_effect s t m v rfl (b := .mpl) (o := 0x14) (by revert q; decide) (fun y => ?_)
    (by revert q; decide) fun _ => Iff.rfl
  have hi : indexIn (R.MPL_CLR q) 0x400140000 0x10000 = q := by revert q; decide
  show y.wMplClr (indexIn (R.MPL_CLR q) 0x400140000 0x10000) v.toNat = _
  rw [hi]
  simp only [State.wMplClr, setWord_zero, clearFields_cons, clearFields_nil]

/-- CSI_CLR: beside the two counts, the peak of the fill level. -/
theorem clears_csi (p : Fin 4) : ClearsFields s t v (.csiClr t m p v) (R.CSI_CLR p)
    [wholeWord (R.CSI_ECNT p), wholeWord (R.CSI_DCNT p), F.CSI_FILL_PEAK p] := by
  refine clearsFields_of_effect s t m v rfl (b := .csi) (o := 0x18) (by revert p; decide) (fun y => ?_)
    (by revert p; decide) fun _ => Iff.rfl
  have hi : indexIn (R.CSI_CLR p) 0x400100000 0x10000 = p := by revert p; decide
  show y.wCsiClr (indexIn (R.CSI_CLR p) 0x400100000 0x10000) v.toNat = _
  rw [hi]
  simp only [State.wCsiClr, setWord_zero, clearFields_cons, clearFields_nil]

/-- VSC_CCLR: the two counts of its own context. -/
theorem clears_vsc (c : Fin 8) : ClearsFields s t v (.vscCclr t m c v) (R.VSC_CCLR c) [wholeWord (R.VSC_DCNT c), wholeWord (R.VSC_UCNT c)] := by
  refine clearsFields_of_effect s t m v rfl (b := .vsc) (o := 0x158) (by revert c; decide) (fun y => ?_)
    (by revert c; decide) fun _ => Iff.rfl
  have hi : indexIn (R.VSC_CCLR c) (R.VSC_CCFG 0) 0x80 = c := by revert c; decide
  show y.wVscClr (indexIn (R.VSC_CCLR c) (R.VSC_CCFG 0) 0x80) v.toNat = _
  rw [hi]
  simp only [State.wVscClr, setWord_zero, clearFields_cons, clearFields_nil]

/-- HRA_CLR: the omitted samples and forced pulses of each input. -/
theorem clears_hra : ClearsFields s t v (.hraClr t m v) R.HRA_CLR ((List.range 8).map fun k => wholeWord (R.HRA_XCNT k)) := by
  refine clearsFields_of_effect s t m v rfl (b := .hra) (o := 0x08) (by decide) (fun y => ?_) (by decide) fun _ => Iff.rfl
  show y.wHraClr v.toNat = _
  simp only [State.wHraClr, foldl_setWord_zero]

/-- GPA_CLR: the omitted strikes of each list. -/
theorem clears_gpa : ClearsFields s t v (.gpaClr t m v) R.GPA_CLR ((List.range 4).map fun k => wholeWord (R.GPA_LOMIT k)) := by
  refine clearsFields_of_effect s t m v rfl (b := .gpa) (o := 0x08) (by decide) (fun y => ?_) (by decide) fun _ => Iff.rfl
  show y.wGpaClr v.toNat = _
  simp only [State.wGpaClr, foldl_setWord_zero]

/-- FQI_CLR: the excess edges of each frequency input. -/
theorem clears_fqi : ClearsFields s t v (.fqiClr t m v) R.FQI_CLR ((List.range 24).map fun k => wholeWord (R.FQI_OCNT k)) := by
  refine clearsFields_of_effect s t m v rfl (b := .fqi) (o := 0x0C) (by decide) (fun y => ?_) (by decide) fun _ => Iff.rfl
  show y.wFqiClr v.toNat = _
  simp only [State.wFqiClr, foldl_setWord_zero]

/-- FEX_CLR (R199). -/
theorem clears_fex : ClearsFields s t v (.fexClr t m v) R.FEX_CLR [wholeWord R.FEX_JDROP] := by
  refine clearsFields_of_effect s t m v rfl (b := .fex) (o := 0x28) (by decide) (fun y => ?_) (by decide) fun _ => Iff.rfl
  show y.wFexClr v.toNat = _
  simp only [State.wFexClr, setWord_zero, clearFields_cons, clearFields_nil]

/-- PRJ_CLR (R200). -/
theorem clears_prj : ClearsFields s t v (.prjClr t m v) R.PRJ_CLR [wholeWord R.PRJ_OUT] := by
  refine clearsFields_of_effect s t m v rfl (b := .prj) (o := 0x08) (by decide) (fun y => ?_) (by decide) fun _ => Iff.rfl
  show y.wPrjClr v.toNat = _
  simp only [State.wPrjClr, setWord_zero, clearFields_cons, clearFields_nil]

/-- FUS_CLR (R201): it takes the two counts of a source together. -/
theorem clears_fus : ClearsFields s t v (.fusClr t m v) R.FUS_CLR
    ((List.range 32).map (fun k => wholeWord (R.FUS_SERR k)) ++ (List.range 32).map fun k => wholeWord (R.FUS_SLOSS k)) := by
  refine clearsFields_of_effect s t m v rfl (b := .fus) (o := 0x14) (by decide) (fun y => ?_)
    (by decide) fun _ => mem_maps_iff_mem_pairs ..
  show y.wFusClr v.toNat = _
  simp only [State.wFusClr, foldl_setWord_zero_two]

/-- YT_CLR (R202). -/
theorem clears_yt : ClearsFields s t v (.ytClr t m v) R.YT_CLR [wholeWord R.YT_MISS, wholeWord R.YT_SKIP] := by
  refine clearsFields_of_effect s t m v rfl (b := .yt) (o := 0x2C) (by decide) (fun y => ?_) (by decide) fun _ => Iff.rfl
  show y.wYtClr v.toNat = _
  simp only [State.wYtClr, setWord_zero, clearFields_cons, clearFields_nil]

/-- GNB_CLR: the count of dropped samples. -/
theorem clears_gnb : ClearsFields s t v (.gnbClr t m v) R.GNB_CLR [wholeWord R.GNB_DCNT] := by
  refine clearsFields_of_effect s t m v rfl (b := .gnb) (o := 0x24) (by decide) (fun y => ?_) (by decide) fun _ => Iff.rfl
  show y.wGnbClr v.toNat = _
  simp only [State.wGnbClr, setWord_zero, clearFields_cons, clearFields_nil]

/-- IMU_CLR: the count of omitted strikes. -/
theorem clears_imu : ClearsFields s t v (.imuClr t m v) R.IMU_CLR [wholeWord R.IMU_OCNT] := by
  refine clearsFields_of_effect s t m v rfl (b := .imu) (o := 0x18) (by decide) (fun y => ?_) (by decide) fun _ => Iff.rfl
  show y.wImuClr v.toNat = _
  simp only [State.wImuClr, setWord_zero, clearFields_cons, clearFields_nil]

/-- CAN_CLR: the two counts of its own channel. -/
theorem clears_can (n : Fin 4) : ClearsFields s t v (.canClr t m n v) (R.CAN_CLR n) [wholeWord (R.CAN_RXNM n), wholeWord (R.CAN_CNT n)] := by
  refine clearsFields_of_effect s t m v rfl (b := .can) (o := 0x44) (by revert n; decide) (fun y => ?_)
    (by revert n; decide) fun _ => Iff.rfl
  have hi : indexIn (R.CAN_CLR n) 0x400600000 0x10000 = n := by revert n; decide
  show y.wCanClr (indexIn (R.CAN_CLR n) 0x400600000 0x10000) v.toNat = _
  rw [hi]
  simp only [State.wCanClr, setWord_zero, clearFields_cons, clearFields_nil]

/-- MSG_CLR: the abort counts, each beside the sessions of its channel. -/
theorem clears_msg : ClearsFields s t v (.msgClr t m v) R.MSG_CLR ((List.range 4).map F.MSG_SCNT_ABORT) := by
  refine clearsFields_of_effect s t m v rfl (b := .msg) (o := 0x28) (by decide) (fun y => ?_) (by decide) fun _ => Iff.rfl
  show y.wMsgClr v.toNat = _
  simp only [State.wMsgClr, foldl_put_zero]

/-- FLT_CLR (R551). -/
theorem clears_flt : ClearsFields s t v (.fltClr t m v) R.FLT_CLR [wholeWord R.FLT_SUPP, wholeWord R.FLT_QDROP] := by
  refine clearsFields_of_effect s t m v rfl (b := .flt) (o := 0x18) (by decide) (fun y => ?_) (by decide) fun _ => Iff.rfl
  show y.wFltClr v.toNat = _
  simp only [State.wFltClr, setWord_zero, clearFields_cons, clearFields_nil]

/-- CE_CLR (R280): it takes the two counts of a lane together. -/
theorem clears_ce (h : Fin 2) : ClearsFields s t v (.ceClr t m h v) (R.CE_CLR h)
    (wholeWord (R.CE_PCONF h) :: wholeWord (R.CE_OVCNT h)
      :: ((List.range 8).map (fun k => wholeWord (R.LAN_OVCNT h k)) ++ (List.range 8).map fun k => wholeWord (R.LAN_MAXC h k))) := by
  refine clearsFields_of_effect s t m v rfl (b := .ce) (o := 0x10) (by revert h; decide) (fun y => ?_)
    (gs := wholeWord (R.CE_PCONF h) :: wholeWord (R.CE_OVCNT h)
      :: (List.range 8).flatMap fun k => [wholeWord (R.LAN_OVCNT h k), wholeWord (R.LAN_MAXC h k)]) (by revert h; decide) fun f => ?_
  · have hi : halfOf (R.CE_CLR h) = h := by revert h; decide
    show y.wCeClr (halfOf (R.CE_CLR h)) v.toNat = _
    rw [hi]
    simp only [State.wCeClr, foldl_setWord_zero_two]
    simp only [setWord_zero, clearFields_cons, apply_ite okay]
  · rw [List.mem_cons, List.mem_cons, mem_maps_iff_mem_pairs, List.mem_cons, List.mem_cons]

end

end Sys2Proof.Machine

/-- Settles O28: each command is the write of its block, which clears the fields of its table with bit 0 and nothing without it. -/
theorem clearCommands : Obligations.ClearCommands := by
  intro s t m v h q p n c whole each clears
  exact ⟨clears_fab s t m v, clears_lmp s t m v, clears_eth s t m v, clears_fng s t m v, clears_plm s t m v, clears_lds s t m v, clears_brm s t m v,
    clears_snp s t m v, clears_mpl s t m v q, clears_csi s t m v p, clears_vsc s t m v c, clears_hra s t m v, clears_gpa s t m v, clears_fqi s t m v,
    clears_fex s t m v, clears_prj s t m v, clears_fus s t m v, clears_yt s t m v, clears_gnb s t m v, clears_imu s t m v, clears_can s t m v n,
    clears_msg s t m v, clears_flt s t m v, clears_ce s t m v h⟩

end

section
/-! The state before power (R20, R22, R516, R518): no register is listed, so each reads the reset value of its table, and memory lists the burned fuse
row alone. -/

open Sys2Proof Sys2Proof.Machine

namespace Sys2Proof.Machine

/-- Before power a register reads the reset value of its table. -/
theorem word_reset (a : Nat) : State.reset.word a = (regReset a).toNat := rfl

/-- Before power a field reads its part of the reset value of its table. -/
theorem get_reset (f : Fld) : State.reset.get f = fieldOf f (regReset f.reg).toNat := rfl

/-- Before power memory, registers and poison marks are in canonical form. -/
theorem canonical_reset : State.reset.canonical = true := by
  have hm : State.reset.memWf = true := memWf_reset
  simp only [State.memWf, Bool.and_eq_true] at hm
  simp only [State.canonical, Bool.and_eq_true]
  exact ⟨⟨hm.1, sparseWf_nil regReset⟩, hm.2⟩

/-- Before power the A-cores and the lanes are alike: pc and VBASE are 0, and no return address is pushed. -/
theorem cpusLegal_reset : State.reset.cpusLegal = true := by decide

/-- Before power memory below the fuses reads 0: DRAM of both halves and of the field (log 6). -/
theorem byte_reset_dram (a : Nat) (h : a < 3 * 2 ^ 32) : State.reset.byte a = 0 := by
  refine sparseGet_of_unlisted memDefault _ a fun e he => ?_
  have hrow : e.1 = 0x380000600 ∨ e.1 = 0x380000601 := by
    rcases List.mem_cons.1 he with rfl | he
    · exact .inl rfl
    · exact .inr (by rw [List.mem_singleton.1 he])
  omega

/-! Reset values by the tables. Those of the loops, 256 in each half, follow from where their windows lie. -/

/-- A window of one piece that ends at or below `a` does not hold `a`. -/
theorem blockAt_past (i : Blk) (base size : Nat) (t : List RegDesc) (r : List BlockDesc) (a : Nat) (h : base + size ≤ a) :
    blockAt a (⟨i, base, size, [], t⟩ :: r) = blockAt a r := by
  have hw : ¬ a - base < size := by omega
  simp [blockAt, windowOffset, hw]

/-- A row of `n` windows, `st` apart, that ends at or below `a` does not hold `a`. -/
theorem blockAt_row_past (i : Blk) (base size n st : Nat) (t : List RegDesc) (r : List BlockDesc) (a : Nat) (hp : 0 < st) (h : base + n * st ≤ a) :
    blockAt a (⟨i, base, size, [(n, st)], t⟩ :: r) = blockAt a r := by
  have hw : ¬ (a - base) / st < n := by
    rw [Nat.div_lt_iff_lt_mul hp]
    omega
  simp [blockAt, windowOffset, hw]

/-- A window of the list that holds `a` at offset `o` is the one that answers for it. -/
theorem blockAt_here (b : BlockDesc) (r : List BlockDesc) (a o : Nat) (hb : b.base ≤ a) (hw : windowOffset b.size b.wdims (a - b.base) = some o) :
    blockAt a (b :: r) = some (b, o) := by
  simp [blockAt, hb, hw]

/-- The windows of the loop descriptors are the first that hold an address in them. -/
theorem blockAt_loop (a o : Nat) (h : 0x500100000 ≤ a) (hw : windowOffset 0x100 [(2, 0x100000000), (256, 0x100)] (a - 0x500100000) = some o) :
    blockAt a regBlocks = some (⟨.lpd, 0x500100000, 0x100, [(2, 0x100000000), (256, 0x100)], regsLpd⟩, o) := by
  unfold regBlocks
  iterate 4 rw [blockAt_past _ _ _ _ _ _ (Nat.le_trans (by decide) h)]
  iterate 2 rw [blockAt_row_past _ _ _ _ _ _ _ _ (by decide) (Nat.le_trans (by decide) h)]
  iterate 8 rw [blockAt_past _ _ _ _ _ _ (Nat.le_trans (by decide) h)]
  exact blockAt_here _ _ a o h hw
/-- The offset in its descriptor of a word of loop `n` of half `h`. -/
theorem windowOffset_loop (h n o : Nat) (hh : h < 2) (hn : n < 256) (ho : o < 0x100) :
    windowOffset 0x100 [(2, 0x100000000), (256, 0x100)] (h * 0x100000000 + n * 0x100 + o) = some o := by
  rw [windowOffset, if_pos (by omega), show (h * 0x100000000 + n * 0x100 + o) % 0x100000000 = n * 0x100 + o by omega,
    windowOffset, if_pos (by omega), show (n * 0x100 + o) % 0x100 = o by omega, windowOffset, if_pos ho]


/-- The word at offset `o` of the descriptor of loop `n` of half `h` has the reset value of that offset in the table, whatever the loop. -/
theorem regReset_loop (a r o h n : Nat) (ha : a = r + h * 0x100000000 + n * 0x100) (hr : r = 0x500100000 + o) (hh : h < 2) (hn : n < 256)
    (ho : o < 0x100) : regReset a = ((regIn o regsLpd).map fun d => BitVec.ofNat 32 d.reset).getD 0 := by
  have hd : a - 0x500100000 = h * 0x100000000 + n * 0x100 + o := by omega
  have hb := blockAt_loop a o (by omega) (hd ▸ windowOffset_loop h n o hh hn ho)
  cases hrow : regIn o regsLpd <;> simp [regReset, regDescAt, hb, hrow]

/-- The reset values of QUE (R42). -/
theorem reset_que (q : Fin 128) : State.reset.get (F.QUE_CFG_LOG2N q) = 4 ∧ State.reset.flag (F.QUE_STAT_EMPTY q) = true := by
  revert q
  decide +kernel

/-- The reset values of the loop descriptors (R264). -/
theorem reset_lpd (h : Fin 2) (n : Fin 256) : State.reset.word (R.LPD_CSCL h n) = 2 ^ 24 ∧ State.reset.flag (F.LPD_CTL_EN h n) = false := by
  have hscale : regReset (R.LPD_CSCL h n) = BitVec.ofNat 32 (2 ^ 24) :=
    (regReset_loop (R.LPD_CSCL h n) 0x500100028 0x28 h n rfl (by decide) h.isLt n.isLt (by decide)).trans (by decide)
  have hctl : regReset (R.LPD_CTL h n) = 0 :=
    (regReset_loop (R.LPD_CTL h n) 0x500100000 0 h n rfl (by decide) h.isLt n.isLt (by decide)).trans (by decide)
  rw [State.flag, get_reset, word_reset, hscale, hctl]
  exact ⟨by decide, by simp [fieldOf, Fld.width]⟩

/-- The reset values of the trigger lines' periods (R82). -/
theorem reset_hb_lines (n : Fin 32) : State.reset.word (R.HB_LPER_LO n) = 1000000 := by
  revert n
  decide

/-- The reset values of the context registers of VSC. -/
theorem reset_vsc (c : Fin 8) : State.reset.get (F.VSC_CGEO_WIDTH c) = 64 ∧ State.reset.get (F.VSC_BUF_NBUF c) = 2 := by
  revert c
  decide

/-- The reset values of the ages of HRIN's calibrations. -/
theorem reset_hra_ages (n : Fin 8) : State.reset.word (R.HRA_CALAGE n) = 65535 := by
  revert n
  decide

/-- The reset values of FIN's stall times. -/
theorem reset_fqi (n : Fin 24) : State.reset.get (F.FQI_STALL_STALL n) = 1000000 := by
  revert n
  decide

/-- The reset values of the fingers. -/
theorem reset_fng (n : Fin 32) : State.reset.get (F.FNG_CFG_PWMF n) = 20 ∧ State.reset.get (F.FNG_DUTY_DLIM n) = 100
    ∧ State.reset.get (F.FNG_TH2_TTRIP n) = 180 := by
  revert n
  decide

/-- The reset values of the palms. -/
theorem reset_plm (p : Fin 8) : State.reset.get (F.PLM_CFG_ILIM p) = 20 := by
  revert p
  decide

/-- The reset values of the load channels: channels 8 to 15 have the smaller latch current. -/
theorem reset_lds (n : Fin 16) : State.reset.get (F.LDS_CFG_RETRY n) = 3
    ∧ State.reset.get (F.LDS_CUR_ILAT n) = if n.val < 8 then 0x32 else 0x19 := by
  revert n
  decide

/-- The reset values of the brim ceilings. -/
theorem reset_brm (h : Fin 2) : State.reset.get (F.BRM_CEIL_CEIL h) = 50 := by
  revert h
  decide

/-- The reset values of the CAN channels and their address claims. -/
theorem reset_can (n : Fin 4) : State.reset.get (F.CAN_NBT_NTSEG1 n) = 68 ∧ State.reset.get (F.CAN_CFG_BODLY n) = 10
    ∧ State.reset.flag (F.CAN_CFG_EN n) = false ∧ State.reset.get (F.MSG_AC_ADDR n) = 0xFE := by
  revert n
  decide

end Sys2Proof.Machine

/-- Settles O54: no register is listed in the state before power, so each block's registers read the reset values of their tables. -/
theorem resetState : Obligations.ResetState :=
  ⟨rfl, canonical_reset, cpusLegal_reset, by decide, rfl, rfl, byte_reset_dram, reset_que,
    by decide, by decide, by decide, by decide, by decide, reset_hb_lines,
    reset_vsc, by decide, reset_hra_ages, reset_fqi, by decide, by decide, reset_lpd, reset_fng, reset_plm,
    reset_lds, reset_brm, by decide, by decide, by decide, reset_can, by decide⟩

end

section
/-! Frames of contexts (R105, R107, R112, R119): which pipeline a frame that is taken waits for. -/

open Sys2Proof Sys2Proof.Machine

namespace Sys2Proof.Machine

/-- A frame whose pipeline does not run is not completed: nothing of the state changes. -/
theorem frameComplete_pipelineDown (s : State) (c : Nat) (bad : List (List (Fin 4 × Nat))) {f : Frame} {later : List Frame}
    (hf : (s.ctx c).frames = f :: later) (hdown : s.mplOn (s.framePipe c f) = false) : s.frameComplete c bad = s := by
  simp [State.frameComplete, hf, hdown]

/-- A closed frame that pipeline 0 has taken whole and that is not yet written. -/
def frameTakenByPipe0 : Frame := { isOpen := false, processed := true, pipe := 0 }

/-- Context 0 has migrated to pipeline 1, its frame was taken by pipeline 0 before, and pipeline 0 has gone down since for a restart with the verified
microcode. With a context set up, CONTEXT_ENABLE on pipeline 0, a frame start, CONTEXT_MIGRATE, the frame's end, the grant and its end, and
BLOCK_RESTART of pipeline 0 lead to such a state. -/
def stateOfStrandedFrame : State :=
  { State.reset with
    ctxs := [{ frames := [frameTakenByPipe0], pipe := 1 }]
    upd := { kinds := List.replicate 6 { fresh := true }, restarting := [mplPlace 0] } }

/-- The pipeline that the context is bound to runs. -/
theorem strandedFrame_contextPipe_on : (stateOfStrandedFrame.atTime 0).mplOn (stateOfStrandedFrame.ctx 0).pipe = true := by decide

/-- The pipeline that took the frame does not run. -/
theorem strandedFrame_framePipe_down :
    (stateOfStrandedFrame.atTime 0).mplOn ((stateOfStrandedFrame.atTime 0).framePipe 0 frameTakenByPipe0) = false := by decide

/-- FRAME_COMPLETE has no effect on the stranded frame. -/
theorem exec_frameComplete_strandedFrame : exec (.frameComplete 0 0 []) stateOfStrandedFrame = .next (stateOfStrandedFrame.atTime 0) :=
  congrArg _ (frameComplete_pipelineDown (stateOfStrandedFrame.atTime 0) 0 [] rfl strandedFrame_framePipe_down)

end Sys2Proof.Machine

/-- Refutes O32: the third clause of the pipelines asks that the pipeline which the context is bound to run, but a frame that is processed waits for the
pipeline that took it (R104, R112). After a migration the two differ, so with the old pipeline down FRAME_COMPLETE leaves WR as it was. -/
theorem not_camerasAndPipelines : ¬ Obligations.CamerasAndPipelines := by
  rintro ⟨-, hpipelines, -⟩
  obtain ⟨-, -, hcomplete, -⟩ := hpipelines stateOfStrandedFrame 0 0 0 0 0
  obtain ⟨s', hexec, hwr, -⟩ := hcomplete frameTakenByPipe0 [] (by decide) rfl rfl rfl rfl strandedFrame_contextPipe_on
  obtain rfl : stateOfStrandedFrame.atTime 0 = s' := by
    rw [exec_frameComplete_strandedFrame] at hexec
    exact Host.Outcome.next.inj hexec
  rw [get_atTime] at hwr
  omega

end

section
/-! The rotation of the high-rate channels' calibration (R129, R132): a queue whose entries are not all channels. -/

open Sys2Proof Sys2Proof.Machine

namespace Sys2Proof.Machine

/-- The rotation's queue after it goes on: the entries from the first one that is enabled in the state in which it goes on. -/
theorem calVisit_calQueue (s : State) (q : List Nat) :
    (s.calVisit q).inp.calQueue = q.dropWhile (fun k => !s.flag (F.HRA_CFG_EN k)) := by
  unfold State.calVisit
  cases hq : q.dropWhile (fun k => !s.flag (F.HRA_CFG_EN k)) with
  | nil => rfl
  | cons c r =>
    dsimp only
    split <;> rfl

/-- HRIN_CAL_COMPLETE ends the calibration of its channel at the time of the command. -/
theorem exec_hrinCalComplete (t : Nat) (n : Fin 8) (gain ofs : Int) (s : State) :
    exec (.hrinCalComplete t n gain ofs) s = .next ((s.atTime t).calComplete n gain ofs) := rfl

/-- An entry that is no channel: in the formula for HRA_CFG its address is that of FAB_PCNT. -/
def strayChannel : Nat := 66556

/-- The EN bit of the stray entry is the lowest bit of the count of fabric errors. -/
theorem hrinConfig_strayChannel : R.HRA_CFG strayChannel = R.FAB_PCNT := by decide

/-- Module time is 1 s, channel 0 is in its calibration since module time 0, and the rotation's queue names the stray entry after it. The log is full, a
window of FLT has ended, and an injection is armed for writes: the next report makes EVR write its counts, and that write meets the error. -/
def stateOfStrayChannel : State :=
  let s : State := { State.reset with
    start := some 0, clock := 1000000000, evr := { running := true }, flt := { windows := [{ count := 1 }] }
    inp := { hrin := [{ calFrom := some 0 }], calQueue := [0, strayChannel] } }
  ((s.raise F.EVR_STAT_FULL).raise F.FAB_INJ_ARM).raise F.FAB_INJ_WRITE

/-- Channel 0 with its calibration ended, whose correction is out of range: the two flags are set and the failure is reported (R132). -/
def stateOfReportedFailure : State :=
  let s := stateOfStrayChannel.atTime 0
  let s := s.setHrin 0 { s.hrin 0 with calAt := some s.now, calFrom := none }
  ((s.raise F.HRA_STAT_CALFAIL).raise (F.HRA_CSTAT_CALFAIL 0)).event 0x2301 (hraPlace 0)

/-- Before the report no error is counted, so the stray entry reads as not enabled. -/
theorem strayChannel_off_before : stateOfStrayChannel.flag (F.HRA_CFG_EN strayChannel) = false := by decide +kernel

/-- The report has met the injected error, so the stray entry reads as enabled. -/
theorem strayChannel_on_after : stateOfReportedFailure.flag (F.HRA_CFG_EN strayChannel) = true := by decide +kernel

/-- The end of the calibration with a gain out of range: the rotation goes on in the state after the report. -/
theorem calComplete_strayChannel :
    (stateOfStrayChannel.atTime 0).calComplete 0 5001 0 = stateOfReportedFailure.calVisit [strayChannel] := by decide +kernel

/-- HRIN_CAL_COMPLETE with a gain out of range reports the failure, and the rotation goes on in the state after the report. -/
theorem exec_hrinCalComplete_strayChannel :
    exec (.hrinCalComplete 0 0 5001 0) stateOfStrayChannel = .next (stateOfReportedFailure.calVisit [strayChannel]) := by
  rw [exec_hrinCalComplete]
  exact congrArg _ calComplete_strayChannel

end Sys2Proof.Machine

/-- Refutes O33: the clause of a failed calibration takes the EN bits of the entries still to visit as they were before the command, but the model takes
them after the report of the failure (R132), and the statement admits entries of any number. With an entry whose HRA_CFG address is FAB_PCNT, a report
that meets an injected error changes that bit: the statement's queue is empty, the model's holds the entry. -/
theorem not_inputs : ¬ Obligations.Inputs := by
  rintro ⟨hhighRate, -⟩
  obtain ⟨-, -, hcomplete, -⟩ := hhighRate stateOfStrayChannel 0 0 0 0 { vin := 0 } 5001 0 [strayChannel] (by decide)
  obtain ⟨-, hfails⟩ := hcomplete 0 rfl rfl (by decide +kernel) rfl (by decide +kernel)
  obtain ⟨s', hexec, -, -, -, hqueue⟩ := hfails (.inl (by decide))
  obtain rfl : stateOfReportedFailure.calVisit [strayChannel] = s' := by
    rw [exec_hrinCalComplete_strayChannel] at hexec
    exact Host.Outcome.next.inj hexec
  have hmodel : (stateOfReportedFailure.calVisit [strayChannel]).inp.calQueue = [strayChannel] := by
    simp [calVisit_calQueue, strayChannel_on_after]
  have hstated : [strayChannel].dropWhile (fun k => !stateOfStrayChannel.flag (F.HRA_CFG_EN k)) = [] := by
    simp [strayChannel_off_before]
  rw [hmodel, hstated] at hqueue
  exact absurd hqueue (by simp)

end
